-- ==== Sys2Proof/Word.lean ====
section
/-!
DEFINITION. The word types of the module and their plainest arithmetic (spec R3, R7, R12, R58, R90).
-/
namespace Sys2Proof

/-- A 64-bit general or address register, or an instruction word. -/
abbrev Word := BitVec 64
/-- One byte. -/
abbrev Byte := BitVec 8
/-- A 512-bit vector register. -/
abbrev Vec := BitVec 512
/-- A 128-bit mask register. -/
abbrev MaskWord := BitVec 128
/-- A W80 accumulator cell (R90). -/
abbrev W80 := BitVec 80

/-- A w-bit value widened to 64 bits by copying its top bit (R12 `sign_extend`). -/
abbrev sext64 {n : Nat} (x : BitVec n) : Word := x.signExtend 64
/-- A w-bit value widened to 64 bits with zeros (R12 `zero_extend`). -/
abbrev zext64 {n : Nat} (x : BitVec n) : Word := x.setWidth 64

end Sys2Proof
end

