-- ==== Sys2Proof/Config.lean ====
section
/-!
DEFINITION. What an implementation fixes and the spec leaves open: the free values (log entry 3). None has a body, so no proof can
see a value. A natural-number argument is the state's counter of free values, so that each use is fresh.
-/
namespace Sys2Proof.Config
open Sys2Proof

/-- How many cycles of the arithmetic clock a step takes (R13: latencies bind nothing). -/
opaque stepCycles : Nat → Nat
/-- How many nanoseconds of the global time base a step takes. -/
opaque stepNs : Nat → Nat
/-- The flits of each kind, by C3 counter, that an access of some bytes takes (R30, R402), whose heads R30 does not give: by the step, the
counter and the bytes. -/
opaque flits : Nat → Nat → Nat → Nat
/-- How many messages a network interface has encrypted to other tiles since its last sealed line (R361). -/
opaque tileMessages : Nat → Nat → Nat
/-- What a step adds to a tile's counter of corrected errors or of energy (R402, R403): by the step, the tile and the counter. -/
opaque counterTick : Nat → Nat → Nat → Nat
/-- The sender a mailbox log names for an arrival from another module (R396). -/
opaque farSender : Nat → Nat
/-- Which of the two fp32 neighbours of an inexact special function VSF returns (R189): a function of the function and the input. -/
opaque vsfUpper : Nat → BitVec 32 → Bool
/-- The bytes a member's destination holds after a mismatched collective (R266). -/
opaque freeByte : Nat → Nat → Byte
/-- Which of a command's own rows an overlapped destination byte comes from (R261): by the command's number and the byte's address. -/
opaque overlap : Nat → Nat → Nat
/-- Varpen's version, TVER (R348). -/
opaque tver : Nat
/-- Where the translator places a new version's header and link table in the code heap, as an offset (R347, R348). -/
opaque heapPlace : Nat → Nat
/-- SHA-512 of a byte string, as a number and as its 64 bytes. -/
opaque hash : List Byte → BitVec 512
def sha512 (l : List Byte) : List Byte := (List.range 64).map (fun i => (hash l).extractLsb' (8 * i) 8)
/-- HMAC-SHA-512 under the module's seal key, truncated to its first 16 bytes (R348), as a number and as those bytes. -/
opaque hmac : List Byte → BitVec 128
def sealTag (l : List Byte) : List Byte := (List.range 16).map (fun i => (hmac l).extractLsb' (8 * i) 8)
/-- Whether an ECDSA P-521 signature verifies: key, message, signature. -/
opaque verify : List Byte → List Byte → List Byte → Bool
/-- The module's own ECDSA P-521 signature, 132 bytes (R384). -/
opaque sign : List Byte → List Byte
/-- AES-256-GCM sealing: key, nonce, additional data, plaintext; the ciphertext followed by the 16-byte tag. -/
opaque aeadSeal : List Byte → List Byte → List Byte → List Byte → List Byte
/-- AES-256-GCM opening; none when the tag does not verify. -/
opaque aeadOpen : List Byte → List Byte → List Byte → List Byte → Option (List Byte)
/-- Keys that HKDF or an SPDM exchange derives: the secret and the info string. -/
opaque derive : List Byte → List Byte → List Byte
/-- Fresh random bytes of the key store (nonces, ephemeral keys). -/
opaque random : Nat → Nat → List Byte
/-- The route and tag of a stashed flit, by its sender and its address (R395). -/
opaque flitHead : Nat → Nat → BitVec 64
/-- The answer of the SPDM responder to a request (R373): the request's code and what the answer depends on. -/
opaque spdmReply : Nat → List Byte → List Byte
/-- The transcript of the exchange that made a session's secret, which the requester signs at FINISH (R373). -/
opaque transcript : List Byte → List Byte
/-- What an SPDM message asks (R373): its request code, the session it names, the requester's key and its nonce; none for bytes that are
no message of the parts the module implements. -/
opaque spdmRequest : List Byte → Option (Nat × Nat × List Byte × List Byte)
/-- The firmware key Sheavo signs images with, and the module's certificate chain (R384, R436). -/
opaque firmwareKey : List Byte
/-- The SHA-512 of that key in the boot ROM (R436). -/
opaque firmwareKeyHash : List Byte
opaque certChain : List Byte
/-- The identity key of another module by its certificate chain; none when the chain does not verify to the root (R385). -/
opaque chainKey : List Byte → Option (List Byte)
/-- The public key of an ephemeral private key, and the shared secret of a private and a public key on P-521 (R385). -/
opaque publicKey : List Byte → List Byte
opaque sharedSecret : List Byte → List Byte → List Byte
/-- Whether 133 bytes are a point of P-521 (R378). -/
opaque onCurve : List Byte → Bool
/-- How many more clusters than one the power manager lowers after a measurement beyond a limit, and the clock it raises a cluster to
within the limits (R442). -/
opaque clocksLowered : Nat → Nat
opaque clockRaise : Nat → Nat → Nat

/-- Whether the circuit switch moves a lane's circuit at a reconfiguration that arrives through the command ring (R432): a free value, by a
fresh index, the fibre pair and the lane. -/
opaque laneMoved : Nat → Nat → Nat → Bool

end Sys2Proof.Config
end

