-- ==== Sys2Proof/Operand.lean ====
section
/-!
DEFINITION. The operand codes of the instruction word and one operand shape per instruction layout (spec 06, spec 09, spec 10,
spec 12, spec 13, spec 16). `Sys2Proof.Instr` (Syntax.lean) builds each instruction from one of these shapes.
-/
namespace Sys2Proof

/-! ## Operand codes -/

/-- A general register g0–g31. -/
abbrev GReg := BitVec 5
/-- An address register a0–a15. -/
abbrev AReg := BitVec 4
/-- A predicate register p0–p7. -/
abbrev PReg := BitVec 3
/-- A mask register w0–w7. -/
abbrev WReg := BitVec 3
/-- A vector register v0–v31. -/
abbrev VReg := BitVec 5
/-- A ring register m0–m7. -/
abbrev Ring := BitVec 3

/-- The guard of an instruction: gs and gp (R108, R110). -/
structure Guard where
  gs : Bool
  gp : PReg
  deriving DecidableEq, Repr

/-- Unguarded: gs = 0, gp = 0. -/
def Guard.always : Guard := ⟨false, 0⟩

/-- The format codes of R80. -/
inductive Fmt where
  | raw | i8 | n8 | i16 | n16 | i32 | n32 | i64 | n64 | fp4 | e4m3 | e5m2 | bf16 | fp16 | fp32 | fp64
  deriving DecidableEq, Repr

/-- The rounding modes of R91; code 7 has no constructor because it is illegal. -/
inductive Rm where
  | rne | rtz | rdn | rup | rna | rsr | dyn
  deriving DecidableEq, Repr

/-- The scopes of R114. -/
inductive Scope where
  | self | tile | cluster | die | module | host | domain | fabric | system
  deriving DecidableEq, Repr

/-- The orderings of R114. -/
inductive Ord where
  | rlx | acq | rel | ar
  deriving DecidableEq, Repr

/-- The access sizes of R118. -/
inductive Asz where
  | b | h | w | d | q | f | v
  deriving DecidableEq, Repr

/-- The index scales of R118: ×1, ×element size, ×8, ×64. -/
inductive Isc where
  | one | elem | eight | sixtyFour
  deriving DecidableEq, Repr

/-- A kind-tagged vector source (R112). -/
inductive Src where
  | v (r : VReg)
  | g (r : GReg)
  | k (n : BitVec 6)
  | i (n : BitVec 6)
  deriving DecidableEq, Repr

/-! ## Operand shapes of the S format (R116, R153, R206, R211, R250, R272, R276) -/

structure OpN where
  q : Guard
  deriving DecidableEq, Repr
structure OpGGG where
  q : Guard
  d : GReg
  a : GReg
  b : GReg
  deriving DecidableEq, Repr
structure OpGG where
  q : Guard
  d : GReg
  a : GReg
  deriving DecidableEq, Repr
structure OpGGI where
  q : Guard
  d : GReg
  a : GReg
  imm : BitVec 20
  deriving DecidableEq, Repr
structure OpGGSh where
  q : Guard
  d : GReg
  a : GReg
  n : BitVec 6
  deriving DecidableEq, Repr
structure OpGI where
  q : Guard
  d : GReg
  imm : BitVec 20
  deriving DecidableEq, Repr
structure OpPGG where
  q : Guard
  d : PReg
  a : GReg
  b : GReg
  deriving DecidableEq, Repr
structure OpPGI where
  q : Guard
  d : PReg
  a : GReg
  imm : BitVec 20
  deriving DecidableEq, Repr
structure OpPGBit where
  q : Guard
  d : PReg
  a : GReg
  bit : BitVec 6
  deriving DecidableEq, Repr
structure OpPPP where
  q : Guard
  d : PReg
  a : PReg
  b : PReg
  deriving DecidableEq, Repr
structure OpPP where
  q : Guard
  d : PReg
  a : PReg
  deriving DecidableEq, Repr
/-- EXT, EXTN and INS: position and length (R162). -/
structure OpField where
  q : Guard
  d : GReg
  a : GReg
  pos : BitVec 6
  len : BitVec 7
  deriving DecidableEq, Repr
structure OpSel where
  q : Guard
  d : GReg
  a : GReg
  b : GReg
  p : PReg
  deriving DecidableEq, Repr
structure OpGP where
  q : Guard
  d : GReg
  p : PReg
  deriving DecidableEq, Repr
structure OpPG where
  q : Guard
  d : PReg
  a : GReg
  deriving DecidableEq, Repr
structure OpAAG where
  q : Guard
  d : AReg
  a : AReg
  b : GReg
  deriving DecidableEq, Repr
structure OpAAI where
  q : Guard
  d : AReg
  a : AReg
  imm : BitVec 20
  deriving DecidableEq, Repr
structure OpAA where
  q : Guard
  d : AReg
  a : AReg
  deriving DecidableEq, Repr
/-- AFROM: extent index, fmt and blog (R165). -/
structure OpAFrom where
  q : Guard
  d : AReg
  a : GReg
  ext : BitVec 5
  fmt : Fmt
  blog : BitVec 3
  deriving DecidableEq, Repr
structure OpAToG where
  q : Guard
  d : GReg
  a : AReg
  ext : BitVec 5
  deriving DecidableEq, Repr
structure OpAFmt where
  q : Guard
  d : AReg
  a : AReg
  fmt : Fmt
  blog : BitVec 3
  deriving DecidableEq, Repr
structure OpGAA where
  q : Guard
  d : GReg
  a : AReg
  b : AReg
  deriving DecidableEq, Repr
structure OpPAA where
  q : Guard
  d : PReg
  a : AReg
  b : AReg
  deriving DecidableEq, Repr
/-- BCHK: extent index and rights required (R168). -/
structure OpChk where
  q : Guard
  a : AReg
  b : GReg
  ext : BitVec 5
  need : BitVec 4
  deriving DecidableEq, Repr
/-- BCHKI: as BCHK with a length (R168). -/
structure OpChkI where
  q : Guard
  a : AReg
  b : GReg
  ext : BitVec 5
  need : BitVec 4
  len : BitVec 11
  deriving DecidableEq, Repr
/-- SCFG: slot, direction, base (R206). -/
structure OpScfg where
  q : Guard
  a : AReg
  slot : BitVec 2
  push : Bool
  deriving DecidableEq, Repr
structure OpSdim where
  q : Guard
  bound : GReg
  stride : GReg
  slot : BitVec 2
  dim : BitVec 2
  deriving DecidableEq, Repr
structure OpSlot where
  q : Guard
  slot : BitVec 2
  deriving DecidableEq, Repr
/-- REP: it is never guarded (R110, R211). -/
structure OpRep where
  cnt : GReg
  lenM1 : BitVec 4
  stag : BitVec 4
  icnt : BitVec 12
  deriving DecidableEq, Repr
structure OpFence where
  q : Guard
  sco : Scope
  deriving DecidableEq, Repr
structure OpEpoch where
  q : Guard
  e : BitVec 8
  deriving DecidableEq, Repr
structure OpXwait where
  q : Guard
  d : PReg
  a : GReg
  e : BitVec 8
  deriving DecidableEq, Repr
structure OpA where
  q : Guard
  a : AReg
  deriving DecidableEq, Repr
structure OpG where
  q : Guard
  a : GReg
  deriving DecidableEq, Repr
structure OpHint where
  q : Guard
  h : BitVec 2
  deriving DecidableEq, Repr
structure OpLevel where
  q : Guard
  lv : BitVec 3
  deriving DecidableEq, Repr
structure OpBarw where
  q : Guard
  d : PReg
  a : GReg
  lv : BitVec 3
  deriving DecidableEq, Repr
structure OpSstep where
  q : Guard
  d : GReg
  lv : BitVec 3
  deriving DecidableEq, Repr
structure OpSrr where
  q : Guard
  d : GReg
  idx : BitVec 12
  deriving DecidableEq, Repr
structure OpSrw where
  q : Guard
  a : GReg
  idx : BitVec 12
  deriving DecidableEq, Repr
structure OpTrap where
  q : Guard
  a : GReg
  code : BitVec 8
  deriving DecidableEq, Repr
structure OpTret where
  q : Guard
  mode : Bool
  deriving DecidableEq, Repr
structure OpBrk where
  q : Guard
  n : BitVec 20
  deriving DecidableEq, Repr

/-! ## Shapes of the B and L formats (R119, R120) -/

structure OpBr where
  q : Guard
  off : BitVec 32
  deriving DecidableEq, Repr
structure OpBrl where
  q : Guard
  ln : AReg
  off : BitVec 32
  deriving DecidableEq, Repr
structure OpJr where
  q : Guard
  tr : AReg
  off : BitVec 32
  deriving DecidableEq, Repr
structure OpJrl where
  q : Guard
  ln : AReg
  tr : AReg
  off : BitVec 32
  deriving DecidableEq, Repr
/-- LOOP: never guarded (R110). -/
structure OpLoop where
  cnt : GReg
  lv : BitVec 2
  len : BitVec 8
  deriving DecidableEq, Repr
/-- LOOPI: never guarded (R110). -/
structure OpLoopI where
  lv : BitVec 2
  len : BitVec 8
  icnt : BitVec 28
  deriving DecidableEq, Repr
structure OpLbrk where
  q : Guard
  lv : BitVec 2
  deriving DecidableEq, Repr

/-! ## Shapes of the V format (R117) -/

/-- One source. -/
structure OpV1 where
  q : Guard
  d : VReg
  a : Src
  et : Fmt
  rm : Rm
  wm : WReg
  deriving DecidableEq, Repr
/-- Two sources. -/
structure OpV2 where
  q : Guard
  d : VReg
  a : Src
  b : Src
  et : Fmt
  rm : Rm
  wm : WReg
  deriving DecidableEq, Repr
/-- Three sources. -/
structure OpV3 where
  q : Guard
  d : VReg
  a : Src
  b : Src
  c : Src
  et : Fmt
  rm : Rm
  wm : WReg
  deriving DecidableEq, Repr
/-- Two sources and a mask destination: VCMP*, VMATCH. -/
structure OpWV2 where
  q : Guard
  d : WReg
  a : Src
  b : Src
  et : Fmt
  wm : WReg
  deriving DecidableEq, Repr
structure OpWWW where
  q : Guard
  d : WReg
  a : WReg
  b : WReg
  deriving DecidableEq, Repr
structure OpWW where
  q : Guard
  d : WReg
  a : WReg
  deriving DecidableEq, Repr
/-- VSCAN: one source and the operation selector (R192). -/
structure OpScan where
  q : Guard
  d : VReg
  a : Src
  et : Fmt
  rm : Rm
  wm : WReg
  op : BitVec 2
  deriving DecidableEq, Repr
/-- The three modes of VEXTR with the sources each uses (R194). -/
inductive ExtrMode where
  | lane (a b : Src)
  | count
  | first
  deriving DecidableEq, Repr
structure OpExtr where
  q : Guard
  d : GReg
  mode : ExtrMode
  et : Fmt
  wm : WReg
  deriving DecidableEq, Repr
/-- VINSR: a g source and a lane index (R193). -/
structure OpInsr where
  q : Guard
  d : VReg
  a : GReg
  b : Src
  et : Fmt
  deriving DecidableEq, Repr
/-- VCVT: source format and part (R198). -/
structure OpCvt where
  q : Guard
  d : VReg
  a : Src
  part : BitVec 6
  et : Fmt
  src : Fmt
  rm : Rm
  wm : WReg
  deriving DecidableEq, Repr
/-- VQUANT and VDEQ: fp4 names the g register of the band scale; the MX form names none (R199, R200). -/
inductive QuantFmt where
  | fp4 (band : GReg)
  | mx
  deriving DecidableEq, Repr
structure OpQuant where
  q : Guard
  d : VReg
  a : Src
  fmt : QuantFmt
  rm : Rm
  deriving DecidableEq, Repr
structure OpPack where
  q : Guard
  d : VReg
  a : Src
  b : Src
  et : Fmt
  sat : Bool
  deriving DecidableEq, Repr
structure OpUnpack where
  q : Guard
  d : VReg
  a : Src
  half : Bool
  et : Fmt
  deriving DecidableEq, Repr
/-- KSEND (R254). -/
structure OpKsend where
  q : Guard
  keys : VReg
  b : Src
  et : Fmt
  wm : WReg
  deriving DecidableEq, Repr

/-! ## Shapes of the M format (R118) -/

/-- The address part of an M-format instruction; `ix = 0` means no index. -/
structure MemOp where
  ab : AReg
  ix : GReg
  isc : Isc
  off : BitVec 13
  deriving DecidableEq, Repr
/-- The data register of LD: a g register, or an a register (R244). -/
inductive LdDst where
  | g (r : GReg)
  | a (r : AReg)
  deriving DecidableEq, Repr
structure OpLd where
  q : Guard
  d : LdDst
  m : MemOp
  asz : Asz
  ord : Ord
  sco : Scope
  ext : Bool
  deriving DecidableEq, Repr
structure OpSt where
  q : Guard
  d : GReg
  m : MemOp
  asz : Asz
  ord : Ord
  sco : Scope
  deriving DecidableEq, Repr
/-- LDS and AMO: a g register, size, ordering and extension. -/
structure OpMemG where
  q : Guard
  d : GReg
  m : MemOp
  asz : Asz
  ord : Ord
  sco : Scope
  ext : Bool
  deriving DecidableEq, Repr
/-- FESET and FECLR. -/
structure OpFe where
  q : Guard
  m : MemOp
  ord : Ord
  sco : Scope
  deriving DecidableEq, Repr
structure OpFepoll where
  q : Guard
  d : PReg
  m : MemOp
  ord : Ord
  sco : Scope
  deriving DecidableEq, Repr
/-- QPUSH, QPOP, QPOPW, QCNT: base and index only (off13 is zero, R252). -/
structure OpQue where
  q : Guard
  d : GReg
  ab : AReg
  ix : GReg
  isc : Isc
  sco : Scope
  deriving DecidableEq, Repr
structure OpQtry where
  q : Guard
  d : GReg
  pn : PReg
  ab : AReg
  ix : GReg
  isc : Isc
  sco : Scope
  deriving DecidableEq, Repr
/-- VLD, VST, VLDS, VSTS, VGATH, VSCAT (R202). -/
structure OpVmem where
  q : Guard
  d : VReg
  m : MemOp
  asz : Asz
  ord : Ord
  sco : Scope
  deriving DecidableEq, Repr
/-- VLDK: a constant-bank entry (R205). -/
structure OpVldk where
  q : Guard
  n : BitVec 6
  m : MemOp
  deriving DecidableEq, Repr
/-- The destination of WLD: a g register for b to d, a v register for q to v (R268). -/
inductive WldDst where
  | g (r : GReg) (ext : Bool)
  | v (r : VReg)
  deriving DecidableEq, Repr
structure OpWld where
  q : Guard
  d : WldDst
  m : MemOp
  asz : Asz
  nowait : Bool
  deriving DecidableEq, Repr
structure OpIwin where
  q : Guard
  d : GReg
  m : MemOp
  deriving DecidableEq, Repr

/-! ## Shapes of the X and R formats (R121, R122) -/

/-- CPY and CPYW (R259). -/
structure OpCpy where
  q : Guard
  d : GReg
  dst : AReg
  src : AReg
  len : GReg
  deriving DecidableEq, Repr
/-- CPY2 (R259). -/
structure OpCpy2 where
  q : Guard
  d : GReg
  dst : AReg
  src : AReg
  len : GReg
  rows : GReg
  sstr : GReg
  dstr : GReg
  deriving DecidableEq, Repr
/-- The kinds of a collective (R264). -/
inductive CollKind where
  | allred | red | bcast | gather | redsc | fw
  deriving DecidableEq, Repr
/-- The operations of a collective (R264). -/
inductive CollOp where
  | add | min | max | or
  deriving DecidableEq, Repr
structure OpColl where
  q : Guard
  d : GReg
  dst : AReg
  src : AReg
  cnt : GReg
  kind : CollKind
  op : CollOp
  level : BitVec 3
  root : BitVec 16
  deriving DecidableEq, Repr
structure OpRing where
  q : Guard
  m : Ring
  g : GReg
  deriving DecidableEq, Repr
structure OpRget where
  q : Guard
  d : GReg
  m : Ring
  sel : BitVec 3
  deriving DecidableEq, Repr
/-- RADV (`far` is `.tail`) and RWAIT (`far` is `.free`) (R304). -/
structure OpRadv where
  q : Guard
  m : Ring
  n : BitVec 7
  far : Bool
  deriving DecidableEq, Repr
structure OpRquant where
  q : Guard
  d : GReg
  m : Ring
  src : AReg
  band : GReg
  str : GReg
  fixed : Bool
  rm : Rm
  deriving DecidableEq, Repr
structure OpRfill where
  q : Guard
  d : GReg
  m : Ring
  src : AReg
  width : GReg
  str : GReg
  deriving DecidableEq, Repr
structure OpMma where
  q : Guard
  c : Bool
  ma : Ring
  mb : Ring
  deriving DecidableEq, Repr
structure OpMmaf where
  q : Guard
  c : Bool
  ma : Ring
  mb : Ring
  fov : Fmt
  deriving DecidableEq, Repr
/-- The semirings of MSR (R105, R121). -/
inductive Semiring where
  | minPlus | maxTimes | orAnd
  deriving DecidableEq, Repr
structure OpMsr where
  q : Guard
  c : Bool
  ma : Ring
  mb : Ring
  ring : Semiring
  fov : Fmt
  deriving DecidableEq, Repr
/-- The values MZERO writes (R316). -/
inductive ZeroVal where
  | zero | pinf | ninf
  deriving DecidableEq, Repr
structure OpMzero where
  q : Guard
  c : Bool
  val : ZeroVal
  deriving DecidableEq, Repr
structure OpMverd where
  q : Guard
  c : Bool
  d : GReg
  deriving DecidableEq, Repr
structure OpMstat where
  q : Guard
  c : Bool
  d : GReg
  sel : BitVec 2
  deriving DecidableEq, Repr
/-- The element formats of MDRAIN and MLOAD (R329). -/
inductive AccFmt where
  | w80 | bf16 | fp16 | fp32
  deriving DecidableEq, Repr
/-- The two modes of MDRAIN (R329). -/
inductive DrainMode where
  | mem (dst : AReg) (str : GReg)
  | vec (vd : VReg) (row : BitVec 6) (part : BitVec 3)
  deriving DecidableEq, Repr
structure OpMdrain where
  q : Guard
  c : Bool
  fov : AccFmt
  rm : Rm
  mode : DrainMode
  deriving DecidableEq, Repr
structure OpMload where
  q : Guard
  c : Bool
  fov : AccFmt
  src : AReg
  str : GReg
  deriving DecidableEq, Repr

end Sys2Proof
end

