-- ==== Sys2Proof/Event.lean ====
section
/-!
DEFINITION. The operands of the machine steps and events of the opcode table (spec 95): which agent, access or command a step
takes, and what the surroundings (the host, the peer modules, the sensors, Varpen's own output) hand to it.
-/
namespace Sys2Proof

/-- An issuing processor (R20, R219): a tile's main or stage core by LCID, a cluster's collective engine, a translator core of the
trust tile, or the management controller. -/
inductive ProcId where
  | main (lcid : Nat)
  | stage (lcid : Nat)
  | coll (cluster : Nat)
  | trust (n : Nat)
  | mgmt
  deriving DecidableEq, Repr

/-- A step that names no operand. -/
structure EvNone where
  deriving DecidableEq, Repr
/-- A step of one processor. -/
structure EvProc where
  p : ProcId
  deriving DecidableEq, Repr
/-- A step on the `i`-th issued access of a processor. -/
structure EvAcc where
  p : ProcId
  i : Nat
  deriving DecidableEq, Repr
/-- A step on the `k`-th remaining piece of the `i`-th issued access. -/
structure EvPiece where
  p : ProcId
  i : Nat
  k : Nat
  deriving DecidableEq, Repr
/-- What a LOAD step reads: a piece of the processor's pending read, a piece of the `j`-th read of a processor that does not hold
(R446), or a piece of the vector that is `ahead` pops away in a pop stream (R209). -/
inductive ReadSel where
  | piece (k : Nat)
  | late (j k : Nat)
  | stream (slot : BitVec 2) (ahead : Nat) (k : Nat)
  deriving DecidableEq, Repr
structure EvLoad where
  p : ProcId
  sel : ReadSel
  deriving DecidableEq, Repr
/-- A step on the `k`-th remaining piece or unit of command `h`. -/
structure EvCmdPiece where
  p : ProcId
  h : BitVec 16
  k : Nat
  deriving DecidableEq, Repr
structure EvCmd where
  p : ProcId
  h : BitVec 16
  deriving DecidableEq, Repr
/-- The fault an engine meets: its code and the failing address (R231, R263). -/
structure EvCmdFault where
  p : ProcId
  h : BitVec 16
  code : BitVec 8
  addr : Nat
  deriving DecidableEq, Repr
structure EvTile where
  lcid : Nat
  deriving DecidableEq, Repr
/-- The `k`-th 32 B piece of a refetch (R322). -/
structure EvTilePiece where
  lcid : Nat
  k : Nat
  deriving DecidableEq, Repr
structure EvTileLevel where
  lcid : Nat
  level : Nat
  deriving DecidableEq, Repr
structure EvRing where
  lcid : Nat
  m : Ring
  deriving DecidableEq, Repr
structure EvMarker where
  peer : Nat
  epoch : BitVec 8
  deriving DecidableEq, Repr
/-- The `i`-th continuation of a tile's store. -/
structure EvCont where
  lcid : Nat
  i : Nat
  deriving DecidableEq, Repr
/-- The `i`-th migration message in flight. -/
structure EvIdx where
  i : Nat
  deriving DecidableEq, Repr
structure EvTeam where
  team : Nat
  deriving DecidableEq, Repr
structure EvCluster where
  cl : Nat
  deriving DecidableEq, Repr
/-- A weight-store bank group of a die (R29). -/
structure EvBank where
  die : Nat
  grp : Nat
  deriving DecidableEq, Repr
/-- What Varpen finishes: a function of TEXT, by its link index, the stage program or the collective firmware. -/
inductive CodePart where
  | text (link : Nat)
  | stage
  | coll
  deriving DecidableEq, Repr
/-- A publication: the object, the version by its base, and the part. -/
structure EvPublish where
  objid : Nat
  base : Nat
  part : CodePart
  deriving DecidableEq, Repr
/-- A version that Varpen translates anew from profiles (R346): the object, and the version by its base. -/
structure EvVersion where
  objid : Nat
  base : Nat
  deriving DecidableEq, Repr
/-- A doorbell write (R367). -/
structure EvDoorbell where
  value : Word
  deriving DecidableEq, Repr
/-- An SPDM message (R373): the session it concerns, the requester's key and its nonce; for FINISH, the requester's signature. -/
structure EvSpdm where
  sid : Nat
  key : List Byte
  nonce : List Byte
  deriving DecidableEq, Repr

/-! ## Host commands (R374–R383); `sid` is the session the command comes in, 0 the operator's -/

structure CmdTag where
  sid : Nat
  tag : Nat
  deriving DecidableEq, Repr
structure CmdAdmit where
  sid : Nat
  tag : Nat
  bytes : List Byte
  deriving DecidableEq, Repr
structure CmdObj where
  sid : Nat
  tag : Nat
  objid : Nat
  deriving DecidableEq, Repr
structure CmdCreate where
  sid : Nat
  tag : Nat
  key : List Byte
  deriving DecidableEq, Repr
/-- A grant entry of SET_EXTENTS (R379). -/
structure GrantEntry where
  kind : BitVec 8
  die : BitVec 8
  first : BitVec 32
  count : BitVec 32
  deriving DecidableEq, Repr
/-- An extent entry of SET_EXTENTS (R379). -/
structure ExtentEntry where
  index : BitVec 8
  rights : BitVec 8
  base : BitVec 64
  limit : BitVec 64
  deriving DecidableEq, Repr
structure CmdSetExtents where
  sid : Nat
  tag : Nat
  grants : List GrantEntry
  extents : List ExtentEntry
  deriving DecidableEq, Repr
structure CmdExtent where
  sid : Nat
  tag : Nat
  index : BitVec 8
  deriving DecidableEq, Repr
structure CmdMove where
  sid : Nat
  tag : Nat
  index : BitVec 8
  base : BitVec 64
  deriving DecidableEq, Repr
/-- The payload of LAUNCH_TEAM (R381). -/
structure CmdLaunch where
  sid : Nat
  tag : Nat
  objid : Nat
  teamno : Nat
  jobseed : Word
  flags : BitVec 32
  vigil : BitVec 8
  nbuf : Nat
  share : BitVec 16
  clusters : BitVec 64
  groups : List (BitVec 8)
  tcbx : BitVec 8
  scrx : BitVec 8
  trcx : BitVec 8
  tcboff : Word
  savebase : Word
  savelim : Word
  mods : BitVec 64
  almanac : Option (List Byte)
  bindings : List (BitVec 8 × Word)
  deriving DecidableEq, Repr
structure CmdTeam where
  sid : Nat
  tag : Nat
  team : Nat
  time : Nat
  deriving DecidableEq, Repr
/-- A granule or bank group whose zeroing ends (R400 step 5). -/
structure EvGranule where
  kind : Nat
  die : Nat
  index : Nat
  deriving DecidableEq, Repr
structure CmdCalendar where
  sid : Nat
  clmask : BitVec 64
  slots : List Nat
  msgmax : BitVec 8
  deriving DecidableEq, Repr
structure CmdRead where
  sid : Nat
  tag : Nat
  team : Nat
  mask : BitVec 8
  raddr : Word
  rlen : Word
  deriving DecidableEq, Repr
structure CmdAttest where
  sid : Nat
  tag : Nat
  nonce : List Byte
  raddr : Word
  rlen : Word
  deriving DecidableEq, Repr
/-- A migration command: its result buffers and, by reference, the item the other module signed (R383). -/
structure CmdMigrate where
  sid : Nat
  tag : Nat
  raddr : Word
  rlen : Word
  eaddr : Word
  elen : Word
  item : List Byte
  deriving DecidableEq, Repr
/-- The payload of FABRIC_CONFIG (R426). -/
structure CmdFabric where
  sid : Nat
  flags : BitVec 32
  portmap : List (BitVec 32)
  peers : List (BitVec 16)
  /-- The lanes, by fibre pair and number, whose circuits the circuit switch moves at the reconfiguration (R432): no part of the payload. -/
  moved : List (Nat × Nat)
  deriving DecidableEq, Repr

/-! ## Fabric, bring-up, power and monitor events -/

/-- A lane of a fibre pair, and how long after light returned it locked, in ns (R427). -/
structure EvLane where
  fibre : Nat
  lane : Nat
  ns : Nat
  deriving DecidableEq, Repr
structure EvPort where
  port : Nat
  deriving DecidableEq, Repr
/-- What a fabric flit carries to its destination module (R420, R422). -/
inductive FlitKind where
  | store (addr : Nat) (bytes : List Byte)
  /-- An atomic of `n` bytes: the operation in the order of the AMO instructions, its operand, and CAS's new value. -/
  | amo (op n addr value new : Nat)
  | marker (epoch : BitVec 8)
  /-- A key-routed update of a bin of a tile (R256). -/
  | key (lcid op bin : Nat) (value : BitVec 32)
  /-- A read of `n` bytes, which a flit with those bytes answers (R423). -/
  | read (addr n : Nat)
  /-- A negative acknowledgement of a message that a processor of this module sent to an address (R422, R423). -/
  | nack (p : ProcId) (addr : Nat)
  /-- The answer of a peer whose backstop has refused such a message: the BACKSTOP mark (R354, R364). -/
  | mark (p : ProcId) (addr : Nat)
  deriving DecidableEq, Repr
/-- A flit as it arrives: the port and its sequence number there, the module that sent it, the module it is for, the tenant tag and what
it carries (R420). -/
structure EvFlit where
  port : Nat
  seq : Nat
  src : Nat
  dst : Nat
  tag : Nat
  body : FlitKind
  deriving DecidableEq, Repr
structure EvPeer where
  peer : Nat
  n : Nat
  deriving DecidableEq, Repr
/-- The measured offsets of the far end's time base, and of the lowest connected module's, to the own base, in ns (R425). -/
structure EvTime where
  port : Nat
  far : Int
  offset : Int
  deriving DecidableEq, Repr
/-- A start message (R435), which the host sends while it holds the module in package reset. -/
structure EvStart where
  flags : BitVec 8
  imgaddr : Word
  imglen : Word
  deriving DecidableEq, Repr
/-- An attempt of a start's step: whether it passed (R438). -/
structure EvAttempt where
  ok : Bool
  deriving DecidableEq, Repr
/-- One attempt of a training step (R438, R439): whether its other steps passed, the data lanes that have no eye, the parameters found, the
training temperature in 0.125 °C, and the readings of every sensor next to the memory. -/
structure EvTrain where
  unit : Nat
  ok : Bool
  dead : List Nat
  params : List Byte
  temp : BitVec 16
  sensors : List (BitVec 16)
  deriving DecidableEq, Repr
/-- A die's training: whether the bridges passed and which of its logical tiles failed their self-test. -/
structure EvDie where
  die : Nat
  ok : Bool
  bad : List Nat
  deriving DecidableEq, Repr
structure EvDigest where
  ok : Bool
  digest : List Byte
  deriving DecidableEq, Repr
/-- The rail measurements (R441, R442): module and core-rail power in mW, core current in mA, and each cluster's attributed power. -/
structure EvRail where
  module : Nat
  core : Nat
  current : Nat
  power : List Nat
  deriving DecidableEq, Repr
structure EvTemp where
  cl : Nat
  temp : BitVec 16
  deriving DecidableEq, Repr
/-- The process ring oscillators' readings and the rail voltages they select, in mV (R441). -/
structure EvPower where
  ok : Bool
  mv : List Nat
  deriving DecidableEq, Repr

end Sys2Proof
end

