-- ==== Sys2Proof/Syntax.lean ====
section
/-!
DEFINITION. `Instr`: one constructor for every row of spec/opcode_table.json, in the table's order. A row whose operand shape is
an `Op…` is an instruction with an encoding (spec 06), but for `stageTend`, the meaning TEND's word has on a stage core (R282).
A row whose shape is an `Ev…` or a `Cmd…` is a step of the machine or an event of its surroundings (spec 95) and has none.
-/
namespace Sys2Proof

/-- The instructions and the machine steps. -/
inductive Instr where
  /-- ADD (R156). -/
  | add (x : OpGGG)
  /-- SUB (R156). -/
  | subG (x : OpGGG)
  /-- MUL (R156). -/
  | mul (x : OpGGG)
  /-- MULHI (R156). -/
  | mulhi (x : OpGGG)
  /-- MULHN (R156). -/
  | mulhn (x : OpGGG)
  /-- DIV (R157). -/
  | div (x : OpGGG)
  /-- DIVN (R157). -/
  | divn (x : OpGGG)
  /-- REM (R157). -/
  | remS (x : OpGGG)
  /-- REMN (R157). -/
  | remn (x : OpGGG)
  /-- AND (R156). -/
  | andG (x : OpGGG)
  /-- OR (R156). -/
  | orG (x : OpGGG)
  /-- XOR (R156). -/
  | xorG (x : OpGGG)
  /-- ANDN (R156). -/
  | andn (x : OpGGG)
  /-- ORN (R156). -/
  | orn (x : OpGGG)
  /-- SHL (R156). -/
  | shl (x : OpGGG)
  /-- SHR (R156). -/
  | shr (x : OpGGG)
  /-- SHRA (R156). -/
  | shra (x : OpGGG)
  /-- ROTL (R156). -/
  | rotl (x : OpGGG)
  /-- ROTR (R156). -/
  | rotr (x : OpGGG)
  /-- MIN (R156). -/
  | minS (x : OpGGG)
  /-- MINN (R156). -/
  | minn (x : OpGGG)
  /-- MAX (R156). -/
  | maxS (x : OpGGG)
  /-- MAXN (R156). -/
  | maxn (x : OpGGG)
  /-- CLZ (R156). -/
  | clz (x : OpGG)
  /-- CTZ (R156). -/
  | ctz (x : OpGG)
  /-- POPC (R156). -/
  | popc (x : OpGG)
  /-- BREV (R156). -/
  | brev (x : OpGG)
  /-- BSWAP (R156). -/
  | bswap (x : OpGG)
  /-- ADDI (R158). -/
  | addi (x : OpGGI)
  /-- MULI (R158). -/
  | muli (x : OpGGI)
  /-- ANDI (R158). -/
  | andi (x : OpGGI)
  /-- ORI (R158). -/
  | ori (x : OpGGI)
  /-- XORI (R158). -/
  | xori (x : OpGGI)
  /-- SHLI (R158). -/
  | shli (x : OpGGSh)
  /-- SHRI (R158). -/
  | shri (x : OpGGSh)
  /-- SHRAI (R158). -/
  | shrai (x : OpGGSh)
  /-- ROTLI (R158). -/
  | rotli (x : OpGGSh)
  /-- MINI (R158). -/
  | mini (x : OpGGI)
  /-- MAXI (R158). -/
  | maxi (x : OpGGI)
  /-- LI (R159). -/
  | li (x : OpGI)
  /-- LIH (R159). -/
  | lih (x : OpGGI)
  /-- CMPEQ (R160). -/
  | cmpeq (x : OpPGG)
  /-- CMPNE (R160). -/
  | cmpne (x : OpPGG)
  /-- CMPLT (R160). -/
  | cmplt (x : OpPGG)
  /-- CMPLE (R160). -/
  | cmple (x : OpPGG)
  /-- CMPLTN (R160). -/
  | cmpltn (x : OpPGG)
  /-- CMPLEN (R160). -/
  | cmplen (x : OpPGG)
  /-- CMPEQI (R160). -/
  | cmpeqi (x : OpPGI)
  /-- CMPLTI (R160). -/
  | cmplti (x : OpPGI)
  /-- TBIT (R160). -/
  | tbit (x : OpPGBit)
  /-- PAND (R161). -/
  | pand (x : OpPPP)
  /-- POR (R161). -/
  | por (x : OpPPP)
  /-- PXOR (R161). -/
  | pxor (x : OpPPP)
  /-- PANDN (R161). -/
  | pandn (x : OpPPP)
  /-- PMOV (R161). -/
  | pmov (x : OpPP)
  /-- EXT (R162). -/
  | extS (x : OpField)
  /-- EXTN (R162). -/
  | extn (x : OpField)
  /-- INS (R162). -/
  | ins (x : OpField)
  /-- SEL (R163). -/
  | sel (x : OpSel)
  /-- PTOG (R163). -/
  | ptog (x : OpGP)
  /-- GTOP (R163). -/
  | gtop (x : OpPG)
  /-- AADD (R164). -/
  | aadd (x : OpAAG)
  /-- AADDI (R164). -/
  | aaddi (x : OpAAI)
  /-- AMOV (R164). -/
  | amov (x : OpAA)
  /-- AFROM (R166). -/
  | afrom (x : OpAFrom)
  /-- ATOG (R166). -/
  | atog (x : OpAToG)
  /-- AFMT (R167). -/
  | afmt (x : OpAFmt)
  /-- ADIFF (R164). -/
  | adiff (x : OpGAA)
  /-- ACMPLT (R164). -/
  | acmplt (x : OpPAA)
  /-- BCHK (R168). -/
  | bchk (x : OpChk)
  /-- BCHKI (R168). -/
  | bchki (x : OpChkI)
  /-- BR (R171). -/
  | br (x : OpBr)
  /-- BRL (R171). -/
  | brl (x : OpBrl)
  /-- JR (R171). -/
  | jr (x : OpJr)
  /-- JRL (R171). -/
  | jrl (x : OpJrl)
  /-- LOOP (R174). -/
  | loop (x : OpLoop)
  /-- LOOPI (R174). -/
  | loopi (x : OpLoopI)
  /-- LBRK (R176). -/
  | lbrk (x : OpLbrk)
  /-- VADD (R183). -/
  | vadd (x : OpV2)
  /-- VSUB (R183). -/
  | vsub (x : OpV2)
  /-- VMUL (R183). -/
  | vmul (x : OpV2)
  /-- VFMA (R183). -/
  | vfma (x : OpV3)
  /-- VFMS (R183). -/
  | vfms (x : OpV3)
  /-- VFNMA (R183). -/
  | vfnma (x : OpV3)
  /-- VMIN (R183). -/
  | vmin (x : OpV2)
  /-- VMAX (R183). -/
  | vmax (x : OpV2)
  /-- VABS (R183). -/
  | vabs (x : OpV1)
  /-- VNEG (R183). -/
  | vneg (x : OpV1)
  /-- VDIV (R183). -/
  | vdiv (x : OpV2)
  /-- VSQRT (R183). -/
  | vsqrt (x : OpV1)
  /-- VSCL (R183). -/
  | vscl (x : OpV2)
  /-- VIADD (R184). -/
  | viadd (x : OpV2)
  /-- VISUB (R184). -/
  | visub (x : OpV2)
  /-- VIMUL (R184). -/
  | vimul (x : OpV2)
  /-- VIMULHI (R184). -/
  | vimulhi (x : OpV2)
  /-- VIMIN (R184). -/
  | vimin (x : OpV2)
  /-- VIMAX (R184). -/
  | vimax (x : OpV2)
  /-- VAND (R184). -/
  | vand (x : OpV2)
  /-- VOR (R184). -/
  | vor (x : OpV2)
  /-- VXOR (R184). -/
  | vxor (x : OpV2)
  /-- VSHL (R184). -/
  | vshl (x : OpV2)
  /-- VSHR (R184). -/
  | vshr (x : OpV2)
  /-- VSHRA (R184). -/
  | vshra (x : OpV2)
  /-- VPOPC (R184). -/
  | vpopc (x : OpV1)
  /-- VIADDS (R184). -/
  | viadds (x : OpV2)
  /-- VCMPEQ (R185). -/
  | vcmpeq (x : OpWV2)
  /-- VCMPLT (R185). -/
  | vcmplt (x : OpWV2)
  /-- VCMPLE (R185). -/
  | vcmple (x : OpWV2)
  /-- VCLASS (R186). -/
  | vclass (x : OpV1)
  /-- VSEL (R187). -/
  | vsel (x : OpV2)
  /-- WAND (R188). -/
  | wand (x : OpWWW)
  /-- WOR (R188). -/
  | wor (x : OpWWW)
  /-- WNOT (R188). -/
  | wnot (x : OpWW)
  /-- VEXP2 (R189). -/
  | vexp2 (x : OpV1)
  /-- VLOG2 (R189). -/
  | vlog2 (x : OpV1)
  /-- VRCP (R189). -/
  | vrcp (x : OpV1)
  /-- VRSQ (R189). -/
  | vrsq (x : OpV1)
  /-- VTANH (R189). -/
  | vtanh (x : OpV1)
  /-- VSIGM (R189). -/
  | vsigm (x : OpV1)
  /-- VRSUM (R191). -/
  | vrsum (x : OpV1)
  /-- VRMAX (R191). -/
  | vrmax (x : OpV1)
  /-- VRMIN (R191). -/
  | vrmin (x : OpV1)
  /-- VRDOT (R191). -/
  | vrdot (x : OpV2)
  /-- VSCAN (R192). -/
  | vscan (x : OpScan)
  /-- VMOV (R193). -/
  | vmov (x : OpV1)
  /-- VBCAST (R193). -/
  | vbcast (x : OpV2)
  /-- VSHUF (R193). -/
  | vshuf (x : OpV2)
  /-- VROT (R193). -/
  | vrot (x : OpV2)
  /-- VEXTR (R194). -/
  | vextr (x : OpExtr)
  /-- VINSR (R193). -/
  | vinsr (x : OpInsr)
  /-- VCOMPRESS (R195). -/
  | vcompress (x : OpV1)
  /-- VEXPAND (R195). -/
  | vexpand (x : OpV1)
  /-- VCSWAP (R196). -/
  | vcswap (x : OpV3)
  /-- VMATCH (R197). -/
  | vmatch (x : OpWV2)
  /-- VCVT (R198). -/
  | vcvt (x : OpCvt)
  /-- VQUANT (R199). -/
  | vquant (x : OpQuant)
  /-- VDEQ (R200). -/
  | vdeq (x : OpQuant)
  /-- VPACK (R201). -/
  | vpack (x : OpPack)
  /-- VUNPACK (R201). -/
  | vunpack (x : OpUnpack)
  /-- VLD (R205). -/
  | vld (x : OpVmem)
  /-- VST (R205). -/
  | vst (x : OpVmem)
  /-- VLDS (R203). -/
  | vlds (x : OpVmem)
  /-- VSTS (R203). -/
  | vsts (x : OpVmem)
  /-- VGATH (R203). -/
  | vgath (x : OpVmem)
  /-- VSCAT (R203). -/
  | vscat (x : OpVmem)
  /-- VLDK (R205). -/
  | vldk (x : OpVldk)
  /-- SCFG (R207). -/
  | scfg (x : OpScfg)
  /-- SDIM (R207). -/
  | sdim (x : OpSdim)
  /-- SON (R207). -/
  | son (x : OpSlot)
  /-- SOFF (R207). -/
  | soff (x : OpSlot)
  /-- SWAIT (R207). -/
  | swait (x : OpSlot)
  /-- REP (R212). -/
  | rep (x : OpRep)
  /-- REPW (R211). -/
  | repw (x : OpN)
  /-- REPEAT_PASS_ISSUE (R213). -/
  | repeatPassIssue (x : EvTile)
  /-- LD (R245). -/
  | ld (x : OpLd)
  /-- ST (R245). -/
  | st (x : OpSt)
  /-- LDS (R247). -/
  | lds (x : OpMemG)
  /-- FESET (R247). -/
  | feset (x : OpFe)
  /-- FECLR (R247). -/
  | feclr (x : OpFe)
  /-- FEPOLL (R247). -/
  | fepoll (x : OpFepoll)
  /-- AMOADD (R248). -/
  | amoadd (x : OpMemG)
  /-- AMOAND (R248). -/
  | amoand (x : OpMemG)
  /-- AMOOR (R248). -/
  | amoor (x : OpMemG)
  /-- AMOXOR (R248). -/
  | amoxor (x : OpMemG)
  /-- AMOMIN (R248). -/
  | amomin (x : OpMemG)
  /-- AMOMAX (R248). -/
  | amomax (x : OpMemG)
  /-- AMOMINN (R248). -/
  | amominn (x : OpMemG)
  /-- AMOMAXN (R248). -/
  | amomaxn (x : OpMemG)
  /-- AMOSWP (R248). -/
  | amoswp (x : OpMemG)
  /-- AMOCAS (R248). -/
  | amocas (x : OpMemG)
  /-- AMOFADD (R248). -/
  | amofadd (x : OpMemG)
  /-- AMOINC (R248). -/
  | amoinc (x : OpMemG)
  /-- FENCE (R225). -/
  | fence (x : OpFence)
  /-- FENCEE (R225). -/
  | fencee (x : OpFence)
  /-- QPUSH (R447). -/
  | qpush (x : OpQue)
  /-- QPOP (R253). -/
  | qpop (x : OpQue)
  /-- QPOPW (R253). -/
  | qpopw (x : OpQue)
  /-- QTRY (R253). -/
  | qtry (x : OpQtry)
  /-- QCNT (R253). -/
  | qcnt (x : OpQue)
  /-- KSEND (R256). -/
  | ksend (x : OpKsend)
  /-- KCFG (R255). -/
  | kcfg (x : OpG)
  /-- KFLUSH (R257). -/
  | kflush (x : OpN)
  /-- CPY (R260). -/
  | cpy (x : OpCpy)
  /-- CPY2 (R260). -/
  | cpy2 (x : OpCpy2)
  /-- CPYW (R260). -/
  | cpyw (x : OpCpy)
  /-- ESTAT (R262). -/
  | estat (x : OpGG)
  /-- EWAIT (R262). -/
  | ewait (x : OpGG)
  /-- COLL (R266). -/
  | coll (x : OpColl)
  /-- CSTAT (R267). -/
  | cstat (x : OpGG)
  /-- CWAIT (R267). -/
  | cwait (x : OpGG)
  /-- WLD (R269). -/
  | wld (x : OpWld)
  /-- IWIN (R270). -/
  | iwin (x : OpIwin)
  /-- XMARK (R273). -/
  | xmark (x : OpEpoch)
  /-- XWAIT (R274). -/
  | xwait (x : OpXwait)
  /-- XPEER (R275). -/
  | xpeer (x : OpGG)
  /-- TSPAWN (R278). -/
  | tspawn (x : OpA)
  /-- TDEC (R279). -/
  | tdec (x : OpA)
  /-- TEND (R281). -/
  | tend (x : OpN)
  /-- STAGE_TEND (R282). -/
  | stageTend (x : OpN)
  /-- TYIELD (R283). -/
  | tyield (x : OpN)
  /-- THINT (R284). -/
  | thint (x : OpHint)
  /-- BAR (R285). -/
  | bar (x : OpLevel)
  /-- BARW (R285). -/
  | barw (x : OpBarw)
  /-- SSTEP (R287). -/
  | sstep (x : OpSstep)
  /-- WFE (R290). -/
  | wfe (x : OpN)
  /-- WFED (R290). -/
  | wfed (x : OpPG)
  /-- SEV (R291). -/
  | sev (x : OpG)
  /-- GTIME (R293). -/
  | gtime (x : OpG)
  /-- SRR (R294). -/
  | srr (x : OpSrr)
  /-- SRW (R294). -/
  | srw (x : OpSrw)
  /-- TRAP (R295). -/
  | trapI (x : OpTrap)
  /-- TRET (R296). -/
  | tret (x : OpTret)
  /-- NOP (R297). -/
  | nop (x : OpN)
  /-- BRK (R295). -/
  | brk (x : OpBrk)
  /-- RCFG (R305). -/
  | rcfg (x : OpRing)
  /-- RTOL (R306). -/
  | rtol (x : OpRing)
  /-- RGET (R307). -/
  | rget (x : OpRget)
  /-- RADV (R308). -/
  | radv (x : OpRadv)
  /-- RWAIT (R309). -/
  | rwait (x : OpRadv)
  /-- RQUANT (R313). -/
  | rquant (x : OpRquant)
  /-- RFILL (R314). -/
  | rfill (x : OpRfill)
  /-- RFILLW (R314). -/
  | rfillw (x : OpRfill)
  /-- FILL_PUBLISH (R310). -/
  | fillPublish (x : EvRing)
  /-- MMA (R320). -/
  | mma (x : OpMma)
  /-- MMAF (R324). -/
  | mmaf (x : OpMmaf)
  /-- MSR (R325). -/
  | msr (x : OpMsr)
  /-- MZERO (R326). -/
  | mzero (x : OpMzero)
  /-- MVERD (R327). -/
  | mverd (x : OpMverd)
  /-- MSTAT (R328). -/
  | mstat (x : OpMstat)
  /-- MDRAIN (R330). -/
  | mdrain (x : OpMdrain)
  /-- MLOAD (R331). -/
  | mload (x : OpMload)
  /-- ANCHOR_REFETCH (R322). -/
  | anchorRefetch (x : EvTilePiece)
  /-- MMA_COMMIT (R321). -/
  | mmaCommit (x : EvTile)
  /-- LOAD (R220). -/
  | loadStep (x : EvLoad)
  /-- STORE (R220). -/
  | storeStep (x : EvPiece)
  /-- ACK (R220). -/
  | ackStep (x : EvAcc)
  /-- QUEUE_PUSH_STEP (R253). -/
  | queuePushStep (x : EvAcc)
  /-- QPUSH_RESEND (R447). -/
  | qpushResend (x : EvAcc)
  /-- QUEUE_POP_STEP (R233). -/
  | queuePopStep (x : EvProc)
  /-- SEV_SET (R233). -/
  | sevSet (x : EvAcc)
  /-- KSEND_DELIVERY (R256). -/
  | ksendDelivery (x : EvAcc)
  /-- ENGINE_READ (R230). -/
  | engineRead (x : EvCmdPiece)
  /-- ENGINE_WRITE (R230). -/
  | engineWrite (x : EvCmdPiece)
  /-- ENGINE_DONE (R231). -/
  | engineDone (x : EvCmd)
  /-- ENGINE_FAULT (R231). -/
  | engineFault (x : EvCmdFault)
  /-- GATE_ARRIVE (R235). -/
  | gateArrive (x : EvTileLevel)
  /-- GATE_DEPART (R235). -/
  | gateDepart (x : EvTileLevel)
  /-- BARRIER_COMPLETE (R285). -/
  | barrierComplete (x : EvTileLevel)
  /-- BARW_TIMEOUT (R286). -/
  | barwTimeout (x : EvProc)
  /-- WFED_TIMEOUT (R290). -/
  | wfedTimeout (x : EvProc)
  /-- XWAIT_TIMEOUT (R274). -/
  | xwaitTimeout (x : EvProc)
  /-- DRAIN_MARKER (R273). -/
  | drainMarker (x : EvMarker)
  /-- YIELD_TIMEOUT (R48). -/
  | yieldTimeout (x : EvTile)
  /-- CONTINUATION_READY (R448). -/
  | continuationReady (x : EvCont)
  /-- DISPATCH (R46). -/
  | dispatch (x : EvTile)
  /-- CONTINUATION_MIGRATE (R51). -/
  | continuationMigrate (x : EvTile)
  /-- MIGRATION_RETURN (R51). -/
  | migrationReturn (x : EvIdx)
  /-- PCNT_DECREMENT (R44). -/
  | pcntDecrement (x : EvAcc)
  /-- LAUNCH_ENTRY_ARRIVAL (R47). -/
  | launchEntryArrival (x : EvTeam)
  /-- STAGE_START (R334). -/
  | stageStart (x : EvTile)
  /-- CLOAD_REFRESH (R24). -/
  | cloadRefresh (x : EvCluster)
  /-- SLICE_BOUNDARY (R54). -/
  | sliceBoundary (x : EvCluster)
  /-- SOLSTICE_STOP (R394). -/
  | solsticeStop (x : EvTeam)
  /-- CONTEXT_SAVE (R395). -/
  | contextSave (x : EvTeam)
  /-- RESTORE (R397). -/
  | restore (x : EvTeam)
  /-- VIGIL_EXPIRY (R399). -/
  | vigilExpiry (x : EvTile)
  /-- INTERCALARY_WINDOW_END (R269). -/
  | intercalaryWindowEnd (x : EvBank)
  /-- TRANSLATION_PUBLISH (R347). -/
  | translationPublish (x : EvPublish)
  /-- RETRANSLATION (R346). -/
  | retranslation (x : EvVersion)
  /-- COUNTER_COPY (R404). -/
  | counterCopy (x : EvTile)
  /-- COUNTER_RELEASE (R409). -/
  | counterRelease (x : EvTeam)
  /-- DOORBELL_INIT (R367). -/
  | doorbellInit (x : EvDoorbell)
  /-- DOORBELL_TAIL (R367). -/
  | doorbellTail (x : EvDoorbell)
  /-- RESPONSE_POST (R368). -/
  | responsePost (x : EvNone)
  /-- GET_VERSION (R373). -/
  | getVersion (x : EvSpdm)
  /-- GET_CAPABILITIES (R373). -/
  | getCapabilities (x : EvSpdm)
  /-- NEGOTIATE_ALGORITHMS (R373). -/
  | negotiateAlgorithms (x : EvSpdm)
  /-- GET_DIGESTS (R373). -/
  | getDigests (x : EvSpdm)
  /-- GET_CERTIFICATE (R373). -/
  | getCertificate (x : EvSpdm)
  /-- CHALLENGE (R373). -/
  | challenge (x : EvSpdm)
  /-- GET_MEASUREMENTS (R373). -/
  | getMeasurements (x : EvSpdm)
  /-- KEY_EXCHANGE (R373). -/
  | keyExchange (x : EvSpdm)
  /-- FINISH (R373). -/
  | finish (x : EvSpdm)
  /-- KEY_UPDATE (R370). -/
  | keyUpdate (x : EvSpdm)
  /-- HEARTBEAT (R373). -/
  | heartbeat (x : EvSpdm)
  /-- END_SESSION (R373). -/
  | endSession (x : EvSpdm)
  /-- ADMIT_OBJECT (R150). -/
  | admitObject (x : CmdAdmit)
  /-- UNLOAD_OBJECT (R350). -/
  | unloadObject (x : CmdObj)
  /-- UNLOAD_OBJECT_FORCED (R351). -/
  | unloadObjectForced (x : CmdObj)
  /-- CREATE_TENANT (R378). -/
  | createTenant (x : CmdCreate)
  /-- SET_EXTENTS (R379). -/
  | setExtents (x : CmdSetExtents)
  /-- REVOKE_EXTENT (R357). -/
  | revokeExtent (x : CmdExtent)
  /-- MOVE_EXTENT (R358). -/
  | moveExtent (x : CmdMove)
  /-- LAUNCH_TEAM (R381). -/
  | launchTeam (x : CmdLaunch)
  /-- STOP_TEAM (R380). -/
  | stopTeam (x : CmdTeam)
  /-- STOP_TEAM_RESUME (R380). -/
  | stopTeamResume (x : CmdTeam)
  /-- RESET_TENANT (R400). -/
  | resetTenant (x : CmdTag)
  /-- GRANULE_ZEROED (R400). -/
  | granuleZeroed (x : EvGranule)
  /-- SET_CALENDAR (R53). -/
  | setCalendar (x : CmdCalendar)
  /-- READ_COUNTERS (R409). -/
  | readCounters (x : CmdRead)
  /-- READ_FAULTS (R414). -/
  | readFaults (x : CmdRead)
  /-- LOCK (R375). -/
  | lock (x : CmdTag)
  /-- UNLOCK (R375). -/
  | unlock (x : CmdTag)
  /-- ATTEST (R384). -/
  | attest (x : CmdAttest)
  /-- MIGRATE_IN_OFFER (R385). -/
  | migrateInOffer (x : CmdMigrate)
  /-- MIGRATE_OUT_SEND (R385). -/
  | migrateOutSend (x : CmdMigrate)
  /-- MIGRATE_IN_IMPORT (R385). -/
  | migrateInImport (x : CmdMigrate)
  /-- MIGRATE_OUT_COMMIT (R385). -/
  | migrateOutCommit (x : CmdMigrate)
  /-- MIGRATE_IN_CONFIRM (R385). -/
  | migrateInConfirm (x : CmdMigrate)
  /-- MIGRATE_OUT_CLOSE (R385). -/
  | migrateOutClose (x : CmdMigrate)
  /-- MIGRATE_OUT_ABORT (R386). -/
  | migrateOutAbort (x : CmdMigrate)
  /-- MIGRATE_IN_ABORT (R386). -/
  | migrateInAbort (x : CmdMigrate)
  /-- MIGRATE_IN_RESUME (R386). -/
  | migrateInResume (x : CmdMigrate)
  /-- MIGRATE_IN_ESCROW (R386). -/
  | migrateInEscrow (x : CmdMigrate)
  /-- FABRIC_CONFIG (R427). -/
  | fabricConfig (x : CmdFabric)
  /-- LANE_LOCK (R427). -/
  | laneLock (x : EvLane)
  /-- LANE_LOCK_TIMEOUT (R427). -/
  | laneLockTimeout (x : EvLane)
  /-- PORT_HANDSHAKE (R427). -/
  | portHandshake (x : EvPort)
  /-- FABRIC_FLIT_RECEIVE (R422). -/
  | fabricFlitReceive (x : EvFlit)
  /-- FEC_REPLAY (R420). -/
  | fecReplay (x : EvPort)
  /-- ALLOWANCE_RETURN (R424). -/
  | allowanceReturn (x : EvPeer)
  /-- TIMESTAMP_EXCHANGE (R425). -/
  | timestampExchange (x : EvTime)
  /-- POWER_ON (R435). -/
  | powerOn (x : EvNone)
  /-- START_COLD (R437). -/
  | startCold (x : EvStart)
  /-- START_WARM (R440). -/
  | startWarm (x : EvStart)
  /-- HOST_PORT_TRAINING (R437). -/
  | hostPortTraining (x : EvAttempt)
  /-- POWER_MANAGER_START (R441). -/
  | powerManagerStart (x : EvPower)
  /-- TRUST_TILE_START (R437). -/
  | trustTileStart (x : EvDigest)
  /-- HBM_STACK_TRAINING (R439). -/
  | hbmStackTraining (x : EvTrain)
  /-- LPDDR_TRAINING (R439). -/
  | lpddrTraining (x : EvTrain)
  /-- DIE_TRAINING (R437). -/
  | dieTraining (x : EvDie)
  /-- VARPEN_START (R437). -/
  | varpenStart (x : EvAttempt)
  /-- RAIL_MEASUREMENT (R442). -/
  | railMeasurement (x : EvRail)
  /-- DROOP (R445). -/
  | droop (x : EvCluster)
  /-- TEMP_THRESHOLD (R445). -/
  | tempThreshold (x : EvTemp)
  /-- THERMAL_STEP (R445). -/
  | thermalStep (x : EvCluster)
  /-- THERMAL_TRIP (R445). -/
  | thermalTrip (x : EvNone)
  /-- MIGRATION_ARRIVAL (R51). -/
  | migrationArrival (x : EvIdx)
  deriving DecidableEq, Repr

end Sys2Proof
end

