-- ==== Sys2Proof/WellFormed.lean ====
section
/-!
DEFINITION. Which operand values an instruction admits beyond the types of its fields (R112, R113, R115, and each family's own
table: R153, R162, R165, R168, R180–R206, R211, R243–R277, R304, R316, R329). An instruction that fails its check has no word:
the decoder answers ILLEGAL (R126).
-/
namespace Sys2Proof

/-! ## Element formats -/

/-- The code of a format (R80). -/
def Fmt.code : Fmt → Nat
  | .raw => 0 | .i8 => 1 | .n8 => 2 | .i16 => 3 | .n16 => 4 | .i32 => 5 | .n32 => 6 | .i64 => 7 | .n64 => 8
  | .fp4 => 9 | .e4m3 => 10 | .e5m2 => 11 | .bf16 => 12 | .fp16 => 13 | .fp32 => 14 | .fp64 => 15

/-- The format of a code; the code is read modulo 16. -/
def Fmt.ofCode (n : Nat) : Fmt :=
  match n % 16 with
  | 0 => .raw | 1 => .i8 | 2 => .n8 | 3 => .i16 | 4 => .n16 | 5 => .i32 | 6 => .n32 | 7 => .i64 | 8 => .n64
  | 9 => .fp4 | 10 => .e4m3 | 11 => .e5m2 | 12 => .bf16 | 13 => .fp16 | 14 => .fp32 | _ => .fp64

/-- The set F of floating-point element types of the vector unit (R181). -/
def Fmt.isF (f : Fmt) : Bool := f == .bf16 || f == .fp16 || f == .fp32 || f == .fp64
/-- The set I of integer element types (R181): codes 1 to 8. -/
def Fmt.isI (f : Fmt) : Bool := decide (1 ≤ f.code ∧ f.code ≤ 8)
/-- The signed integer types. -/
def Fmt.isSigned (f : Fmt) : Bool := f == .i8 || f == .i16 || f == .i32 || f == .i64

/-- The element width in bits; 512 for b1, which fills the register (R80, R112). -/
def Fmt.width : Fmt → Nat
  | .raw => 1
  | .i8 | .n8 => 8 | .i16 | .n16 => 16 | .i32 | .n32 => 32 | .i64 | .n64 => 64
  | .fp4 => 4 | .e4m3 | .e5m2 => 8 | .bf16 | .fp16 => 16 | .fp32 => 32 | .fp64 => 64

/-- The lane count (R80). -/
def Fmt.lanes (f : Fmt) : Nat := 512 / f.width

/-- Whether (fmt, blog) is a pair R81 allows in a pointer: a block size only with a block-scaled element, and only that element's. -/
def blogOk (f : Fmt) (blog : BitVec 3) : Bool :=
  match f with
  | .fp4 => blog == 3
  | .e4m3 | .e5m2 => blog == 0 || blog == 5
  | _ => blog == 0

/-! ## Literals and vector sources -/

/-- Whether the signed literal `n` is exact in `et` (R112). -/
def litOk (et : Fmt) (n : BitVec 6) : Bool :=
  let m := n.toInt.natAbs
  match et with
  | .raw => n == 0 || n == -1
  | .fp4 => m ≤ 4 || m == 6
  | .e4m3 => !(17 ≤ m && m % 2 == 1)
  | .e5m2 => !(9 ≤ m && m ≤ 15 && m % 2 == 1) && !(17 ≤ m && m % 4 != 0)
  | _ => true

/-- A source of any kind. -/
def Src.okAny (et : Fmt) : Src → Bool
  | .i n => litOk et n
  | _ => true
/-- A source of kind v or k ("vs1", R193). -/
def Src.okVK : Src → Bool
  | .v _ | .k _ => true
  | _ => false
/-- A source of kind g or i read as an integer (R193); its literal needs no format. -/
def Src.okGI : Src → Bool
  | .g _ | .i _ => true
  | _ => false

/-! ## Scopes and orderings -/

/-- rlx names the scope SELF (R243). -/
def ordOk (ord : Ord) (sco : Scope) : Bool := ord != .rlx || sco == .self
/-- The orders of a load and of a store; R202 asks no more of a vector access. -/
def ordOfLoad (ord : Ord) : Bool := ord == .rlx || ord == .acq
def ordOfStore (ord : Ord) : Bool := ord == .rlx || ord == .rel
def ordLoad (ord : Ord) (sco : Scope) : Bool := ordOfLoad ord && ordOk ord sco
def ordStore (ord : Ord) (sco : Scope) : Bool := ordOfStore ord && ordOk ord sco

/-- The sizes of scalar accesses: b, h, w, d. -/
def Asz.isScalar : Asz → Bool
  | .b | .h | .w | .d => true
  | _ => false

/-- Without an index the scale is ×1 (R118). -/
def idxOk (ix : GReg) (isc : Isc) : Bool := ix != 0 || isc == .one
def MemOp.ok (m : MemOp) : Bool := idxOk m.ix m.isc

/-! ## Groups of vector instructions -/

/-- VADD and the other rounding operations of R183 with two sources. -/
def OpV2.okFp (x : OpV2) : Bool := x.et.isF && x.a.okAny x.et && x.b.okAny x.et
/-- The same with rm 0: VMIN, VMAX. -/
def OpV2.okFp0 (x : OpV2) : Bool := x.okFp && x.rm == .rne
def OpV3.okFp (x : OpV3) : Bool := x.et.isF && x.a.okAny x.et && x.b.okAny x.et && x.c.okAny x.et
def OpV1.okFp (x : OpV1) : Bool := x.et.isF && x.a.okAny x.et
def OpV1.okFp0 (x : OpV1) : Bool := x.okFp && x.rm == .rne
/-- VINT with et in I (R184). -/
def OpV2.okInt (x : OpV2) : Bool := x.et.isI && x.rm == .rne && x.a.okAny x.et && x.b.okAny x.et
def OpV1.okInt (x : OpV1) : Bool := x.et.isI && x.rm == .rne && x.a.okAny x.et
/-- VAND, VOR, VXOR: et 0–8, and wm = 0 with et 0 (R184). -/
def OpV2.okBit (x : OpV2) : Bool :=
  (x.et.isI || (x.et == .raw && x.wm == 0)) && x.rm == .rne && x.a.okAny x.et && x.b.okAny x.et
/-- The set X (R181): codes 1 to 8 and 10 to 15. -/
def Fmt.isX (f : Fmt) : Bool := f != .raw && f != .fp4
/-- The types of the reductions (R191): every F and I type. -/
def Fmt.isN (f : Fmt) : Bool := f.isF || f.isI
/-- Comparisons (R185). -/
def OpWV2.okCmp (x : OpWV2) : Bool := x.et.isX && x.a.okAny x.et && x.b.okAny x.et
/-- Reductions with a rounding mode: integer rm is 0 (R191). -/
def OpV1.okSum (x : OpV1) : Bool := x.et.isN && x.a.okAny x.et && (x.et.isF || x.rm == .rne)
def OpV1.okSel (x : OpV1) : Bool := x.et.isN && x.a.okAny x.et && x.rm == .rne
/-- VBCAST and VROT: a vector or constant source and a lane index (R193). -/
def OpV2.okLane (x : OpV2) : Bool := x.et.isX && x.rm == .rne && x.a.okVK && x.b.okGI && x.b.okAny x.et

/-- Whether the operands of an instruction take values its description admits. -/
def Instr.wf : Instr → Bool
  | .extS x | .extn x | .ins x => decide (1 ≤ x.len.toNat ∧ x.len.toNat ≤ 64 ∧ x.pos.toNat + x.len.toNat ≤ 64)
  | .bchk x => x.need != 0
  | .bchki x => x.need != 0 && x.len != 0
  | .loop x => x.cnt != 0 && decide (1 ≤ x.len.toNat ∧ x.len.toNat ≤ 64)
  | .loopi x => decide (1 ≤ x.len.toNat ∧ x.len.toNat ≤ 64)
  | .vadd x | .vsub x | .vmul x | .vdiv x | .vscl x => x.okFp
  | .vfma x | .vfms x | .vfnma x => x.okFp
  | .vmin x | .vmax x => x.okFp0
  | .vabs x | .vneg x => x.okFp0
  | .vsqrt x => x.okFp
  | .viadd x | .visub x | .vimul x | .vimulhi x | .vimin x | .vimax x | .vshl x | .vshr x | .vshra x | .viadds x => x.okInt
  | .vand x | .vor x | .vxor x => x.okBit
  | .vpopc x => x.okInt
  | .vcmpeq x | .vcmplt x | .vcmple x => x.okCmp
  | .vclass x => x.okFp0
  | .vsel x => x.et != .raw && x.rm == .rne && x.a.okAny x.et && x.b.okAny x.et
  | .vexp2 x | .vlog2 x | .vrcp x | .vrsq x | .vtanh x | .vsigm x =>
    (x.et == .bf16 || x.et == .fp16 || x.et == .fp32) && x.rm == .rne && x.a.okAny x.et
  | .vrsum x => x.okSum
  | .vrmax x | .vrmin x => x.okSel
  | .vrdot x => x.et.isN && x.a.okAny x.et && x.b.okAny x.et && (x.et.isF || x.rm == .rne)
  | .vscan x => x.et.isN && x.a.okAny x.et && (x.et.isF || x.rm == .rne)
      && (x.op != 3 || x.et.isI) && (x.op == 0 || x.rm == .rne)
  | .vmov x => x.rm == .rne && x.a.okAny x.et && (x.et != .raw || x.wm == 0)
  | .vbcast x | .vrot x => x.okLane
  | .vshuf x => x.et.isX && x.rm == .rne && x.a.okVK && x.b.okAny x.et
  | .vextr x => x.et.isX && (match x.mode with
      | .lane a b => a.okVK && b.okGI && b.okAny x.et
      | .count | .first => true)
  | .vinsr x => x.et.isX && x.b.okGI && x.b.okAny x.et
  | .vcompress x | .vexpand x => x.et.isX && x.rm == .rne && x.a.okVK
  | .vcswap x => x.et.isX && x.rm == .rne && x.a.okVK && x.b.okGI && x.b.okAny x.et
      && x.c.okGI && x.c.okAny x.et
  | .vmatch x => x.et.isX && x.a.okVK && x.b.okAny x.et
  | .vcvt x =>
    let dl := x.et.lanes
    let sl := x.src.lanes
    x.et.isX && x.src.isX && x.a.okVK && (x.rm == .rne || x.et.isI.not || x.src.isI.not)
      && decide ((x.part.toInt : Int) ≥ 0 ∧ x.part.toInt.toNat < max dl sl / min dl sl)
  | .vquant x => x.a.okVK
  | .vdeq x => x.a.okVK
  | .vpack x => decide (1 ≤ x.et.code ∧ x.et.code ≤ 6) && x.a.okVK && x.b.okVK
  | .vunpack x => decide (3 ≤ x.et.code ∧ x.et.code ≤ 8) && x.a.okVK
  | .vld x => x.m.ok && !x.asz.isScalar && ordOfLoad x.ord
  | .vst x => x.m.ok && !x.asz.isScalar && ordOfStore x.ord
  | .vlds x => x.m.ok && x.m.ix != 0 && x.asz.isScalar && ordOfLoad x.ord
  | .vsts x => x.m.ok && x.m.ix != 0 && x.asz.isScalar && ordOfStore x.ord
  | .vgath x => x.m.ok && x.asz.isScalar && ordOfLoad x.ord && x.d != 31
  | .vscat x => x.m.ok && x.asz.isScalar && ordOfStore x.ord && x.d != 31
  | .vldk x => x.m.ok
  | .rep x => x.cnt == 0 || x.icnt == 0
  | .ld x => x.m.ok && x.asz.isScalar && ordLoad x.ord x.sco && (!x.ext || x.asz != .d)
      && (match x.d with | .a _ => x.asz == .d && !x.ext | .g _ => true)
  | .st x => x.m.ok && x.asz.isScalar && ordStore x.ord x.sco
  | .lds x => x.m.ok && x.asz.isScalar && ordLoad x.ord x.sco && (!x.ext || x.asz != .d)
  | .feset x | .feclr x => x.m.ok && ordStore x.ord x.sco
  | .fepoll x => x.m.ok && ordLoad x.ord x.sco
  | .amoadd x | .amoand x | .amoor x | .amoxor x | .amomin x | .amomax x | .amominn x | .amomaxn x | .amoswp x | .amofadd x
  | .amoinc x => x.m.ok && (x.asz == .w || x.asz == .d) && ordOk x.ord x.sco && (!x.ext || x.asz != .d)
  | .amocas x => x.m.ok && (x.asz == .w || x.asz == .d) && ordOk x.ord x.sco && (!x.ext || x.asz != .d)
      && decide (1 ≤ x.d.toNat ∧ x.d.toNat ≤ 30)
  | .fencee x => x.sco != .self
  | .qpush x | .qpop x | .qpopw x => idxOk x.ix x.isc
  | .qtry x => idxOk x.ix x.isc
  | .qcnt x => idxOk x.ix x.isc && x.sco == .self
  | .ksend x => (x.et == .i32 || x.et == .n32 || x.et == .fp32) && x.b.okAny x.et
  | .cpy2 x => x.rows != 0
  | .coll x => decide (1 ≤ x.level.toNat ∧ x.level.toNat ≤ 4)
      && (x.op == .add || x.kind == .allred || x.kind == .red || x.kind == .redsc)
      && (x.root == 0 || x.kind == .red || x.kind == .bcast)
  | .wld x => x.m.ok
      && (match x.d with
        | .g _ ext => x.asz.isScalar && (!ext || x.asz != .d)
        | .v _ => !x.asz.isScalar)
      && (!x.nowait || (!x.q.gs && x.q.gp != 0))
  | .iwin x => x.m.ok
  | .thint x => x.h != 3
  | .bar x => decide (x.lv.toNat ≤ 4)
  | .barw x => decide (x.lv.toNat ≤ 4)
  | .sstep x => decide (1 ≤ x.lv.toNat ∧ x.lv.toNat ≤ 4)
  | .trapI x => x.code == 0x01 || x.code == 0x10
  | .rget x => decide (x.sel.toNat ≤ 5)
  | .radv x | .rwait x => decide (1 ≤ x.n.toNat ∧ x.n.toNat ≤ 64)
  | .rquant x => x.fixed == (x.band != 0)
  | .rfill x | .rfillw x => x.width != 0
  | .mmaf x => x.fov == .fp4 || x.fov == .e4m3 || x.fov == .bf16
  | .msr x => (x.ring == .minPlus && (x.fov == .bf16 || x.fov == .e4m3)) || (x.ring == .maxTimes && x.fov == .bf16)
      || (x.ring == .orAnd && x.fov == .raw)
  | .mstat x => x.sel != 3
  | .mdrain x => (match x.mode with
      | .mem _ _ => x.fov != .w80 || x.rm == .rne
      | .vec _ _ part => match x.fov with
        | .w80 => false
        | .fp32 => decide (part.toNat ≤ 3)
        | .bf16 | .fp16 => decide (part.toNat ≤ 1))
  | .mload x => x.fov == .w80 || x.fov == .fp32
  | .stageTend _ => true
  | .add _ | .subG _ | .mul _ | .mulhi _ | .mulhn _ | .div _ | .divn _ | .remS _ | .remn _ | .andG _ | .orG _ | .xorG _
  | .andn _ | .orn _ | .shl _ | .shr _ | .shra _ | .rotl _ | .rotr _ | .minS _ | .minn _ | .maxS _ | .maxn _ | .clz _ | .ctz _
  | .popc _ | .brev _ | .bswap _ | .addi _ | .muli _ | .andi _ | .ori _ | .xori _ | .shli _ | .shri _ | .shrai _ | .rotli _
  | .mini _ | .maxi _ | .li _ | .lih _ | .cmpeq _ | .cmpne _ | .cmplt _ | .cmple _ | .cmpltn _ | .cmplen _ | .cmpeqi _
  | .cmplti _ | .tbit _ | .pand _ | .por _ | .pxor _ | .pandn _ | .pmov _ | .sel _ | .ptog _ | .gtop _ | .aadd _ | .aaddi _
  | .amov _ | .afrom _ | .atog _ | .afmt _ | .adiff _ | .acmplt _ | .br _ | .brl _ | .jr _ | .jrl _ | .lbrk _ | .wand _ | .wor _
  | .wnot _ | .scfg _ | .sdim _ | .son _ | .soff _ | .swait _ | .repw _ | .fence _ | .kcfg _ | .kflush _ | .cpy _ | .cpyw _
  | .estat _ | .ewait _ | .cstat _ | .cwait _ | .xmark _ | .xwait _ | .xpeer _ | .tspawn _ | .tdec _ | .tend _ | .tyield _
  | .wfe _ | .wfed _ | .sev _ | .gtime _ | .srr _ | .srw _ | .tret _ | .nop _ | .brk _ | .rcfg _ | .rtol _ | .mma _ | .mzero _ | .mverd _ => true
  | .repeatPassIssue _ | .fillPublish _ | .anchorRefetch _ | .mmaCommit _ | .loadStep _ | .storeStep _ | .ackStep _
  | .queuePushStep _ | .qpushResend _ | .queuePopStep _ | .sevSet _ | .ksendDelivery _ | .engineRead _ | .engineWrite _
  | .engineDone _ | .engineFault _ | .gateArrive _ | .gateDepart _ | .barrierComplete _ | .barwTimeout _ | .wfedTimeout _
  | .xwaitTimeout _ | .drainMarker _ | .yieldTimeout _ | .continuationReady _ | .dispatch _ | .continuationMigrate _
  | .migrationReturn _ | .pcntDecrement _ | .launchEntryArrival _ | .stageStart _ | .cloadRefresh _ | .sliceBoundary _
  | .solsticeStop _ | .contextSave _ | .restore _ | .vigilExpiry _ | .intercalaryWindowEnd _ | .translationPublish _
  | .retranslation _ | .counterCopy _ | .counterRelease _ | .doorbellInit _ | .doorbellTail _ | .responsePost _ | .getVersion _
  | .getCapabilities _ | .negotiateAlgorithms _ | .getDigests _ | .getCertificate _ | .challenge _ | .getMeasurements _
  | .keyExchange _ | .finish _ | .keyUpdate _ | .heartbeat _ | .endSession _ | .admitObject _ | .unloadObject _
  | .unloadObjectForced _ | .createTenant _ | .setExtents _ | .revokeExtent _ | .moveExtent _ | .launchTeam _ | .stopTeam _
  | .stopTeamResume _ | .resetTenant _ | .granuleZeroed _ | .setCalendar _ | .readCounters _ | .readFaults _ | .lock _
  | .unlock _ | .attest _ | .migrateInOffer _ | .migrateOutSend _ | .migrateInImport _ | .migrateOutCommit _
  | .migrateInConfirm _ | .migrateOutClose _ | .migrateOutAbort _ | .migrateInAbort _ | .migrateInResume _ | .migrateInEscrow _
  | .fabricConfig _ | .laneLock _ | .laneLockTimeout _ | .portHandshake _ | .fabricFlitReceive _ | .fecReplay _
  | .allowanceReturn _ | .timestampExchange _ | .powerOn _ | .startCold _ | .startWarm _ | .hostPortTraining _
  | .powerManagerStart _ | .trustTileStart _ | .hbmStackTraining _ | .lpddrTraining _ | .dieTraining _ | .varpenStart _
  | .railMeasurement _ | .droop _ | .tempThreshold _ | .thermalStep _ | .thermalTrip _ | .migrationArrival _ => true

/-- The guards the decoder admits: not gs = 1 with gp = 0 (R110). -/
def Guard.ok (q : Guard) : Bool := !q.gs || q.gp != 0

end Sys2Proof
end

