-- ==== Sys2Proof/Decode.lean ====
section
/-!
DEFINITION. Decoding and encoding of the instruction word (R108–R129). The encoder writes each format's fields at the bits R116–R122
give them. The decoder finds the function in the opcode map (R123), reads its fields, and accepts the word only when the
instruction is well formed and its own encoding is the word: every reserved bit is then zero, and every field holds a value its
description admits (R115).
-/
namespace Sys2Proof

/-- Why a word is not an instruction, in the order of the tests of R126. Each raises ILLEGAL. -/
inductive DecodeError where
  /-- sz is 0b10 or 0b11. -/
  | size
  /-- An unassigned major. -/
  | major
  /-- Not a function code of the major. -/
  | function
  /-- Not the sz of the function's format. -/
  | format
  /-- gs = 1 with gp = 0. -/
  | guard
  /-- A guarded LOOP, LOOPI or REP. -/
  | unguardedOnly
  /-- Outside the processor's column (R125). -/
  | column
  /-- A reserved field that is not zero, or a value the description excludes. -/
  | field
  deriving DecidableEq, Repr

/-- Bits [lo + len − 1 : lo] of a word held as a number. -/
def fld (n lo len : Nat) : Nat := n / 2 ^ lo % 2 ^ len

/-! ## Codes of the operand types -/

/-- The header nibble: gs, gp (R108). -/
def Guard.code (q : Guard) : Nat := (if q.gs then 8 else 0) + q.gp.toNat
def Guard.ofCode (n : Nat) : Guard := ⟨n / 8 % 2 == 1, BitVec.ofNat 3 (n % 8)⟩

/-- Unified register numbers (R111). -/
def uG (r : GReg) : Nat := r.toNat
def uA (r : AReg) : Nat := 32 + r.toNat
def uP (r : PReg) : Nat := 48 + r.toNat
def uW (r : WReg) : Nat := 56 + r.toNat
def toG (n : Nat) : GReg := BitVec.ofNat 5 n
def toA (n : Nat) : AReg := BitVec.ofNat 4 n
def toP (n : Nat) : PReg := BitVec.ofNat 3 n

/-- R91. -/
def Rm.code : Rm → Nat
  | .rne => 0 | .rtz => 1 | .rdn => 2 | .rup => 3 | .rna => 4 | .rsr => 5 | .dyn => 6
def Rm.ofCode (n : Nat) : Rm :=
  match n with
  | 0 => .rne | 1 => .rtz | 2 => .rdn | 3 => .rup | 4 => .rna | 5 => .rsr | _ => .dyn
/-- R114. -/
def Scope.code : Scope → Nat
  | .self => 0 | .tile => 1 | .cluster => 2 | .die => 3 | .module => 4 | .host => 5 | .domain => 6 | .fabric => 7 | .system => 8
def Scope.ofCode (n : Nat) : Scope :=
  match n with
  | 0 => .self | 1 => .tile | 2 => .cluster | 3 => .die | 4 => .module | 5 => .host | 6 => .domain | 7 => .fabric | _ => .system
def Ord.code : Ord → Nat
  | .rlx => 0 | .acq => 1 | .rel => 2 | .ar => 3
def Ord.ofCode (n : Nat) : Ord :=
  match n with
  | 0 => .rlx | 1 => .acq | 2 => .rel | _ => .ar
/-- R118. -/
def Asz.code : Asz → Nat
  | .b => 0 | .h => 1 | .w => 2 | .d => 3 | .q => 4 | .f => 5 | .v => 6
def Asz.ofCode (n : Nat) : Asz :=
  match n with
  | 0 => .b | 1 => .h | 2 => .w | 3 => .d | 4 => .q | 5 => .f | _ => .v
def Isc.code : Isc → Nat
  | .one => 0 | .elem => 1 | .eight => 2 | .sixtyFour => 3
def Isc.ofCode (n : Nat) : Isc :=
  match n with
  | 0 => .one | 1 => .elem | 2 => .eight | _ => .sixtyFour
/-- A V-format source: the kind tag and the operand, k × 64 + o (R112). -/
def Src.code : Src → Nat
  | .v r => r.toNat
  | .g r => 64 + r.toNat
  | .k n => 128 + n.toNat
  | .i n => 192 + n.toNat
def Src.ofCode (n : Nat) : Src :=
  match n / 64 % 4 with
  | 0 => .v (BitVec.ofNat 5 n)
  | 1 => .g (BitVec.ofNat 5 n)
  | 2 => .k (BitVec.ofNat 6 n)
  | _ => .i (BitVec.ofNat 6 n)
def CollKind.code : CollKind → Nat
  | .allred => 0 | .red => 1 | .bcast => 2 | .gather => 3 | .redsc => 4 | .fw => 5
def CollKind.ofCode (n : Nat) : CollKind :=
  match n with
  | 0 => .allred | 1 => .red | 2 => .bcast | 3 => .gather | 4 => .redsc | _ => .fw
def CollOp.code : CollOp → Nat
  | .add => 0 | .min => 1 | .max => 2 | .or => 3
def CollOp.ofCode (n : Nat) : CollOp :=
  match n with
  | 0 => .add | 1 => .min | 2 => .max | _ => .or
/-- The mode field of R121. -/
def Semiring.code : Semiring → Nat
  | .minPlus => 1 | .maxTimes => 2 | .orAnd => 3
def Semiring.ofCode (n : Nat) : Semiring :=
  match n with
  | 1 => .minPlus | 2 => .maxTimes | _ => .orAnd
def ZeroVal.code : ZeroVal → Nat
  | .zero => 0 | .pinf => 1 | .ninf => 2
def ZeroVal.ofCode (n : Nat) : ZeroVal :=
  match n with
  | 0 => .zero | 1 => .pinf | _ => .ninf
/-- The fov field of MDRAIN and MLOAD (R329). -/
def AccFmt.code : AccFmt → Nat
  | .w80 => 0 | .bf16 => 12 | .fp16 => 13 | .fp32 => 14
def AccFmt.ofCode (n : Nat) : AccFmt :=
  match n with
  | 0 => .w80 | 12 => .bf16 | 13 => .fp16 | _ => .fp32
def bit (b : Bool) : Nat := if b then 1 else 0

/-! ## The operand areas of the formats (R116–R122): their bits, most significant field last -/

/-- Format S. -/
def packS (imm s3 s2 s1 d : Nat) : Nat := imm + 2 ^ 20 * s3 + 2 ^ 26 * s2 + 2 ^ 32 * s1 + 2 ^ 38 * d
/-- Format V; each source is k × 64 + o. -/
def packV (vx wm rm et s3 s2 s1 vd : Nat) : Nat :=
  vx + 2 ^ 4 * wm + 2 ^ 7 * rm + 2 ^ 10 * et + 2 ^ 14 * s3 + 2 ^ 22 * s2 + 2 ^ 30 * s1 + 2 ^ 38 * vd
/-- Format M. -/
def packM (off ext ord sco asz isc ix ab d : Nat) : Nat :=
  off + 2 ^ 13 * ext + 2 ^ 14 * ord + 2 ^ 16 * sco + 2 ^ 20 * asz + 2 ^ 24 * isc + 2 ^ 26 * ix + 2 ^ 32 * ab + 2 ^ 38 * d
/-- Format B. -/
def packB (off tr ln : Nat) : Nat := off + 2 ^ 32 * tr + 2 ^ 38 * ln
/-- Format L. -/
def packL (icnt len lv cnt : Nat) : Nat := icnt + 2 ^ 28 * len + 2 ^ 36 * lv + 2 ^ 38 * cnt
/-- Format R with its low 29 bits. -/
def packR (low fov mode c mb ma : Nat) : Nat :=
  low + 2 ^ 29 * fov + 2 ^ 33 * mode + 2 ^ 37 * c + 2 ^ 38 * mb + 2 ^ 41 * ma
/-- The first word of the X-format copies and collectives (R259, R264): four register fields above twenty zero bits. -/
def packX (f25 f31 f37 d : Nat) : Nat := 2 ^ 20 * f25 + 2 ^ 26 * f31 + 2 ^ 32 * f37 + 2 ^ 38 * d
/-- The first word of the fills (R311). -/
def packF (aux src m d : Nat) : Nat := 2 ^ 20 * aux + 2 ^ 26 * src + 2 ^ 35 * m + 2 ^ 38 * d

/-- A whole first word (R108). -/
def word (sz maj : Nat) (q : Guard) (fn area : Nat) : Nat :=
  area + 2 ^ 44 * fn + 2 ^ 52 * q.code + 2 ^ 56 * maj + 2 ^ 62 * sz

/-- A single-word instruction. -/
def one (maj fn : Nat) (q : Guard) (area : Nat) : List Nat := [word 0 maj q fn area]
/-- A two-word instruction and its operand extension (R109). -/
def two (maj fn : Nat) (q : Guard) (area ext : Nat) : List Nat := [word 1 maj q fn area, ext]

/-! ## Encoding, shape by shape -/

def OpN.enc (x : OpN) (maj fn : Nat) : List Nat := one maj fn x.q 0
def OpGGG.enc (x : OpGGG) (maj fn : Nat) : List Nat := one maj fn x.q (packS 0 0 (uG x.b) (uG x.a) (uG x.d))
def OpGG.enc (x : OpGG) (maj fn : Nat) : List Nat := one maj fn x.q (packS 0 0 0 (uG x.a) (uG x.d))
def OpGGI.enc (x : OpGGI) (maj fn : Nat) : List Nat := one maj fn x.q (packS x.imm.toNat 0 0 (uG x.a) (uG x.d))
def OpGGSh.enc (x : OpGGSh) (maj fn : Nat) : List Nat := one maj fn x.q (packS x.n.toNat 0 0 (uG x.a) (uG x.d))
def OpGI.enc (x : OpGI) (maj fn : Nat) : List Nat := one maj fn x.q (packS x.imm.toNat 0 0 0 (uG x.d))
def OpPGG.enc (x : OpPGG) (maj fn : Nat) : List Nat := one maj fn x.q (packS 0 0 (uG x.b) (uG x.a) (uP x.d))
def OpPGI.enc (x : OpPGI) (maj fn : Nat) : List Nat := one maj fn x.q (packS x.imm.toNat 0 0 (uG x.a) (uP x.d))
def OpPGBit.enc (x : OpPGBit) (maj fn : Nat) : List Nat := one maj fn x.q (packS x.bit.toNat 0 0 (uG x.a) (uP x.d))
def OpPPP.enc (x : OpPPP) (maj fn : Nat) : List Nat := one maj fn x.q (packS 0 0 (uP x.b) (uP x.a) (uP x.d))
def OpPP.enc (x : OpPP) (maj fn : Nat) : List Nat := one maj fn x.q (packS 0 0 0 (uP x.a) (uP x.d))
def OpField.enc (x : OpField) (maj fn : Nat) : List Nat :=
  one maj fn x.q (packS (x.pos.toNat + 2 ^ 6 * x.len.toNat) 0 0 (uG x.a) (uG x.d))
def OpSel.enc (x : OpSel) (maj fn : Nat) : List Nat := one maj fn x.q (packS 0 (uP x.p) (uG x.b) (uG x.a) (uG x.d))
def OpGP.enc (x : OpGP) (maj fn : Nat) : List Nat := one maj fn x.q (packS 0 0 0 (uP x.p) (uG x.d))
def OpPG.enc (x : OpPG) (maj fn : Nat) : List Nat := one maj fn x.q (packS 0 0 0 (uG x.a) (uP x.d))
def OpAAG.enc (x : OpAAG) (maj fn : Nat) : List Nat := one maj fn x.q (packS 0 0 (uG x.b) (uA x.a) (uA x.d))
def OpAAI.enc (x : OpAAI) (maj fn : Nat) : List Nat := one maj fn x.q (packS x.imm.toNat 0 0 (uA x.a) (uA x.d))
def OpAA.enc (x : OpAA) (maj fn : Nat) : List Nat := one maj fn x.q (packS 0 0 0 (uA x.a) (uA x.d))
def OpAFrom.enc (x : OpAFrom) (maj fn : Nat) : List Nat :=
  one maj fn x.q (packS (x.ext.toNat + 2 ^ 5 * x.fmt.code + 2 ^ 9 * x.blog.toNat) 0 0 (uG x.a) (uA x.d))
def OpAToG.enc (x : OpAToG) (maj fn : Nat) : List Nat := one maj fn x.q (packS x.ext.toNat 0 0 (uA x.a) (uG x.d))
def OpAFmt.enc (x : OpAFmt) (maj fn : Nat) : List Nat :=
  one maj fn x.q (packS (x.fmt.code + 2 ^ 5 * x.blog.toNat) 0 0 (uA x.a) (uA x.d))
def OpGAA.enc (x : OpGAA) (maj fn : Nat) : List Nat := one maj fn x.q (packS 0 0 (uA x.b) (uA x.a) (uG x.d))
def OpPAA.enc (x : OpPAA) (maj fn : Nat) : List Nat := one maj fn x.q (packS 0 0 (uA x.b) (uA x.a) (uP x.d))
def OpChk.enc (x : OpChk) (maj fn : Nat) : List Nat :=
  one maj fn x.q (packS (x.ext.toNat + 2 ^ 5 * x.need.toNat) 0 (uG x.b) (uA x.a) 0)
def OpChkI.enc (x : OpChkI) (maj fn : Nat) : List Nat :=
  one maj fn x.q (packS (x.ext.toNat + 2 ^ 5 * x.need.toNat + 2 ^ 9 * x.len.toNat) 0 (uG x.b) (uA x.a) 0)
def OpScfg.enc (x : OpScfg) (maj fn : Nat) : List Nat :=
  one maj fn x.q (packS (x.slot.toNat + 2 ^ 2 * bit x.push) 0 0 (uA x.a) 0)
def OpSdim.enc (x : OpSdim) (maj fn : Nat) : List Nat :=
  one maj fn x.q (packS (x.slot.toNat + 2 ^ 2 * x.dim.toNat) 0 (uG x.stride) (uG x.bound) 0)
def OpSlot.enc (x : OpSlot) (maj fn : Nat) : List Nat := one maj fn x.q (packS x.slot.toNat 0 0 0 0)
def OpRep.enc (x : OpRep) (maj fn : Nat) : List Nat :=
  one maj fn .always (packS (x.lenM1.toNat + 2 ^ 4 * x.stag.toNat + 2 ^ 8 * x.icnt.toNat) 0 0 (uG x.cnt) 0)
def OpFence.enc (x : OpFence) (maj fn : Nat) : List Nat := one maj fn x.q (packS x.sco.code 0 0 0 0)
def OpEpoch.enc (x : OpEpoch) (maj fn : Nat) : List Nat := one maj fn x.q (packS x.e.toNat 0 0 0 0)
def OpXwait.enc (x : OpXwait) (maj fn : Nat) : List Nat := one maj fn x.q (packS x.e.toNat 0 0 (uG x.a) (uP x.d))
def OpA.enc (x : OpA) (maj fn : Nat) : List Nat := one maj fn x.q (packS 0 0 0 (uA x.a) 0)
def OpG.enc (x : OpG) (maj fn : Nat) (sev : Bool) : List Nat :=
  one maj fn x.q (if sev then packS 0 0 0 (uG x.a) 0 else packS 0 0 0 0 (uG x.a))
def OpHint.enc (x : OpHint) (maj fn : Nat) : List Nat := one maj fn x.q (packS x.h.toNat 0 0 0 0)
def OpLevel.enc (x : OpLevel) (maj fn : Nat) : List Nat := one maj fn x.q (packS x.lv.toNat 0 0 0 0)
def OpBarw.enc (x : OpBarw) (maj fn : Nat) : List Nat := one maj fn x.q (packS x.lv.toNat 0 0 (uG x.a) (uP x.d))
def OpSstep.enc (x : OpSstep) (maj fn : Nat) : List Nat := one maj fn x.q (packS x.lv.toNat 0 0 0 (uG x.d))
def OpSrr.enc (x : OpSrr) (maj fn : Nat) : List Nat := one maj fn x.q (packS x.idx.toNat 0 0 0 (uG x.d))
def OpSrw.enc (x : OpSrw) (maj fn : Nat) : List Nat := one maj fn x.q (packS x.idx.toNat 0 0 (uG x.a) 0)
def OpTrap.enc (x : OpTrap) (maj fn : Nat) : List Nat := one maj fn x.q (packS x.code.toNat 0 0 (uG x.a) 0)
def OpTret.enc (x : OpTret) (maj fn : Nat) : List Nat := one maj fn x.q (packS (bit x.mode) 0 0 0 0)
def OpBrk.enc (x : OpBrk) (maj fn : Nat) : List Nat := one maj fn x.q (packS x.n.toNat 0 0 0 0)
def OpBr.enc (x : OpBr) (maj fn : Nat) : List Nat := one maj fn x.q (packB x.off.toNat 0 0)
def OpBrl.enc (x : OpBrl) (maj fn : Nat) : List Nat := one maj fn x.q (packB x.off.toNat 0 (uA x.ln))
def OpJr.enc (x : OpJr) (maj fn : Nat) : List Nat := one maj fn x.q (packB x.off.toNat (uA x.tr) 0)
def OpJrl.enc (x : OpJrl) (maj fn : Nat) : List Nat := one maj fn x.q (packB x.off.toNat (uA x.tr) (uA x.ln))
def OpLoop.enc (x : OpLoop) (maj fn : Nat) : List Nat :=
  one maj fn .always (packL 0 x.len.toNat x.lv.toNat (uG x.cnt))
def OpLoopI.enc (x : OpLoopI) (maj fn : Nat) : List Nat :=
  one maj fn .always (packL x.icnt.toNat x.len.toNat x.lv.toNat 0)
def OpLbrk.enc (x : OpLbrk) (maj fn : Nat) : List Nat := one maj fn x.q (packL 0 0 x.lv.toNat 0)
def OpV1.enc (x : OpV1) (maj fn : Nat) : List Nat :=
  one maj fn x.q (packV 0 x.wm.toNat x.rm.code x.et.code 0 0 x.a.code x.d.toNat)
def OpV2.enc (x : OpV2) (maj fn : Nat) : List Nat :=
  one maj fn x.q (packV 0 x.wm.toNat x.rm.code x.et.code 0 x.b.code x.a.code x.d.toNat)
def OpV3.enc (x : OpV3) (maj fn : Nat) : List Nat :=
  one maj fn x.q (packV 0 x.wm.toNat x.rm.code x.et.code x.c.code x.b.code x.a.code x.d.toNat)
def OpWV2.enc (x : OpWV2) (maj fn : Nat) : List Nat :=
  one maj fn x.q (packV 0 x.wm.toNat 0 x.et.code 0 x.b.code x.a.code (uW x.d))
def OpWWW.enc (x : OpWWW) (maj fn : Nat) : List Nat := one maj fn x.q (packV 0 0 0 0 0 (uW x.b) (uW x.a) (uW x.d))
def OpWW.enc (x : OpWW) (maj fn : Nat) : List Nat := one maj fn x.q (packV 0 0 0 0 0 0 (uW x.a) (uW x.d))
def OpScan.enc (x : OpScan) (maj fn : Nat) : List Nat :=
  one maj fn x.q (packV x.op.toNat x.wm.toNat x.rm.code x.et.code 0 0 x.a.code x.d.toNat)
def OpExtr.enc (x : OpExtr) (maj fn : Nat) : List Nat :=
  one maj fn x.q (match x.mode with
    | .lane a b => packV 0 x.wm.toNat 0 x.et.code 0 b.code a.code (uG x.d)
    | .count => packV 1 x.wm.toNat 0 x.et.code 0 0 0 (uG x.d)
    | .first => packV 2 x.wm.toNat 0 x.et.code 0 0 0 (uG x.d))
def OpInsr.enc (x : OpInsr) (maj fn : Nat) : List Nat :=
  one maj fn x.q (packV 0 0 0 x.et.code 0 x.b.code (64 + uG x.a) x.d.toNat)
def OpCvt.enc (x : OpCvt) (maj fn : Nat) : List Nat :=
  one maj fn x.q (packV x.src.code x.wm.toNat x.rm.code x.et.code 0 (192 + x.part.toNat) x.a.code x.d.toNat)
def OpQuant.enc (x : OpQuant) (maj fn : Nat) : List Nat :=
  one maj fn x.q (match x.fmt with
    | .fp4 r => packV 0 0 x.rm.code 9 0 (64 + uG r) x.a.code x.d.toNat
    | .mx => packV 0 0 x.rm.code 10 0 0 x.a.code x.d.toNat)
def OpPack.enc (x : OpPack) (maj fn : Nat) : List Nat :=
  one maj fn x.q (packV (bit x.sat) 0 0 x.et.code 0 x.b.code x.a.code x.d.toNat)
def OpUnpack.enc (x : OpUnpack) (maj fn : Nat) : List Nat :=
  one maj fn x.q (packV 0 0 0 x.et.code 0 (192 + bit x.half) x.a.code x.d.toNat)
def OpKsend.enc (x : OpKsend) (maj fn : Nat) : List Nat :=
  one maj fn x.q (packV 0 x.wm.toNat 0 x.et.code 0 x.b.code x.keys.toNat 0)
/-- KCFG: its one source is of kind g (R254). -/
def OpG.encKcfg (x : OpG) (maj fn : Nat) : List Nat := one maj fn x.q (packV 0 0 0 0 0 0 (64 + uG x.a) 0)
/-- The M format with its address part. -/
def MemOp.pack (m : MemOp) (ext ord sco asz d : Nat) : Nat :=
  packM m.off.toNat ext ord sco asz m.isc.code (uG m.ix) (uA m.ab) d
def OpLd.enc (x : OpLd) (maj fn : Nat) : List Nat :=
  one maj fn x.q (x.m.pack (bit x.ext) x.ord.code x.sco.code x.asz.code (match x.d with | .g r => uG r | .a r => uA r))
def OpSt.enc (x : OpSt) (maj fn : Nat) : List Nat :=
  one maj fn x.q (x.m.pack 0 x.ord.code x.sco.code x.asz.code (uG x.d))
def OpMemG.enc (x : OpMemG) (maj fn : Nat) : List Nat :=
  one maj fn x.q (x.m.pack (bit x.ext) x.ord.code x.sco.code x.asz.code (uG x.d))
def OpFe.enc (x : OpFe) (maj fn : Nat) : List Nat := one maj fn x.q (x.m.pack 0 x.ord.code x.sco.code 3 0)
def OpFepoll.enc (x : OpFepoll) (maj fn : Nat) : List Nat := one maj fn x.q (x.m.pack 0 x.ord.code x.sco.code 3 (uP x.d))
/-- The ord of QPUSH is rel, that of QCNT rlx and that of the others acq (R252). -/
def OpQue.enc (x : OpQue) (maj fn ord : Nat) : List Nat :=
  one maj fn x.q (packM 0 0 ord x.sco.code 3 x.isc.code (uG x.ix) (uA x.ab) (uG x.d))
def OpQtry.enc (x : OpQtry) (maj fn : Nat) : List Nat :=
  one maj fn x.q (packM x.pn.toNat 0 1 x.sco.code 3 x.isc.code (uG x.ix) (uA x.ab) (uG x.d))
def OpVmem.enc (x : OpVmem) (maj fn : Nat) : List Nat :=
  one maj fn x.q (x.m.pack 0 x.ord.code x.sco.code x.asz.code x.d.toNat)
def OpVldk.enc (x : OpVldk) (maj fn : Nat) : List Nat := one maj fn x.q (x.m.pack 0 0 0 6 x.n.toNat)
def OpWld.enc (x : OpWld) (maj fn : Nat) : List Nat :=
  one maj fn x.q (match x.d with
    | .g r ext => x.m.pack (bit ext) (bit x.nowait) 0 x.asz.code (uG r)
    | .v r => x.m.pack 0 (bit x.nowait) 0 x.asz.code r.toNat)
def OpIwin.enc (x : OpIwin) (maj fn : Nat) : List Nat := one maj fn x.q (x.m.pack 0 0 0 0 (uG x.d))
def OpCpy.enc (x : OpCpy) (maj fn : Nat) : List Nat := two maj fn x.q (packX (uG x.len) (uA x.src) (uA x.dst) (uG x.d)) 0
def OpCpy2.enc (x : OpCpy2) (maj fn : Nat) : List Nat :=
  two maj fn x.q (packX (uG x.len) (uA x.src) (uA x.dst) (uG x.d)) (uG x.rows + 2 ^ 6 * uG x.sstr + 2 ^ 12 * uG x.dstr)
/-- ESTAT, EWAIT, CSTAT and CWAIT (R262). -/
def OpGG.enc2 (x : OpGG) (maj fn : Nat) : List Nat := two maj fn x.q (packX 0 0 (uG x.a) (uG x.d)) 0
def OpColl.enc (x : OpColl) (maj fn : Nat) : List Nat :=
  two maj fn x.q (packX (uG x.cnt) (uA x.src) (uA x.dst) (uG x.d))
    (x.kind.code + 2 ^ 4 * x.op.code + 2 ^ 8 * x.level.toNat + 2 ^ 12 * x.root.toNat)
def OpRing.enc (x : OpRing) (maj fn : Nat) : List Nat := one maj fn x.q (packR (2 ^ 23 * uG x.g) 0 0 0 0 x.m.toNat)
def OpRget.enc (x : OpRget) (maj fn : Nat) : List Nat :=
  one maj fn x.q (packR (x.sel.toNat + 2 ^ 23 * uG x.d) 0 0 0 0 x.m.toNat)
def OpRadv.enc (x : OpRadv) (maj fn : Nat) : List Nat :=
  one maj fn x.q (packR (x.n.toNat + 2 ^ 7 * bit x.far) 0 0 0 0 x.m.toNat)
def OpRquant.enc (x : OpRquant) (maj fn : Nat) : List Nat :=
  two maj fn x.q (packF (uG x.band) (uA x.src) x.m.toNat (uG x.d)) (uG x.str + 2 ^ 6 * bit x.fixed + 2 ^ 7 * x.rm.code)
def OpRfill.enc (x : OpRfill) (maj fn : Nat) : List Nat :=
  two maj fn x.q (packF (uG x.width) (uA x.src) x.m.toNat (uG x.d)) (uG x.str)
def OpMma.enc (x : OpMma) (maj fn : Nat) : List Nat := one maj fn x.q (packR 0 0 0 (bit x.c) x.mb.toNat x.ma.toNat)
def OpMmaf.enc (x : OpMmaf) (maj fn : Nat) : List Nat := one maj fn x.q (packR 0 x.fov.code 0 (bit x.c) x.mb.toNat x.ma.toNat)
def OpMsr.enc (x : OpMsr) (maj fn : Nat) : List Nat :=
  one maj fn x.q (packR 0 x.fov.code x.ring.code (bit x.c) x.mb.toNat x.ma.toNat)
def OpMzero.enc (x : OpMzero) (maj fn : Nat) : List Nat := one maj fn x.q (packR (2 ^ 27 * x.val.code) 0 0 (bit x.c) 0 0)
def OpMverd.enc (x : OpMverd) (maj fn : Nat) : List Nat := one maj fn x.q (packR (2 ^ 23 * uG x.d) 0 0 (bit x.c) 0 0)
def OpMstat.enc (x : OpMstat) (maj fn : Nat) : List Nat :=
  one maj fn x.q (packR (2 ^ 21 * x.sel.toNat + 2 ^ 23 * uG x.d) 0 0 (bit x.c) 0 0)
def OpMdrain.enc (x : OpMdrain) (maj fn : Nat) : List Nat :=
  match x.mode with
  | .mem dst str => two maj fn x.q (packR (2 ^ 14 * x.rm.code + 2 ^ 17 * uG str + 2 ^ 23 * uA dst) x.fov.code 0 (bit x.c) 0 0) 0
  | .vec vd row part => two maj fn x.q (packR (2 ^ 13 + 2 ^ 14 * x.rm.code) x.fov.code 0 (bit x.c) 0 0)
      (vd.toNat + 2 ^ 6 * row.toNat + 2 ^ 12 * part.toNat)
def OpMload.enc (x : OpMload) (maj fn : Nat) : List Nat :=
  one maj fn x.q (packR (2 ^ 17 * uG x.str + 2 ^ 23 * uA x.src) x.fov.code 0 (bit x.c) 0 0)

/-- The words of an instruction; a machine step of the opcode table has none. TEND's word on a stage core is TEND's (R282). -/
def Instr.encode : Instr → List Nat
  | .add x => x.enc 0x01 0x00
  | .subG x => x.enc 0x01 0x01
  | .mul x => x.enc 0x01 0x02
  | .mulhi x => x.enc 0x01 0x03
  | .mulhn x => x.enc 0x01 0x04
  | .div x => x.enc 0x01 0x05
  | .divn x => x.enc 0x01 0x06
  | .remS x => x.enc 0x01 0x07
  | .remn x => x.enc 0x01 0x08
  | .andG x => x.enc 0x01 0x09
  | .orG x => x.enc 0x01 0x0A
  | .xorG x => x.enc 0x01 0x0B
  | .andn x => x.enc 0x01 0x0C
  | .orn x => x.enc 0x01 0x0D
  | .shl x => x.enc 0x01 0x0E
  | .shr x => x.enc 0x01 0x0F
  | .shra x => x.enc 0x01 0x10
  | .rotl x => x.enc 0x01 0x11
  | .rotr x => x.enc 0x01 0x12
  | .minS x => x.enc 0x01 0x13
  | .minn x => x.enc 0x01 0x14
  | .maxS x => x.enc 0x01 0x15
  | .maxn x => x.enc 0x01 0x16
  | .clz x => x.enc 0x01 0x17
  | .ctz x => x.enc 0x01 0x18
  | .popc x => x.enc 0x01 0x19
  | .brev x => x.enc 0x01 0x1A
  | .bswap x => x.enc 0x01 0x1B
  | .addi x => x.enc 0x02 0x00
  | .muli x => x.enc 0x02 0x01
  | .andi x => x.enc 0x02 0x02
  | .ori x => x.enc 0x02 0x03
  | .xori x => x.enc 0x02 0x04
  | .shli x => x.enc 0x02 0x05
  | .shri x => x.enc 0x02 0x06
  | .shrai x => x.enc 0x02 0x07
  | .rotli x => x.enc 0x02 0x08
  | .mini x => x.enc 0x02 0x09
  | .maxi x => x.enc 0x02 0x0A
  | .li x => x.enc 0x03 0x00
  | .lih x => x.enc 0x03 0x01
  | .cmpeq x => x.enc 0x04 0x00
  | .cmpne x => x.enc 0x04 0x01
  | .cmplt x => x.enc 0x04 0x02
  | .cmple x => x.enc 0x04 0x03
  | .cmpltn x => x.enc 0x04 0x04
  | .cmplen x => x.enc 0x04 0x05
  | .cmpeqi x => x.enc 0x04 0x06
  | .cmplti x => x.enc 0x04 0x07
  | .tbit x => x.enc 0x04 0x08
  | .pand x => x.enc 0x05 0x00
  | .por x => x.enc 0x05 0x01
  | .pxor x => x.enc 0x05 0x02
  | .pandn x => x.enc 0x05 0x03
  | .pmov x => x.enc 0x05 0x04
  | .extS x => x.enc 0x06 0x00
  | .extn x => x.enc 0x06 0x01
  | .ins x => x.enc 0x06 0x02
  | .sel x => x.enc 0x06 0x03
  | .ptog x => x.enc 0x06 0x04
  | .gtop x => x.enc 0x06 0x05
  | .aadd x => x.enc 0x07 0x00
  | .aaddi x => x.enc 0x07 0x01
  | .amov x => x.enc 0x07 0x02
  | .afrom x => x.enc 0x07 0x03
  | .atog x => x.enc 0x07 0x04
  | .afmt x => x.enc 0x07 0x05
  | .adiff x => x.enc 0x07 0x06
  | .acmplt x => x.enc 0x07 0x07
  | .bchk x => x.enc 0x08 0x00
  | .bchki x => x.enc 0x08 0x01
  | .br x => x.enc 0x09 0x00
  | .brl x => x.enc 0x09 0x01
  | .jr x => x.enc 0x09 0x02
  | .jrl x => x.enc 0x09 0x03
  | .loop x => x.enc 0x0A 0x00
  | .loopi x => x.enc 0x0A 0x01
  | .lbrk x => x.enc 0x0A 0x02
  | .vadd x => x.enc 0x10 0x00
  | .vsub x => x.enc 0x10 0x01
  | .vmul x => x.enc 0x10 0x02
  | .vfma x => x.enc 0x10 0x03
  | .vfms x => x.enc 0x10 0x04
  | .vfnma x => x.enc 0x10 0x05
  | .vmin x => x.enc 0x10 0x06
  | .vmax x => x.enc 0x10 0x07
  | .vabs x => x.enc 0x10 0x08
  | .vneg x => x.enc 0x10 0x09
  | .vdiv x => x.enc 0x10 0x0A
  | .vsqrt x => x.enc 0x10 0x0B
  | .vscl x => x.enc 0x10 0x0C
  | .viadd x => x.enc 0x11 0x00
  | .visub x => x.enc 0x11 0x01
  | .vimul x => x.enc 0x11 0x02
  | .vimulhi x => x.enc 0x11 0x03
  | .vimin x => x.enc 0x11 0x04
  | .vimax x => x.enc 0x11 0x05
  | .vand x => x.enc 0x11 0x06
  | .vor x => x.enc 0x11 0x07
  | .vxor x => x.enc 0x11 0x08
  | .vshl x => x.enc 0x11 0x09
  | .vshr x => x.enc 0x11 0x0A
  | .vshra x => x.enc 0x11 0x0B
  | .vpopc x => x.enc 0x11 0x0C
  | .viadds x => x.enc 0x11 0x0D
  | .vcmpeq x => x.enc 0x12 0x00
  | .vcmplt x => x.enc 0x12 0x01
  | .vcmple x => x.enc 0x12 0x02
  | .vclass x => x.enc 0x12 0x03
  | .vsel x => x.enc 0x12 0x04
  | .wand x => x.enc 0x12 0x05
  | .wor x => x.enc 0x12 0x06
  | .wnot x => x.enc 0x12 0x07
  | .vexp2 x => x.enc 0x13 0x00
  | .vlog2 x => x.enc 0x13 0x01
  | .vrcp x => x.enc 0x13 0x02
  | .vrsq x => x.enc 0x13 0x03
  | .vtanh x => x.enc 0x13 0x04
  | .vsigm x => x.enc 0x13 0x05
  | .vrsum x => x.enc 0x14 0x00
  | .vrmax x => x.enc 0x14 0x01
  | .vrmin x => x.enc 0x14 0x02
  | .vrdot x => x.enc 0x14 0x03
  | .vscan x => x.enc 0x14 0x04
  | .vmov x => x.enc 0x15 0x00
  | .vbcast x => x.enc 0x15 0x01
  | .vshuf x => x.enc 0x15 0x02
  | .vrot x => x.enc 0x15 0x03
  | .vextr x => x.enc 0x15 0x04
  | .vinsr x => x.enc 0x15 0x05
  | .vcompress x => x.enc 0x15 0x06
  | .vexpand x => x.enc 0x15 0x07
  | .vcswap x => x.enc 0x15 0x08
  | .vmatch x => x.enc 0x15 0x09
  | .vcvt x => x.enc 0x16 0x00
  | .vquant x => x.enc 0x16 0x01
  | .vdeq x => x.enc 0x16 0x02
  | .vpack x => x.enc 0x16 0x03
  | .vunpack x => x.enc 0x16 0x04
  | .vld x => x.enc 0x17 0x00
  | .vst x => x.enc 0x17 0x01
  | .vlds x => x.enc 0x17 0x02
  | .vsts x => x.enc 0x17 0x03
  | .vgath x => x.enc 0x17 0x04
  | .vscat x => x.enc 0x17 0x05
  | .vldk x => x.enc 0x17 0x06
  | .scfg x => x.enc 0x18 0x00
  | .sdim x => x.enc 0x18 0x01
  | .son x => x.enc 0x18 0x02
  | .soff x => x.enc 0x18 0x03
  | .swait x => x.enc 0x18 0x04
  | .rep x => x.enc 0x19 0x00
  | .repw x => x.enc 0x19 0x01
  | .ld x => x.enc 0x20 0x00
  | .st x => x.enc 0x21 0x00
  | .lds x => x.enc 0x22 0x00
  | .feset x => x.enc 0x22 0x01
  | .feclr x => x.enc 0x22 0x02
  | .fepoll x => x.enc 0x22 0x03
  | .amoadd x => x.enc 0x23 0x00
  | .amoand x => x.enc 0x23 0x01
  | .amoor x => x.enc 0x23 0x02
  | .amoxor x => x.enc 0x23 0x03
  | .amomin x => x.enc 0x23 0x04
  | .amomax x => x.enc 0x23 0x05
  | .amominn x => x.enc 0x23 0x06
  | .amomaxn x => x.enc 0x23 0x07
  | .amoswp x => x.enc 0x23 0x08
  | .amocas x => x.enc 0x23 0x09
  | .amofadd x => x.enc 0x23 0x0A
  | .amoinc x => x.enc 0x23 0x0B
  | .fence x => x.enc 0x24 0x00
  | .fencee x => x.enc 0x24 0x01
  | .qpush x => x.enc 0x25 0x00 2
  | .qpop x => x.enc 0x25 0x01 1
  | .qpopw x => x.enc 0x25 0x02 1
  | .qtry x => x.enc 0x25 0x03
  | .qcnt x => x.enc 0x25 0x04 0
  | .ksend x => x.enc 0x26 0x00
  | .kcfg x => x.encKcfg 0x26 0x01
  | .kflush x => x.enc 0x26 0x02
  | .cpy x => x.enc 0x27 0x00
  | .cpy2 x => x.enc 0x27 0x01
  | .cpyw x => x.enc 0x27 0x02
  | .estat x => x.enc2 0x27 0x03
  | .ewait x => x.enc2 0x27 0x04
  | .coll x => x.enc 0x28 0x00
  | .cstat x => x.enc2 0x28 0x01
  | .cwait x => x.enc2 0x28 0x02
  | .wld x => x.enc 0x29 0x00
  | .iwin x => x.enc 0x29 0x01
  | .xmark x => x.enc 0x2A 0x00
  | .xwait x => x.enc 0x2A 0x01
  | .xpeer x => x.enc 0x2A 0x02
  | .tspawn x => x.enc 0x30 0x00
  | .tdec x => x.enc 0x30 0x01
  | .tend x => x.enc 0x30 0x02
  | .stageTend x => x.enc 0x30 0x02
  | .tyield x => x.enc 0x30 0x03
  | .thint x => x.enc 0x30 0x04
  | .bar x => x.enc 0x31 0x00
  | .barw x => x.enc 0x31 0x01
  | .sstep x => x.enc 0x31 0x02
  | .wfe x => x.enc 0x32 0x00
  | .wfed x => x.enc 0x32 0x01
  | .sev x => x.enc 0x32 0x02 true
  | .gtime x => x.enc 0x32 0x03 false
  | .srr x => x.enc 0x33 0x00
  | .srw x => x.enc 0x33 0x01
  | .trapI x => x.enc 0x33 0x02
  | .tret x => x.enc 0x33 0x03
  | .nop x => x.enc 0x33 0x04
  | .brk x => x.enc 0x33 0x05
  | .rcfg x => x.enc 0x38 0x00
  | .rtol x => x.enc 0x38 0x01
  | .rget x => x.enc 0x38 0x02
  | .radv x => x.enc 0x38 0x03
  | .rwait x => x.enc 0x38 0x04
  | .rquant x => x.enc 0x39 0x00
  | .rfill x => x.enc 0x39 0x01
  | .rfillw x => x.enc 0x39 0x02
  | .mma x => x.enc 0x3A 0x00
  | .mmaf x => x.enc 0x3A 0x01
  | .msr x => x.enc 0x3A 0x02
  | .mzero x => x.enc 0x3A 0x03
  | .mverd x => x.enc 0x3A 0x04
  | .mstat x => x.enc 0x3A 0x05
  | .mdrain x => x.enc 0x3B 0x00
  | .mload x => x.enc 0x3B 0x01
  | .repeatPassIssue _ | .fillPublish _ | .anchorRefetch _ | .mmaCommit _ | .loadStep _ | .storeStep _ | .ackStep _
  | .queuePushStep _ | .qpushResend _ | .queuePopStep _ | .sevSet _ | .ksendDelivery _ | .engineRead _ | .engineWrite _
  | .engineDone _ | .engineFault _ | .gateArrive _ | .gateDepart _ | .barrierComplete _ | .barwTimeout _ | .wfedTimeout _
  | .xwaitTimeout _ | .drainMarker _ | .yieldTimeout _ | .continuationReady _ | .dispatch _ | .continuationMigrate _
  | .migrationReturn _ | .pcntDecrement _ | .launchEntryArrival _ | .stageStart _ | .cloadRefresh _ | .sliceBoundary _
  | .solsticeStop _ | .contextSave _ | .restore _ | .vigilExpiry _ | .intercalaryWindowEnd _ | .translationPublish _
  | .retranslation _ | .counterCopy _ | .counterRelease _ | .doorbellInit _ | .doorbellTail _ | .responsePost _ | .getVersion _
  | .getCapabilities _ | .negotiateAlgorithms _ | .getDigests _ | .getCertificate _ | .challenge _ | .getMeasurements _
  | .keyExchange _ | .finish _ | .keyUpdate _ | .heartbeat _ | .endSession _ | .admitObject _ | .unloadObject _
  | .unloadObjectForced _ | .createTenant _ | .setExtents _ | .revokeExtent _ | .moveExtent _ | .launchTeam _ | .stopTeam _
  | .stopTeamResume _ | .resetTenant _ | .granuleZeroed _ | .setCalendar _ | .readCounters _ | .readFaults _ | .lock _
  | .unlock _ | .attest _ | .migrateInOffer _ | .migrateOutSend _ | .migrateInImport _ | .migrateOutCommit _
  | .migrateInConfirm _ | .migrateOutClose _ | .migrateOutAbort _ | .migrateInAbort _ | .migrateInResume _ | .migrateInEscrow _
  | .fabricConfig _ | .laneLock _ | .laneLockTimeout _ | .portHandshake _ | .fabricFlitReceive _ | .fecReplay _
  | .allowanceReturn _ | .timestampExchange _ | .powerOn _ | .startCold _ | .startWarm _ | .hostPortTraining _
  | .powerManagerStart _ | .trustTileStart _ | .hbmStackTraining _ | .lpddrTraining _ | .dieTraining _ | .varpenStart _
  | .railMeasurement _ | .droop _ | .tempThreshold _ | .thermalStep _ | .thermalTrip _ | .migrationArrival _ => []

/-! ## Decoding, shape by shape: the fields of a first word `w` and an extension `e` -/

/-- The guard of a word. -/
def guardOf (w : Nat) : Guard := Guard.ofCode (fld w 52 4)
def bv (n : Nat) (w lo : Nat) : BitVec n := BitVec.ofNat n (fld w lo n)
/-- The d, s1, s2 and s3 fields of formats S, V and M. -/
def fD (w : Nat) : Nat := fld w 38 6
def fS1 (w : Nat) : Nat := fld w 32 6
def fS2 (w : Nat) : Nat := fld w 26 6
def fS3 (w : Nat) : Nat := fld w 20 6
def vSrc1 (w : Nat) : Src := Src.ofCode (fld w 30 8)
def vSrc2 (w : Nat) : Src := Src.ofCode (fld w 22 8)
def vSrc3 (w : Nat) : Src := Src.ofCode (fld w 14 8)
def vEt (w : Nat) : Fmt := Fmt.ofCode (fld w 10 4)
def vRm (w : Nat) : Rm := Rm.ofCode (fld w 7 3)
def mAddr (w : Nat) : MemOp := ⟨toA (fS1 w), toG (fS2 w), Isc.ofCode (fld w 24 2), bv 13 w 0⟩
def mAsz (w : Nat) : Asz := Asz.ofCode (fld w 20 4)
def mSco (w : Nat) : Scope := Scope.ofCode (fld w 16 4)
def mOrd (w : Nat) : Ord := Ord.ofCode (fld w 14 2)
def mExt (w : Nat) : Bool := fld w 13 1 == 1

def decN (w _e : Nat) : OpN := ⟨guardOf w⟩
def decGGG (w _e : Nat) : OpGGG := ⟨guardOf w, toG (fD w), toG (fS1 w), toG (fS2 w)⟩
def decGG (w _e : Nat) : OpGG := ⟨guardOf w, toG (fD w), toG (fS1 w)⟩
def decGGI (w _e : Nat) : OpGGI := ⟨guardOf w, toG (fD w), toG (fS1 w), bv 20 w 0⟩
def decGGSh (w _e : Nat) : OpGGSh := ⟨guardOf w, toG (fD w), toG (fS1 w), bv 6 w 0⟩
def decGI (w _e : Nat) : OpGI := ⟨guardOf w, toG (fD w), bv 20 w 0⟩
def decPGG (w _e : Nat) : OpPGG := ⟨guardOf w, toP (fD w), toG (fS1 w), toG (fS2 w)⟩
def decPGI (w _e : Nat) : OpPGI := ⟨guardOf w, toP (fD w), toG (fS1 w), bv 20 w 0⟩
def decPGBit (w _e : Nat) : OpPGBit := ⟨guardOf w, toP (fD w), toG (fS1 w), bv 6 w 0⟩
def decPPP (w _e : Nat) : OpPPP := ⟨guardOf w, toP (fD w), toP (fS1 w), toP (fS2 w)⟩
def decPP (w _e : Nat) : OpPP := ⟨guardOf w, toP (fD w), toP (fS1 w)⟩
def decField (w _e : Nat) : OpField := ⟨guardOf w, toG (fD w), toG (fS1 w), bv 6 w 0, bv 7 w 6⟩
def decSel (w _e : Nat) : OpSel := ⟨guardOf w, toG (fD w), toG (fS1 w), toG (fS2 w), toP (fS3 w)⟩
def decGP (w _e : Nat) : OpGP := ⟨guardOf w, toG (fD w), toP (fS1 w)⟩
def decPG (w _e : Nat) : OpPG := ⟨guardOf w, toP (fD w), toG (fS1 w)⟩
def decAAG (w _e : Nat) : OpAAG := ⟨guardOf w, toA (fD w), toA (fS1 w), toG (fS2 w)⟩
def decAAI (w _e : Nat) : OpAAI := ⟨guardOf w, toA (fD w), toA (fS1 w), bv 20 w 0⟩
def decAA (w _e : Nat) : OpAA := ⟨guardOf w, toA (fD w), toA (fS1 w)⟩
def decAFrom (w _e : Nat) : OpAFrom := ⟨guardOf w, toA (fD w), toG (fS1 w), bv 5 w 0, Fmt.ofCode (fld w 5 4), bv 3 w 9⟩
def decAToG (w _e : Nat) : OpAToG := ⟨guardOf w, toG (fD w), toA (fS1 w), bv 5 w 0⟩
def decAFmt (w _e : Nat) : OpAFmt := ⟨guardOf w, toA (fD w), toA (fS1 w), Fmt.ofCode (fld w 0 4), bv 3 w 5⟩
def decGAA (w _e : Nat) : OpGAA := ⟨guardOf w, toG (fD w), toA (fS1 w), toA (fS2 w)⟩
def decPAA (w _e : Nat) : OpPAA := ⟨guardOf w, toP (fD w), toA (fS1 w), toA (fS2 w)⟩
def decChk (w _e : Nat) : OpChk := ⟨guardOf w, toA (fS1 w), toG (fS2 w), bv 5 w 0, bv 4 w 5⟩
def decChkI (w _e : Nat) : OpChkI := ⟨guardOf w, toA (fS1 w), toG (fS2 w), bv 5 w 0, bv 4 w 5, bv 11 w 9⟩
def decScfg (w _e : Nat) : OpScfg := ⟨guardOf w, toA (fS1 w), bv 2 w 0, fld w 2 1 == 1⟩
def decSdim (w _e : Nat) : OpSdim := ⟨guardOf w, toG (fS1 w), toG (fS2 w), bv 2 w 0, bv 2 w 2⟩
def decSlot (w _e : Nat) : OpSlot := ⟨guardOf w, bv 2 w 0⟩
def decRep (w _e : Nat) : OpRep := ⟨toG (fS1 w), bv 4 w 0, bv 4 w 4, bv 12 w 8⟩
def decFence (w _e : Nat) : OpFence := ⟨guardOf w, Scope.ofCode (fld w 0 4)⟩
def decEpoch (w _e : Nat) : OpEpoch := ⟨guardOf w, bv 8 w 0⟩
def decXwait (w _e : Nat) : OpXwait := ⟨guardOf w, toP (fD w), toG (fS1 w), bv 8 w 0⟩
def decA (w _e : Nat) : OpA := ⟨guardOf w, toA (fS1 w)⟩
/-- SEV: the register is s1. -/
def decG1 (w _e : Nat) : OpG := ⟨guardOf w, toG (fS1 w)⟩
/-- GTIME: the register is d. -/
def decGd (w _e : Nat) : OpG := ⟨guardOf w, toG (fD w)⟩
def decKcfg (w _e : Nat) : OpG := ⟨guardOf w, toG (fld w 30 6)⟩
def decHint (w _e : Nat) : OpHint := ⟨guardOf w, bv 2 w 0⟩
def decLevel (w _e : Nat) : OpLevel := ⟨guardOf w, bv 3 w 0⟩
def decBarw (w _e : Nat) : OpBarw := ⟨guardOf w, toP (fD w), toG (fS1 w), bv 3 w 0⟩
def decSstep (w _e : Nat) : OpSstep := ⟨guardOf w, toG (fD w), bv 3 w 0⟩
def decSrr (w _e : Nat) : OpSrr := ⟨guardOf w, toG (fD w), bv 12 w 0⟩
def decSrw (w _e : Nat) : OpSrw := ⟨guardOf w, toG (fS1 w), bv 12 w 0⟩
def decTrap (w _e : Nat) : OpTrap := ⟨guardOf w, toG (fS1 w), bv 8 w 0⟩
def decTret (w _e : Nat) : OpTret := ⟨guardOf w, fld w 0 1 == 1⟩
def decBrk (w _e : Nat) : OpBrk := ⟨guardOf w, bv 20 w 0⟩
def decBr (w _e : Nat) : OpBr := ⟨guardOf w, bv 32 w 0⟩
def decBrl (w _e : Nat) : OpBrl := ⟨guardOf w, toA (fD w), bv 32 w 0⟩
def decJr (w _e : Nat) : OpJr := ⟨guardOf w, toA (fS1 w), bv 32 w 0⟩
def decJrl (w _e : Nat) : OpJrl := ⟨guardOf w, toA (fD w), toA (fS1 w), bv 32 w 0⟩
def decLoop (w _e : Nat) : OpLoop := ⟨toG (fD w), bv 2 w 36, bv 8 w 28⟩
def decLoopI (w _e : Nat) : OpLoopI := ⟨bv 2 w 36, bv 8 w 28, bv 28 w 0⟩
def decLbrk (w _e : Nat) : OpLbrk := ⟨guardOf w, bv 2 w 36⟩
def decV1 (w _e : Nat) : OpV1 := ⟨guardOf w, toG (fD w), vSrc1 w, vEt w, vRm w, bv 3 w 4⟩
def decV2 (w _e : Nat) : OpV2 := ⟨guardOf w, toG (fD w), vSrc1 w, vSrc2 w, vEt w, vRm w, bv 3 w 4⟩
def decV3 (w _e : Nat) : OpV3 := ⟨guardOf w, toG (fD w), vSrc1 w, vSrc2 w, vSrc3 w, vEt w, vRm w, bv 3 w 4⟩
def decWV2 (w _e : Nat) : OpWV2 := ⟨guardOf w, toP (fD w), vSrc1 w, vSrc2 w, vEt w, bv 3 w 4⟩
def decWWW (w _e : Nat) : OpWWW := ⟨guardOf w, toP (fD w), toP (fld w 30 6), toP (fld w 22 6)⟩
def decWW (w _e : Nat) : OpWW := ⟨guardOf w, toP (fD w), toP (fld w 30 6)⟩
def decScan (w _e : Nat) : OpScan := ⟨guardOf w, toG (fD w), vSrc1 w, vEt w, vRm w, bv 3 w 4, bv 2 w 0⟩
def decExtr (w _e : Nat) : OpExtr :=
  ⟨guardOf w, toG (fD w), (match fld w 0 4 with | 0 => .lane (vSrc1 w) (vSrc2 w) | 1 => .count | _ => .first), vEt w, bv 3 w 4⟩
def decInsr (w _e : Nat) : OpInsr := ⟨guardOf w, toG (fD w), toG (fld w 30 6), vSrc2 w, vEt w⟩
def decCvt (w _e : Nat) : OpCvt :=
  ⟨guardOf w, toG (fD w), vSrc1 w, bv 6 w 22, vEt w, Fmt.ofCode (fld w 0 4), vRm w, bv 3 w 4⟩
def decQuant (w _e : Nat) : OpQuant :=
  ⟨guardOf w, toG (fD w), vSrc1 w, (match fld w 10 4 with | 9 => .fp4 (toG (fld w 22 6)) | _ => .mx), vRm w⟩
def decPack (w _e : Nat) : OpPack := ⟨guardOf w, toG (fD w), vSrc1 w, vSrc2 w, vEt w, fld w 0 1 == 1⟩
def decUnpack (w _e : Nat) : OpUnpack := ⟨guardOf w, toG (fD w), vSrc1 w, fld w 22 1 == 1, vEt w⟩
def decKsend (w _e : Nat) : OpKsend := ⟨guardOf w, toG (fld w 30 6), vSrc2 w, vEt w, bv 3 w 4⟩
def decLd (w _e : Nat) : OpLd :=
  ⟨guardOf w, (if fD w < 32 then .g (toG (fD w)) else .a (toA (fD w))), mAddr w, mAsz w, mOrd w, mSco w, mExt w⟩
def decSt (w _e : Nat) : OpSt := ⟨guardOf w, toG (fD w), mAddr w, mAsz w, mOrd w, mSco w⟩
def decMemG (w _e : Nat) : OpMemG := ⟨guardOf w, toG (fD w), mAddr w, mAsz w, mOrd w, mSco w, mExt w⟩
def decFe (w _e : Nat) : OpFe := ⟨guardOf w, mAddr w, mOrd w, mSco w⟩
def decFepoll (w _e : Nat) : OpFepoll := ⟨guardOf w, toP (fD w), mAddr w, mOrd w, mSco w⟩
def decQue (w _e : Nat) : OpQue := ⟨guardOf w, toG (fD w), toA (fS1 w), toG (fS2 w), Isc.ofCode (fld w 24 2), mSco w⟩
def decQtry (w _e : Nat) : OpQtry :=
  ⟨guardOf w, toG (fD w), bv 3 w 0, toA (fS1 w), toG (fS2 w), Isc.ofCode (fld w 24 2), mSco w⟩
def decVmem (w _e : Nat) : OpVmem := ⟨guardOf w, toG (fD w), mAddr w, mAsz w, mOrd w, mSco w⟩
def decVldk (w _e : Nat) : OpVldk := ⟨guardOf w, bv 6 w 38, mAddr w⟩
def decWld (w _e : Nat) : OpWld :=
  ⟨guardOf w, (if (mAsz w).isScalar then .g (toG (fD w)) (mExt w) else .v (toG (fD w))), mAddr w, mAsz w, fld w 14 1 == 1⟩
def decIwin (w _e : Nat) : OpIwin := ⟨guardOf w, toG (fD w), mAddr w⟩
def decCpy (w _e : Nat) : OpCpy := ⟨guardOf w, toG (fD w), toA (fS1 w), toA (fS2 w), toG (fS3 w)⟩
def decCpy2 (w e : Nat) : OpCpy2 :=
  ⟨guardOf w, toG (fD w), toA (fS1 w), toA (fS2 w), toG (fS3 w), toG (fld e 0 6), toG (fld e 6 6), toG (fld e 12 6)⟩
def decColl (w e : Nat) : OpColl :=
  ⟨guardOf w, toG (fD w), toA (fS1 w), toA (fS2 w), toG (fS3 w), CollKind.ofCode (fld e 0 4), CollOp.ofCode (fld e 4 4), bv 3 e 8,
    bv 16 e 12⟩
def decRing (w _e : Nat) : OpRing := ⟨guardOf w, bv 3 w 41, toG (fld w 23 6)⟩
def decRget (w _e : Nat) : OpRget := ⟨guardOf w, toG (fld w 23 6), bv 3 w 41, bv 3 w 0⟩
def decRadv (w _e : Nat) : OpRadv := ⟨guardOf w, bv 3 w 41, bv 7 w 0, fld w 7 1 == 1⟩
def decRquant (w e : Nat) : OpRquant :=
  ⟨guardOf w, toG (fD w), bv 3 w 35, toA (fS2 w), toG (fS3 w), toG (fld e 0 6), fld e 6 1 == 1, Rm.ofCode (fld e 7 3)⟩
def decRfill (w e : Nat) : OpRfill := ⟨guardOf w, toG (fD w), bv 3 w 35, toA (fS2 w), toG (fS3 w), toG (fld e 0 6)⟩
def decMma (w _e : Nat) : OpMma := ⟨guardOf w, fld w 37 1 == 1, bv 3 w 41, bv 3 w 38⟩
def decMmaf (w _e : Nat) : OpMmaf := ⟨guardOf w, fld w 37 1 == 1, bv 3 w 41, bv 3 w 38, Fmt.ofCode (fld w 29 4)⟩
def decMsr (w _e : Nat) : OpMsr :=
  ⟨guardOf w, fld w 37 1 == 1, bv 3 w 41, bv 3 w 38, Semiring.ofCode (fld w 33 4), Fmt.ofCode (fld w 29 4)⟩
def decMzero (w _e : Nat) : OpMzero := ⟨guardOf w, fld w 37 1 == 1, ZeroVal.ofCode (fld w 27 2)⟩
def decMverd (w _e : Nat) : OpMverd := ⟨guardOf w, fld w 37 1 == 1, toG (fld w 23 6)⟩
def decMstat (w _e : Nat) : OpMstat := ⟨guardOf w, fld w 37 1 == 1, toG (fld w 23 6), bv 2 w 21⟩
def decMdrain (w e : Nat) : OpMdrain :=
  ⟨guardOf w, fld w 37 1 == 1, AccFmt.ofCode (fld w 29 4), Rm.ofCode (fld w 14 3),
    (if fld w 13 1 == 1 then .vec (toG (fld e 0 6)) (bv 6 e 6) (bv 3 e 12) else .mem (toA (fld w 23 6)) (toG (fld w 17 6)))⟩
def decMload (w _e : Nat) : OpMload :=
  ⟨guardOf w, fld w 37 1 == 1, AccFmt.ofCode (fld w 29 4), toA (fld w 23 6), toG (fld w 17 6)⟩

/-! ## The opcode map (R123) -/

/-- A function of a major: whether its format has two words, whether it must be unguarded, and its reading of the words. -/
structure Entry where
  two : Bool
  bare : Bool
  read : Nat → Nat → Instr

/-- A one-word function. -/
def Entry.s {α : Type} (c : α → Instr) (d : Nat → Nat → α) : Entry := ⟨false, false, fun w e => c (d w e)⟩
/-- A one-word function that must be unguarded. -/
def Entry.u {α : Type} (c : α → Instr) (d : Nat → Nat → α) : Entry := ⟨false, true, fun w e => c (d w e)⟩
/-- A two-word function. -/
def Entry.x {α : Type} (c : α → Instr) (d : Nat → Nat → α) : Entry := ⟨true, false, fun w e => c (d w e)⟩

/-- The functions of a major in the order of their codes; `none` for an unassigned major. -/
def functionsOf (maj : Nat) : Option (List Entry) :=
  match maj with
  | 0x01 => some [.s .add decGGG, .s .subG decGGG, .s .mul decGGG, .s .mulhi decGGG, .s .mulhn decGGG, .s .div decGGG,
      .s .divn decGGG, .s .remS decGGG, .s .remn decGGG, .s .andG decGGG, .s .orG decGGG, .s .xorG decGGG, .s .andn decGGG,
      .s .orn decGGG, .s .shl decGGG, .s .shr decGGG, .s .shra decGGG, .s .rotl decGGG, .s .rotr decGGG, .s .minS decGGG,
      .s .minn decGGG, .s .maxS decGGG, .s .maxn decGGG, .s .clz decGG, .s .ctz decGG, .s .popc decGG, .s .brev decGG,
      .s .bswap decGG]
  | 0x02 => some [.s .addi decGGI, .s .muli decGGI, .s .andi decGGI, .s .ori decGGI, .s .xori decGGI, .s .shli decGGSh,
      .s .shri decGGSh, .s .shrai decGGSh, .s .rotli decGGSh, .s .mini decGGI, .s .maxi decGGI]
  | 0x03 => some [.s .li decGI, .s .lih decGGI]
  | 0x04 => some [.s .cmpeq decPGG, .s .cmpne decPGG, .s .cmplt decPGG, .s .cmple decPGG, .s .cmpltn decPGG, .s .cmplen decPGG,
      .s .cmpeqi decPGI, .s .cmplti decPGI, .s .tbit decPGBit]
  | 0x05 => some [.s .pand decPPP, .s .por decPPP, .s .pxor decPPP, .s .pandn decPPP, .s .pmov decPP]
  | 0x06 => some [.s .extS decField, .s .extn decField, .s .ins decField, .s .sel decSel, .s .ptog decGP, .s .gtop decPG]
  | 0x07 => some [.s .aadd decAAG, .s .aaddi decAAI, .s .amov decAA, .s .afrom decAFrom, .s .atog decAToG, .s .afmt decAFmt,
      .s .adiff decGAA, .s .acmplt decPAA]
  | 0x08 => some [.s .bchk decChk, .s .bchki decChkI]
  | 0x09 => some [.s .br decBr, .s .brl decBrl, .s .jr decJr, .s .jrl decJrl]
  | 0x0A => some [.u .loop decLoop, .u .loopi decLoopI, .s .lbrk decLbrk]
  | 0x10 => some [.s .vadd decV2, .s .vsub decV2, .s .vmul decV2, .s .vfma decV3, .s .vfms decV3, .s .vfnma decV3, .s .vmin decV2,
      .s .vmax decV2, .s .vabs decV1, .s .vneg decV1, .s .vdiv decV2, .s .vsqrt decV1, .s .vscl decV2]
  | 0x11 => some [.s .viadd decV2, .s .visub decV2, .s .vimul decV2, .s .vimulhi decV2, .s .vimin decV2, .s .vimax decV2,
      .s .vand decV2, .s .vor decV2, .s .vxor decV2, .s .vshl decV2, .s .vshr decV2, .s .vshra decV2, .s .vpopc decV1,
      .s .viadds decV2]
  | 0x12 => some [.s .vcmpeq decWV2, .s .vcmplt decWV2, .s .vcmple decWV2, .s .vclass decV1, .s .vsel decV2, .s .wand decWWW,
      .s .wor decWWW, .s .wnot decWW]
  | 0x13 => some [.s .vexp2 decV1, .s .vlog2 decV1, .s .vrcp decV1, .s .vrsq decV1, .s .vtanh decV1, .s .vsigm decV1]
  | 0x14 => some [.s .vrsum decV1, .s .vrmax decV1, .s .vrmin decV1, .s .vrdot decV2, .s .vscan decScan]
  | 0x15 => some [.s .vmov decV1, .s .vbcast decV2, .s .vshuf decV2, .s .vrot decV2, .s .vextr decExtr, .s .vinsr decInsr,
      .s .vcompress decV1, .s .vexpand decV1, .s .vcswap decV3, .s .vmatch decWV2]
  | 0x16 => some [.s .vcvt decCvt, .s .vquant decQuant, .s .vdeq decQuant, .s .vpack decPack, .s .vunpack decUnpack]
  | 0x17 => some [.s .vld decVmem, .s .vst decVmem, .s .vlds decVmem, .s .vsts decVmem, .s .vgath decVmem, .s .vscat decVmem,
      .s .vldk decVldk]
  | 0x18 => some [.s .scfg decScfg, .s .sdim decSdim, .s .son decSlot, .s .soff decSlot, .s .swait decSlot]
  | 0x19 => some [.u .rep decRep, .s .repw decN]
  | 0x20 => some [.s .ld decLd]
  | 0x21 => some [.s .st decSt]
  | 0x22 => some [.s .lds decMemG, .s .feset decFe, .s .feclr decFe, .s .fepoll decFepoll]
  | 0x23 => some [.s .amoadd decMemG, .s .amoand decMemG, .s .amoor decMemG, .s .amoxor decMemG, .s .amomin decMemG,
      .s .amomax decMemG, .s .amominn decMemG, .s .amomaxn decMemG, .s .amoswp decMemG, .s .amocas decMemG, .s .amofadd decMemG,
      .s .amoinc decMemG]
  | 0x24 => some [.s .fence decFence, .s .fencee decFence]
  | 0x25 => some [.s .qpush decQue, .s .qpop decQue, .s .qpopw decQue, .s .qtry decQtry, .s .qcnt decQue]
  | 0x26 => some [.s .ksend decKsend, .s .kcfg decKcfg, .s .kflush decN]
  | 0x27 => some [.x .cpy decCpy, .x .cpy2 decCpy2, .x .cpyw decCpy, .x .estat decGG, .x .ewait decGG]
  | 0x28 => some [.x .coll decColl, .x .cstat decGG, .x .cwait decGG]
  | 0x29 => some [.s .wld decWld, .s .iwin decIwin]
  | 0x2A => some [.s .xmark decEpoch, .s .xwait decXwait, .s .xpeer decGG]
  | 0x30 => some [.s .tspawn decA, .s .tdec decA, .s .tend decN, .s .tyield decN, .s .thint decHint]
  | 0x31 => some [.s .bar decLevel, .s .barw decBarw, .s .sstep decSstep]
  | 0x32 => some [.s .wfe decN, .s .wfed decPG, .s .sev decG1, .s .gtime decGd]
  | 0x33 => some [.s .srr decSrr, .s .srw decSrw, .s .trapI decTrap, .s .tret decTret, .s .nop decN, .s .brk decBrk]
  | 0x38 => some [.s .rcfg decRing, .s .rtol decRing, .s .rget decRget, .s .radv decRadv, .s .rwait decRadv]
  | 0x39 => some [.x .rquant decRquant, .x .rfill decRfill, .x .rfillw decRfill]
  | 0x3A => some [.s .mma decMma, .s .mmaf decMmaf, .s .msr decMsr, .s .mzero decMzero, .s .mverd decMverd, .s .mstat decMstat]
  | 0x3B => some [.x .mdrain decMdrain, .s .mload decMload]
  | _ => none

/-- The instruction of a first word `w` and the word above it `e`, by the tests of R126 in their order, but for the column test,
which `decodeFor` makes. A one-word instruction does not read `e`. -/
def decode (w e : Nat) : Except DecodeError Instr :=
  if fld w 62 2 ≥ 2 then .error .size
  else match functionsOf (fld w 56 6) with
    | none => .error .major
    | some fs => match fs[fld w 44 8]? with
      | none => .error .function
      | some f =>
        if (fld w 62 2 == 1) != f.two then .error .format
        else if fld w 52 4 == 8 then .error .guard
        else if f.bare && fld w 52 4 != 0 then .error .unguardedOnly
        else
          let i := f.read w e
          if i.wf && i.encode == (if f.two then [w, e] else [w]) then .ok i else .error .field

/-! ## The processors' columns (R125) and their special registers (R66, R277) -/

/-- The columns of R125. -/
inductive Column where
  | main | stage | coll | trust | mgmt
  deriving DecidableEq, Repr

/-- Whether a column executes function `fn` of major `maj`. -/
def Column.has (c : Column) (maj fn : Nat) : Bool :=
  match c with
  | .main => maj != 0x39
  | .stage => decide (maj ≤ 0x09) || decide (0x20 ≤ maj ∧ maj ≤ 0x25) || maj == 0x27 || maj == 0x29
      || (maj == 0x30 && (fn == 1 || fn == 2)) || maj == 0x32 || (maj == 0x33 && fn != 3) || maj == 0x38 || maj == 0x39
  | .coll => decide (maj ≤ 0x09) || decide (0x20 ≤ maj ∧ maj ≤ 0x25) || maj == 0x27 || (maj == 0x30 && fn == 1) || maj == 0x32
      || (maj == 0x33 && fn != 3)
  | .trust | .mgmt => decide (maj ≤ 0x09) || decide (0x20 ≤ maj ∧ maj ≤ 0x25) || maj == 0x27 || maj == 0x32 || (maj == 0x33 && fn != 3)

/-- The special registers R66 lists; the doorbell is the trust tile's (R367) and the
monitor words the management controller's (R444). -/
def srListed (c : Column) (idx : Nat) : Bool :=
  decide (idx ≤ 0x2F) || decide (0x40 ≤ idx ∧ idx ≤ 0x80) || (c == .trust && idx == 0x100)
    || (c == .mgmt && decide (0x140 ≤ idx ∧ idx ≤ 0x17F))
/-- The RW special registers of R66. -/
def srWritable (idx : Nat) : Bool := decide (0x008 ≤ idx ∧ idx ≤ 0x00B)

/-- The field values that only some processors admit: special-register indices (R277), extents 16–31
(R165), and the vector registers a stage core does not have (R268). -/
def fieldsFor (c : Column) : Instr → Bool
  | .srr x => srListed c x.idx.toNat
  | .srw x => srWritable x.idx.toNat
  | .afrom x => c == .trust || c == .mgmt || x.ext.toNat < 16
  | .atog x => c == .trust || c == .mgmt || x.ext.toNat < 16
  | .bchk x => c == .trust || c == .mgmt || x.ext.toNat < 16
  | .bchki x => c == .trust || c == .mgmt || x.ext.toNat < 16
  | .wld x => match x.d with | .v _ => c == .main | .g _ _ => true
  | _ => true

/-- What a processor of column `c` decodes (R126). TEND's word on a stage core is STAGE_TEND (R282). -/
def decodeFor (c : Column) (w e : Nat) : Except DecodeError Instr :=
  match decode w e with
  | .error .field => if c.has (fld w 56 6) (fld w 44 8) then .error .field else .error .column
  | .error r => .error r
  | .ok i =>
    if !c.has (fld w 56 6) (fld w 44 8) then .error .column
    else if !fieldsFor c i then .error .field
    else match c, i with
      | .stage, .tend x => .ok (.stageTend x)
      | _, i => .ok i

/-- How many bytes an instruction occupies (R109); a step without an encoding occupies none. -/
def Instr.length (i : Instr) : Nat := 8 * i.encode.length

/-- The opcode table's reading: bits 63–0 are the first word, bits 127–64 the second. -/
def decodeTableWord (_nbits w : Nat) : Option Instr :=
  match decode (fld w 0 64) (fld w 64 64) with
  | .ok i => some i
  | .error _ => none

end Sys2Proof
end

