-- ==== Sys2Proof/Machine/Parts.lean ====
section
/-!
DEFINITION. The parts of the machine's state that one processor and one tile hold (spec R58–R79, R206–R215, R219, R251, R258,
R300–R306, R392). `State` (State.lean) puts them together.
-/
namespace Sys2Proof.Machine
open Sys2Proof

/-! ## The ordering machine's parts (R219) -/

/-- What a writing access does at its home when it performs. -/
inductive AccKind where
  /-- A store, or a store to a latch word. -/
  | store
  /-- FESET. -/
  | feset
  /-- FECLR. -/
  | feclr
  /-- QPUSH of an entry. -/
  | qpush (entry : Word)
  /-- SEV's set of the main (false) or stage (true) latch of the target tile. -/
  | sev (stage : Bool)
  /-- One element of a KSEND: operation, bins per tile the sender assumed, bin, value (R256). -/
  | ksend (op : Nat) (bin : Nat) (value : BitVec 32)
  /-- TDEC's decrement (R279). -/
  | pcnt
  /-- A unit an engine command has written, until it is acknowledged (R230). -/
  | engine (h : BitVec 16)
  deriving DecidableEq, Repr

/-- An issued writing access: the store queue and the unacknowledged sets (R219, R220). `pieces` are the bytes of the pieces that
have not performed (R226, R227). -/
structure Access where
  kind : AccKind
  addr : Nat
  size : Nat
  pieces : List (List Host.Cell)
  performed : Bool
  ord : Ord
  sco : Scope
  /-- The home has refused the push, and the NI holds it (R447). -/
  refused : Bool
  /-- The stream slot a push came from (R209), for SWAIT. -/
  slot : Option (BitVec 2)
  /-- A vector-pipe instruction issued it: a stream push or a vector store, for FENCE at SELF (R225). -/
  vec : Bool
  /-- The backstop has dropped a piece: its acknowledgement stops the processor (R364). -/
  marked : Bool
  /-- Its message to another module has been sent and paid for (R424). -/
  paid : Bool
  /-- MODEL's own: the number of this access among those the processor has issued. -/
  seq : Nat
  /-- The address of the instruction that issued it (R356). -/
  pc : Nat
  deriving DecidableEq, Repr

/-- A piece of a reading access: its range, the access's number among those of its instruction and the access's whole range, which the
rows of R223 take (R227), and its bytes once its LOAD step has read them. -/
structure LoadPart where
  addr : Nat
  len : Nat
  no : Nat
  base : Nat
  size : Nat
  bytes : Option (List Byte)
  deriving DecidableEq, Repr

/-- The operations of major 0x23 (R248). -/
inductive AmoOp where
  | add | and | or | xor | min | max | minn | maxn | swp | cas | fadd | inc
  deriving DecidableEq, Repr

/-- Issued reading accesses whose pieces have not all performed, with their order and scope, whether each part is an access of its own
(R204), and the fault one of them met and where. -/
structure Load where
  parts : List LoadPart
  ord : Ord
  sco : Scope
  each : Bool
  fault : Option (BitVec 8 × Nat)
  deriving DecidableEq, Repr

/-- What an issued reading access does when it performs, on a processor that does not hold (R446). -/
inductive LateKind where
  /-- LD, or WLD into a g register: the destination, and whether it extends the sign. `gp` is the predicate a `.nowait` form clears when
  it meets an intercalary window (R269). -/
  | ld (d : LdDst) (ext : Bool) (gp : Option PReg)
  /-- An AMO with the values of g[d] and g[d + 1] at issue. -/
  | amo (op : AmoOp) (d : GReg) (ext : Bool) (v w : Word)
  | fepoll (d : PReg)
  | qtry (d : GReg) (pn : PReg)
  | qcnt (d : GReg)
  deriving DecidableEq, Repr
/-- An issued reading access that has not performed, of a processor that goes on meanwhile (R220, R446). -/
structure Late where
  kind : LateKind
  addr : Nat
  size : Nat
  ord : Ord
  sco : Scope
  parts : List LoadPart
  seq : Nat
  /-- The address of the instruction that issued it. -/
  pc : Nat
  deriving DecidableEq, Repr

/-- Why a processor waits in place, with what the end of the wait writes. -/
inductive WaitKind where
  | load | lds | push | pop | popYield | bar | engine (h : BitVec 16) | kflush | queueFull
  | xwait (d : PReg) (e : BitVec 8)
  | barw (d : PReg) (lv : BitVec 3)
  | wfed (d : PReg)
  | sstep (lv : BitVec 3)
  | mdrain
  | sequencer
  | other
  deriving DecidableEq, Repr

def WaitKind.isSstep : WaitKind → Bool
  | .sstep _ => true
  | _ => false
def WaitKind.isBar : WaitKind → Bool
  | .bar | .barw _ _ => true
  | _ => false

/-- A wait in place: what for, the issue cycle and the timeout T, 0 meaning none (R274, R286, R290). -/
structure Wait where
  kind : WaitKind
  since : Nat
  limit : Nat
  deriving DecidableEq, Repr

/-- The status of an engine or collective command (R231, R262). -/
inductive CmdStatus where
  | pending
  | done
  | faulted (code : BitVec 8) (detail : Word)
  deriving DecidableEq, Repr

/-- The work of a command. -/
inductive CmdWork where
  /-- CPY, CPY2, CPYW and STEP transfers: `rows` rows of `len` bytes (R261). -/
  | copy (src dst len rows : Nat) (sstr dstr : Int)
  /-- RQUANT: the entry at `dst`, its ring, 64 source rows, the fixed band scale, the mode and the stream drawn at issue, and the
  ANCHOR (R313). -/
  | quant (ring : Ring) (src dst stride : Nat) (band : Option (BitVec 16)) (rm : Rm) (seed : Word) (anchor : Word)
  /-- RFILL and RFILLW: 64 rows of `width` bytes (R314). -/
  | fill (ring : Ring) (src dst stride width : Nat)
  /-- A STEP transfer of `len` bytes towards a member that stands on module `m` (R147). -/
  | away (src len m : Nat)
  /-- A collective: its operands, its number `nth` among the member's at the level, the domain's size and the member's rank, and the
  second word (R264–R266). -/
  | coll (kind : CollKind) (op : CollOp) (level root src dst count : Nat) (fmt : Fmt) (nth size rank ext : Nat)
  deriving DecidableEq, Repr

/-- A command of a processor's engine command queue (R219, R258): the pieces read, the units written, the bytes held by their offset
in the source. `seq` is the MODEL's own: accesses issued before it have a lower number. -/
structure Cmd where
  handle : BitVec 16
  work : CmdWork
  status : CmdStatus
  csat : Nat
  reads : List Nat
  writes : List Nat
  buf : List Host.Cell
  seq : Nat
  /-- The address of the instruction that issued it (R356). -/
  pc : Nat
  /-- A collective's command that another member may still need (R266), or a fill that is not published. -/
  needed : Bool
  deriving DecidableEq, Repr

/-- The engine record of R251: a faulted command's handle, its code and its detail. -/
structure EngRec where
  handle : BitVec 16
  code : BitVec 8
  detail : Word
  deriving DecidableEq, Repr

/-- One issuing processor: its register files and its part of the ordering machine. -/
structure Core where
  /-- g0–g31 (R58). -/
  g : Vector Word 32
  /-- a0–a15 (R58). -/
  a : Vector Word 16
  /-- p0–p7 (R58). -/
  p : Vector Bool 8
  pc : Word
  /-- FPCTL[4:0]; its other bits are reserved and read zero (R67). -/
  fpctl : BitVec 5
  /-- FPFLAGS[4:0] (R67). -/
  fpflags : BitVec 5
  /-- SEED, the stochastic generator's state (R52, R66). -/
  seed : Word
  /-- EVMASK[3:0] (R69). -/
  evmask : BitVec 4
  faultw : Word
  faulta : Word
  /-- The event latch (R63). -/
  latch : Bool
  /-- MODEL's own: the cycle of the latch's last set while it was clear, for the timeout of WFED (R290). -/
  latchAt : Nat
  /-- MODEL's own: the cycle in which WFE or WFED last consumed it: a set of that cycle came before (R63). -/
  tookAt : Option Nat
  /-- Whether the processor issues instructions: false for an idle main core, an ended stage program, or a frozen processor. -/
  running : Bool
  wait : Option Wait
  load : Option Load
  /-- Issued reading accesses that have not performed, oldest first, of a processor that does not hold (R446). -/
  lates : List Late
  /-- Issued writing accesses, oldest first, until acknowledged. -/
  pend : List Access
  cmds : List Cmd
  /-- Handles issued since placement (R258). -/
  issued : Nat
  /-- Collectives issued at each level since placement (R266). -/
  colls : Vector Nat 5
  /-- MODEL's own: accesses issued since placement. -/
  seq : Nat
  /-- MODEL's own: the number from which its accesses and commands follow the passes that its sequencer still holds, in program order: those
  of scalar instructions that have issued past them (R214). -/
  behind : Option Nat
  engRec : Option EngRec
  /-- FENCED records, one per class in the order of R217. -/
  fencedRec : Vector (Option Nat) 6
  /-- MEMERR records, one per class. -/
  memerrRec : Vector (Option Nat) 6
  peerRec : Option Nat
  deriving DecidableEq, Repr

/-- Whether a command is a fill. -/
def CmdWork.isFill (w : CmdWork) : Bool :=
  match w with
  | .quant _ _ _ _ _ _ _ _ | .fill _ _ _ _ _ => true
  | _ => false

/-! ## The parts of a tile -/

/-- Hardware loop state (R60, R174). -/
structure LoopState where
  lc : Vector (BitVec 32) 4
  ls : Vector Word 4
  le : Vector Word 4
  active : Nat
  deriving DecidableEq, Repr

/-- A stream slot (R60, R210). `ahead` holds what a pop stream has fetched before its pop, by how many pops lie before it (R207,
R209). -/
structure Stream where
  base : Word
  bound : Vector (BitVec 32) 4
  stride : Vector (BitVec 32) 4
  index : Vector (BitVec 32) 4
  configured : Bool
  isBound : Bool
  push : Bool
  ahead : List (Nat × List LoadPart)
  /-- Addresses of fetches that another module has refused, with the code, until the pop that meets one (R423). -/
  lost : List (Nat × BitVec 8)
  deriving DecidableEq, Repr

/-- A fault of a sequenced instruction, until it is taken (R214). -/
structure RepFault where
  code : BitVec 8
  detail : Word
  pc : Word
  deriving DecidableEq, Repr

/-- The repeat sequencer (R60, R215) with the address of the block's first word. -/
structure Repeat where
  words : List Word
  count : Nat
  pass : Nat
  next : Nat
  stag : BitVec 4
  at_ : Word
  fault : Option RepFault
  deriving DecidableEq, Repr

/-- The trap handler state (R390, R392). -/
structure Handler where
  hin : Bool
  hresume : Word
  hlen16 : Bool
  skip : Bool
  xl : Word
  /-- HIN is set, and the core waits for its sequencer to empty before it enters (R390). -/
  entering : Bool
  /-- The trap was taken inside a hardware-loop body: its tests are suspended (R174, R178). -/
  inBody : Bool
  deriving DecidableEq, Repr

/-- A ring register (R61) and its claims (R301): the fills accepted and not yet published, oldest first; K is their number. -/
structure RingReg where
  base : BitVec 20
  count : Nat
  layout : Bool
  esize : Nat
  head : Nat
  tail : Nat
  filled : Nat
  claims : List (BitVec 16)
  tol : Word
  ncommit : Word
  wid8 : Word
  wid16 : Word
  /-- MODEL's own: the cycle of the last step on the ring and that step's place in the order of R301 and R335: 1 a pop, 2 a publication,
  3 a claim, 4 a sample, 5 and 6 a configuration by the main and by the stage core, 0 for none. -/
  at_ : Nat
  rank : Nat
  deriving DecidableEq, Repr

/-- The verdict of the last MMA on a set (R327, R328). -/
structure Verdict where
  fmt : Nat
  brn : Bool
  brw : Bool
  srcnan : Bool
  cancn : Nat
  cancw : Nat
  sn : Nat
  un : Nat
  sw : Nat
  uw : Nat
  deriving DecidableEq, Repr

/-- An accumulator set (R62): the committed bank, cell (i, j) at 64 i + j; the pending bank of the matrix instruction that has begun on
it; the last verdict, none for FMT 3; the totals (R328). -/
structure AccSet where
  cells : List (Nat × W80)
  pending : List (Nat × W80)
  verdict : Option Verdict
  totals : Vector Nat 3
  deriving DecidableEq, Repr

/-- What a matrix instruction computes. -/
inductive MmaKind where
  | narrowFirst
  | fixed (fov : Fmt)
  | semi (ring : Semiring) (fov : Fmt)
  deriving DecidableEq, Repr

/-- How far a matrix instruction has come (R321): the products of its first format or of the MXFP8 planes stand in the pending bank, its
bf16 tiles are to be refetched, or their products stand in the pending bank. -/
inductive MmaPhase where
  | first | wide8 | fetch | wide16
  deriving DecidableEq, Repr
/-- A matrix instruction that has begun and not committed (R317, R321): its operands, TOL as sampled, its phase, the cancelling cells of
its checks, and the pieces the replay buffer holds, by their number (R322). -/
structure Mma where
  kind : MmaKind
  c : Bool
  ma : Ring
  mb : Ring
  tol : Word
  phase : MmaPhase
  cancn : Nat
  cancw : Nat
  replay : List (Nat × List Byte)
  deriving DecidableEq, Repr

/-- Ready work's place of origin. -/
inductive Work where
  /-- A task by its TCB. -/
  | task (tcb : Nat)
  /-- A continuation of the tile's store, by its number. -/
  | cont (id : Nat)
  deriving DecidableEq, Repr

/-- An item of a ready queue (R46): its team, its class and when it became ready. -/
structure ReadyItem where
  team : Nat
  work : Work
  cls : Nat
  named : Bool
  time : Nat
  /-- The home LCID of a task that Vigil starts again (R399); none where the dispatching tile becomes the home (R52). -/
  home : Option Nat
  deriving DecidableEq, Repr

/-- What a parked continuation waits for (R448). -/
inductive ContWait where
  | ready
  | full (unit : Nat)
  /-- The push with this number among the processor's accesses is acknowledged. -/
  | pushed (seq : Nat)
  | entry (q : Nat)
  | cmd (h : BitVec 16)
  | kflush
  | epoch (e : BitVec 8) (deadline : Nat)
  | room
  deriving DecidableEq, Repr

/-- A record of the continuation store (R50) with what it waits for; `id` names it in the ready queue. -/
structure Cont where
  id : Nat
  pc : Word
  mask : BitVec 48
  regs : List Word
  seed : Word
  tid : BitVec 32
  preds : BitVec 8
  cls : BitVec 2
  restartable : Bool
  named : Bool
  fpctl : BitVec 5
  fpflags : BitVec 5
  wait : ContWait
  isReady : Bool
  hint : BitVec 2
  time : Nat
  /-- The TCB the task came from, for a restart (R399) and the successor list (R281). -/
  tcb : Nat
  /-- An XWAIT that resumes makes its single test (R448). -/
  single : Bool
  /-- The task's home LCID (R52). -/
  home : Nat
  deriving DecidableEq, Repr

/-- The running task (R41, R43). -/
structure Task where
  tcb : Nat
  tid : BitVec 32
  cls : BitVec 2
  restartable : Bool
  named : Bool
  hint : BitVec 2
  /-- It has issued an instruction of majors 0x38, 0x3A or 0x3B (R333). -/
  matrix : Bool
  /-- It resumed at an XWAIT that makes its single test (R448). -/
  single : Bool
  /-- Its home LCID: the tile that first dispatched it (R52). -/
  home : Nat
  deriving DecidableEq, Repr

/-- Barrier and gate state of one level (R285–R289). -/
structure BarLevel where
  episodes : BitVec 32
  arrived : Bool
  done : Bool
  phase : BitVec 32
  /-- The STEP transfers of the present phase have been issued (R287). -/
  sent : Bool
  gateArrived : Bool
  gateDone : Bool
  deriving DecidableEq, Repr

/-- An extent as EXTB and EXTL show it (R65). -/
structure Extent where
  valid : Bool
  rd : Bool
  wr : Bool
  er : Bool
  sr : Bool
  base : BitVec 53
  limit : BitVec 53
  tag : BitVec 10
  deriving DecidableEq, Repr

/-- One logical tile: what its team holds there (R61–R64) and the tile's own units. -/
structure Tile where
  /-- The tenant whose team holds the tile, 0 for none (R35). -/
  tenant : Nat
  /-- TEAMID (R66). -/
  team : Nat
  /-- DOM (R39). -/
  dom : Word
  v : Vector Vec 32
  w : Vector MaskWord 8
  loop : LoopState
  streams : Vector Stream 4
  rep : Repeat
  handler : Handler
  task : Option Task
  rings : Vector RingReg 8
  acc : Vector AccSet 2
  /-- The matrix instructions that have begun and not committed, oldest first (R317). -/
  mmas : List Mma
  conts : List Cont
  nextCont : Nat
  localQ : List ReadyItem
  /-- A migration of the tile's is in flight (R51). -/
  migrating : Bool
  /-- Constant-bank entries (R205). -/
  kbank : Vector Vec 64
  /-- The key configuration of R255. -/
  keycfg : Word
  bars : Vector BarLevel 5
  ext : Vector Extent 16
  /-- The context's monitor counters, exact (R66, R404). -/
  ctr : Vector Word 64
  /-- The copy of the counters the disclosure filter serves (R404). -/
  ctrCopy : Vector Word 64
  /-- GTIME of that copy. -/
  copyTime : Nat
  /-- Fenced, or absent after a fence without a spare (R17). -/
  fenced : Bool
  /-- Frozen by a failed team or a failed save (R398, R417). -/
  frozen : Bool
  /-- The cycle of the context's last progress, for Vigil (R399). -/
  progress : Nat
  /-- The CODEGONE mark (R351). -/
  codegone : Bool
  /-- The branch that reached the stub at which the context stands; 0 for the stub of its task's entry (R347). -/
  call : Word
  /-- The stage core has started since placement (R334). -/
  stageOn : Bool
  deriving DecidableEq, Repr

/-! ## Initial values of the parts -/

/-- The registers of a processor at placement (R64), not running. -/
def Core.empty : Core where
  g := Vector.replicate 32 0
  a := Vector.replicate 16 0
  p := Vector.replicate 8 false
  pc := 0
  fpctl := 0
  fpflags := 0
  seed := 0
  evmask := 1
  faultw := 0
  faulta := 0
  latch := false
  latchAt := 0
  tookAt := none
  running := false
  wait := none
  load := none
  lates := []
  pend := []
  cmds := []
  issued := 0
  colls := Vector.replicate 5 0
  seq := 0
  behind := none
  engRec := none
  fencedRec := Vector.replicate 6 none
  memerrRec := Vector.replicate 6 none
  peerRec := none

/-- The latch is set (R63): sets of a latch that is already set change nothing, and neither does one of the cycle in which WFE or WFED has
consumed the latch, since that set came first. -/
def Core.latched (c : Core) (now : Nat) : Core := if c.latch ∨ c.tookAt = some now then c else { c with latch := true, latchAt := now }
/-- WFE or WFED consumes the latch (R63). -/
def Core.consumed (c : Core) (now : Nat) : Core := { c with latch := false, tookAt := some now }

def LoopState.empty : LoopState where
  lc := Vector.replicate 4 0
  ls := Vector.replicate 4 0
  le := Vector.replicate 4 0
  active := 0

def Stream.empty : Stream where
  base := 0
  bound := Vector.replicate 4 0
  stride := Vector.replicate 4 0
  index := Vector.replicate 4 0
  configured := false
  isBound := false
  push := false
  ahead := []
  lost := []

def Repeat.empty : Repeat where
  words := []
  count := 0
  pass := 0
  next := 0
  stag := 0
  at_ := 0
  fault := none

def Handler.empty : Handler where
  hin := false
  hresume := 0
  hlen16 := false
  skip := false
  xl := 0
  entering := false
  inBody := false

def RingReg.empty : RingReg where
  base := 0
  count := 0
  layout := false
  esize := 0
  head := 0
  tail := 0
  filled := 0
  claims := []
  tol := 0
  ncommit := 0
  wid8 := 0
  wid16 := 0
  at_ := 0
  rank := 0

def AccSet.empty : AccSet where
  cells := []
  pending := []
  verdict := none
  totals := Vector.replicate 3 0

def BarLevel.empty : BarLevel where
  episodes := 0
  arrived := false
  done := false
  phase := 0
  sent := false
  gateArrived := false
  gateDone := false

def Extent.empty : Extent where
  valid := false
  rd := false
  wr := false
  er := false
  sr := false
  base := 0
  limit := 0
  tag := 0

/-- A tile at placement, before the launch unit writes its team's parts (R64). -/
def Tile.empty : Tile where
  tenant := 0
  team := 0
  dom := 0
  v := Vector.replicate 32 0
  w := Vector.replicate 8 0
  loop := LoopState.empty
  streams := Vector.replicate 4 Stream.empty
  rep := Repeat.empty
  handler := Handler.empty
  task := none
  rings := Vector.replicate 8 RingReg.empty
  acc := Vector.replicate 2 AccSet.empty
  mmas := []
  conts := []
  nextCont := 0
  localQ := []
  migrating := false
  kbank := Vector.replicate 64 0
  keycfg := 0
  bars := Vector.replicate 5 BarLevel.empty
  ext := Vector.replicate 16 Extent.empty
  ctr := Vector.replicate 64 0
  ctrCopy := Vector.replicate 64 0
  copyTime := 0
  fenced := false
  frozen := false
  progress := 0
  codegone := false
  call := 0
  stageOn := false

end Sys2Proof.Machine
end

