-- ==== Sys2Proof/Machine/Records.lean ====
section
/-!
DEFINITION. The records the launch units, the trust tile and the clusters keep: sealed objects (R140–R149, R347–R349), teams (R36,
R37, R381), clusters (R23, R24, R53), migrations and fault records (R51, R389, R395, R396).
-/
namespace Sys2Proof.Machine
open Sys2Proof

/-! ## Sealed objects -/

/-- A published function of a sealed version: its link index, native entry and length in bytes (R347, R348). -/
structure Proc where
  link : Nat
  addr : Nat
  size : Nat
  deriving DecidableEq, Repr

/-- A row of the task table (R145) with its successors. -/
structure TaskRow where
  /-- TEXT offset of the task's procedure. -/
  entryOff : Nat
  /-- The link index of that procedure (R149, R347). -/
  link : Nat
  pcnt : Nat
  flags : BitVec 8
  args : List Word
  succs : List Nat
  bufix : List Nat
  deriving DecidableEq, Repr

/-- A row of the buffer table (R144). -/
structure BufRow where
  kind : Nat
  rights : BitVec 8
  fmt : BitVec 4
  blog : BitVec 3
  size : Nat
  spoff : Nat
  image : List Byte
  deriving DecidableEq, Repr

/-- A transfer of a STEP record (R147). -/
structure StepXfer where
  src : Nat
  dst : Nat
  peer : Int
  srcOff : Nat
  dstOff : Nat
  len : Nat
  deriving DecidableEq, Repr

/-- A STEP record (R147). -/
structure StepRec where
  level : Nat
  phase : Nat
  period : Nat
  xfers : List StepXfer
  deriving DecidableEq, Repr

/-- The translator's record of one yielding instruction (R49, R76, R343). -/
structure LiveRec where
  pc : Nat
  vec : Bool
  mask : BitVec 48
  deriving DecidableEq, Repr

/-- What one check per extent of a base that several extents reach stands for (R341): those extents in ascending order, and the register
with the displacement of the footprint's lowest byte when the check is that of its highest. -/
structure CheckGroup where
  exts : List Nat
  low : Option GReg
  deriving DecidableEq, Repr
/-- A sealed version of an object: the native code in the code heap, and what its translation records (R346–R348, R392). -/
structure Sealed where
  /-- 0 template, 1 profile-guided. -/
  kind : Nat
  /-- Its code range in the code heap, link table and exit stub included. -/
  base : Nat
  size : Nat
  linkOff : Nat
  linkCnt : Nat
  procs : List Proc
  exitStub : Nat
  /-- The link index of the handler procedure; none when the object declares no handler. -/
  handlerLink : Option Nat
  /-- The handler region (R392): its first address and its end, once the handler procedure is published. -/
  handler : Option (Nat × Nat)
  /-- The translated stage program and collective firmware, with their entries, once published. -/
  stage : List Word
  stageEntry : Option Nat
  coll : List Word
  collEntry : Option Nat
  live : List LiveRec
  /-- The checks of a base that several extents reach: section, address, and the group each belongs to (R341). -/
  anyOf : List (Nat × Nat × CheckGroup)
  /-- The extent index of each buffer (R363), and those of the scratch extent and the TCB area its checks name. -/
  binding : List Nat
  scrx : Nat
  tcbx : Nat
  stale : Bool
  deriving DecidableEq, Repr

/-- An admitted object (R140–R151): what its sections give. -/
structure Obj where
  objid : Nat
  tenant : Nat
  digest : List Byte
  flags : BitVec 32
  spsize : Nat
  text : List Word
  stage : List Word
  stageEntry : Option Nat
  coll : List Word
  collEntry : Option Nat
  handlerOff : Option Nat
  consts : List Vec
  bufs : List BufRow
  tasks : List TaskRow
  steps : List StepRec
  tols : List (Nat × Word)
  almanac : List Byte
  /-- Section (0 TEXT, 1 STGE, 2 COLF), offset and length of its procedures, in link-table order (R149). -/
  procs : List (Nat × Nat × Nat)
  /-- The CALL sites: section, offset, link index (R148). -/
  calls : List (Nat × Nat × Nat)
  versions : List Sealed
  quarantined : Bool
  unloading : Bool
  deriving DecidableEq, Repr

/-! ## Teams -/

/-- R37. A released or migrated team is no longer among the teams. -/
inductive TeamState where
  | launching | waiting | running | halted | ended | failed
  deriving DecidableEq, Repr

/-- A fault record of the trust tile (R389). -/
structure FaultRec where
  faultw : Word
  faulta : Word
  time : Nat
  lcid : Nat
  fatal : Bool
  handled : Bool
  team : Nat
  /-- Its FAULTA has the layout of R263: a handle above an address. -/
  eng : Bool
  deriving DecidableEq, Repr

/-- An entry of an Almanac (R411), with the parameters of R407. -/
structure AlmEntry where
  cls : Nat
  gran : Nat
  tbkt : Nat
  vq : Nat
  amask : Nat
  tsamp : Nat
  cmask : Nat
  deriving DecidableEq, Repr
/-- A trace record of the operator's copy (R415): kind, location, TID and GTIME. -/
structure TraceCopy where
  kind : Nat
  loc : Nat
  tid : Nat
  time : Nat
  deriving DecidableEq, Repr

/-- The last release of one counter (R409): its number, the granularity, the release's GTIME, and location with value. -/
structure Release where
  ctr : Nat
  gran : Nat
  time : Nat
  vals : List (Nat × Nat)
  deriving DecidableEq, Repr

/-- What a flit of a replay buffer carries (R420): a writing access of a processor by the access's number, the `k`-th unit that an engine
command writes, a processor's drain marker, an answer of this module or a message whose sender is gone, a negative acknowledgement, or a
flit that this module forwards. -/
inductive Cargo where
  | access (p : ProcId) (seq : Nat)
  | unit (p : ProcId) (h : BitVec 16) (k : Nat)
  | marker (p : ProcId) (epoch : BitVec 8)
  | answer
  | nack
  | forward (src : Nat)
  deriving DecidableEq, Repr
/-- A flit in a port's replay buffer (R420), from its sending until its destination has accepted it: its port and sequence number, the
module it goes to, its tenant tag, what it carries with its payload, and how often it has been sent. -/
structure Flight where
  port : Nat
  seq : Nat
  peer : Nat
  tag : Nat
  cargo : Cargo
  bytes : List Byte
  sends : Nat
  deriving DecidableEq, Repr

/-- A flit in a stash at a stop (R32, R394): the writing access it carries and its sender, or a migration message. -/
inductive Stashed where
  | access (p : ProcId) (a : Access)
  | migration (from_ to_ : Nat) (c : Cont)
  /-- A read that a dark interval holds (R429). -/
  | read (p : ProcId) (l : Late)
  /-- A flit out of a port's replay buffer (R429). -/
  | flit (x : Flight)
  deriving DecidableEq, Repr

/-- An entry of the mailbox log (R396): `sender` is the sender's LCID, and 2^16 times its module. -/
inductive LogEntry where
  | barrier (lcid level sender episode : Nat)
  | gate (lcid level sender phase : Nat)
  | sev (lcid : Nat) (stage : Bool) (sender : Nat)
  | mailbox (lcid : Nat) (addr : Nat) (bytes : List Byte) (sender : Nat)
  deriving DecidableEq, Repr

/-- Stages of a Solstice stop and what follows (R394, R395, R397). -/
inductive StopState where
  /-- Holding its clusters, no stop named. -/
  | none
  /-- A stop is named for global time T. -/
  | named (t : Nat)
  /-- Every processor has stopped; the save has not been written. -/
  | stopped
  /-- The save is complete. -/
  | saved
  deriving DecidableEq, Repr

/-- What follows a stop: the team waits for its next slot, is halted, or ends failed. -/
inductive StopReason where
  | slot | halt | fail
  deriving DecidableEq, Repr

/-- A buffer bound at launch (R144, R381): the address its pointers start at; for a scratch buffer, the scratchpad offset. -/
structure Bound where
  scratch : Bool
  addr : Nat
  fmt : BitVec 4
  blog : BitVec 3
  deriving DecidableEq, Repr

/-- What the team keeps of a stopped context beside its record: the tile and its two cores as they stopped. -/
structure Snap where
  lcid : Nat
  tile : Tile
  main : Core
  stage : Core
  deriving DecidableEq, Repr

/-- A team (R36, R37). -/
structure Team where
  num : Nat
  tenant : Nat
  objid : Nat
  state : TeamState
  isProtected : Bool
  /-- A protected team's AES-256 key, derived for its launch, and the lines sealed under it (R361). -/
  key : List Byte
  msgs : List (Nat × Nat)
  fabric : Bool
  fidx : Nat
  nmod : Nat
  /-- The modules of a fabric team, in ascending order (R381). -/
  mods : List Nat
  /-- Its clusters on the module, in ascending order, each with its group (R38). -/
  clusters : List (Nat × Nat)
  live : Nat
  tcbBase : Nat
  tcbx : Nat
  scrx : Nat
  trcx : Nat
  saveBase : Nat
  saveLim : Nat
  saveSeq : Nat
  hasSave : Bool
  share : Nat
  vigil : Nat
  jobseed : Word
  spsize : Nat
  code : Sealed
  stage : List Word
  stageEntry : Option Nat
  coll : List Word
  collEntry : Option Nat
  /-- The object declares collective firmware. -/
  hasColl : Bool
  tasks : List TaskRow
  bufs : List Bound
  steps : List StepRec
  ext : Vector Extent 16
  faults : List FaultRec
  /-- GTIME of its launch: no release comes before it (R407). -/
  launchAt : Nat
  /-- GTIME of the last retirement or completed operation, and its cycle (R388, R399). -/
  lastTime : Nat
  lastCycle : Nat
  /-- The launch entry is posted and has not arrived (R47). -/
  entryPosted : Bool
  /-- It has dispatched work, or a restore has begun, in its present slice (R54). -/
  placed : Bool
  stop : StopState
  reason : StopReason
  /-- The time T its last stop was named for (R380, R394). -/
  stopAt : Nat
  /-- STOP_TEAM named its stop (R380). -/
  byStop : Bool
  /-- The T of a stop that a command named, kept beside a stop of the calendar that falls before it (R380, R394, R400). -/
  haltAt : Option Nat
  /-- The slot, numbered from GTIME 0, whose boundary it met with its clusters not free, so that it begins in it late (R54, R443). -/
  due : Option Nat
  stash : List Stashed
  log : List LogEntry
  /-- Bytes of the team-level part its last save wrote (R395); entries logged later are held beside it (R396). -/
  levelLen : Nat
  /-- Extents moved since its save: old base, old limit, new base (R359). -/
  moves : List (Nat × Nat × Nat)
  almanac : List Byte
  /-- The entries of its valid Almanac; none under the default policy (R412). -/
  policy : List AlmEntry
  opTrace : List TraceCopy
  /-- The operator-side release buffer (R408, R409), and the counters whose last release after the team's end is made (R416). -/
  released : List Release
  relDone : List Nat
  /-- The counter store of tiles it no longer holds (R404): LCID, counters and the time of their copy. -/
  kept : List (Nat × Vector Word 64 × Nat)
  /-- Bytes of the trace extent in use, and trace records produced (R415). -/
  traceAt : Nat
  /-- The cycle and the time of its stop: Vigil pauses while the team is stopped (R399). -/
  stopCycle : Nat
  stopTime : Nat
  /-- What the launch unit writes at placement (R64): constant-bank entries, scratchpad images by offset, tolerance words by ring. -/
  consts : List Vec
  images : List (Nat × List Byte)
  /-- Images of its buffers in a weight store, which the launch unit writes when the launch entry is posted (R239, R261). -/
  storeImage : List Host.Cell
  tols : List (Nat × Word)
  /-- Its contexts and its collective engines while it is stopped. -/
  snaps : List Snap
  collSnaps : List (Nat × Core × Option (BitVec 16 × Nat))
  deriving DecidableEq, Repr

/-! ## Clusters -/

/-- What a cluster keeps: its queue, the dispatch history of the class-3 exception (R46), its calendar (R53), its last CLOAD refresh
(R24), the collective engine's pending firmware command (R266), and the monitors' readings of it (R442–R445). -/
structure Cluster where
  readyQ : List ReadyItem
  /-- Dispatches since one took class 3, held at 15. -/
  since3 : Nat
  slots : Vector (Option Nat) 16
  cload : Word
  /-- The team that last held the cluster (R360). -/
  holder : Option Nat
  noPlace : Bool
  /-- The firmware collective now running (R266): its handle and the LCID of the member that issued it. -/
  fw : Option (BitVec 16 × Nat)
  clock : Nat
  temp : BitVec 16
  tempHigh : Bool
  /-- GTIME since which its sensor has read 110 °C or more (R445). -/
  tripSince : Option Nat
  droops : Nat
  power : Nat
  deriving DecidableEq, Repr

/-- A migration message in flight (R51); `back` when it returns to its sender. -/
structure Migration where
  from_ : Nat
  to_ : Nat
  cont : Cont
  back : Bool
  deriving DecidableEq, Repr

/-! ## Initial values -/

def Sealed.empty : Sealed where
  kind := 0
  base := 0
  size := 0
  linkOff := 0
  linkCnt := 0
  procs := []
  exitStub := 0
  handlerLink := none
  handler := none
  stage := []
  stageEntry := none
  coll := []
  collEntry := none
  live := []
  anyOf := []
  binding := []
  scrx := 0
  tcbx := 0
  stale := false

/-- A team record with every part empty; LAUNCH_TEAM fills it in. -/
def Team.empty : Team where
  num := 0
  tenant := 0
  objid := 0
  state := .launching
  isProtected := false
  key := []
  msgs := []
  fabric := false
  fidx := 0
  nmod := 1
  mods := []
  clusters := []
  live := 0
  tcbBase := 0
  tcbx := 0
  scrx := 0
  trcx := 0
  saveBase := 0
  saveLim := 0
  saveSeq := 0
  hasSave := false
  share := 0
  vigil := 24
  jobseed := 0
  spsize := 0
  code := Sealed.empty
  stage := []
  stageEntry := none
  coll := []
  collEntry := none
  hasColl := false
  tasks := []
  bufs := []
  steps := []
  ext := Vector.replicate 16 Extent.empty
  faults := []
  launchAt := 0
  lastTime := 0
  lastCycle := 0
  entryPosted := false
  placed := false
  stop := .none
  reason := .slot
  stopAt := 0
  byStop := false
  haltAt := none
  due := none
  stash := []
  log := []
  levelLen := 0
  moves := []
  almanac := []
  policy := []
  opTrace := []
  released := []
  relDone := []
  kept := []
  traceAt := 0
  stopCycle := 0
  stopTime := 0
  consts := []
  images := []
  storeImage := []
  tols := []
  snaps := []
  collSnaps := []

/-- A cluster with nothing ready and an empty calendar. -/
def Cluster.empty : Cluster where
  readyQ := []
  since3 := 15
  slots := Vector.replicate 16 none
  cload := 0
  holder := none
  noPlace := false
  fw := none
  clock := 0
  temp := 0
  tempHigh := false
  tripSince := none
  droops := 0
  power := 0

end Sys2Proof.Machine
end

