-- ==== Sys2Proof/Machine/Platform.lean ====
section
/-!
DEFINITION. The records of the edge die: tenants and sessions (R366–R386), granule ownership (R353), the fabric (R419–R432), bring-up,
power and the monitors (R433–R445), and the moves that say what the machine does next.
-/
namespace Sys2Proof.Machine
open Sys2Proof

/-! ## Tenants and the host interface -/

/-- R375. -/
inductive TenantState where
  | unlocked | locked | run | error
  deriving DecidableEq, Repr

/-- A granule or a weight-store bank group: kind 0 HBM, 1 LPDDR, 2 weight store, 3 host window (R379). -/
structure GranuleId where
  kind : Nat
  die : Nat
  index : Nat
  deriving DecidableEq, Repr

/-- An owned granule or bank group (R353). -/
structure Granule where
  id : GranuleId
  tag : Nat
  prot : Bool
  deriving DecidableEq, Repr

/-- A registered tenant (R35, R375, R384, R386). -/
structure Tenant where
  tag : Nat
  state : TenantState
  key : List Byte
  ext : Vector Extent 16
  cfgGen : Nat
  tcfg : List Byte
  mig : Nat
  /-- A migration in progress (R383, R385): the digest of the wrapped blob, the offer's nonce, the other module and its kind:
  what the source has sent or the destination has accepted. -/
  blob : List Byte
  offer : List Byte
  other : Nat
  /-- The private part of the ephemeral key of its outstanding offer (R385). -/
  eph : List Byte
  /-- The irreducible view after a reset (R416): the closed energy total in µJ and the class of each fatal fault. -/
  energy : Nat
  fatal : List (BitVec 8)
  /-- The energy last released to the operator, in whole joules (R413). -/
  shownEnergy : Nat
  deriving DecidableEq, Repr

/-- A session (R369, R370, R373). -/
structure Session where
  sid : Nat
  key : List Byte
  expected : Nat
  sent : Nat
  resync : Bool
  /-- 0 negotiating, 1 key exchanged, 2 open. -/
  phase : Nat
  /-- The requester's key, which its signature at FINISH must prove (R373). -/
  peer : List Byte
  deriving DecidableEq, Repr

/-- A response of the device (R371): session, SPDM or device response, operation, status, the command's SEQ, the response's own SEQ,
its result bytes from offset 0x10 (for SPDM the message), and the session's secret as it stood. -/
structure Response where
  sid : Nat
  spdm : Bool
  opc : Nat
  status : Nat
  cseq : Nat
  seq : Nat
  result : List Byte
  secret : List Byte
  deriving DecidableEq, Repr

/-- What an accepted command waits for before it completes (R350, R372, R380). -/
inductive WaitFor where
  | unload (objid : Nat)
  | stop (team at_ : Nat)
  /-- RESET_TENANT: the stop of the tenant's teams at T (R400). -/
  | reset (at_ : Nat)
  | fabric
  deriving DecidableEq, Repr
/-- An accepted command that has not completed. -/
structure Waiting where
  sid : Nat
  tag : Nat
  opc : Nat
  cseq : Nat
  what : WaitFor
  deriving DecidableEq, Repr

/-- The ring descriptor as last read, and the doorbell (R367, R368). -/
structure Rings where
  desc : Nat
  cbase : Nat
  ccount : Nat
  rcount : Nat
  rbase : Nat
  chead : Nat
  rtail : Nat
  ctail : Nat
  deriving DecidableEq, Repr

/-- The command unit. -/
structure HostIf where
  doorbell : Word
  /-- Doorbell writes ignored and counted (R367). -/
  ignored : Nat
  rings : Option Rings
  /-- Responses in order, not yet in the response ring (R368). -/
  held : List Response
  /-- Commands accepted and not complete. -/
  waiting : List Waiting
  sessions : List Session
  replays : Nat
  /-- Quarantines: translator version, object and native offset (R356). -/
  quarantines : List (Nat × Nat × Nat)
  /-- The operator's requester key recorded at the first session (R373). -/
  operator : Option (List Byte)
  msgmax : Nat
  /-- The MSGMAX that takes effect at the next slice boundary (R32). -/
  nextMsgmax : Option Nat
  deriving DecidableEq, Repr

/-- A migration journal entry (R385): the source module, the offer's nonce, the digest of the wrapped blob and the state it held, in the
module's own serialisation. -/
structure Journal where
  tag : Nat
  source : Nat
  nonce : List Byte
  blob : List Byte
  state : List Byte
  /-- The signed acceptance. -/
  accept : List Byte
  deriving DecidableEq, Repr

/-! ## The fabric -/

/-- A peer-table entry (R275, R421) with the epoch last recorded from the peer (R273) and markers on their way from it. -/
structure Peer where
  valid : Bool
  port : BitVec 4
  allow : Nat
  epoch : Option (BitVec 8)
  /-- MODEL's own: the cycle in which it was recorded, for the timeout of XWAIT (R274). -/
  epochAt : Nat
  /-- Units of the peer's allowance that its accepted flits are owed, until they return with the next flit to it (R424). -/
  owed : Nat
  /-- GTIME of the last flit to it, for the return flit after 256 ns without traffic (R424). -/
  sentAt : Nat
  deriving DecidableEq, Repr

/-- An accepted FABRIC_CONFIG that has not published (R427). -/
structure Dark where
  portmap : Vector (BitVec 32) 16
  peers : List (BitVec 16)
  /-- (fibre, lane) pairs that the circuit switch moves (R432), those locked, and those marked down. -/
  moved : List (Nat × Nat)
  locked : List (Nat × Nat)
  down : List (Nat × Nat)
  /-- Ports whose handshake has ended. -/
  shaken : List Nat
  /-- The longest relock so far, in ns. -/
  longest : Nat
  deriving DecidableEq, Repr

/-- The optical fabric as this module holds it. -/
structure Fabric where
  portmap : Vector (BitVec 32) 16
  peers : Vector Peer 64
  gen : BitVec 8
  dark : Option Dark
  down : List (Nat × Nat)
  /-- Ports waiting for their first timestamp exchange after publication (R434). -/
  agree : List Nat
  /-- The ports' replay buffers, oldest first, the next sequence number of each port, and the number that the next flit to arrive on it has
  (R420). -/
  flights : List Flight
  seqs : Vector Nat 16
  expect : Vector Nat 16
  /-- Answers and negative acknowledgements of this module that wait for an allowance or for the end of a dark interval (R424): the peer,
  the tag, what it is and its payload. -/
  held : List (Nat × Nat × Cargo × List Byte)
  /-- Negative acknowledgements and replays counted (R420, R422). -/
  nacks : Nat
  replays : Nat
  /-- GTIME of the last correction of the time base (R425). -/
  slewAt : Nat
  deriving DecidableEq, Repr

/-! ## Bring-up and power -/

/-- What a training set records of one memory (R438, R439): whether there is a record, its parameters, the data lane swapped to the repair
lane, and the temperature. -/
structure TrainRec where
  valid : Bool
  params : List Byte
  repaired : Option Nat
  temp : BitVec 16
  deriving DecidableEq, Repr

/-- Bring-up (R433–R440). -/
structure Boot where
  /-- READY (R433). -/
  ready : Word
  mr : Vector (List Byte) 8
  /-- The bytes of the image slot (R436). -/
  slot : List Byte
  /-- DIGEST recorded at the last cold start (R436). -/
  lastDigest : List Byte
  varpenDigest : List Byte
  recovery : Bool
  starting : Bool
  warm : Bool
  selfTest : Bool
  /-- Steps of R437 that are done: 1 image, 2 host port, 3 power, 4 trust tile, 8 Varpen; 16 + s stack s; 32 LPDDR; 48 + d die d. -/
  doneSteps : List Nat
  /-- Attempts of each step in this start (R438). -/
  attempts : List (Nat × Nat)
  /-- Functions the irreducible view reports failed. -/
  failedSteps : List Nat
  /-- The training set: one record per stack and one for the LPDDR tier, and the digest that goes before them (R438). -/
  training : Vector TrainRec 13
  trainDigest : List Byte
  /-- Physical spare rows in use: (lcid, spare row), per die (R17). -/
  spares : List (Nat × Nat)
  railMv : List Nat
  railsOff : Bool
  tripped : Bool
  /-- The time T for which a thermal trip has named the stop of every team (R445). -/
  tripAt : Option Nat
  maxTemp : BitVec 16
  modulePower : Nat
  corePower : Nat
  current : Nat
  /-- Launches whose seals did not verify: irreducible faults (R349). -/
  sealFaults : Nat
  /-- The irreducible view as last released (R413): module power in W, the highest cluster temperature, and the GTIME of the release. -/
  shownPower : Nat
  shownTemp : BitVec 16
  shownAt : Nat
  /-- GTIME of the last release of the tenants' energy (R413). -/
  energyAt : Nat
  deriving DecidableEq, Repr

/-! ## What the machine does next -/

/-- A move of the ordering machine (R220): a processor issues its next instruction, or a step or event of the opcode table occurs. -/
inductive Move where
  | issue (p : ProcId)
  | event (i : Instr)
  deriving DecidableEq, Repr

/-! ## Initial values -/

def HostIf.empty : HostIf where
  doorbell := 0
  ignored := 0
  rings := none
  held := []
  waiting := []
  sessions := []
  replays := 0
  quarantines := []
  operator := none
  msgmax := 8
  nextMsgmax := none

def Peer.empty : Peer where
  valid := false
  port := 0
  allow := 0
  epoch := none
  epochAt := 0
  owed := 0
  sentAt := 0

def Fabric.empty : Fabric where
  portmap := Vector.replicate 16 0
  peers := Vector.replicate 64 Peer.empty
  gen := 0
  dark := none
  down := []
  agree := []
  flights := []
  seqs := Vector.replicate 16 0
  expect := Vector.replicate 16 0
  held := []
  nacks := 0
  replays := 0
  slewAt := 0

/-- The measurement register of 64 zero bytes (R384). -/
def mrZero : List Byte := List.replicate 64 0

def TrainRec.empty : TrainRec where
  valid := false
  params := []
  repaired := none
  temp := 0

def Boot.empty : Boot where
  ready := 0
  mr := Vector.replicate 8 mrZero
  slot := []
  lastDigest := []
  varpenDigest := []
  recovery := false
  starting := false
  warm := false
  selfTest := false
  doneSteps := []
  attempts := []
  failedSteps := []
  training := Vector.replicate 13 TrainRec.empty
  trainDigest := []
  spares := []
  railMv := []
  railsOff := false
  tripped := false
  tripAt := none
  maxTemp := 0
  modulePower := 0
  corePower := 0
  current := 0
  sealFaults := 0
  shownPower := 0
  shownTemp := 0
  shownAt := 0
  energyAt := 0

end Sys2Proof.Machine
end

