-- ==== Sys2Proof/Machine/State.lean ====
section
/-!
DEFINITION. The state of the machine as plain data: everything the spec gives the module, and the model's own scheduling data
(log entries 1 to 4). The processor that acts is in focus: its registers are `core`, the tile it reaches is `tile`; the others are
parked in `cores` and `tiles`.
-/
namespace Sys2Proof.Machine
open Sys2Proof

/-- Why the machine stops. -/
inductive Fault where
  /-- Raised by fetching: the PC of a running processor of the edge die lies outside the code it runs, reached by sequential flow, for
  which R336 names no report. Safe: the machine stops where the spec gives no effect. A team's processor is stuck there instead (R2). -/
  | fetchOutsideCode
  deriving DecidableEq, Repr

/-- Why a step has no meaning. -/
inductive Refusal where
  /-- Raised by `exec` for an instruction that has no meaning yet. Safe. -/
  | notModelled (mnemonic : String)
  deriving DecidableEq, Repr

/-- A home whose steps of one cycle have an order (R247, R253): a queue by 8 × LCID + n, and an 8 B unit by its address divided by 8. -/
inductive Home where
  | queue (k : Nat)
  | unit (u : Nat)
  deriving DecidableEq, Repr

/-- The machine. -/
structure State where
  /-- The processor in focus, and the LCID of the tile in focus. -/
  cur : ProcId
  here : Nat
  core : Core
  tile : Tile
  /-- The parked processors and tiles; one that is not listed is as at reset. -/
  cores : List (ProcId × Core)
  tiles : List (Nat × Tile)
  /-- Every byte of the 53-bit address space (R70–R72): strictly rising addresses, no zero byte; an unlisted byte reads zero. -/
  mem : List Host.Cell
  /-- The full bits (R219): addresses of the full 8 B units, divided by 8, strictly rising. -/
  full : List Nat
  /-- ECC units with an uncorrectable error (R393), by the address of their first byte. -/
  bad : List Nat
  /-- Tile queues (R253) by 8 × LCID + n; one that is not listed is empty. -/
  queues : List (Nat × List Word)
  /-- MODEL's own: for a queue or a full-empty unit, the cycle of its home's last step and the place of that step among those of one cycle
  (R233, R247, R253). -/
  homeAt : List (Home × Nat × Nat)
  clusters : List (Nat × Cluster)
  teams : List Team
  objects : List Obj
  tenants : List Tenant
  /-- Owned granules and bank groups (R353), and released ones not yet zeroed (R400). -/
  granules : List Granule
  dirty : List GranuleId
  host : HostIf
  journal : List Journal
  fabric : Fabric
  boot : Boot
  migrations : List Migration
  /-- MODID (R66). -/
  modid : BitVec 6
  /-- The cycle of the arithmetic clock (R6) and the global time base in ns (R293). -/
  cycle : Nat
  gtime : Nat
  /-- The firmware words of the trust tile's and the management controller's processors, from address 0 (R171). -/
  firmware : List Word
  /-- The next team number and object number the trust tile assigns. -/
  nextTeam : Nat
  nextObj : Nat
  /-- MODEL's own: a fresh index for every free value (log entry 3). -/
  free : Nat
  /-- MODEL's own: which moves come next; when empty, the processor in focus issues (log entry 1). -/
  agenda : List Move
  /-- MODEL's own: whether a waiting instruction takes the machine steps it waits for (log entry 2). -/
  eager : Bool
  deriving DecidableEq, Repr

/-- The machine at power-on (R435): no start has run, no tile is held, every memory is empty. -/
def State.reset : State where
  cur := .mgmt
  here := 0
  core := Core.empty
  tile := Tile.empty
  cores := []
  tiles := []
  mem := []
  full := []
  bad := []
  queues := []
  homeAt := []
  clusters := []
  teams := []
  objects := []
  tenants := []
  granules := []
  dirty := []
  host := HostIf.empty
  journal := []
  fabric := Fabric.empty
  boot := Boot.empty
  migrations := []
  modid := 0
  cycle := 0
  gtime := 0
  firmware := []
  nextTeam := 1
  nextObj := 1
  free := 0
  agenda := []
  eager := true

end Sys2Proof.Machine
end

