-- ==== Sys2Proof/Machine/Base.lean ====
section
/-!
DEFINITION. The named operations over the state: focus, registers, bytes of memory, counters, the end of an instruction with the
end-of-body step of loops (R175), the trap codes with the fault word (R387, R388), and the end of a team by a fault (R390, R417).
-/
namespace Sys2Proof

/-- Bytes that one unit of pointer arithmetic moves (R80). -/
def Fmt.step : Fmt → Nat
  | .raw | .i8 | .n8 | .fp4 | .e4m3 | .e5m2 => 1
  | .i16 | .n16 | .bf16 | .fp16 => 2
  | .i32 | .n32 | .fp32 => 4
  | .i64 | .n64 | .fp64 => 8

end Sys2Proof
namespace Sys2Proof.Machine
open Sys2Proof

/-- What a meaning answers. -/
abbrev Out := Host.Outcome State Fault Refusal

/-! ## Vectors by a number -/

/-- Element `i` of a vector, or `d` beyond its end. -/
def vget {α : Type} {n : Nat} (v : Vector α n) (i : Nat) (d : α) : α := (v[i]?).getD d
/-- A vector with element `i` replaced; unchanged beyond its end. -/
def vset {α : Type} {n : Nat} (v : Vector α n) (i : Nat) (x : α) : Vector α n := v.setIfInBounds i x

/-! ## Processors and tiles -/

/-- The value an association list holds for a key. -/
def assoc {κ α : Type} [DecidableEq κ] (l : List (κ × α)) (k : κ) (d : α) : α :=
  match l with
  | [] => d
  | (k', x) :: r => if k' = k then x else assoc r k d
/-- An association list with the value of a key replaced. -/
def assocSet {κ α : Type} [DecidableEq κ] (l : List (κ × α)) (k : κ) (x : α) : List (κ × α) :=
  match l with
  | [] => [(k, x)]
  | (k', y) :: r => if k' = k then (k, x) :: r else (k', y) :: assocSet r k x

/-- The registers of a processor. -/
def State.getCore (s : State) (p : ProcId) : Core := if p = s.cur then s.core else assoc s.cores p Core.empty
def State.setCore (s : State) (p : ProcId) (c : Core) : State :=
  if p = s.cur then { s with core := c } else { s with cores := assocSet s.cores p c }
/-- A logical tile by its LCID. -/
def State.getTile (s : State) (n : Nat) : Tile := if n = s.here then s.tile else assoc s.tiles n Tile.empty
def State.setTile (s : State) (n : Nat) (t : Tile) : State :=
  if n = s.here then { s with tile := t } else { s with tiles := assocSet s.tiles n t }
/-- A cluster by its number. -/
def State.getCluster (s : State) (n : Nat) : Cluster := assoc s.clusters n Cluster.empty
def State.setCluster (s : State) (n : Nat) (c : Cluster) : State := { s with clusters := assocSet s.clusters n c }

/-- The tile of a processor, for main and stage cores. -/
def tileOf : ProcId → Option Nat
  | .main n | .stage n => some n
  | _ => none

/-- The state with processor `p` in focus. -/
def State.focus (s : State) (p : ProcId) : State :=
  let s1 := { s with cores := assocSet s.cores s.cur s.core, core := s.getCore p, cur := p }
  match tileOf p with
  | none => s1
  | some n => if n = s.here then s1
    else { s1 with tiles := assocSet s.tiles s.here s.tile, tile := s.getTile n, here := n }

/-- The column of a processor (R125). -/
def columnOf : ProcId → Column
  | .main _ => .main
  | .stage _ => .stage
  | .coll _ => .coll
  | .trust _ => .trust
  | .mgmt => .mgmt
def State.onMain (s : State) : Bool := columnOf s.cur == .main

/-! ## Coordinates (R15, R16) -/

/-- The cluster of a tile. -/
def clusterOf (lcid : Nat) : Nat := lcid / 256 * 16 + lcid / 16 % 16 / 4 * 4 + lcid % 16 / 4
/-- The number of a tile in its cluster. -/
def tileInCluster (lcid : Nat) : Nat := lcid / 16 % 4 * 4 + lcid % 4
/-- Tile `t` of cluster `c`. -/
def tileOfCluster (c t : Nat) : Nat := c / 16 * 256 + (c % 16 / 4 * 4 + t / 4) * 16 + c % 4 * 4 + t % 4
/-- The cluster a processor acts in. -/
def State.cluster (s : State) : Nat :=
  match s.cur with
  | .main n | .stage n => clusterOf n
  | .coll c => c
  | .trust _ | .mgmt => 0

/-! ## Teams -/

def State.findTeam (s : State) (n : Nat) : Option Team := s.teams.find? (fun t => t.num == n)
/-- The state with a team's record replaced. -/
def State.putTeam (s : State) (t : Team) : State :=
  { s with teams := s.teams.map (fun u => if u.num = t.num then t else u) }
/-- The number of the team a processor works for; 0 for none. -/
def State.teamNum (s : State) : Nat :=
  match s.cur with
  | .main _ | .stage _ => s.tile.team
  | .coll c => (s.getTile (tileOfCluster c 0)).team
  | .trust _ | .mgmt => 0
def State.team (s : State) : Option Team := s.findTeam s.teamNum
/-- The tenant tag a processor's requests carry (R354); 0 for the module's own. -/
def State.tag (s : State) : Nat :=
  match s.cur with
  | .main _ | .stage _ => s.tile.tenant
  | .coll c => (s.getTile (tileOfCluster c 0)).tenant
  | .trust _ | .mgmt => 0
/-- The tiles of a team's placement, in ascending LCID. -/
def Team.tiles (t : Team) : List Nat := (List.range 1024).filter (fun n => t.clusters.any (fun c => c.1 == clusterOf n))
/-- The group of a cluster of the placement. -/
def Team.groupOf (t : Team) (c : Nat) : Nat := assoc t.clusters c 0
/-- The team's members of the level-L domain of a tile (R38). -/
def Team.members (t : Team) (lcid level : Nat) : List Nat :=
  match level with
  | 0 => [lcid]
  | 1 => t.tiles.filter (fun n => clusterOf n == clusterOf lcid)
  | 2 => t.tiles.filter (fun n => t.groupOf (clusterOf n) == t.groupOf (clusterOf lcid))
  | _ => t.tiles
/-- An extent of the trust tile over offsets of this module, with read and write (R71, R376). -/
def State.ownExtent (s : State) (first last : Nat) : Extent where
  valid := true
  rd := true
  wr := true
  er := false
  sr := false
  base := BitVec.ofNat 53 (s.modid.toNat * 2 ^ 46 + first)
  limit := BitVec.ofNat 53 (s.modid.toNat * 2 ^ 46 + last)
  tag := 0
/-- The extents a processor's checks read (R65, R376). -/
def State.extent (s : State) (x : Nat) : Extent :=
  match s.cur with
  | .main _ | .stage _ => vget s.tile.ext x Extent.empty
  | .coll c => vget (s.getTile (tileOfCluster c 0)).ext x Extent.empty
  | .trust _ | .mgmt => match x with
    | 16 => s.ownExtent 0x00BC00000000 0x00BFFFFFFFFF
    | 17 => s.ownExtent 0x100000000000 0x1FFFFFFFFFFF
    | 18 => s.ownExtent 0x01FFC0000000 0x01FFFFFFFFFF
    | _ => Extent.empty

/-! ## Registers (R58): g0 reads zero, p0 true, w0 all ones; writes to them are discarded -/

def State.rdG (s : State) (r : GReg) : Word := if r = 0 then 0 else vget s.core.g r.toNat 0
def State.wrG (s : State) (r : GReg) (x : Word) : State :=
  if r = 0 then s else { s with core := { s.core with g := vset s.core.g r.toNat x } }
def State.rdA (s : State) (r : AReg) : Word := vget s.core.a r.toNat 0
def State.wrA (s : State) (r : AReg) (x : Word) : State := { s with core := { s.core with a := vset s.core.a r.toNat x } }
def State.rdP (s : State) (r : PReg) : Bool := if r = 0 then true else vget s.core.p r.toNat false
def State.wrP (s : State) (r : PReg) (x : Bool) : State :=
  if r = 0 then s else { s with core := { s.core with p := vset s.core.p r.toNat x } }
def State.rdW (s : State) (r : WReg) : MaskWord := if r = 0 then BitVec.allOnes 128 else vget s.tile.w r.toNat 0
def State.wrW (s : State) (r : WReg) (x : MaskWord) : State :=
  if r = 0 then s else { s with tile := { s.tile with w := vset s.tile.w r.toNat x } }
/-- The register itself; a bound stream register is read and written through its slot (R209). -/
def State.rdV (s : State) (r : VReg) : Vec := vget s.tile.v r.toNat 0
def State.wrV (s : State) (r : VReg) (x : Vec) : State := { s with tile := { s.tile with v := vset s.tile.v r.toNat x } }

/-- The guard of an instruction (R110). -/
def State.guard (s : State) (q : Guard) : Bool := s.rdP q.gp != q.gs

/-! ## Fat pointers (R70) -/

def ptrAddr (w : Word) : Nat := w.toNat % 2 ^ 53
/-- Bits [56:53]. -/
def ptrReserved (w : Word) : Nat := w.toNat / 2 ^ 53 % 16
def ptrFmt (w : Word) : Fmt := Fmt.ofCode (w.toNat / 2 ^ 60)
def ptrBlog (w : Word) : BitVec 3 := BitVec.ofNat 3 (w.toNat / 2 ^ 57)
def mkPtr (fmt : Fmt) (blog : BitVec 3) (addr : Nat) : Word :=
  BitVec.ofNat 64 (fmt.code * 2 ^ 60 + blog.toNat * 2 ^ 57 + addr % 2 ^ 53)
/-- A pointer with its address replaced. -/
def withAddr (w : Word) (addr : Nat) : Word := BitVec.ofNat 64 (w.toNat / 2 ^ 53 * 2 ^ 53 + addr % 2 ^ 53)
/-! ## Bytes of memory (Host.Cell, one canonical form) -/

/-- The byte at an address; an address that is not listed reads zero. -/
def memGet (m : List Host.Cell) (a : Nat) : Byte :=
  match m with
  | [] => 0
  | (b, x) :: r => if a < b then 0 else if b = a then x else memGet r a
/-- The memory with one byte written; a zero byte is not listed. -/
def memSet (m : List Host.Cell) (a : Nat) (x : Byte) : List Host.Cell :=
  match m with
  | [] => if x = 0 then [] else [(a, x)]
  | (b, y) :: r =>
    if a < b then (if x = 0 then (b, y) :: r else (a, x) :: (b, y) :: r)
    else if b = a then (if x = 0 then r else (a, x) :: r)
    else (b, y) :: memSet r a x
/-- The canonical form: strictly rising addresses at or above `lo`, no zero byte. -/
def memWfFrom (lo : Nat) : List Host.Cell → Bool
  | [] => true
  | (a, x) :: r => decide (lo ≤ a) && x != 0 && memWfFrom (a + 1) r
def Memory.wf (m : List Host.Cell) : Bool := memWfFrom 0 m

/-- `n` bytes from an address as a number, least significant byte first (R4). -/
def memNat (m : List Host.Cell) (a : Nat) : Nat → Nat
  | 0 => 0
  | n + 1 => (memGet m a).toNat + 256 * memNat m (a + 1) n
/-- The bytes from an address. -/
def memBytes (m : List Host.Cell) (a n : Nat) : List Byte := (List.range n).map (fun i => memGet m (a + i))
/-- The memory with cells written in order. -/
def memPut (m : List Host.Cell) (cells : List Host.Cell) : List Host.Cell := cells.foldl (fun m c => memSet m c.1 c.2) m
/-- The cells of a number's `n` low bytes at an address. -/
def cellsOf (a x : Nat) : Nat → List Host.Cell
  | 0 => []
  | n + 1 => (a, BitVec.ofNat 8 x) :: cellsOf (a + 1) (x / 256) n
/-- The cells of a byte string at an address. -/
def cellsAt (a : Nat) : List Byte → List Host.Cell
  | [] => []
  | b :: r => (a, b) :: cellsAt (a + 1) r

/-! ## Sealed lines of protected teams (R361, R362) -/

/-- Memories whose bytes a protected team keeps in sealed lines: HBM, the LPDDR tier and host memory, and the weight store. -/
def State.sealable (s : State) (a : Nat) : Bool := if a < 2 ^ 52 then a / 2 ^ 46 == s.modid.toNat else a / 2 ^ 48 % 16 == 1
/-- The base of the extent of a team that a byte lies in. -/
def Team.baseOf (t : Team) (a : Nat) : Option Nat :=
  (t.ext.toList.find? (fun e => e.valid && decide (e.base.toNat ≤ a ∧ a ≤ e.limit.toNat))).map (fun e => e.base.toNat)
/-- The line that holds a byte of a protected team, by the line's first address at the target, and the byte's place among the line's 32
bytes. -/
def State.lineOf (s : State) (t : Team) (a : Nat) : Option (Nat × Nat) :=
  if t.isProtected && s.sealable a then (t.baseOf a).map (fun b => (b + (a - b) / 32 * 64, (a - b) % 32)) else none
/-- The 32 bytes of a line; none when its tag fails verification. The line is ciphertext, tag, IV and four zero bytes. -/
def State.openLine (s : State) (t : Team) (l : Nat) : Option (List Byte) :=
  Config.aeadOpen t.key (memBytes s.mem (l + 0x30) 12) [] (memBytes s.mem l 48)
/-- A byte as a team's own accesses see it. -/
def State.teamByte (s : State) (t : Team) (a : Nat) : Byte :=
  match s.lineOf t a with
  | some (l, o) => ((s.openLine t l).getD []).getD o 0
  | none => memGet s.mem a
def State.teamNat (s : State) (t : Team) (a : Nat) : Nat → Nat
  | 0 => 0
  | n + 1 => (s.teamByte t a).toNat + 256 * s.teamNat t (a + 1) n
/-- The lines a range of a protected team meets, and whether one of them fails verification. -/
def State.linesOf (s : State) (t : Team) (a n : Nat) : List Nat :=
  ((List.range n).filterMap (fun i => (s.lineOf t (a + i)).map Prod.fst)).eraseDups
def State.sealFails (s : State) (t : Team) (a n : Nat) : Bool := (s.linesOf t a n).any (fun l => (s.openLine t l).isNone)
/-- The message counter of a network interface's key slot for the team: the interface of a tile, by its LCID, or, as 1024, the trust
tile's. DESIGN CHOICE (log entry 45): interface n counts from n × 2^53, so that no IV repeats under the key. -/
def Team.msgCount (t : Team) (ni : Nat) : Nat := ((t.msgs.find? (fun m => m.1 == ni)).map Prod.snd).getD (ni * 2 ^ 53)
def Team.countMsgs (t : Team) (ni n : Nat) : Team :=
  { t with msgs := (ni, t.msgCount ni + n) :: t.msgs.filter (fun m => m.1 != ni) }
/-- The team with the messages counted that an interface has encrypted to other tiles before it seals a line: how many is a free value, as
the splitting and the answers of a message are the network's (R31, R361). -/
def State.sentBy (s : State) (t : Team) (ni : Nat) : Team := t.countMsgs ni (Config.tileMessages s.free ni)
/-- The cells of a line that an interface seals anew: the IV is the team number and the slot's message counter. -/
def Team.sealedCells (t : Team) (ni l : Nat) (plain : List Byte) : List Host.Cell :=
  let iv := cellsOf (l + 0x30) t.num 4 ++ cellsOf (l + 0x34) (t.msgCount ni) 8
  let c := Config.aeadSeal t.key (iv.map Prod.snd) [] plain
  cellsAt l ((List.range 48).map (fun i => c.getD i 0)) ++ iv ++ cellsOf (l + 0x3C) 0 4
/-- Whether cells cover the 32 bytes of a line, and the line's bytes with the cells merged in. -/
def State.coversLine (s : State) (t : Team) (l : Nat) (cells : List Host.Cell) : Bool :=
  (List.range 32).all (fun o => cells.any (fun c => s.lineOf t c.1 == some (l, o)))
def State.merged (s : State) (t : Team) (l : Nat) (cells : List Host.Cell) (old : List Byte) : List Byte :=
  (List.range 32).map (fun o => match cells.find? (fun c => s.lineOf t c.1 == some (l, o)) with
    | some c => c.2
    | none => old.getD o 0)
/-- A line takes the cells that fall into it; the bytes of a line that fails verification count as zero. -/
def State.putLine (s : State) (ni num : Nat) (cells : List Host.Cell) (l : Nat) : State :=
  match s.findTeam num with
  | none => s
  | some t => { s.putTeam ((s.sentBy t ni).countMsgs ni 1) with
                mem := memPut s.mem ((s.sentBy t ni).sealedCells ni l (s.merged t l cells ((s.openLine t l).getD []))) }
/-- Cells that a unit of the team writes, the launch unit and the monitor blocks among them: into sealed lines where the team is
protected. -/
def State.teamPut (s : State) (t : Team) (cells : List Host.Cell) : State :=
  let s1 := { s with mem := memPut s.mem (cells.filter (fun c => (s.lineOf t c.1).isNone)) }
  ((cells.filterMap (fun c => (s.lineOf t c.1).map Prod.fst)).eraseDups).foldl (fun s l => s.putLine 1024 t.num cells l) s1

/-- A rising list with a number put in, or taken out: the full bits. -/
def setIn (l : List Nat) (a : Nat) : List Nat :=
  match l with
  | [] => [a]
  | b :: r => if a < b then a :: b :: r else if a = b then b :: r else b :: setIn r a
def setOut (l : List Nat) (a : Nat) : List Nat := l.filter (fun b => b != a)

/-! ## Counters (R402): n64, held at 2^64 − 1 -/

def satAdd (x : Word) (n : Nat) : Word := BitVec.ofNat 64 (min (x.toNat + n) (2 ^ 64 - 1))
def Tile.count (t : Tile) (cls k n : Nat) : Tile :=
  { t with ctr := vset t.ctr (8 * cls + k) (satAdd (vget t.ctr (8 * cls + k) 0) n) }
/-- Whether the processor in focus is one of a tile, whose events its tile's counters count (R403). -/
def State.onTile (s : State) : Bool := (tileOf s.cur).isSome
/-- Counter k of class Ck of the tile in focus grows by n. -/
def State.count (s : State) (cls k n : Nat) : State := { s with tile := if s.onTile then s.tile.count cls k n else s.tile }
/-- The same for a tile by its LCID. -/
def State.countAt (s : State) (lcid cls k n : Nat) : State := s.setTile lcid ((s.getTile lcid).count cls k n)

/-! ## Progress and the end of an instruction -/

/-- A retirement or a completed operation of a team, for Vigil, which looks at its contexts alone: the team's tiles, and no collective
engine (R57, R298, R399). -/
def State.teamProgress (s : State) (num : Nat) (context : Bool) : State :=
  match s.findTeam num with
  | none => s
  | some t => s.putTeam { t with lastTime := s.gtime, lastCycle := if context then s.cycle else t.lastCycle }
/-- A retirement or a completed operation of the processor in focus: its team makes progress, and the tile of a core does. -/
def State.progress (s : State) : State :=
  ({ s with tile := if s.onTile then { s.tile with progress := s.cycle } else s.tile } : State).teamProgress s.teamNum s.onTile
/-- An operation of a processor completes (R298): a command, a fill, an access that is acknowledged. -/
def State.progressOf (s : State) (p : ProcId) : State :=
  match p with
  | .main n | .stage n => (s.setTile n { s.getTile n with progress := s.cycle }).teamProgress (s.getTile n).team true
  | .coll c => s.teamProgress (s.getTile (tileOfCluster c 0)).team false
  | .trust _ | .mgmt => s

/-- The end-of-body step of R175 at the address just completed: from the innermost active level outwards. -/
def loopEnd (l : LoopState) (at_ : Word) : Nat → LoopState × Option Word
  | 0 => (l, none)
  | k + 1 =>
    if vget l.le k 0 = at_ then
      if 1 < (vget l.lc k 0).toNat then
        ({ l with lc := vset l.lc k (vget l.lc k 0 - 1), active := k + 1 }, some (vget l.ls k 0))
      else loopEnd { l with lc := vset l.lc k 0, active := k } at_ k
    else (l, none)

/-- Whether the loop tests apply: a level is active and no handler entered from inside a body runs (R175, R178). -/
def State.loopTests (s : State) : Bool := s.onMain && !s.tile.handler.inBody && s.tile.loop.active != 0

/-- The end-of-body step of R175 at an instruction's address, from the active levels in turn: where a level loops back, if one does. -/
def State.endOfBody (s : State) (at_ : Word) : State × Option Word :=
  let r := loopEnd s.tile.loop at_ s.tile.loop.active
  ({ s with tile := { s.tile with loop := r.1 } }, r.2)

/-- Where execution continues after the instruction at the PC, of `len` bytes: the end-of-body step runs on a main core (R175,
R178). -/
def State.advance (s : State) (len : Nat) : State :=
  let next := s.core.pc + BitVec.ofNat 64 len
  if s.loopTests then
    let r := s.endOfBody s.core.pc
    { r.1 with core := { s.core with pc := r.2.getD next } }
  else { s with core := { s.core with pc := next } }

/-- The instruction at the PC has retired: its wait is over, C0 counter 0 counts it. -/
def State.retire (s : State) : State :=
  ({ s with core := { s.core with wait := none } }.count 0 0 1).progress

/-- An instruction of `len` bytes completes and the next in order follows. -/
def complete (len : Nat) (s : State) : Out := .next (s.retire.advance len)
/-- An instruction completes and continues at a target (a taken branch). -/
def completeAt (target : Word) (s : State) : Out := .next { s.retire with core := { s.retire.core with pc := target } }

/-- The record of a wait that goes on: one that the sequencer held back had not issued, and begins now (R214); one that an earlier
access or fence held back keeps its issue cycle, and takes the kind and the timeout of what it waits for (R48, R286). -/
def Wait.turned (w : Wait) (kind : WaitKind) (limit now : Nat) : Wait :=
  if w.kind = .sequencer ∧ kind ≠ .sequencer then ⟨kind, now, limit⟩
  else if w.kind = .other ∧ kind ≠ .other then ⟨kind, w.since, limit⟩
  else w
/-- An instruction waits in place: nothing else changes but the record of the wait, made at its issue. -/
def stay (kind : WaitKind) (limit : Nat) (s : State) : Out :=
  match s.core.wait with
  | some w => .next { s with core := { s.core with wait := some (w.turned kind limit s.cycle) } }
  | none => .next { s with core := { s.core with wait := some ⟨kind, s.cycle, limit⟩ } }

/-- A guarded instruction: past its words when the guard does not pass (R110). -/
def guarded (q : Guard) (len : Nat) (s : State) (body : State → Out) : Out :=
  if s.guard q then body s else complete len s

/-! ## Trap codes (R387) -/

def codeIllegal : BitVec 8 := 0x01
def codeExtent : BitVec 8 := 0x02
def codeEngext : BitVec 8 := 0x03
def codeAlign : BitVec 8 := 0x04
def codeBadaddr : BitVec 8 := 0x05
def codeBackstop : BitVec 8 := 0x06
def codeCodegone : BitVec 8 := 0x07
def codeHeapfull : BitVec 8 := 0x08
def codeRinguse : BitVec 8 := 0x09
def codeAnchor : BitVec 8 := 0x0A
def codeStream : BitVec 8 := 0x0B
def codeTeamstall : BitVec 8 := 0x0C
def codePeerlost : BitVec 8 := 0x0D
def codeSavefail : BitVec 8 := 0x0E
def codeMemerr : BitVec 8 := 0x0F
def codeSwtrap : BitVec 8 := 0x10
def codeBreak : BitVec 8 := 0x11
def codeLoopuse : BitVec 8 := 0x12
def codeRepuse : BitVec 8 := 0x13
def codeWsbusy : BitVec 8 := 0x14
def codeFenced : BitVec 8 := 0x15

/-- Whether the row of a code in R387 admits a handler. -/
def handlerMay (code : BitVec 8) : Bool :=
  code != codeBackstop && code != codeCodegone && code != codeTeamstall && code != codeSavefail

/-- SRC of the fault word (R388). -/
def srcOf : ProcId → Nat
  | .main _ => 0
  | .stage _ => 1
  | .coll _ => 2
  | .trust _ | .mgmt => 3
/-- The fault word (R388). -/
def faultWord (code : BitVec 8) (async : Bool) (src pc : Nat) : Word :=
  BitVec.ofNat 64 (code.toNat * 2 ^ 56 + bit async * 2 ^ 55 + src * 2 ^ 53 + (if src = 3 then 0 else pc % 2 ^ 53))

/-- The LCID a fault record names for the processor in focus (R389). -/
def State.recordLcid (s : State) : Nat :=
  match s.cur with
  | .main n | .stage n => n
  | .coll c => tileOfCluster c 0
  | .trust _ | .mgmt => 0xFFFF

/-- The fault records of a team with one more, the last 64 kept (R389). -/
def keepFaults (l : List FaultRec) (r : FaultRec) : List FaultRec := (l ++ [r]).drop ((l.length + 1) - 64)

/-- An ended team's stage core's pending fills are discarded (R334). -/
def Core.dropFills (c : Core) : Core := { c with cmds := c.cmds.filter (fun d => !(d.work.isFill && d.status == .pending)) }
/-- A tile's processors issue nothing more, and it stays held with its state (R417). -/
def State.freezeTile (s : State) (n : Nat) : State :=
  let s1 := s.setCore (.main n) { s.getCore (.main n) with running := false }
  let s2 := s1.setCore (.stage n) { s1.getCore (.stage n) with running := false }
  s2.setTile n { s2.getTile n with frozen := true }
/-- The tiles that a team now holds of its placement. -/
def State.heldTiles (s : State) (t : Team) : List Nat := t.tiles.filter (fun n => (s.getTile n).team == t.num)
def State.freezeColl (s : State) (c : Nat) : State := s.setCore (.coll c) { s.getCore (.coll c) with running := false }
/-- A team's processors freeze on the tiles and clusters that it holds (R417). -/
def State.freezeTeam (s : State) (t : Team) : State :=
  ((t.clusters.map Prod.fst).filter (fun c => (s.getTile (tileOfCluster c 0)).team == t.num)).foldl State.freezeColl
    ((s.heldTiles t).foldl State.freezeTile s)

/-- The time of a team's named stop has come (R394): its processors issue nothing more. -/
def Team.stopReached (t : Team) (now : Nat) : Bool := match t.stop with | .named a => decide (a ≤ now) | _ => false
/-- A team becomes FAILED: its record, its report, its processors frozen, its tenant's key erased with its run (R37, R390, R417). A fault
that falls while a stop proceeds is recorded and does not end the stop (R394): the team is FAILED once it has stopped (log entry 51). -/
def State.failTeamAs (s : State) (num : Nat) (faultw faulta : Word) (lcid : Nat) (eng : Bool) : State :=
  match s.findTeam num with
  | none => s
  | some t =>
    let r : FaultRec := ⟨faultw, faulta, s.gtime, lcid, true, false, num, eng⟩
    if t.stopReached s.gtime then s.putTeam { t with reason := .fail, byStop := false, faults := keepFaults t.faults r }
    else (s.freezeTeam t).putTeam { t with state := .failed, key := [], faults := keepFaults t.faults r }
/-- A failure whose FAULTA names no command. -/
def State.failTeam (s : State) (num : Nat) (faultw faulta : Word) (lcid : Nat) : State := s.failTeamAs num faultw faulta lcid false

/-! ## Trained memory -/

/-- Whether the memory an offset of HBM or of the LPDDR tier lies in is trained (R28, R433, R434). -/
def State.trained (s : State) (o : Nat) : Bool :=
  if o < 0x00C000000000 then s.boot.ready.getLsbD (o / 2 ^ 12 % 12) else s.boot.ready.getLsbD 12
end Sys2Proof.Machine
end

