-- ==== Sys2Proof/Machine/Operands.lean ====
section
/-!
DEFINITION. Operand forms: immediates (R153–R168), addresses of M-format instructions (R118) and the regions they reach (R71–R73,
R240), extents (R65, R168, R260), and the classes and scopes of locations (R217, R218).
-/
namespace Sys2Proof

/-- The bytes of an access size (R118). -/
def Asz.bytes : Asz → Nat
  | .b => 1 | .h => 2 | .w => 4 | .d => 8 | .q => 16 | .f => 32 | .v => 64
/-- An index scale as a factor (R118). -/
def Isc.factor (isc : Isc) (asz : Asz) : Nat :=
  match isc with
  | .one => 1 | .elem => asz.bytes | .eight => 8 | .sixtyFour => 64

end Sys2Proof
namespace Sys2Proof.Machine
open Sys2Proof

/-- Two's complement value of a word. -/
def sI (w : Word) : Int := w.toInt
/-- A number as a word, modulo 2^64. -/
def wInt (x : Int) : Word := BitVec.ofInt 64 x
def wNat (x : Nat) : Word := BitVec.ofNat 64 x
/-- An address modulo 2^53. -/
def addr53 (x : Int) : Nat := (x % 2 ^ 53).toNat


/-- The address of an M-format instruction (R118). -/
def State.ea (s : State) (m : MemOp) (asz : Asz) : Nat :=
  addr53 ((ptrAddr (s.rdA m.ab) : Int) + sI (s.rdG m.ix) * (m.isc.factor asz : Int) + m.off.toInt)

/-! ## The address map (R71–R73) -/

/-- Where an address lies. -/
inductive Region where
  | hbm | lpddr | host
  /-- A global address with another module id. -/
  | peer (module : Nat)
  | scratch (lcid off : Nat)
  | weights (die off : Nat)
  | port (lcid off : Nat)
  /-- Outside every range: BADADDR. -/
  | none
  deriving DecidableEq, Repr

/-- Whether a global offset lies in the ranges of R27, and which. -/
def globalRange (o : Nat) : Option Region :=
  if o ≤ 0x00BFFFFFFFFF then some .hbm
  else if decide (0x010000000000 ≤ o ∧ o ≤ 0x01FFFFFFFFFF) then some .lpddr
  else if decide (0x100000000000 ≤ o ∧ o ≤ 0x1FFFFFFFFFFF) then some .host
  else Option.none

/-- The LCID of a window address's coordinates (R72). -/
def windowLcid (a : Nat) : Nat := fld a 46 2 * 256 + fld a 42 4 * 16 + fld a 38 4

/-- The region of a 53-bit address, on module `modid` (R71, R72). -/
def regionOf (modid : BitVec 6) (a : Nat) : Region :=
  if fld a 52 1 = 0 then
    match globalRange (fld a 0 46) with
    | Option.none => .none
    | some r => if fld a 46 6 = modid.toNat then r else .peer (fld a 46 6)
  else match fld a 48 4 with
    | 0 => if fld a 20 18 = 0 then .scratch (windowLcid a) (fld a 0 20) else .none
    | 1 => if fld a 30 16 = 0 then .weights (fld a 46 2) (fld a 0 30) else .none
    | 2 => if fld a 16 22 = 0 then .port (windowLcid a) (fld a 0 16) else .none
    | _ => .none
def State.region (s : State) (a : Nat) : Region := regionOf s.modid a

/-- The first address of a tile's window 0 or 2 (R72). -/
def windowBase (window lcid : Nat) : Nat :=
  2 ^ 52 + window * 2 ^ 48 + lcid / 256 * 2 ^ 46 + lcid / 16 % 16 * 2 ^ 42 + lcid % 16 * 2 ^ 38
def scratchAddr (lcid off : Nat) : Nat := windowBase 0 lcid + off
def portAddr (lcid off : Nat) : Nat := windowBase 2 lcid + off
/-- An address of a die's weight store. -/
def weightAddr (die off : Nat) : Nat := 2 ^ 52 + 2 ^ 48 + die * 2 ^ 46 + off

def Region.isGlobal : Region → Bool
  | .hbm | .lpddr | .host | .peer _ => true
  | _ => false
def Region.isScratch : Region → Bool
  | .scratch _ _ => true
  | _ => false
def Region.isWeights : Region → Bool
  | .weights _ _ => true
  | _ => false

/-- The regions LD reaches (R240). -/
def Region.ldOk : Region → Bool
  | .port _ o => decide (0x0800 ≤ o ∧ o ≤ 0x1007)
  | r => r.isGlobal || r.isScratch
/-- The regions ST reaches: the barrier record is read-only (R240). -/
def Region.stOk : Region → Bool
  | .port _ o => decide (0x0800 ≤ o ∧ o ≤ 0x0FDF) || decide (0x1000 ≤ o ∧ o ≤ 0x1007)
  | r => r.isGlobal || r.isScratch
/-- The regions AMO reaches. -/
def Region.amoOk : Region → Bool
  | .hbm | .lpddr | .peer _ => true
  | r => r.isScratch
/-- A tile queue: its tile and number (R73). -/
def Region.queue : Region → Option (Nat × Nat)
  | .port l o => if o % 0x100 = 0 ∧ o / 0x100 < 8 then some (l, o / 0x100) else Option.none
  | _ => Option.none

/-! ## Classes and scopes (R217, R218) -/

/-- The classes in the order R251 takes them. -/
inductive Cls where
  | tile | cluster | die | module | host | fabric
  deriving DecidableEq, Repr

def Cls.index : Cls → Nat
  | .tile => 0 | .cluster => 1 | .die => 2 | .module => 3 | .host => 4 | .fabric => 5
def Cls.all : List Cls := [.tile, .cluster, .die, .module, .host, .fabric]

/-- The die of an HBM stack's controller (R28). -/
def hbmDie (o : Nat) : Nat := o / 4096 % 12 / 3
/-- The die a processor stands on; the edge die's processors stand on none. -/
def dieOf : ProcId → Option Nat
  | .main n | .stage n => some (n / 256)
  | .coll c => some (c / 16)
  | .trust _ | .mgmt => Option.none
/-- The tile and cluster a processor belongs to. -/
def clusterNo : ProcId → Option Nat
  | .main n | .stage n => some (clusterOf n)
  | .coll c => some c
  | .trust _ | .mgmt => Option.none

/-- The class of a tile's own window relative to a processor. -/
def tileClass (p : ProcId) (lcid : Nat) : Cls :=
  if tileOf p = some lcid then .tile
  else if clusterNo p = some (clusterOf lcid) then .cluster
  else if dieOf p = some (lcid / 256) then .die
  else .module
/-- The class of an address relative to an issuing processor (R217). -/
def State.classOf (s : State) (p : ProcId) (a : Nat) : Cls :=
  match s.region a with
  | .scratch l _ | .port l _ => tileClass p l
  | .weights d _ => if dieOf p = some d then .die else .module
  | .hbm => if dieOf p = some (hbmDie (fld a 0 46)) then .die else .module
  | .lpddr | .none => .module
  | .host => .host
  | .peer _ => .fabric

end Sys2Proof.Machine
namespace Sys2Proof
open Machine

/-- Whether a scope covers a class; DOMAIN covers the fabric for a fabric team (R218). -/
def Scope.covers (sc : Scope) (fabricTeam : Bool) (c : Cls) : Bool :=
  match sc with
  | .self => false
  | .tile => c == .tile
  | .cluster => c == .tile || c == .cluster
  | .die => c == .tile || c == .cluster || c == .die
  | .module => c != .host && c != .fabric
  | .host => c != .fabric
  | .domain => c != .host && (c != .fabric || fabricTeam)
  | .fabric => c != .host
  | .system => true

end Sys2Proof
namespace Sys2Proof.Machine
open Sys2Proof

def State.isFabricTeam (s : State) : Bool := match s.team with | some t => t.fabric | Option.none => false
def State.covers (s : State) (sc : Scope) (c : Cls) : Bool := sc.covers s.isFabricTeam c
/-- The scope of a barrier level (R234). -/
def levelScope : Nat → Scope
  | 0 => .tile | 1 => .cluster | 2 => .module | _ => .domain

/-! ## Extents (R65, R168) -/

/-- The rights of an extent as a set: bit 0 read, 1 write, 2 engine, 3 weight-store. -/
def Extent.rights (x : Extent) : BitVec 4 := BitVec.ofNat 4 (bit x.rd + 2 * bit x.wr + 4 * bit x.er + 8 * bit x.sr)
/-- Whether a valid extent holds a byte and grants every right of `need`. -/
def Extent.grants (x : Extent) (need : BitVec 4) (a : Nat) : Bool :=
  x.valid && decide (x.base.toNat ≤ a ∧ a ≤ x.limit.toNat) && (x.rights &&& need) == need
/-- Whether some extent of the processor in focus grants the rights on a byte (R260). -/
def State.grantedAt (s : State) (need : BitVec 4) (a : Nat) : Bool :=
  (List.range 19).any (fun x => (s.extent x).grants need a)
/-- The last byte up to which one extent that grants byte `a` grants the bytes after it; none when no extent grants `a`. -/
def State.grantEnd (s : State) (need : BitVec 4) (a : Nat) : Option Nat :=
  (List.range 19).foldl (fun best x =>
    if (s.extent x).grants need a then some (max (best.getD 0) (s.extent x).limit.toNat) else best) Option.none
/-- The first byte of [a, a + n) that no extent grants (R260: different bytes may be granted by different extents). The reach of one
extent is covered at a time, so nineteen rounds see every extent (a translator core has e16 to e18, R376). -/
def State.firstRefused (s : State) (need : BitVec 4) (a n : Nat) : Option Nat :=
  let rec go : Nat → Nat → Option Nat
    | 0, b => if b < a + n then some b else Option.none
    | k + 1, b =>
      if b < a + n then
        match s.grantEnd need b with
        | some e => go k (e + 1)
        | Option.none => some b
      else Option.none
  go 20 a

/-- The detail word of EXTENT (R169). -/
def extentDetail (x src : Nat) (need : BitVec 4) (len : Nat) (off : Int) : Word :=
  let o : Nat := if off < -2 ^ 40 then 2 ^ 40 else if off > 2 ^ 40 - 1 then 2 ^ 40 - 1 else (off % 2 ^ 41).toNat
  wNat (x * 2 ^ 59 + src * 2 ^ 57 + need.toNat * 2 ^ 53 + min len 0xFFF * 2 ^ 41 + o)

end Sys2Proof.Machine
end

