-- ==== Sys2Proof/Machine/Access.lean ====
section
/-!
DEFINITION. One access at its home: the pieces of an access (R226, R227), the checks a request meets on its way and at its target
(R238, R241, R353–R356, R393, R423), reading and writing bytes, and the events that set a latch (R63, R69).
-/
namespace Sys2Proof.Machine
open Sys2Proof

/-! ## Pieces -/

/-- The pieces of an access of `n` bytes at `a`, as first address and length. -/
def pieces (a n : Nat) : List (Nat × Nat) :=
  if n ≤ 32 ∧ a % n = 0 then [(a, n)]
  else (List.range ((a % 32 + n + 31) / 32)).map fun i =>
    let lo := max a (32 * (a / 32 + i))
    (lo, min (a + n) (32 * (a / 32 + i + 1)) - lo)

/-- Whether two ranges share a byte. -/
def overlaps (a n b m : Nat) : Bool := decide (a < b + m ∧ b < a + n)

/-! ## Who asks -/

/-- The tile whose team a processor works for. -/
def homeTile : ProcId → Option Nat
  | .main n | .stage n => some n
  | .coll c => some (tileOfCluster c 0)
  | .trust _ | .mgmt => none
/-- The tenant tag of a processor's requests (R354). -/
def State.tagOf (s : State) (p : ProcId) : Nat :=
  match homeTile p with
  | some n => (s.getTile n).tenant
  | none => 0
def State.teamOf (s : State) (p : ProcId) : Option Team :=
  match homeTile p with
  | some n => s.findTeam (s.getTile n).team
  | none => none
/-- The time of the stop of a processor's team has come (R394). -/
def State.pastStop (s : State) (p : ProcId) : Bool :=
  match s.teamOf p with
  | some t => t.state == .running && t.stopReached s.gtime
  | none => false
/-- Whether a team holds a cluster now. -/
def State.heldNow (s : State) (c : Nat) : Bool :=
  match (s.getCluster c).holder.bind s.findTeam with
  | some t => t.state == .running
  | none => false
/-- A counter of the processor's tile grows. -/
def State.countOf (s : State) (p : ProcId) (cls k n : Nat) : State :=
  match homeTile p with
  | some l => s.countAt l cls k n
  | none => s

/-! ## The backstop (R353–R356) -/

def State.owned (s : State) (g : GranuleId) (tag : Nat) : Bool := s.granules.any (fun x => x.id == g && x.tag == tag)
/-- Where a protected team's byte lies at its target: base + 2 × (A − base) (R361). -/
def Team.targetOf (t : Team) (a : Nat) : Nat :=
  if t.isProtected then
    match t.baseOf a with
    | some b => b + 2 * (a - b)
    | none => a
  else a
def State.target (s : State) (p : ProcId) (a : Nat) : Nat :=
  match s.teamOf p with
  | some t => t.targetOf a
  | none => a
/-- Whether the target passes a request with a tag (R354); `ta` is where the target holds the byte. -/
def State.admitsTag (s : State) (tag a ta : Nat) : Bool :=
  let g := fld ta 0 46 / 2 ^ 21
  tag == 0 || (match s.region a with
    | .hbm => s.owned ⟨0, 0, g⟩ tag
    | .lpddr => s.owned ⟨1, 0, g⟩ tag
    | .host => s.owned ⟨3, 0, g⟩ tag
    | .weights d o => s.owned ⟨2, d, (o + (ta - a)) / 2 ^ 25⟩ tag
    | .scratch l _ | .port l _ => (s.getTile l).team != 0 && (s.getTile l).tenant == tag
    | .peer _ => true
    | .none => false)
def State.admits (s : State) (p : ProcId) (a : Nat) : Bool := s.admitsTag (s.tagOf p) a (s.target p a)

/-- A team another report stops: a running one by Solstice, a waiting one at once; it is left halted. -/
def Team.haltNamed (t : Team) (now : Nat) : Team :=
  let u := { t with byStop := false, haltAt := none }
  if t.state = .running then
    match t.stop with
    | .none => { u with stop := .named now, stopAt := now, reason := .halt }
    | .named b => if t.reason = StopReason.fail then t else { u with stop := .named (min b now), stopAt := min b now, reason := .halt }
    | _ => if t.reason = StopReason.fail then t else { u with reason := .halt }
  else if t.state = .waiting then { u with state := .halted }
  else t
/-- A native offset in a sealed version as the operator's record names it (R356): from the start of the function that holds the
address; an address of a stage program or of the collective firmware is an offset already. -/
def Sealed.offsetOf (v : Sealed) (a : Nat) : Nat :=
  match v.procs.find? (fun p => decide (p.addr ≤ a ∧ a < p.addr + p.size)) with
  | some p => a - p.addr
  | none => if v.base ≤ a then a - v.base else a
/-- The tenant enters ERROR by a backstop report of its team (R375): its other teams stop and stay halted. The team's object is
quarantined when a core access or a command earned the report: no launch, and the operator's record names the translator version, the
object and the native offset (R356). -/
def State.quarantine (s : State) (t : Team) (pc : Option Nat) : State :=
  let entry := match pc with | some a => [(Config.tver, t.objid, t.code.offsetOf a)] | none => []
  { s with
    host := { s.host with quarantines := s.host.quarantines ++ entry }
    objects := s.objects.map (fun o => if pc.isSome ∧ o.objid = t.objid ∧ o.tenant = t.tenant then { o with quarantined := true } else o)
    tenants := s.tenants.map (fun x => if x.tag = t.tenant ∧ x.state = .run then { x with state := .error } else x)
    teams := s.teams.map (fun u => if u.num ≠ t.num ∧ u.tenant = t.tenant then u.haltNamed s.gtime else u) }

/-- A backstop report of a request that is no core load: the team stops by Solstice and becomes FAILED, with the address (R355). -/
def State.backstopReport (s : State) (p : ProcId) (pc : Option Nat) (a : Nat) : State :=
  match s.teamOf p with
  | none => s
  | some t =>
    let s1 := (s.countOf p 5 4 1).countOf p 5 1 1
    let lcid := (homeTile p).getD 0xFFFF
    let r : FaultRec := ⟨faultWord codeBackstop false 3 0, wNat a, s.gtime, lcid, true, false, t.num, false⟩
    if t.state = .failed then s1
    else (s1.putTeam { t with stop := .named s.gtime, stopAt := s.gtime, reason := .fail, faults := keepFaults t.faults r }).quarantine t pc

/-! ## Faults on the way and at the home (R241, R393, R423) -/

/-- PEERLOST for a module that is no peer, FENCED for a fenced tile. -/
def State.wayFault (s : State) (a : Nat) : Option (BitVec 8) :=
  match s.region a with
  | .peer m => if (vget s.fabric.peers m Peer.empty).valid then none else some codePeerlost
  | .scratch l _ | .port l _ => if (s.getTile l).fenced then some codeFenced else none
  | _ => none
/-- A flit of this module's own messages: all but those that it forwards. -/
def Flight.own (x : Flight) : Bool := match x.cargo with | .forward _ => false | _ => true
/-- The flits in a port's replay buffer. -/
def Fabric.buffer (f : Fabric) (port : Nat) : List Flight := f.flights.filter (fun x => x.port == port)
/-- Whether a port's replay buffer of 128 flits has room for one more of this module's own (R420): those it forwards give way (log
entry 37). -/
def Fabric.room (f : Fabric) (port : Nat) : Bool := decide (((f.buffer port).filter Flight.own).length < 128)
/-- Whether a message towards an address can leave now: a fabric message needs an allowance, no dark interval (R423), and room in the
replay buffer of its port. -/
def Fabric.opens (f : Fabric) (q : Peer) : Bool := f.dark.isNone && q.allow != 0 && f.room q.port.toNat
def State.wayOpen (s : State) (a : Nat) : Bool :=
  match s.region a with
  | .peer m =>
    let q := vget s.fabric.peers m Peer.empty
    !q.valid || s.fabric.opens q
  | _ => true
/-- The replay buffers without the oldest flit that a port forwards. -/
def dropForward (port : Nat) : List Flight → List Flight
  | [] => []
  | x :: r => if x.port = port ∧ x.own = false then r else x :: dropForward port r
/-- A flit leaves on a port with the port's next sequence number, and stands in its replay buffer (R420). -/
def Fabric.send (f : Fabric) (port m tag : Nat) (c : Cargo) (bytes : List Byte) (sends : Nat) : Fabric :=
  let n := vget f.seqs port 0
  let l := if 128 ≤ (f.buffer port).length then dropForward port f.flights else f.flights
  { f with flights := l ++ [⟨port, n, m, tag, c, bytes.take 64, sends⟩], seqs := vset f.seqs port (n + 1) }
/-- A flit to a valid peer spends one unit of its allowance, and the units owed to the peer return with it (R424). -/
def State.spendTo (s : State) (m : Nat) : State :=
  let q := vget s.fabric.peers m Peer.empty
  if q.valid then { s with fabric := { s.fabric with peers := vset s.fabric.peers m { q with allow := q.allow - 1, owed := 0, sentAt := s.gtime } } }
  else s
/-- A flit accepted from a peer is owed to it until the unit returns (R424). -/
def State.owe (s : State) (m : Nat) : State :=
  let q := vget s.fabric.peers m Peer.empty
  if q.valid then { s with fabric := { s.fabric with peers := vset s.fabric.peers m { q with owed := min 64 (q.owed + 1) } } } else s
/-- The messages of a reading access to an address, when it goes to another module: its request and the answer are accepted in the step that
reads (R424). -/
def State.spend (s : State) (a : Nat) : State :=
  match s.region a with
  | .peer m => (s.spendTo m).owe m
  | _ => s
/-- A message of this module leaves towards a module: one flit for up to 64 B, which spends a unit and stands in the replay buffer until it
is accepted (R420, R424). -/
def State.sendTo (s : State) (m tag : Nat) (c : Cargo) (bytes : List Byte) : State :=
  let q := vget s.fabric.peers m Peer.empty
  let s1 := s.spendTo m
  if q.valid then { s1 with fabric := s1.fabric.send q.port.toNat m tag c bytes 1 } else s1
/-- Whether a message stands in a replay buffer, not accepted. -/
def Fabric.carries (f : Fabric) (c : Cargo) : Bool := f.flights.any (fun x => x.cargo == c)
/-- Its module has accepted a message, and with it every earlier one of this module: they arrive in the order of their sending (R422). -/
def Fabric.accept (f : Fabric) (c : Cargo) : Fabric :=
  match f.flights.find? (fun x => x.cargo == c) with
  | some x => { f with flights := f.flights.filter (fun y => !(y.own && y.peer == x.peer && y.port == x.port && decide (y.seq ≤ x.seq))) }
  | none => f
/-- A module that an address belongs to, when it is a current peer. -/
def State.peerAt (s : State) (a : Nat) : Option Nat :=
  match s.region a with
  | .peer m => if (vget s.fabric.peers m Peer.empty).valid then some m else none
  | _ => none
/-- Whether the message of a read can leave now, or has left and no dark interval holds it (R423, R427). -/
def State.messageOpen (s : State) (paid : Bool) (a : Nat) : Bool := s.wayOpen a || (paid && s.fabric.dark.isNone)
/-- Whether the message of a write can leave now, or has left and its module takes it: one that has not been accepted waits for the end of
a dark interval (R427). -/
def State.sendOpen (s : State) (c : Cargo) (sent : Bool) (a : Nat) : Bool :=
  if sent then s.fabric.dark.isNone || !s.fabric.carries c else s.wayOpen a
/-- Whether a piece's message has left with an earlier piece of the same access. -/
def paidPiece (l : List LoadPart) (q : LoadPart) : Bool := l.any (fun e => e.no == q.no && e.bytes.isSome)
/-- The message of a piece of a pending read: one for the pieces of an access. -/
def State.payPiece (s : State) (l : List LoadPart) (q : LoadPart) : State := if paidPiece l q then s else s.spend q.addr

/-- Whether an address lies in a bank group in its intercalary window (R29). -/
def State.inWindow (s : State) (a : Nat) : Bool :=
  match s.region a with
  | .weights _ o => decide (s.gtime % 32000 / 1000 = o / 2 ^ 25)
  | _ => false

/-- The bytes of an ECC unit (R393). -/
def Region.eccSize : Region → Nat
  | .scratch _ _ | .weights _ _ | .port _ _ => 8
  | _ => 32
/-- The failing ECC units a range meets, by their first addresses. -/
def State.badUnits (s : State) (a n : Nat) : List Nat := s.bad.filter (fun u => overlaps a n u (s.region u).eccSize)

/-- A range that reaches an HBM stack or the LPDDR tier before its function is ready: it is answered as an uncorrectable error
(R434). -/
def State.unready (s : State) (a n : Nat) : Bool :=
  match s.region a with
  | .hbm | .lpddr => !s.trained (fld a 0 46) || !s.trained (fld (a + n - 1) 0 46)
  | _ => false

/-- The lines a processor's range meets: of a protected team, outside the tiles (R361). -/
def State.linesAt (s : State) (p : ProcId) (a n : Nat) : List Nat :=
  match s.teamOf p with
  | some t => s.linesOf t a n
  | none => []
def State.tagFails (s : State) (p : ProcId) (a n : Nat) : Bool :=
  match s.teamOf p with
  | some t => s.sealFails t a n
  | none => false
/-- Whether the bytes of a range meet an uncorrectable error where they are held. -/
def State.badHeld (s : State) (p : ProcId) (a n : Nat) : Bool :=
  match s.linesAt p a n with
  | [] => s.badUnits a n != [] || s.unready a n
  | ls => ls.any (fun l => s.badUnits l 64 != [] || s.unready l 64)
/-- What a reading request of `n` bytes meets (R241): none when it reads its bytes. The flag says that a sealed line's tag fails. -/
def State.readFault (s : State) (p : ProcId) (a n : Nat) : Option (BitVec 8 × Bool) :=
  match s.wayFault a with
  | some c => some (c, false)
  | none =>
    if !s.admits p a then some (codeBackstop, false)
    else if s.badHeld p a n then some (codeMemerr, false)
    else if s.tagFails p a n then some (codeMemerr, true)
    else none
/-- The address a report names: bit 63 marks a tag that failed (R362). -/
def marked (tag : Bool) (a : Nat) : Nat := if tag then a % 2 ^ 53 + 2 ^ 63 else a

/-! ## Bytes -/

/-- A byte a processor reads; the latch word reads as the latch (R73), and a protected team reads its lines' plaintext (R361). -/
def State.byteFor (s : State) (p : ProcId) (a : Nat) : Byte :=
  match s.region a with
  | .port l o => if o = 0x1000 then (if (s.getCore (.main l)).latch then 1 else 0) else if 0x1000 < o then 0 else memGet s.mem a
  | _ => match s.teamOf p with
    | some t => s.teamByte t a
    | none => memGet s.mem a
def State.bytesFor (s : State) (p : ProcId) (a n : Nat) : List Byte := (List.range n).map (fun i => s.byteFor p (a + i))
/-- The same for the processor in focus. -/
def State.byteAt (s : State) (a : Nat) : Byte := s.byteFor s.cur a
def State.readBytes (s : State) (a n : Nat) : List Byte := s.bytesFor s.cur a n
/-- `n` bytes as a number. -/
def State.readNat (s : State) (a : Nat) : Nat → Nat
  | 0 => 0
  | n + 1 => (s.byteAt a).toNat + 256 * s.readNat (a + 1) n
/-- The number the cells of a range hold. -/
def cellsNat (cells : List Host.Cell) (a : Nat) : Nat → Nat
  | 0 => 0
  | n + 1 => (match cells.find? (fun c => c.1 == a) with | some c => c.2.toNat | none => 0) + 256 * cellsNat cells (a + 1) n

/-! ## Events (R63, R69, R292) -/

/-- An arrival of a kind sets the latch of the tile's main context when EVMASK has its bit: 0 SEV and latch word, 1 queue, 2 mailbox,
3 full bit. -/
def State.event (s : State) (lcid k : Nat) : State :=
  let c := s.getCore (.main lcid)
  if c.evmask.getLsbD k then s.setCore (.main lcid) (c.latched s.cycle) else s
/-- The same for the stage core's own latch. -/
def State.eventStage (s : State) (lcid k : Nat) : State :=
  let c := s.getCore (.stage lcid)
  if c.evmask.getLsbD k then s.setCore (.stage lcid) (c.latched s.cycle) else s

/-- A team is stopped from its Solstice stop to its restore (R74, R396). -/
def Team.isStopped (t : Team) : Bool :=
  t.stop == .stopped || t.stop == .saved || (t.state == .running && t.hasSave && !t.placed)
/-- Whether a tile's team has stopped by Solstice and its restore is still to come (R396). -/
def State.tileStopped (s : State) (lcid : Nat) : Bool :=
  match s.findTeam (s.getTile lcid).team with
  | some t => t.isStopped
  | none => false
/-- Whether a tile's team runs: a task engine takes messages and readies continuations of no other. -/
def State.tileRuns (s : State) (lcid : Nat) : Bool :=
  match s.findTeam (s.getTile lcid).team with
  | some t => t.state == .running && !t.isStopped
  | none => false
/-- An entry of the mailbox log of a stopped context (R396). -/
def State.logFor (s : State) (t : Team) (e : LogEntry) : State := s.putTeam { t with log := t.log ++ [e] }
def State.logEntry (s : State) (lcid : Nat) (e : LogEntry) : State :=
  match s.findTeam (s.getTile lcid).team with
  | some t => s.logFor t e
  | none => s
/-- A stopped team of several modules with a context on a tile that another team now holds: the arrivals that its other modules still send
are held for it (R396). -/
def State.awayTeam (s : State) (lcid : Nat) (ok : Team → Bool) : Option Team :=
  s.teams.find? (fun t => t.isStopped && decide (1 < t.nmod) && t.tiles.contains lcid && (s.getTile lcid).team != t.num && ok t)
/-- The barrier state with which a context of such a team stopped. -/
def Team.barOf (t : Team) (lcid lv : Nat) : BarLevel := match t.snaps.find? (fun x => x.lcid == lcid) with | some x => vget x.tile.bars lv BarLevel.empty | none => BarLevel.empty

/-! ## Fault records (R251) -/

/-- A write dropped at a fenced tile, over a failing ECC unit or towards a lost peer enters its record; a second one is counted. -/
def State.dropped (s : State) (p : ProcId) (code : BitVec 8) (a : Nat) : State :=
  let c := s.getCore p
  let k := (s.classOf p (a % 2 ^ 53)).index
  if code = codePeerlost then
    if c.peerRec.isNone then s.setCore p { c with peerRec := some a } else s.countOf p 5 2 1
  else if code = codeFenced then
    if (vget c.fencedRec k none).isNone then s.setCore p { c with fencedRec := vset c.fencedRec k (some a) } else s.countOf p 5 2 1
  else
    if (vget c.memerrRec k none).isNone then s.setCore p { c with memerrRec := vset c.memerrRec k (some a) } else s.countOf p 5 2 1

/-! ## Writing bytes -/

/-- The failing units a range covers only in part: a write over one is dropped (R393). -/
def State.keptOut (s : State) (a n : Nat) : List Nat :=
  (s.badUnits a n).filter (fun u => !(decide (a ≤ u ∧ u + (s.region u).eccSize ≤ a + n)))
/-- The failing units that are left when the whole units of a range are replaced. -/
def State.mended (s : State) (a n : Nat) : List Nat := s.bad.filter (fun u => !(decide (a ≤ u ∧ u + (s.region u).eccSize ≤ a + n)))
/-- Bytes become the home's value and whole failing units are repaired; a write over part of one is dropped (R393). -/
def State.mendCells (s : State) (a : Nat) (cells : List Host.Cell) : State :=
  if s.keptOut a cells.length = [] then { s with mem := memPut s.mem cells, bad := s.mended a cells.length } else s
/-- A processor's write outside the sealed lines: the address of a dropped one enters its MEMERR record (R251, R393). -/
def State.putPlain (s : State) (p : ProcId) (a : Nat) (cells : List Host.Cell) : State :=
  if s.unready a cells.length ∨ s.keptOut a cells.length ≠ [] then s.dropped p codeMemerr a else s.mendCells a cells
/-- A protected team's write of the cells that fall into one line (R362): a whole line replaces it; a partly covered one is dropped and
reported where the line holds an uncorrectable error or its tag fails. -/
def State.putSealed (s : State) (p : ProcId) (a : Nat) (cells : List Host.Cell) (l : Nat) : State :=
  match s.teamOf p with
  | none => s
  | some t =>
    if s.unready l 64 then s.dropped p codeMemerr a
    else if s.coversLine t l cells then
      { s.putLine ((homeTile p).getD 1024) t.num cells l with bad := s.bad.filter (fun u => !(decide (l ≤ u ∧ u + (s.region u).eccSize ≤ l + 64))) }
    else if s.badUnits l 64 != [] then s.dropped p codeMemerr a
    else if (s.openLine t l).isNone then s.dropped p codeMemerr (marked true a)
    else s.putLine ((homeTile p).getD 1024) t.num cells l
def State.putCells (s : State) (p : ProcId) (a : Nat) (cells : List Host.Cell) : State :=
  match s.linesAt p a cells.length with
  | [] => s.putPlain p a cells
  | ls => ls.foldl (fun s l => s.putSealed p a cells l) s

/-- What a stored piece does at its home: a mailbox byte or the latch word raises its event; a stopped context logs it (R396); any
other piece is written. -/
def State.landBy (s : State) (sender a : Nat) (bytes : List Byte) (put : State → State) : State :=
  match s.region a with
  | .port l o =>
    if 0x1000 ≤ o then (if s.tileStopped l then s.logEntry l (.sev l false sender) else s.event l 0)
    else if s.tileStopped l then s.logEntry l (.mailbox l a bytes sender)
    else (put s).event l 2
  | _ => put s
/-- A sender as the mailbox log names it: its LCID, and its module above (R396). -/
def State.senderOf (s : State) (p : ProcId) : Nat := (homeTile p).getD 0xFFFF + s.modid.toNat * 2 ^ 16
def State.landCells (s : State) (p : ProcId) (a : Nat) (cells : List Host.Cell) : State :=
  s.landBy (s.senderOf p) a (cells.map Prod.snd) (fun s => s.putCells p a cells)

/-! ## Counting at issue (R402, R403) -/

/-- The optical flits of 64 B that an access takes to a peer (R33, R420). -/
def State.fabricFlits (s : State) (a n : Nat) : Nat := match s.region a with | .peer _ => (n + 63) / 64 | _ => 0
/-- The flits of a message of `n` bytes. -/
def State.countFlits (s : State) (p : ProcId) (a n : Nat) : State :=
  (List.range 5).foldl (fun s k => s.countOf p 3 k (if k = 4 then s.fabricFlits a n else Config.flits s.free k n)) s
/-- The request of an access of `n` bytes that leaves the tile, and its flits. -/
def State.countRequest (s : State) (p : ProcId) (a n : Nat) : State :=
  if s.classOf p a = .tile then s else (s.countOf p 1 2 1).countFlits p a n
/-- Bytes of the memories an access goes to. -/
def State.countMemory (s : State) (p : ProcId) (a n : Nat) : State :=
  match s.region a with
  | .hbm => s.countOf p 1 3 n
  | .lpddr => s.countOf p 1 4 n
  | .weights _ _ => s.countOf p 1 5 n
  | _ => s
/-- Bytes of an access, and where they go, in class C1, and its flits: `k` is 0 for a read and 1 for a write. -/
def State.countBytes (s : State) (p : ProcId) (k a n : Nat) : State := ((s.countOf p 1 k n).countRequest p a n).countMemory p a n
/-- An atomic is one request that loads and stores its bytes. -/
def State.countAmo (s : State) (p : ProcId) (a n : Nat) : State := ((s.countOf p 1 0 n).countMemory p a n).countBytes p 1 a n

/-! ## Trace records and team faults (R388, R415) -/

/-- The entry of a team's policy that covers a counter (R411); none stands for G0. -/
def Team.entryFor (t : Team) (n : Nat) : Option AlmEntry :=
  t.policy.find? (fun e => e.cls == n / 8 && (e.cmask == 0 || e.cmask.testBit (n % 8)))
/-- The granularity of a counter, and its time bucket of 2^n µs in ns. -/
def Team.granOf (t : Team) (n : Nat) : Nat := match t.entryFor n with | some e => e.gran | none => 0
def AlmEntry.bucket (e : AlmEntry) : Nat := 1000 * 2 ^ e.tbkt
/-- A location as a granularity shows it (R414). -/
def locAt (gran lcid : Nat) : Nat := if gran = 4 then lcid else if gran = 3 then 0x8000 + clusterOf lcid else 0xFFFF
/-- The operator's copy of the `k`-th trace record of a tile (R415): whether it is sampled out, and what it shows. -/
def Team.traceCopy (t : Team) (k kind lcid tid now : Nat) : Bool × List TraceCopy :=
  match t.entryFor 48 with
  | some e =>
    if e.gran < 2 then (false, [])
    else if k % 2 ^ e.tsamp ≠ 0 then (true, [])
    else (false, [⟨kind, locAt e.gran lcid, if e.gran = 4 then tid else 0, now / e.bucket * e.bucket⟩])
  | none => (false, [])
/-- The TID of a tile's running task. -/
def Tile.tid (k : Tile) : Nat := match k.task with | some x => x.tid.toNat | none => 0
/-- A team's trace record is written by its tile's monitor block, with the tenant's tag: the backstop refuses it, or it is dropped over an
uncorrectable error (R336, R393). -/
def State.putTrace (s : State) (t : Team) (lcid a : Nat) (cells : List Host.Cell) : State :=
  if s.admitsTag t.tenant a (t.targetOf a) then s.putCells (.main lcid) a cells else s.backstopReport (.main lcid) none a
/-- A trace record of a tile (R415): the operator's copy, and the tenant's in the trace extent while it has room. C6 counters 0, 1 and 2.
The kinds are numbered 1 dispatch, 2 retirement, 3 park, 4 migration, 5 superstep, 6 trap (log entry 13). -/
def State.traceOn (s : State) (lcid kind tid : Nat) : State :=
  match s.findTeam (s.getTile lcid).team with
  | none => s
  | some t =>
    let r := t.traceCopy (vget (s.getTile lcid).ctr 48 0).toNat kind lcid tid s.gtime
    let t1 := { t with opTrace := t.opTrace ++ r.2 }
    let s1 := ((s.putTeam t1).countAt lcid 6 0 1).countAt lcid 6 1 (bit r.1)
    if t.trcx = 0xFF then s1 else
      let x := vget t.ext t.trcx Extent.empty
      let a := x.base.toNat + t.traceAt
      if x.valid && decide (a + 15 ≤ x.limit.toNat) then
        let t2 := { t1 with traceAt := t.traceAt + 16 }
        (s1.putTeam t2).putTrace t2 lcid a (cellsOf a (kind + lcid * 2 ^ 16 + tid * 2 ^ 32) 8 ++ cellsOf (a + 8) s.gtime 8)
      else s1.countAt lcid 6 2 1
/-- The trap record of a team fault, on the tile that it belongs to or was found on (R415). -/
def State.traceFault (s : State) (lcid : Nat) : State := s.traceOn lcid 6 (s.getTile lcid).tid
/-- A backstop report with the trap record of the issuing tile. -/
def State.backstop (s : State) (p : ProcId) (pc : Option Nat) (a : Nat) : State :=
  match homeTile p with
  | some l => (s.traceFault l).backstopReport p pc a
  | none => s.backstopReport p pc a
/-- A team fault on a tile that the team holds is counted and traced there (R402, R415). -/
def State.countFault (s : State) (num tile : Nat) : State :=
  if (s.getTile tile).team = num then (s.traceFault tile).countAt tile 5 1 1 else s
/-- A team fault other than a backstop report: what its tile counts, and the end of the team (R37, R388). -/
def State.teamFault (s : State) (num : Nat) (code : BitVec 8) (detail : Word) (tile lcid : Nat) : State :=
  (s.countFault num tile).failTeam num (faultWord code false 3 0) detail lcid

end Sys2Proof.Machine
end

