-- ==== Sys2Proof/Machine/Ops.lean ====
section
/-!
DEFINITION. Taking a trap and leaving its handler (R387–R392), fetching an instruction (R125, R171, R393), and placing one to be fetched
next.
-/
namespace Sys2Proof.Machine
open Sys2Proof

/-! ## Traps -/

/-- A trap as it is raised: its code and detail, whether a fault record held it, the PC its fault word names, the resume PC and the
length and SKIP that handler entry records (R390, R391). -/
structure Trap where
  code : BitVec 8
  detail : Word
  async : Bool
  pc : Word
  resume : Word
  len16 : Bool
  skip : Bool
  /-- The detail has the layout of R263. -/
  eng : Bool
  deriving DecidableEq, Repr

/-- Whether a trap is fatal to the team (R390). -/
def State.trapFatal (s : State) (code : BitVec 8) : Bool :=
  !s.onMain || !handlerMay code || s.tile.handler.hin || (match s.team with | some t => t.code.handlerLink.isNone | none => true)

/-- A trace record of the tile whose processor is in focus; a collective engine's is on the tile its fault records name. -/
def State.trace (s : State) (kind : Nat) : State :=
  match s.cur with
  | .main _ | .stage _ => s.traceOn s.here kind s.tile.tid
  | .coll c => s.traceOn (tileOfCluster c 0) kind (s.getTile (tileOfCluster c 0)).tid
  | .trust _ | .mgmt => s

/-- The C5 counters of the codes that have one (R402): BACKSTOP, MEMERR, FENCED, PEERLOST. -/
def State.countCode (s : State) (code : BitVec 8) : State :=
  if code = codeBackstop then s.count 5 4 1
  else if code = codeMemerr then s.count 5 5 1
  else if code = codeFenced then s.count 5 6 1
  else if code = codePeerlost then s.count 5 7 1
  else s

/-- The first address of the code heap (R27). -/
def heapBase : Nat := 0x00BC00000000

/-- The stub of a link-table entry stands at the entry itself (log entry 22), and a procedure's entry is its stub until it is
published (R347, R363). -/
def Sealed.stub (v : Sealed) (i : Nat) : Nat := heapBase + v.linkOff + 8 * i
def Sealed.published (v : Sealed) (i : Nat) : Option Nat := (v.procs.find? (fun p => p.link == i)).map Proc.addr
def Sealed.entry (v : Sealed) (i : Nat) : Nat := (v.published i).getD (v.stub i)
/-- The link-table entry whose stub stands at an address. -/
def Sealed.linkOf (v : Sealed) (a : Nat) : Option Nat :=
  if v.stub 0 ≤ a ∧ a < v.stub v.linkCnt ∧ a % 8 = 0 then some ((a - v.stub 0) / 8) else none
/-- The native entry of the handler procedure (R390). -/
def Sealed.handlerEntry (v : Sealed) : Nat := match v.handlerLink with | some i => v.entry i | none => 0

/-- The end of handler entry, once the sequencer is empty and the stream pushes are complete: a14 and the PC (R390). -/
def State.enterHandler (s : State) : State :=
  match s.team with
  | none => s
  | some t =>
    let s1 := { s with tile := { s.tile with handler := { s.tile.handler with entering := false, xl := s.rdA 14 } } }
    let s2 := s1.wrA 14 (s.tile.handler.hresume &&& 0x1FFFFFFFFFFFFF#64)
    { s2 with core := { s2.core with pc := BitVec.ofNat 64 t.code.handlerEntry } }

/-- The fault word of a trap (R388). -/
def State.trapWord (s : State) (tr : Trap) : Word := faultWord tr.code tr.async (srcOf s.cur) tr.pc.toNat
/-- A trap is raised: what the instruction waited for is over, FAULTW and FAULTA tell of it, its counter and its trace record (R388,
R402, R415). -/
def State.raiseTrap (s : State) (tr : Trap) : State :=
  ({ s with core := { s.core with wait := none, load := none, faultw := s.trapWord tr, faulta := tr.detail } }.countCode tr.code).trace 6
/-- A fatal trap: the end of the team (R390). The processors of the trust tile and the management controller have no team, and stop (log
entry 12). -/
def State.trapEnds (s : State) (tr : Trap) : State :=
  match s.team with
  | none => { s.raiseTrap tr with core := { (s.raiseTrap tr).core with running := false } }
  | some _ =>
    let t := ((s.raiseTrap tr).count 5 1 1).failTeamAs s.teamNum (s.trapWord tr) tr.detail s.recordLcid tr.eng
    { t with core := { t.core with running := false } }
/-- The handler state of an entry that has begun (R390). -/
def State.trapHandler (s : State) (tr : Trap) : Handler where
  hin := true
  hresume := tr.resume
  hlen16 := tr.len16
  skip := tr.skip
  xl := 0
  entering := true
  inBody := s.tile.loop.active != 0
/-- A fault record of a trap the team's handler takes (R389). -/
def State.recordHandled (s : State) (fw detail : Word) (eng : Bool) : State :=
  match s.team with
  | none => s
  | some t => s.putTeam { t with faults := keepFaults t.faults ⟨fw, detail, s.gtime, s.recordLcid, false, true, t.num, eng⟩ }
/-- A stop of the context discards what a slot has fetched and not popped (R210). -/
def Stream.stopped (x : Stream) : Stream := { x with ahead := [], lost := [] }
/-- HIN is set, fetched vectors are discarded, and the trap is recorded and counted; the entry is still to end (R210, R390). -/
def State.trapBegins (s : State) (tr : Trap) : State :=
  let s1 := s.raiseTrap tr
  ((({ s1 with tile := { s1.tile with handler := s.trapHandler tr, streams := s1.tile.streams.map Stream.stopped } } : State).count 5 0 1).progress).recordHandled (s.trapWord tr) tr.detail tr.eng
/-- The end of handler entry, at once unless the sequencer or a stream push is to be waited for (R390). -/
def State.trapEnters (s : State) (tr : Trap) : State :=
  let s1 := s.trapBegins tr
  if s1.tile.rep.count = 0 ∧ s1.core.pend.all (fun a => a.slot.isNone) then s1.enterHandler else s1
/-- Taking a trap (R390): the team's handler, or the end of the team. -/
def takeTrap (tr : Trap) (s : State) : Out := .next (if s.trapFatal tr.code then s.trapEnds tr else s.trapEnters tr)

/-- A precise trap at the instruction at the PC, of `len` bytes: it resumes there (R391). -/
def trapAt (code : BitVec 8) (detail : Word) (len : Nat) (s : State) : Out :=
  takeTrap ⟨code, detail, false, s.core.pc, s.core.pc, len == 16, true, false⟩ s
/-- A trap after whose handler the next instruction follows (R391): TRAP, BRK, and the reports of fences, barriers and EWAIT. -/
def trapAfter (code : BitVec 8) (detail : Word) (async eng : Bool) (len : Nat) (s : State) : Out :=
  takeTrap ⟨code, detail, async, s.core.pc, s.core.pc + BitVec.ofNat 64 len, len == 16, false, eng⟩ s
/-- TEND's report of a fault record: it resumes at the TEND (R281, R391). -/
def trapHeld (code : BitVec 8) (detail : Word) (eng : Bool) (len : Nat) (s : State) : Out :=
  takeTrap ⟨code, detail, true, s.core.pc, s.core.pc, len == 16, true, eng⟩ s

/-- The context leaves its handler (R392). -/
def State.leaveHandler (s : State) : State :=
  { s.wrA 14 s.tile.handler.xl with tile := { s.tile with handler := Handler.empty } }

/-! ## Fetching -/

/-- The words of a program from address 0, or none beyond its end. -/
def wordAt (l : List Word) (pc : Nat) : Option Word := if pc % 8 = 0 then l[pc / 8]? else none

/-- Whether an address lies in a version's native code: its header, link table and exit stub, or a published function (R347). -/
def Sealed.holds (v : Sealed) (a : Nat) : Bool :=
  decide (v.base ≤ a ∧ a < v.base + v.size) || v.procs.any (fun p => decide (p.addr ≤ a ∧ a < p.addr + p.size))
/-- Whether an address lies in the code the processor runs (R171). -/
def State.inCode (s : State) (a : Nat) : Bool :=
  match s.cur, s.team with
  | .main _, some t => t.code.holds a
  | .stage _, some t => decide (a < 8 * t.stage.length)
  | .coll _, some t => decide (a < 8 * t.coll.length)
  | .trust _, _ | .mgmt, _ => decide (a < 8 * s.firmware.length)
  | _, none => false

/-- The word at an address of the code: a main core fetches from the code heap, a stage core from its instruction store, a
collective engine from the collective firmware. -/
def State.codeWord (s : State) (a : Nat) : Word :=
  match s.cur with
  | .main _ => BitVec.ofNat 64 (memNat s.mem a 8)
  | .stage _ => match s.team with | some t => (wordAt t.stage a).getD 0 | none => 0
  | .coll _ => match s.team with | some t => (wordAt t.coll a).getD 0 | none => 0
  | .trust _ | .mgmt => (wordAt s.firmware a).getD 0

/-- What fetching at the PC gives. -/
inductive Fetched where
  /-- The PC lies outside the code the processor runs. -/
  | outside
  /-- An uncorrectable error that the second fetch meets as well (R393). -/
  | memerr
  /-- A first word and the word above it. -/
  | words (w e : Word)
  deriving DecidableEq, Repr

/-- Whether the word at an address of the code heap cannot be read. -/
def State.badCode (s : State) (a : Nat) : Bool := s.bad.contains (a / 32 * 32) || !s.trained a
/-- A fetch reads the words of the instruction: the second one of a two-word instruction only. -/
def State.fetch (s : State) : Fetched :=
  let pc := s.core.pc.toNat
  if !s.inCode pc then .outside
  else if s.onMain && (s.badCode pc || (fld (s.codeWord pc).toNat 62 2 == 1 && s.badCode (pc + 8))) then .memerr
  else .words (s.codeWord pc) (s.codeWord (pc + 8))

/-- A team MEMERR of the fetch: its FAULTA is the PC (R393). -/
def fetchFails (s : State) : Out := .next (s.trapEnds ⟨codeMemerr, s.core.pc, false, s.core.pc, s.core.pc, false, false, false⟩)

/-! ## Placing an instruction to be fetched next -/

/-- A team whose code is one page of the code heap, or whose stage program is the words given. -/
def probeTeam (stage : List Word) : Team :=
  { Team.empty with num := 1, tenant := 1, state := .running, clusters := [(0, 0)], placed := true, stage := stage,
                    code := { Sealed.empty with base := heapBase, size := 0x1000 } }

/-- The state with an instruction's words where the next step fetches: on the main core of tile 0, or on its stage core when only a
stage core executes the word (R125). -/
def State.withWord (s : State) (w e : Nat) : State :=
  let t := { s.tile with team := 1, tenant := 1, fenced := false, frozen := false, rep := Repeat.empty,
                         handler := { s.tile.handler with entering := false } }
  let c := { s.core with running := true, wait := none, load := none }
  let s1 := { s with here := 0, tile := t, agenda := [] }
  match decodeFor .main w e with
  | .error .column =>
    { s1 with cur := .stage 0, core := { c with pc := 0 }, teams := [probeTeam [BitVec.ofNat 64 w, BitVec.ofNat 64 e]] }
  | _ =>
    { s1 with cur := .main 0, core := { c with pc := BitVec.ofNat 64 heapBase }, teams := [probeTeam []],
              mem := memPut s.mem (cellsOf heapBase w 8 ++ cellsOf (heapBase + 8) e 8), bad := [],
              boot := { s.boot with ready := s.boot.ready ||| 0xFFF#64 } }

end Sys2Proof.Machine
end

