-- ==== Sys2Proof/Machine/Numbers.lean ====
section
/-!
DEFINITION. Number formats and rounding (R80–R97): exact values, `round_to`, the flags of FPFLAGS, and the stochastic generator.
-/
namespace Sys2Proof.Machine
open Sys2Proof

/-! ## Flags (R67) -/

abbrev FlagSet := BitVec 5
def fNV : FlagSet := 1
def fDZ : FlagSet := 2
def fOF : FlagSet := 4
def fUF : FlagSet := 8
def fNX : FlagSet := 16

/-! ## Formats (R83, R85, R87, R90) -/

/-- What the top exponent holds. -/
inductive TopKind where
  /-- Infinities and NaNs. -/
  | ieee
  /-- One NaN code of each sign. -/
  | e4m3
  /-- Finite values only. -/
  | fp4
  deriving DecidableEq, Repr

/-- A binary format: exponent bits, fraction bits, bias. -/
structure FP where
  eb : Nat
  fb : Nat
  bias : Int
  top : TopKind
  deriving DecidableEq, Repr

def fpFp4 : FP := ⟨2, 1, 1, .fp4⟩
def fpE4m3 : FP := ⟨4, 3, 7, .e4m3⟩
def fpE5m2 : FP := ⟨5, 2, 15, .ieee⟩
def fpBf16 : FP := ⟨8, 7, 127, .ieee⟩
def fpFp16 : FP := ⟨5, 10, 15, .ieee⟩
def fpFp32 : FP := ⟨8, 23, 127, .ieee⟩
def fpFp64 : FP := ⟨11, 52, 1023, .ieee⟩
def fpW80 : FP := ⟨14, 65, 8191, .ieee⟩
/-- The format of a floating-point code; fp64 for the codes that are none. -/
def fpOf : Fmt → FP
  | .fp4 => fpFp4 | .e4m3 => fpE4m3 | .e5m2 => fpE5m2 | .bf16 => fpBf16 | .fp16 => fpFp16 | .fp32 => fpFp32
  | _ => fpFp64

def FP.signBit (f : FP) : Nat := 2 ^ (f.eb + f.fb)
/-- The magnitude code of infinity. -/
def FP.infCode (f : FP) : Nat := (2 ^ f.eb - 1) * 2 ^ f.fb
/-- The magnitude code of the largest finite value. -/
def FP.maxCode (f : FP) : Nat :=
  match f.top with
  | .ieee => f.infCode - 1
  | .e4m3 => 2 ^ (f.eb + f.fb) - 2
  | .fp4 => 2 ^ (f.eb + f.fb) - 1
/-- The canonical NaN (R84); +0 for fp4, which has none (R92). -/
def FP.nan (f : FP) : Nat :=
  match f.top with
  | .ieee => f.infCode + 2 ^ (f.fb - 1)
  | .e4m3 => 2 ^ (f.eb + f.fb) - 1
  | .fp4 => 0

/-- A value read from a code: a NaN (signalling or not), an infinity, or (−1)^neg · m · 2^e. -/
inductive FVal where
  | nan (sig : Bool)
  | inf (neg : Bool)
  | fin (neg : Bool) (m : Nat) (e : Int)
  deriving DecidableEq, Repr

/-- The value of a code; with `daz`, subnormals read as zero of the same sign (R67). -/
def FP.val (f : FP) (daz : Bool) (x : Nat) : FVal :=
  let neg := decide (x / f.signBit % 2 = 1)
  let e := x / 2 ^ f.fb % 2 ^ f.eb
  let fr := x % 2 ^ f.fb
  if e = 0 then .fin neg (if daz then 0 else fr) (1 - f.bias - f.fb)
  else if f.top = .ieee ∧ e = 2 ^ f.eb - 1 then
    if fr = 0 then .inf neg else .nan (decide (fr < 2 ^ (f.fb - 1)))
  else if f.top = .e4m3 ∧ x % f.signBit = f.nan then .nan false
  else .fin neg (2 ^ f.fb + fr) ((e : Int) - f.bias - f.fb)

/-! ## Rounding (R91, R92, R97) -/

/-- A rounding as it is carried out: stochastic rounding has its 16 random bits; `pick` is the choice of R189 between the two fp32
neighbours of an inexact special function. -/
inductive Rounding where
  | rne | rtz | rdn | rup | rna
  | rsr (r : Nat)
  | pick (upper : Bool)
  deriving DecidableEq, Repr

/-- Whether the magnitude goes up: sign, integer part `n`, remainder `r` of `unit` = 2^shift. -/
def roundsUp (md : Rounding) (neg : Bool) (n r unit : Nat) : Bool :=
  match md with
  | .rne => decide (unit < 2 * r) || (decide (2 * r = unit) && n % 2 == 1)
  | .rtz => false
  | .rdn => neg && r != 0
  | .rup => !neg && r != 0
  | .rna => r != 0 && decide (unit ≤ 2 * r)
  | .rsr rnd => decide (rnd < r * 2 ^ 16 / unit)
  | .pick up => up && r != 0

/-- m · 2^e in units of 2^q: the rounded integer and whether it is inexact. -/
def quantum (md : Rounding) (neg : Bool) (m : Nat) (e q : Int) : Nat × Bool :=
  if q ≤ e then (m * 2 ^ (e - q).toNat, false)
  else
    let unit := 2 ^ (q - e).toNat
    (m / unit + bit (roundsUp md neg (m / unit) (m % unit) unit), m % unit != 0)

/-- Whether a finite value too large for the format becomes an infinity (R92). -/
def overflowsToInf (md : Rounding) (neg : Bool) : Bool :=
  match md with
  | .rne | .rna | .rsr _ | .pick _ => true
  | .rtz => false
  | .rdn => neg
  | .rup => !neg

/-- `round_to` of a finite value with its flags (R84, R91, R92, R97); with `ftz`, subnormal results are flushed. A value that is not
exact to the last bit carries a one below it, far beyond the format's precision. -/
def FP.round (f : FP) (ftz : Bool) (md : Rounding) (neg : Bool) (m : Nat) (e : Int) : Nat × FlagSet :=
  let s := if neg then f.signBit else 0
  if m = 0 then (s, 0)
  else
    let emin := 1 - f.bias
    let big := (Nat.log2 m : Int) + e
    let r := quantum md neg m e (max big emin - f.fb)
    let code := ((max big emin + f.bias).toNat - 1) * 2 ^ f.fb + r.1
    if f.maxCode < code then
      (s + (if f.top = .ieee ∧ overflowsToInf md neg then f.infCode else f.maxCode), fOF ||| fNX)
    else if ftz ∧ code ≠ 0 ∧ code < 2 ^ f.fb then (s, fUF ||| fNX)
    else
      let tiny := decide (big < emin) && !(decide (big + 1 = emin) && (quantum md neg m e (big - f.fb)).1 == 2 ^ (f.fb + 1))
      (s + code, (if r.2 then fNX else 0) ||| (if r.2 && tiny then fUF else 0))

/-- `round_to` of any value: R92's rows for the formats without NaN or infinity. -/
def FP.conv (f : FP) (ftz : Bool) (md : Rounding) : FVal → Nat × FlagSet
  | .nan _ => (f.nan, if f.top = .fp4 then fNV else 0)
  | .inf neg =>
    let s := if neg then f.signBit else 0
    match f.top with
    | .ieee => (s + f.infCode, 0)
    | .e4m3 => (f.nan, fNV)
    | .fp4 => (s + f.maxCode, fOF)
  | .fin neg m e => f.round ftz md neg m e

/-! ## Exact operations (IEEE 754-2019 with R84) -/

def FVal.isNan : FVal → Bool
  | .nan _ => true
  | _ => false
/-- NV for a signalling NaN. -/
def FVal.sigFlag : FVal → FlagSet
  | .nan true => fNV
  | _ => 0
def FVal.neg : FVal → FVal
  | .nan sig => .nan sig
  | .inf n => .inf (!n)
  | .fin n m e => .fin (!n) m e
/-- m · 2^e with sign as an integer in units of 2^q, for q ≤ e. -/
def inUnits (neg : Bool) (m : Nat) (e q : Int) : Int :=
  let x : Int := m * 2 ^ (e - q).toNat
  if neg then -x else x

/-- The exact sum; a zero sum of opposite signs is +0, or −0 under rdn. -/
def FVal.add (md : Rounding) : FVal → FVal → FVal × FlagSet
  | .nan a, y => (.nan false, (FVal.nan a).sigFlag ||| y.sigFlag)
  | x, .nan b => (.nan false, x.sigFlag ||| (FVal.nan b).sigFlag)
  | .inf a, .inf b => if a = b then (.inf a, 0) else (.nan false, fNV)
  | .inf a, .fin _ _ _ => (.inf a, 0)
  | .fin _ _ _, .inf b => (.inf b, 0)
  | .fin a m e, .fin b n g =>
    if m = 0 ∧ n = 0 then (.fin (if a = b then a else md == .rdn) 0 0, 0)
    else
      let q := min e g
      let t := inUnits a m e q + inUnits b n g q
      (.fin (if t = 0 then md == .rdn else decide (t < 0)) t.natAbs q, 0)
/-- The exact product. -/
def FVal.mul : FVal → FVal → FVal × FlagSet
  | .nan a, y => (.nan false, (FVal.nan a).sigFlag ||| y.sigFlag)
  | x, .nan b => (.nan false, x.sigFlag ||| (FVal.nan b).sigFlag)
  | .inf a, .inf b => (.inf (a != b), 0)
  | .inf a, .fin b n _ => if n = 0 then (.nan false, fNV) else (.inf (a != b), 0)
  | .fin a m _, .inf b => if m = 0 then (.nan false, fNV) else (.inf (a != b), 0)
  | .fin a m e, .fin b n g => (.fin (a != b) (m * n) (e + g), 0)

/-- A quotient of positive numbers to `k` bits, with a one below when it is inexact. -/
def divSticky (m n k : Nat) : Nat := 2 * (m * 2 ^ k / n) + bit (m * 2 ^ k % n != 0)
/-- The quotient, exact or with a one far below (R183). -/
def FVal.div : FVal → FVal → FVal × FlagSet
  | .nan a, y => (.nan false, (FVal.nan a).sigFlag ||| y.sigFlag)
  | x, .nan b => (.nan false, x.sigFlag ||| (FVal.nan b).sigFlag)
  | .inf _, .inf _ => (.nan false, fNV)
  | .inf a, .fin b _ _ => (.inf (a != b), 0)
  | .fin a _ _, .inf b => (.fin (a != b) 0 0, 0)
  | .fin a m e, .fin b n g =>
    if n = 0 then (if m = 0 then (.nan false, fNV) else (.inf (a != b), fDZ))
    else
      let k := Nat.log2 n + 128
      (.fin (a != b) (divSticky m n k) (e - g - k - 1), 0)

/-- The integer square root, one bit at a time from bit `k − 1` down. -/
def isqrt (x : Nat) : Nat → Nat → Nat
  | 0, r => r
  | k + 1, r => let t := r + 2 ^ k; if t * t ≤ x then isqrt x k t else isqrt x k r
/-- The square root of a positive number m · 2^e with 128 bits and a one below when it is inexact. -/
def sqrtSticky (m : Nat) (e : Int) : Nat × Int :=
  let m1 := if e % 2 = 0 then m else 2 * m
  let e1 := if e % 2 = 0 then e else e - 1
  let x := m1 * 2 ^ 256
  let r := isqrt x ((Nat.log2 x) / 2 + 1) 0
  (2 * r + bit (r * r != x), (e1 - 256) / 2 - 1)
def FVal.sqrt : FVal → FVal × FlagSet
  | .nan a => (.nan false, (FVal.nan a).sigFlag)
  | .inf a => if a then (.nan false, fNV) else (.inf false, 0)
  | .fin a m e =>
    if m = 0 then (.fin a 0 0, 0) else if a then (.nan false, fNV)
    else let r := sqrtSticky m e; (.fin false r.1 r.2, 0)

/-- A value rounded towards zero and held between −2^16 and 2^16 (VSCL, R183). -/
def FVal.scale : FVal → Int
  | .nan _ => 0
  | .inf a => if a then -2 ^ 16 else 2 ^ 16
  | .fin a m e =>
    let n := if 0 ≤ e then m * 2 ^ (min e 17).toNat else m / 2 ^ (-e).toNat
    let n := min n (2 ^ 16)
    if a then -(n : Int) else n
/-- x1 × 2^n with n from x2. -/
def FVal.scl : FVal → FVal → FVal × FlagSet
  | .nan a, y => (.nan false, (FVal.nan a).sigFlag ||| y.sigFlag)
  | x, .nan b => (.nan false, x.sigFlag ||| (FVal.nan b).sigFlag)
  | .inf a, _ => (.inf a, 0)
  | .fin a m e, y => (.fin a m (e + y.scale), 0)

/-- The order of two values that are no NaN: −1, 0 or 1, with −0 equal to +0. -/
def FVal.cmp : FVal → FVal → Int
  | .inf a, .inf b => if a = b then 0 else if a then -1 else 1
  | .inf a, _ => if a then -1 else 1
  | _, .inf b => if b then 1 else -1
  | .fin a m e, .fin b n g =>
    let q := min e g
    (inUnits a m e q - inUnits b n g q).sign
  | _, _ => 0
def FVal.negative : FVal → Bool
  | .nan _ => false
  | .inf a => a
  | .fin a _ _ => a
/-- x below y in the order of VMIN and VMAX: −0 below +0. -/
def FVal.less (x y : FVal) : Bool :=
  let c := x.cmp y
  decide (c < 0) || (c == 0 && x.negative && !y.negative)
def FVal.min2 (x y : FVal) : FVal × FlagSet :=
  if x.isNan || y.isNan then (.nan false, x.sigFlag ||| y.sigFlag) else (if y.less x then y else x, 0)
def FVal.max2 (x y : FVal) : FVal × FlagSet :=
  if x.isNan || y.isNan then (.nan false, x.sigFlag ||| y.sigFlag) else (if x.less y then y else x, 0)
/-- The code of a value the format represents exactly; no flag belongs to it. -/
def FP.code (f : FP) (x : FVal) : Nat := (f.conv false .rne x).1

/-! ## Integers (R82, R93) -/

/-- A `w`-bit code as an integer of a signed or unsigned format. -/
def intVal (isS : Bool) (w x : Nat) : Int := if isS && decide (2 ^ w ≤ 2 * x) then (x : Int) - 2 ^ w else x
/-- The low `w` bits of an integer. -/
def intCode (w : Nat) (x : Int) : Nat := (x % 2 ^ w).toNat
/-- The ends of an integer format's range. -/
def intMin (isS : Bool) (w : Nat) : Int := if isS then -2 ^ (w - 1) else 0
def intMax (isS : Bool) (w : Nat) : Int := if isS then 2 ^ (w - 1) - 1 else 2 ^ w - 1
def intClamp (isS : Bool) (w : Nat) (x : Int) : Int := max (intMin isS w) (min (intMax isS w) x)

/-- Floating point to integer (R93). -/
def toInt (isS : Bool) (w : Nat) (md : Rounding) : FVal → Nat × FlagSet
  | .nan _ => (0, fNV)
  | .inf a => (intCode w (if a then intMin isS w else intMax isS w), fNV)
  | .fin a m e =>
    let r := quantum md a m e 0
    let x : Int := if a then -(r.1 : Int) else r.1
    if x < intMin isS w ∨ intMax isS w < x then (intCode w (intClamp isS w x), fNV)
    else (intCode w x, if r.2 then fNX else 0)

/-- An exact integer as a value. -/
def ofInt (x : Int) : FVal := .fin (decide (x < 0)) x.natAbs 0

/-! ## The stochastic generator (R95, R96) -/

def seedInc : Word := 0x9E3779B97F4A7C15
/-- The output z of the step that reaches state `s`. -/
def seedOut (s : Word) : Word :=
  let z1 := (s ^^^ (s >>> 30)) * 0xBF58476D1CE4E5B9
  let z2 := (z1 ^^^ (z1 >>> 27)) * 0x94D049BB133111EB
  z2 ^^^ (z2 >>> 31)
/-- The state after `k` steps. -/
def seedAfter (s : Word) (k : Nat) : Word := s + wNat k * seedInc
where wNat (x : Nat) : Word := BitVec.ofNat 64 x
/-- The 16 random bits of element `n` of an instruction that begins at state `s`. -/
def seedPiece (s : Word) (n : Nat) : Nat := (seedOut (seedAfter s (n / 4 + 1))).toNat / 2 ^ (16 * (n % 4)) % 2 ^ 16
/-- The state after an instruction of `n` elements. -/
def seedNext (s : Word) (n : Nat) : Word := seedAfter s ((n + 3) / 4)
/-- The task's first state from JOBSEED and its home LCID, and a stage core's from the LCID and 1 024 (R95). -/
def seedStart (jobseed : Word) (n : Nat) : Word := jobseed ^^^ (BitVec.ofNat 64 n * 0xD1B54A32D192ED03)

/-- A rounding mode with dyn resolved by FPCTL.DRM (R67, R91). -/
def resolveRm (fpctl : BitVec 5) (rm : Rm) : Rm := if rm = .dyn then Rm.ofCode (fpctl.toNat % 8) else rm
/-- The rounding of element `n` of an instruction. -/
def roundingOf (seed : Word) (rm : Rm) (n : Nat) : Rounding :=
  match rm with
  | .rne | .dyn => .rne
  | .rtz => .rtz
  | .rdn => .rdn
  | .rup => .rup
  | .rna => .rna
  | .rsr => .rsr (seedPiece seed n)

/-! ## Special functions (R189, R190)

Values are held in fixed point with 192 fraction bits. A result is the integer below the exact value with a one below it: exp2, log2,
tanh and the logistic function are irrational wherever this section evaluates them. -/

def fixBits : Nat := 192
/-- floor(ln 2 × 2^192). -/
def ln2Fix : Nat := 0xB17217F7D1CF79ABC9E3B39803F2F6AF40F343267298B62D
/-- The first `k` terms of Σ y^i / i! in fixed point, from term `t` of index `i`. -/
def expSeries (y : Nat) : Nat → Nat → Nat → Nat
  | 0, _, _ => 0
  | k + 1, i, t => t + expSeries y k (i + 1) (t * y / 2 ^ fixBits / (i + 1))
/-- 2^f for a fraction f in fixed point, in fixed point. -/
def exp2Fix (f : Nat) : Nat := expSeries (f * ln2Fix / 2 ^ fixBits) 60 0 (2 ^ fixBits)
/-- Σ t^(2i+1) / (2i+1) over the first `k` terms. -/
def atanhSeries (t2 : Nat) : Nat → Nat → Nat → Nat
  | 0, _, _ => 0
  | k + 1, i, p => p / (2 * i + 1) + atanhSeries t2 k (i + 1) (p * t2 / 2 ^ fixBits)
/-- log2 of z in [1, 2) in fixed point, in fixed point. -/
def log2Fix (z : Nat) : Nat :=
  let t := (z - 2 ^ fixBits) * 2 ^ fixBits / (z + 2 ^ fixBits)
  2 * atanhSeries (t * t / 2 ^ fixBits) 70 0 t * 2 ^ fixBits / ln2Fix

/-- m · 2^e in fixed point, held at 2^14. -/
def toFix (m : Nat) (e : Int) : Nat :=
  let k := e + fixBits
  if (Nat.log2 m : Int) + e ≥ 14 then 2 ^ (fixBits + 14)
  else if 0 ≤ k then m * 2 ^ k.toNat else m / 2 ^ (-k).toNat
/-- 2^−y for y in fixed point: a fixed-point number in (1/2, 1] and the power of two that scales it down. -/
def exp2Neg (y : Nat) : Nat × Nat :=
  let k := y / 2 ^ fixBits
  let f := y % 2 ^ fixBits
  if f = 0 then (2 ^ fixBits, k) else (exp2Fix (2 ^ fixBits - f), k + 1)
/-- A fixed-point number with a one below it, scaled by 2^−k. -/
def sticky (x k : Nat) : FVal := .fin false (2 * x + 1) (-(fixBits : Int) - 1 - k)

/-- Whether |x| is below 2^−40, where the results are 1, 1/2 or x but for a tiny part. -/
def isSmall (m : Nat) (e : Int) : Bool := decide ((Nat.log2 m : Int) + e < -40)

def sfExp2 : FVal → FVal × FlagSet
  | .nan a => (.nan false, (FVal.nan a).sigFlag)
  | .inf a => (if a then .fin false 0 0 else .inf false, 0)
  | .fin a m e =>
    if m = 0 then (.fin false 1 0, 0)
    else if isSmall m e then (sticky (if a then 2 ^ fixBits - 1 else 2 ^ fixBits) 0, 0)
    else
      let y := toFix m e
      let k := y / 2 ^ fixBits
      let f := y % 2 ^ fixBits
      if f = 0 then (.fin false 1 (if a then -(k : Int) else k), 0)
      else if a then let r := exp2Neg y; (sticky r.1 r.2, 0)
      else (.fin false (2 * exp2Fix f + 1) ((k : Int) - fixBits - 1), 0)

def sfLog2 : FVal → FVal × FlagSet
  | .nan a => (.nan false, (FVal.nan a).sigFlag)
  | .inf a => if a then (.nan false, fNV) else (.inf false, 0)
  | .fin a m e =>
    if m = 0 then (.inf true, fDZ)
    else if a then (.nan false, fNV)
    else
      let l := Nat.log2 m
      let k : Int := e + l
      if m = 2 ^ l then (ofInt k, 0)
      else
        let z := log2Fix (m * 2 ^ fixBits / 2 ^ l)
        if 0 ≤ k then (.fin false (2 * (k.toNat * 2 ^ fixBits + z) + 1) (-(fixBits : Int) - 1), 0)
        else (.fin true (2 * ((-k).toNat * 2 ^ fixBits - z) - 1) (-(fixBits : Int) - 1), 0)

def sfRcp (x : FVal) : FVal × FlagSet := FVal.div (.fin false 1 0) x

def sfRsq : FVal → FVal × FlagSet
  | .nan a => (.nan false, (FVal.nan a).sigFlag)
  | .inf a => if a then (.nan false, fNV) else (.fin false 0 0, 0)
  | .fin a m e =>
    if m = 0 then (.inf a, fDZ)
    else if a then (.nan false, fNV)
    else
      -- 1/√(m·2^e) = √(2^(k)/m)·2^(−(e+k)/2), with e + k even and a one below when either step is inexact
      let k := 320 + (Nat.log2 m) + (if (e + Nat.log2 m) % 2 = 0 then 0 else 1)
      let q := 2 ^ k / m
      let r := isqrt q ((Nat.log2 q) / 2 + 1) 0
      (.fin false (2 * r + bit (r * r * m != 2 ^ k)) (-(e + k) / 2 - 1), 0)

/-- |x| × 2 × log2 e, or |x| × log2 e, in fixed point. -/
def timesLog2e (twice : Bool) (m : Nat) (e : Int) : Nat :=
  toFix m e * 2 ^ fixBits * (if twice then 2 else 1) / ln2Fix

def sfTanh : FVal → FVal × FlagSet
  | .nan a => (.nan false, (FVal.nan a).sigFlag)
  | .inf a => (.fin a 1 0, 0)
  | .fin a m e =>
    if m = 0 then (.fin a 0 0, 0)
    else if isSmall m e then (.fin a (m * 2 ^ fixBits - 1) (e - fixBits), 0)
    else
      let r := exp2Neg (timesLog2e true m e)
      let u := r.1 / 2 ^ (min r.2 200)
      let t := (2 ^ fixBits - u) * 2 ^ fixBits / (2 ^ fixBits + u)
      (.fin a (2 * (if t = 2 ^ fixBits then t - 1 else t) + 1) (-(fixBits : Int) - 1), 0)

def sfSigm : FVal → FVal × FlagSet
  | .nan a => (.nan false, (FVal.nan a).sigFlag)
  | .inf a => (if a then .fin false 0 0 else .fin false 1 0, 0)
  | .fin a m e =>
    if m = 0 then (.fin false 1 (-1), 0)
    else if isSmall m e then (sticky (if a then 2 ^ (fixBits - 1) - 1 else 2 ^ (fixBits - 1)) 0, 0)
    else
      let r := exp2Neg (timesLog2e false m e)
      let u := r.1 / 2 ^ (min r.2 200)
      let d := 2 ^ fixBits + u
      if a then (sticky (r.1 * 2 ^ fixBits / d) r.2, 0)
      else
        let t := 2 ^ fixBits * 2 ^ fixBits / d
        (sticky (if t = 2 ^ fixBits then t - 1 else t) 0, 0)

/-- The six functions of VSF by their function code. -/
def specialFn (fn : Nat) (x : FVal) : FVal × FlagSet :=
  match fn with
  | 0 => sfExp2 x
  | 1 => sfLog2 x
  | 2 => sfRcp x
  | 3 => sfRsq x
  | 4 => sfTanh x
  | _ => sfSigm x

end Sys2Proof.Machine
end

