-- ==== Sys2Proof/Machine/Lanes.lean ====
section
/-!
DEFINITION. What the vector instructions compute, on lanes alone (R179–R201): no state but FPCTL, the random stream and the sources'
bits. Vector.lean reads the sources and writes the results.
-/
namespace Sys2Proof.Machine
open Sys2Proof

/-! ## Lanes (R80) -/

/-- The first `n` elements of `w` bits. -/
def lanesOf (w : Nat) : Nat → Nat → List Nat
  | _, 0 => []
  | x, n + 1 => x % 2 ^ w :: lanesOf w (x / 2 ^ w) n
/-- Elements side by side. -/
def packLanes (w : Nat) : List Nat → Nat
  | [] => 0
  | x :: r => x % 2 ^ w + 2 ^ w * packLanes w r
end Sys2Proof.Machine
namespace Sys2Proof
open Machine
/-- The elements of a vector register's bits in a format. -/
def Fmt.lanesIn (f : Fmt) (x : Nat) : List Nat := lanesOf f.width x f.lanes
/-- The wide type of a narrow one, by its code: i8 to i16, n8 to n16, and so on (R201). -/
def Fmt.wider (f : Fmt) : Fmt := Fmt.ofCode (f.code + 2)
def Fmt.narrower (f : Fmt) : Fmt := Fmt.ofCode (f.code - 2)
end Sys2Proof
namespace Sys2Proof.Machine
open Sys2Proof
def vecOf (f : Fmt) (l : List Nat) : Vec := BitVec.ofNat 512 (packLanes f.width l)

/-- What an instruction computes under: resolved rounding mode, FTZ, DAZ, the stream's state, and its mask (none: every lane). -/
structure Ctl where
  et : Fmt
  rm : Rm
  ftz : Bool
  daz : Bool
  seed : Word
  mask : Option MaskWord
  deriving DecidableEq, Repr

def Ctl.active (c : Ctl) (i : Nat) : Bool := match c.mask with | none => true | some m => m.getLsbD i
def Ctl.rounding (c : Ctl) (i : Nat) : Rounding := roundingOf c.seed c.rm i
def Ctl.fp (c : Ctl) : FP := fpOf c.et
def Ctl.val (c : Ctl) (x : Nat) : FVal := if c.et.isI then ofInt (intVal c.et.isSigned c.et.width x) else c.fp.val c.daz x

/-- A result: the lanes, which of them the instruction writes, flags, and how many elements draw on the stream under rsr. -/
structure LaneRes where
  lanes : List Nat
  written : List Bool
  flags : FlagSet
  draws : Nat
  deriving DecidableEq, Repr

/-- An operation of one lane: index, the three sources, the result with its flags. -/
abbrev LaneOp := Nat → Nat → Nat → Nat → Nat × FlagSet

/-- R179's loop: active lanes take the operation, the others keep their old value and set no flag. -/
def laneLoop (c : Ctl) (op : LaneOp) : Nat → List Nat → List Nat → List Nat → List Nat → List Nat × FlagSet
  | i, x :: xs, y :: ys, z :: zs, o :: os =>
    let r := if c.active i then op i x y z else (o, 0)
    let t := laneLoop c op (i + 1) xs ys zs os
    (r.1 :: t.1, r.2 ||| t.2)
  | _, _, _, _, _ => ([], 0)
def Ctl.writtenLanes (c : Ctl) : List Bool := (List.range c.et.lanes).map c.active
/-- A lane-wise instruction on whole registers. -/
def lanewise (c : Ctl) (op : LaneOp) (rounds : Bool) (x y z old : Nat) : LaneRes :=
  let r := laneLoop c op 0 (c.et.lanesIn x) (c.et.lanesIn y) (c.et.lanesIn z) (c.et.lanesIn old)
  ⟨r.1, c.writtenLanes, r.2, if rounds then c.et.lanes else 0⟩
/-- A result with a value for every lane; a push stores those the mask leaves active (R209, log entry 47). -/
def allLanes (c : Ctl) (l : List Nat) (flags : FlagSet) (draws : Nat) : LaneRes := ⟨l, c.writtenLanes, flags, draws⟩
/-- A result of VCOMPRESS and VEXPAND, whose w register is an operand (R193). -/
def wholeLanes (c : Ctl) (l : List Nat) : LaneRes := ⟨l, List.replicate c.et.lanes true, 0, 0⟩

/-! ## VFP (R183) -/

/-- A rounded result of an exact value with its flags. -/
def Ctl.fin (c : Ctl) (i : Nat) (r : FVal × FlagSet) : Nat × FlagSet :=
  let t := c.fp.conv c.ftz (c.rounding i) r.1
  (t.1, r.2 ||| t.2)
def opVadd (c : Ctl) : LaneOp := fun i x y _ => c.fin i (FVal.add (c.rounding i) (c.val x) (c.val y))
def opVsub (c : Ctl) : LaneOp := fun i x y _ => c.fin i (FVal.add (c.rounding i) (c.val x) (c.val y).neg)
def opVmul (c : Ctl) : LaneOp := fun i x y _ => c.fin i (FVal.mul (c.val x) (c.val y))
/-- exact(±(x1 × x2) ± x3), rounded once. -/
def opFused (negP neg3 : Bool) (c : Ctl) : LaneOp := fun i x y z =>
  if (c.val x).isNan || (c.val y).isNan || (c.val z).isNan then
    c.fin i (.nan false, (c.val x).sigFlag ||| (c.val y).sigFlag ||| (c.val z).sigFlag)
  else
    let p := FVal.mul (c.val x) (c.val y)
    let r := FVal.add (c.rounding i) (if negP then p.1.neg else p.1) (if neg3 then (c.val z).neg else c.val z)
    c.fin i (r.1, p.2 ||| r.2)
def opVmin (c : Ctl) : LaneOp := fun _ x y _ => let r := FVal.min2 (c.val x) (c.val y); (c.fp.code r.1, r.2)
def opVmax (c : Ctl) : LaneOp := fun _ x y _ => let r := FVal.max2 (c.val x) (c.val y); (c.fp.code r.1, r.2)
def opVabs (c : Ctl) : LaneOp := fun _ x _ _ => (x % c.fp.signBit, 0)
def opVneg (c : Ctl) : LaneOp := fun _ x _ _ => ((x + c.fp.signBit) % 2 ^ c.et.width, 0)
def opVdiv (c : Ctl) : LaneOp := fun i x y _ => c.fin i (FVal.div (c.val x) (c.val y))
def opVsqrt (c : Ctl) : LaneOp := fun i x _ _ => c.fin i (c.val x).sqrt
def opVscl (c : Ctl) : LaneOp := fun i x y _ => c.fin i (FVal.scl (c.val x) (c.val y))

/-! ## VINT (R184) -/

/-- An integer operation on values of et. -/
def opInt (c : Ctl) (f : Int → Int → Int) : LaneOp := fun _ x y _ =>
  (intCode c.et.width (f (intVal c.et.isSigned c.et.width x) (intVal c.et.isSigned c.et.width y)), 0)
def opBits (f : Nat → Nat → Nat) : LaneOp := fun _ x y _ => (f x y, 0)
def opVimulhi (c : Ctl) : LaneOp := opInt c (fun x y => x * y / 2 ^ c.et.width)
def opVimin (c : Ctl) : LaneOp := opInt c min
def opVimax (c : Ctl) : LaneOp := opInt c max
def opVshl (c : Ctl) : LaneOp := fun _ x y _ => (x * 2 ^ (y % c.et.width) % 2 ^ c.et.width, 0)
def opVshr (c : Ctl) : LaneOp := fun _ x y _ => (x / 2 ^ (y % c.et.width), 0)
def opVshra (c : Ctl) : LaneOp := fun _ x y _ => (intCode c.et.width (intVal true c.et.width x / 2 ^ (y % c.et.width)), 0)
def popNat : Nat → Nat → Nat
  | _, 0 => 0
  | x, n + 1 => x % 2 + popNat (x / 2) n
def opVpopc (c : Ctl) : LaneOp := fun _ x _ _ => (popNat x c.et.width, 0)
def opViadds (c : Ctl) : LaneOp := opInt c (fun x y => intClamp c.et.isSigned c.et.width (x + y))

/-! ## VCMP (R185–R188) -/

inductive Rel where
  | eq | lt | le
  deriving DecidableEq, Repr
def Rel.test (r : Rel) (t : Int) : Bool :=
  match r with
  | .eq => t == 0
  | .lt => decide (t < 0)
  | .le => decide (t ≤ 0)
/-- A relation of two elements and NV for a signalling NaN. -/
def compareLane (c : Ctl) (r : Rel) (x y : Nat) : Bool × FlagSet :=
  if c.et.isI then (r.test (intVal c.et.isSigned c.et.width x - intVal c.et.isSigned c.et.width y).sign, 0)
  else if (c.val x).isNan || (c.val y).isNan then (false, (c.val x).sigFlag ||| (c.val y).sigFlag)
  else (r.test ((c.val x).cmp (c.val y)), 0)
/-- A mask from a test of each lane: masked-off bits and bits beyond the lanes are zero. -/
def maskLoop (c : Ctl) (f : Nat → Nat → Bool × FlagSet) : Nat → List Nat → List Nat → Nat × FlagSet
  | i, x :: xs, y :: ys =>
    let r := if c.active i then f x y else (false, 0)
    let t := maskLoop c f (i + 1) xs ys
    ((if r.1 then 1 else 0) + 2 * t.1, r.2 ||| t.2)
  | _, _, _ => (0, 0)
def compareMask (c : Ctl) (r : Rel) (x y : Nat) : MaskWord × FlagSet :=
  let t := maskLoop c (compareLane c r) 0 (c.et.lanesIn x) (c.et.lanesIn y)
  (BitVec.ofNat 128 t.1, t.2)
/-- VCLASS (R186). -/
def classOfLane (c : Ctl) : LaneOp := fun _ x _ _ =>
  (match c.fp.val false x with
    | .nan sig => if sig then 8 else 9
    | .inf a => if a then 0 else 7
    | .fin a m _ =>
      if m = 0 then (if a then 3 else 4)
      else if m < 2 ^ c.fp.fb then (if a then 2 else 5)
      else (if a then 1 else 6), 0)
/-- VSEL (R187): every lane, from the first source where the mask is set. -/
def selectLoop (c : Ctl) : Nat → List Nat → List Nat → List Nat
  | i, x :: xs, y :: ys => (if c.active i then x else y) :: selectLoop c (i + 1) xs ys
  | _, _, _ => []
def vselRes (c : Ctl) (x y : Nat) : LaneRes := allLanes c (selectLoop c 0 (c.et.lanesIn x) (c.et.lanesIn y)) 0 0

/-! ## VSF (R189, R190) -/

/-- A special function's result: rounded to nearest in bf16 and fp16; in fp32 one of the two neighbours, as `Config.vsfUpper` picks,
but the nearest where a neighbour is infinite. OF, UF and what FTZ flushes are as the nearest has them, and under FTZ a subnormal
neighbour is not picked (log entry 16). -/
def opSpecial (c : Ctl) (fn : Nat) : LaneOp := fun _ x _ _ =>
  let r := specialFn fn (c.val x)
  let near := c.fp.conv c.ftz .rne r.1
  let t := if c.et = .fp32 then
      (match r.1 with
        | .fin _ _ _ =>
          let up := c.fp.conv false (.pick true) r.1
          let y := c.fp.conv false (.pick (Config.vsfUpper fn (BitVec.ofNat 32 x))) r.1
          if up.1 % c.fp.signBit = c.fp.infCode ∨ (c.ftz = true ∧ (near.2 &&& fUF ≠ 0 ∨ y.1 % c.fp.signBit < 2 ^ c.fp.fb)) then near
          else (y.1, near.2)
        | _ => near)
    else near
  (t.1, r.2 ||| t.2)

/-! ## Reductions and scans (R191, R192) -/

inductive RedOp where
  | add | max | min | or
  deriving DecidableEq, Repr
/-- ⊕ on floating-point values; a sum is rounded as element `k` of the instruction. -/
def redF (c : Ctl) (o : RedOp) (k : Nat) (x y : FVal) : FVal × FlagSet :=
  match o with
  | .max => FVal.max2 x y
  | .min => FVal.min2 x y
  | .add | .or =>
    let r := FVal.add (c.rounding k) x y
    let t := c.fp.conv c.ftz (c.rounding k) r.1
    (c.fp.val false t.1, r.2 ||| t.2)
/-- ⊕ on integer codes. -/
def redI (c : Ctl) (o : RedOp) (x y : Nat) : Nat :=
  let sx := intVal c.et.isSigned c.et.width x
  let sy := intVal c.et.isSigned c.et.width y
  match o with
  | .add => (x + y) % 2 ^ c.et.width
  | .max => if sy ≤ sx then x else y
  | .min => if sx ≤ sy then x else y
  | .or => x ||| y
/-- The identity a masked-off lane gives. -/
def redIdF (o : RedOp) : FVal :=
  match o with
  | .max => .inf true
  | .min => .inf false
  | .add | .or => .fin true 0 0
def redIdI (c : Ctl) (o : RedOp) : Nat :=
  match o with
  | .max => intCode c.et.width (intMin c.et.isSigned c.et.width)
  | .min => intCode c.et.width (intMax c.et.isSigned c.et.width)
  | .add | .or => 0

/-- One level of the pairwise tree: the results, their flags, and the next element number. -/
def treeLevel {α : Type} (op : Nat → α → α → α × FlagSet) : Nat → List α → List α × FlagSet × Nat
  | k, x :: y :: r =>
    let a := op k x y
    let t := treeLevel op (k + 1) r
    (a.1 :: t.1, a.2 ||| t.2.1, t.2.2)
  | k, l => (l, 0, k)
/-- The tree over at most 2^n values. -/
def treeFold {α : Type} (op : Nat → α → α → α × FlagSet) : Nat → Nat → List α → FlagSet → List α × FlagSet
  | 0, _, l, f => (l, f)
  | n + 1, k, l, f =>
    match l with
    | [] => (l, f)
    | [_] => (l, f)
    | _ => let t := treeLevel op k l; treeFold op n t.2.2 t.1 (f ||| t.2.1)
/-- Lanes with the masked-off ones replaced. -/
def maskedLanes {α : Type} (c : Ctl) (idv : α) : Nat → List α → List α
  | _, [] => []
  | i, x :: r => (if c.active i then x else idv) :: maskedLanes c idv (i + 1) r
/-- The values of the products of VRDOT with the flags of the active lanes. -/
def products (c : Ctl) : Nat → List Nat → List Nat → List FVal × FlagSet
  | i, x :: xs, y :: ys =>
    let p := if c.active i then FVal.mul (c.val x) (c.val y) else (redIdF .add, 0)
    let t := products c (i + 1) xs ys
    (p.1 :: t.1, p.2 ||| t.2)
  | _, _, _ => ([], 0)
/-- The reduction of values: lane 0 has the result, the others zero. -/
def reduceF (c : Ctl) (o : RedOp) (us : List FVal) (f : FlagSet) : LaneRes :=
  let t := treeFold (redF c o) 6 0 us f
  allLanes c (c.fp.code (t.1.headD (redIdF o)) :: List.replicate (c.et.lanes - 1) 0) t.2 (c.et.lanes - 1)
def reduceI (c : Ctl) (o : RedOp) (us : List Nat) : LaneRes :=
  let t := treeFold (fun _ x y => (redI c o x y, (0 : FlagSet))) 6 0 us 0
  allLanes c (t.1.headD 0 :: List.replicate (c.et.lanes - 1) 0) 0 0
def reduce (c : Ctl) (o : RedOp) (x : Nat) : LaneRes :=
  if c.et.isI then reduceI c o (maskedLanes c (redIdI c o) 0 (c.et.lanesIn x))
  else reduceF c o (maskedLanes c (redIdF o) 0 ((c.et.lanesIn x).map c.val)) 0
def reduceDot (c : Ctl) (x y : Nat) : LaneRes :=
  if c.et.isI then
    reduceI c .add (maskedLanes c 0 0 (List.zipWith (fun a b => a * b % 2 ^ c.et.width) (c.et.lanesIn x) (c.et.lanesIn y)))
  else let p := products c 0 (c.et.lanesIn x) (c.et.lanesIn y); reduceF c .add p.1 p.2

/-- The prefixes from lane 1 on. -/
def scanF (c : Ctl) (o : RedOp) : Nat → FVal → List FVal → List Nat × FlagSet
  | _, _, [] => ([], 0)
  | k, acc, u :: r =>
    let a := redF c o k acc u
    let t := scanF c o (k + 1) a.1 r
    (c.fp.code a.1 :: t.1, a.2 ||| t.2)
def scanI (c : Ctl) (o : RedOp) : Nat → List Nat → List Nat
  | _, [] => []
  | acc, u :: r => let a := redI c o acc u; a :: scanI c o a r
/-- VSCAN (R192): lane 0 receives u_0. -/
def scan (c : Ctl) (o : RedOp) (x : Nat) : LaneRes :=
  if c.et.isI then
    match maskedLanes c (redIdI c o) 0 (c.et.lanesIn x) with
    | [] => allLanes c [] 0 0
    | u :: r => allLanes c (u :: scanI c o u r) 0 0
  else
    let first := if c.active 0 then (c.et.lanesIn x).headD 0 else c.fp.code (redIdF o)
    match maskedLanes c (redIdF o) 0 ((c.et.lanesIn x).map c.val) with
    | [] => allLanes c [] 0 0
    | u :: r => let t := scanF c o 0 u r; allLanes c (first :: t.1) t.2 (c.et.lanes - 1)

/-! ## VPERM (R193–R197) -/

def laneAt (l : List Nat) (n : Nat) : Nat := l.getD n 0
def bcastRes (c : Ctl) (x n old : Nat) : LaneRes :=
  lanewise c (fun _ _ _ _ => (laneAt (c.et.lanesIn x) (n % c.et.lanes), 0)) false x 0 0 old
def shufRes (c : Ctl) (x y old : Nat) : LaneRes :=
  lanewise c (fun _ _ m _ => (if m < c.et.lanes then laneAt (c.et.lanesIn x) m else 0, 0)) false x y 0 old
def rotRes (c : Ctl) (x n old : Nat) : LaneRes :=
  lanewise c (fun i _ _ _ => (laneAt (c.et.lanesIn x) ((i + n) % c.et.lanes), 0)) false x 0 0 old
/-- VINSR writes one lane. -/
def insrRes (c : Ctl) (v n old : Nat) : LaneRes :=
  let k := n % c.et.lanes
  let l := c.et.lanesIn old
  ⟨(List.range c.et.lanes).map (fun i => if i = k then v % 2 ^ c.et.width else laneAt l i),
   (List.range c.et.lanes).map (fun i => i == k), 0, 0⟩
/-- The active lanes of a source in order. -/
def activeLanes (c : Ctl) : Nat → List Nat → List Nat
  | _, [] => []
  | i, x :: r => if c.active i then x :: activeLanes c (i + 1) r else activeLanes c (i + 1) r
def compressRes (c : Ctl) (x : Nat) : LaneRes :=
  let l := activeLanes c 0 (c.et.lanesIn x)
  wholeLanes c (l ++ List.replicate (c.et.lanes - l.length) 0)
def expandLoop (c : Ctl) : Nat → Nat → List Nat → List Nat
  | _, 0, _ => []
  | i, n + 1, l =>
    if c.active i then (match l with | [] => 0 | x :: _ => x) :: expandLoop c (i + 1) n l.tail else 0 :: expandLoop c (i + 1) n l
def expandRes (c : Ctl) (x : Nat) : LaneRes := wholeLanes c (expandLoop c 0 c.et.lanes (c.et.lanesIn x))

/-- Whether x is below y in VCSWAP's total order: −0 below +0, NaNs above everything and equal. -/
def totalLess (c : Ctl) (x y : Nat) : Bool :=
  if c.et.isI then decide (intVal c.et.isSigned c.et.width x < intVal c.et.isSigned c.et.width y)
  else
    let a := c.fp.val false x
    let b := c.fp.val false y
    if a.isNan then false else if b.isNan then true else a.less b
/-- Whether distance and block are values VCSWAP takes (R196). -/
def cswapOk (c : Ctl) (d b : Nat) : Bool :=
  (d != 0 && d == 2 ^ Nat.log2 d && decide (d < c.et.lanes)) && (b == 0 || (b == 2 ^ Nat.log2 b && decide (b ≤ c.et.lanes)))
def cswapRes (c : Ctl) (x d b : Nat) : LaneRes :=
  let l := c.et.lanesIn x
  let lane (j : Nat) : Nat :=
    let i := if j / d % 2 = 0 then j else j - d
    let p := i + d
    let asc := b == 0 || i / b % 2 == 0
    let u := laneAt l i
    let v := laneAt l p
    let swap := c.active i && (if asc then totalLess c v u else totalLess c u v)
    if (j = i) = swap then v else u
  allLanes c ((List.range c.et.lanes).map lane) 0 0
def matchMask (c : Ctl) (x y : Nat) : MaskWord :=
  let ys := c.et.lanesIn y
  BitVec.ofNat 128 (maskLoop c (fun a _ => (ys.contains a, 0)) 0 (c.et.lanesIn x) ys).1

/-! ## VCVT (R198) -/

/-- A value converted from `src` to et, as converted element `k` of the instruction. -/
def convLane (c : Ctl) (src : Fmt) (k x : Nat) : Nat × FlagSet :=
  if src.isI then
    let v := intVal src.isSigned src.width x
    if c.et.isI then (intCode c.et.width v, 0) else c.fp.conv c.ftz (c.rounding k) (ofInt v)
  else
    let v := (fpOf src).val c.daz x
    let t := if c.et.isI then toInt c.et.isSigned c.et.width (c.rounding k) v else c.fp.conv c.ftz (c.rounding k) v
    (t.1, v.sigFlag ||| t.2)
/-- Lane `i` of the destination takes converted element `k` of the source, when it takes one. -/
def cvtLoop (c : Ctl) (src : Fmt) (xs : List Nat) (pick : Nat → Option (Nat × Nat)) : Nat → List Nat → List Nat × FlagSet
  | _, [] => ([], 0)
  | i, o :: r =>
    let a := match pick i with
      | some (k, j) => if c.active i then convLane c src k (laneAt xs j) else (o, 0)
      | none => (o, 0)
    let t := cvtLoop c src xs pick (i + 1) r
    (a.1 :: t.1, a.2 ||| t.2)
def cvtRes (c : Ctl) (src : Fmt) (p x old : Nat) : LaneRes :=
  let n := min c.et.lanes src.lanes
  let pick (i : Nat) : Option (Nat × Nat) :=
    if src.lanes < c.et.lanes then (if p * n ≤ i ∧ i < p * n + n then some (i - p * n, i - p * n) else none)
    else some (i, p * n + i)
  let r := cvtLoop c src (src.lanesIn x) pick 0 (c.et.lanesIn old)
  let rounds := !(c.et.isI && src.isI)
  ⟨r.1, (List.range c.et.lanes).map (fun i => (pick i).isSome && c.active i), r.2, if rounds then n else 0⟩

/-! ## VPACK and VUNPACK (R201) -/

def packRes (c : Ctl) (sat : Bool) (x y : Nat) : LaneRes :=
  let w := c.et.wider
  let f (v : Nat) : Nat := if sat then intCode c.et.width (intClamp c.et.isSigned c.et.width (intVal w.isSigned w.width v)) else v % 2 ^ c.et.width
  allLanes c ((w.lanesIn x).map f ++ (w.lanesIn y).map f) 0 0
def unpackRes (c : Ctl) (half : Bool) (x : Nat) : LaneRes :=
  let n := c.et.narrower
  let l := n.lanesIn x
  allLanes c (((if half then l.drop c.et.lanes else l).take c.et.lanes).map
    (fun v => intCode c.et.width (intVal c.et.isSigned n.width v))) 0 0

/-! ## Quantisation (R98–R102, R199, R200) -/

/-- The integer V of an E3M5 scale code: its value is V / 256 (R88). -/
def e3m5 (code : Nat) : Nat := if code < 32 then code else (32 + code % 32) * 2 ^ (code / 32 - 1)
/-- The smallest code whose V is at least `need`, held at 15.5. -/
def e3m5Code (need : Nat) : Nat :=
  if need ≤ 63 then need
  else
    let k := Nat.log2 need - 5
    let q := (need + 2 ^ k - 1) / 2 ^ k
    min 254 (if q = 64 then (k + 2) * 32 else (k + 1) * 32 + (q - 32))

/-- A positive number m · 2^e, as the band scale and the block maximum. -/
structure Dyadic where
  m : Nat
  e : Int
  deriving DecidableEq, Repr
def Dyadic.le (x y : Dyadic) : Bool := let q := min x.e y.e; decide (x.m * 2 ^ (x.e - q).toNat ≤ y.m * 2 ^ (y.e - q).toNat)
def Dyadic.max (x y : Dyadic) : Dyadic := if x.le y then y else x
def FVal.isFinite : FVal → Bool
  | .fin _ _ _ => true
  | _ => false
/-- The largest magnitude among the finite values. -/
def maxAbs : List FVal → Dyadic
  | [] => ⟨0, 0⟩
  | .fin _ m e :: r => Dyadic.max ⟨m, e⟩ (maxAbs r)
  | _ :: r => maxAbs r
/-- ceil of (a / b) × c for positive dyadics and a number. -/
def ceilDiv (a b : Dyadic) (num den : Nat) : Nat :=
  let q := min a.e b.e
  let n := a.m * 2 ^ (a.e - q).toNat * num
  let d := b.m * 2 ^ (b.e - q).toNat * den
  (n + d - 1) / d

/-- What a quantised block is: its scale code, its element codes, and what the census and the flags count. -/
structure Block where
  scale : Nat
  codes : List Nat
  sats : Nat
  unders : Nat
  finiteSat : Bool
  inexact : Bool
  deriving DecidableEq, Repr

/-- An element as a quotient by d, rounded to a format: its code, and whether it saturates beyond `top`, underflows, is inexact. -/
def quantElem (f : FP) (ftz : Bool) (md : Rounding) (top : Nat) (d : Dyadic) : FVal → Nat × Bool × Bool × Bool
  | .fin a m e =>
    let k := Nat.log2 d.m + 128
    let r := f.round ftz md a (divSticky m d.m k) (e - d.e - k - 1)
    (r.1, !(Dyadic.le ⟨m, e⟩ ⟨d.m * top, d.e⟩), decide (m ≠ 0 ∧ r.1 % f.signBit = 0), decide (r.2 &&& fNX ≠ 0))
  | _ => (0, false, false, false)
/-- The elements of a block that has a scale, from element number `k` of the instruction or plane. -/
def quantElems (f : FP) (ftz : Bool) (md : Nat → Rounding) (top : Nat) (d : Dyadic) : Nat → List FVal → Block
  | _, [] => ⟨0, [], 0, 0, false, false⟩
  | k, x :: r =>
    let q := quantElem f ftz (md k) top d x
    let t := quantElems f ftz md top d (k + 1) r
    ⟨0, q.1 :: t.codes, t.sats + bit q.2.1, t.unders + bit q.2.2.1, q.2.1 || t.finiteSat, q.2.2.2 || t.inexact⟩
/-- A block of codes 0 with a scale; `sats` its saturations. -/
def flatBlock (scale sats : Nat) (fs : Bool) (xs : List FVal) : Block := ⟨scale, xs.map (fun _ => 0), sats, 0, fs, false⟩
def nonFinite (xs : List FVal) : Nat := (xs.filter (fun x => !x.isFinite)).length

/-- A block of 8 for fp4 under a band scale, none when the band scale is invalid (R98 steps 3 and 4, R99, R100). The codes of a block
whose scale is 0x00, which read as +0 whatever they are (R88), are 0x0: DESIGN CHOICE, log entry 48. -/
def block4 (ftz : Bool) (md : Nat → Rounding) (b : Option Dyadic) (k : Nat) (xs : List FVal) : Block :=
  match b with
  | none => flatBlock 0xFF xs.length (xs.any FVal.isFinite) xs
  | some b =>
    let top := maxAbs xs
    if nonFinite xs ≠ 0 then flatBlock 0xFF (nonFinite xs) false xs
    else if top.m = 0 then ⟨0, xs.map (fun _ => 0), 0, 0, false, false⟩
    else
      let c := e3m5Code (ceilDiv top b 256 6)
      { quantElems fpFp4 ftz md 6 ⟨e3m5 c * b.m, b.e - 8⟩ k xs with scale := c }
/-- A block of 32 for e4m3 (R101). -/
def blockMx (ftz : Bool) (md : Nat → Rounding) (k : Nat) (xs : List FVal) : Block :=
  let top := maxAbs xs
  if nonFinite xs ≠ 0 then flatBlock 0xFF (nonFinite xs) false xs
  else if top.m = 0 then ⟨0, xs.map (fun _ => 0), 0, 0, false, false⟩
  else
    let x : Int := max (-127) (min 127 ((Nat.log2 top.m : Int) + top.e - 8))
    { quantElems fpE4m3 ftz md 448 ⟨1, x⟩ k xs with scale := (x + 127).toNat }

/-- A bf16 band scale: none for a NaN, an infinity, zero or a negative value (R89). -/
def bandOf (code : Nat) : Option Dyadic :=
  match fpBf16.val false code with
  | .fin false m e => if m = 0 then none else some ⟨m, e⟩
  | _ => none
/-- A list in groups of `n`. -/
def groupsOf {α : Type} (n : Nat) : Nat → List α → List (List α)
  | 0, _ => []
  | k + 1, l => l.take n :: groupsOf n k (l.drop n)
/-- The blocks of 8 of a run of elements, numbered from `k` on. -/
def blocks4 (ftz : Bool) (md : Nat → Rounding) (b : Option Dyadic) : Nat → List (List FVal) → List Block
  | _, [] => []
  | k, g :: r => block4 ftz md b k g :: blocks4 ftz md b (k + g.length) r

/-- VQUANT's packed vector and flags (R199). -/
def quantRes (c : Ctl) (fmt : Option (BitVec 16)) (x : Nat) : LaneRes :=
  let xs := (lanesOf 16 x 32).map (fpBf16.val c.daz)
  let bs := match fmt with
    | some b => blocks4 c.ftz c.rounding (bandOf b.toNat) 0 (groupsOf 8 4 xs)
    | none => [blockMx c.ftz c.rounding 0 xs]
  let codes := bs.flatMap Block.codes
  let scales := bs.map Block.scale
  let sats := (bs.map Block.sats).sum
  let unders := (bs.map Block.unders).sum
  let body := match fmt with
    | some _ => lanesOf 8 (packLanes 4 codes) 16 ++ scales
    | none => codes ++ scales
  let bytes := body ++ List.replicate (62 - body.length) 0 ++ [sats, unders]
  let fl := (if bs.any Block.inexact then fNX else 0) ||| (if unders ≠ 0 then fUF else 0)
    ||| (if bs.any Block.finiteSat then fOF else 0) ||| (if nonFinite xs ≠ 0 then fNV else 0)
  ⟨bytes, List.replicate 64 true, fl, 32⟩

/-- An element's exact value times a scale and a band (R200). DESIGN CHOICE: a signalling NaN as band scale sets no NV, here and in VQUANT,
since R84 speaks of inputs and R89 of the band does not (log entry 16). -/
def deqLane (c : Ctl) (f : FP) (k code : Nat) (scale : Option Dyadic) (b : Option Dyadic) : Nat × FlagSet :=
  match b, scale with
  | none, _ => (fpBf16.nan, 0)
  | _, none => (fpBf16.nan, 0)
  | some b, some d =>
    if d.m = 0 then (0, 0)
    else match f.val false code with
      | .fin a m e => fpBf16.conv c.ftz (c.rounding k) (.fin a (m * d.m * b.m) (e + d.e + b.e))
      | v => fpBf16.conv c.ftz (c.rounding k) v
/-- VDEQ (R200): 32 bf16 lanes. A block scale of 0x00 gives +0 in an fp4 block; in an MX block it has the value 2^(−127), as R86 lays down
(log entry 16). -/
def deqRes (c : Ctl) (fmt : Option (BitVec 16)) (x : Nat) : LaneRes :=
  let bytes := lanesOf 8 x 64
  let r := (List.range 32).map fun i =>
    match fmt with
    | some b =>
      let s := laneAt bytes (16 + i / 8)
      deqLane c fpFp4 i (laneAt (lanesOf 4 x 32) i) (if s = 0xFF then none else some ⟨e3m5 s, -8⟩) (bandOf b.toNat)
    | none =>
      let s := laneAt bytes 32
      deqLane c fpE4m3 i (laneAt bytes i)
        (if s = 0xFF then none else some ⟨1, (s : Int) - 127⟩) (some ⟨1, 0⟩)
  ⟨r.map Prod.fst, List.replicate 32 true, (r.map Prod.snd).foldl (fun a b => a ||| b) 0, 32⟩

end Sys2Proof.Machine
end

