-- ==== Sys2Proof/Machine/Planes.lean ====
section
/-!
DEFINITION. What fills and the matrix unit compute, on bytes alone: the operand tile entry (R98–R102, R302, R313), the K-tile sums
(R103–R105), cancellation and the checks (R318, R319), and combining in the reduction units (R106, R107).
-/
namespace Sys2Proof.Machine
open Sys2Proof

/-! ## Bytes and elements -/

def byteNat (l : List Byte) (i : Nat) : Nat := (l.getD i 0).toNat
/-- `n` bytes of a byte string as a number. -/
def bytesNat (l : List Byte) (i : Nat) : Nat → Nat
  | 0 => 0
  | n + 1 => byteNat l i + 256 * bytesNat l (i + 1) n
/-- The `n` low bytes of a number. -/
def natBytes (x : Nat) : Nat → List Byte
  | 0 => []
  | n + 1 => BitVec.ofNat 8 x :: natBytes (x / 256) n
def zeros (n : Nat) : List Byte := List.replicate n 0

/-! ## The quantising fill (R98–R102, R313) -/

/-- The bf16 elements of the 64 rows. -/
def tileRows (src : List Byte) : List (List FVal) :=
  (List.range 64).map fun i => (List.range 64).map fun k => fpBf16.val false (bytesNat src (128 * i + 2 * k) 2)
/-- The dynamic band scale (R98). -/
def dynamicBand (rows : List (List FVal)) : Nat :=
  let x := maxAbs rows.flatten
  if x.m = 0 then fpBf16.code (.fin false 1 0)
  else
    let l := (Nat.log2 x.m : Int) + x.e
    let t := if 2 * x.m ≤ 3 * 2 ^ Nat.log2 x.m then l - 2 else l - 1
    fpBf16.code (.fin false 1 (max (-133) (min 127 t)))
/-- The blocks of the two planes, row by row; the fp4 plane's elements count first (R96). -/
def planeFp4 (md : Nat → Rounding) (band : Nat) (rows : List (List FVal)) : List (List Block) :=
  rows.mapIdx fun i r => blocks4 false md (bandOf band) (64 * i) (groupsOf 8 8 r)
/-- A block's underflows as WUFL counts them (R302): the non-zero finite elements of a block with an infinity or a NaN are written as
+0 too (R100). -/
def Block.wufl (b : Block) (xs : List FVal) : Block :=
  if b.scale = 0xFF then { b with unders := (xs.filter (fun x => match x with | .fin _ m _ => m != 0 | _ => false)).length } else b
def planeMx (md : Nat → Rounding) (rows : List (List FVal)) : List (List Block) :=
  rows.mapIdx fun i r => (groupsOf 32 2 r).mapIdx fun b g => (blockMx false md (4096 + 64 * i + 32 * b) g).wufl g
/-- A census count held at 0xFFFF (R102). -/
def census (f : Block → Nat) (p : List (List Block)) : Nat := min 0xFFFF ((p.flatten.map f).sum)
def hasNan (p : List (List Block)) : Bool := p.flatten.any (fun b => b.scale == 0xFF)
def fp4Bytes (p : List Block) : List Byte := natBytes (packLanes 4 (p.flatMap Block.codes)) 32
def scaleBytes (p : List Block) : List Byte := p.map (fun b => BitVec.ofNat 8 b.scale)
/-- The 8 KiB of an operand tile entry (R302). -/
def quantEntry (md : Nat → Rounding) (fixed : Option (BitVec 16)) (anchor : Word) (stride : Nat) (src : List Byte) : List Byte :=
  let rows := tileRows src
  let band := match fixed with | some b => b.toNat | none => dynamicBand rows
  let p := planeFp4 md band rows
  let q := planeMx md rows
  natBytes anchor.toNat 8 ++ natBytes band 2 ++ natBytes (census Block.sats p) 2 ++ natBytes (census Block.unders p) 2
    ++ [BitVec.ofNat 8 (bit (hasNan p || hasNan q) + 2 * bit fixed.isSome), 0]
    ++ natBytes stride 4 ++ natBytes (census Block.sats q) 2 ++ natBytes (census Block.unders q) 2 ++ zeros 40
    ++ p.flatMap fp4Bytes ++ p.flatMap scaleBytes
    ++ q.flatMap (fun r => (r.flatMap Block.codes).map (fun c => BitVec.ofNat 8 c)) ++ q.flatMap scaleBytes ++ zeros 1344

/-! ## K-tile contributions (R103, R104) -/

/-- A value times a positive number m · 2^e. -/
def FVal.scaled (x : FVal) (m : Nat) (e : Int) : FVal :=
  match x with
  | .fin a n g => .fin a (n * m) (g + e)
  | v => v
/-- An exact sum of products; an exact zero is +0. -/
def dotExact : List FVal → List FVal → FVal
  | x :: xs, y :: ys => (FVal.add .rne (FVal.mul x y).1 (dotExact xs ys)).1
  | _, _ => .fin false 0 0
def plusZero (x : FVal) : FVal :=
  match x with
  | .fin _ 0 _ => .fin false 0 0
  | v => v

/-- A row of an entry's fp4 plane: the elements of block kb, and its scale with the band (none: a NaN block). -/
def fp4Row (e : List Byte) (i kb : Nat) : List FVal :=
  (List.range 8).map fun k => fpFp4.val false (byteNat e (0x40 + 32 * i + 4 * kb + k / 2) / 16 ^ (k % 2) % 16)
def fp4Scale (e : List Byte) (i kb : Nat) : Option Dyadic :=
  let c := byteNat e (0x840 + 8 * i + kb)
  match bandOf (bytesNat e 8 2) with
  | none => none
  | some b => if c = 0xFF then none else some ⟨e3m5 c * b.m, b.e - 8⟩
/-- A row of the e4m3 plane. -/
def mxRow (e : List Byte) (i kb : Nat) : List FVal := (List.range 32).map fun k => fpE4m3.val false (byteNat e (0xA40 + 64 * i + 32 * kb + k))
def mxScale (e : List Byte) (i kb : Nat) : Option Dyadic :=
  let c := byteNat e (0x1A40 + 2 * i + kb)
  if c = 0xFF then none else some ⟨1, (c : Int) - 127⟩
/-- A row of a bf16 tile of 64 × 128 bytes. -/
def bfRow (t : List Byte) (i kg : Nat) : List FVal := (List.range 8).map fun k => fpBf16.val false (bytesNat t (128 * i + 16 * kg + 2 * k) 2)

/-- One block's contribution d. -/
def contribution (a b : List FVal) (sa sb : Option Dyadic) : FVal :=
  match sa, sb with
  | some x, some y => plusZero (FVal.scaled (dotExact a b) (x.m * y.m) (x.e + y.e))
  | _, _ => .nan false
def noScale : Option Dyadic := some ⟨1, 0⟩
/-- The contributions to cell (i, j) in the three formats: 0 fp4, 1 MXFP8, 2 bf16. -/
def contributions (fmt : Nat) (a b : List Byte) (i j : Nat) : List FVal :=
  match fmt with
  | 0 => (List.range 8).map fun kb => contribution (fp4Row a i kb) (fp4Row b j kb) (fp4Scale a i kb) (fp4Scale b j kb)
  | 1 => (List.range 2).map fun kb => contribution (mxRow a i kb) (mxRow b j kb) (mxScale a i kb) (mxScale b j kb)
  | _ => (List.range 8).map fun kg => contribution (bfRow a i kg) (bfRow b j kg) noScale noScale
/-- round_to(W80, acc + d, rne). -/
def w80Add (acc : Nat) (d : FVal) : Nat := (fpW80.conv false .rne (FVal.add .rne (fpW80.val false acc) d).1).1
/-- A cell after one K-tile. -/
def cellAfter (acc : Nat) (ds : List FVal) : Nat := ds.foldl w80Add acc

/-! ## Cancellation and the checks (R318, R319) -/

/-- E(x) of a finite non-zero value. -/
def FVal.exponent (x : FVal) : Option Int :=
  match x with
  | .fin _ m e => if m = 0 then none else some ((Nat.log2 m : Int) + e)
  | _ => none
/-- The largest exponent among the contributions. -/
def topExponent (ds : List FVal) : Option Int :=
  ds.foldl (fun best d => match d.exponent, best with
    | some x, some y => some (max x y)
    | some x, none => some x
    | none, b => b) none
def cancelOf (ds : List FVal) (v : Nat) : Int :=
  match topExponent ds, fpW80.val false v with
  | some m, .fin a n e =>
    match (FVal.fin a n e).exponent with
    | none => 64
    | some x => max 0 (min 64 (m - x))
  | _, _ => 0

/-- The fields of TOL (R306). -/
def tolSat (t : Word) : Nat := fld t.toNat 0 8
def tolUfl (t : Word) : Nat := fld t.toNat 8 8
def tolCanc (t : Word) : Nat := fld t.toNat 16 12
def tolThresh (t : Word) : Nat := fld t.toNat 28 6
def checkPasses (t : Word) (s u n : Nat) : Bool :=
  (tolSat t == 0xFF || decide (s ≤ tolSat t)) && (tolUfl t == 0xFF || decide (u ≤ tolUfl t))
    && (tolCanc t == 0xFFF || decide (n ≤ tolCanc t))

/-- What one format of a matrix instruction gives: the cells in row-major order and how many of them cancel. -/
structure Plane where
  cells : List Nat
  cancelling : Nat
  deriving DecidableEq, Repr
def planeOf (fmt : Nat) (thresh : Nat) (acc : Nat → Nat) (a b : List Byte) : Plane :=
  let r := (List.range 4096).map fun n =>
    let ds := contributions fmt a b (n / 64) (n % 64)
    let v := cellAfter (acc n) ds
    (v, decide ((thresh : Int) < cancelOf ds v))
  ⟨r.map Prod.fst, (r.filter Prod.snd).length⟩

/-! ## Semirings (R105, R325) -/

/-- Element k of row i of a raw entry. -/
def rawElem (fov : Fmt) (e : List Byte) (i k : Nat) : Nat :=
  match fov with
  | .raw => byteNat e (8 * i + k / 8) / 2 ^ (k % 8) % 2
  | .e4m3 => byteNat e (64 * i + k)
  | _ => bytesNat e (128 * i + 2 * k) 2
def semiStep (r : Semiring) (fov : Fmt) (acc x y : Nat) : Nat :=
  match r with
  | .minPlus =>
    let t := fpW80.conv false .rne (FVal.add .rne ((fpOf fov).val false x) ((fpOf fov).val false y)).1
    fpW80.code (FVal.min2 (fpW80.val false acc) (fpW80.val false t.1)).1
  | .maxTimes =>
    let t := fpW80.conv false .rne (FVal.mul ((fpOf fov).val false x) ((fpOf fov).val false y)).1
    fpW80.code (FVal.max2 (fpW80.val false acc) (fpW80.val false t.1)).1
  | .orAnd =>
    let one := fpW80.code (.fin false 1 0)
    if acc % fpW80.signBit ≠ 0 ∨ (x = 1 ∧ y = 1) then one else 0
def semiCell (r : Semiring) (fov : Fmt) (acc : Nat) (a b : List Byte) (i j : Nat) : Nat :=
  (List.range 64).foldl (fun v k => semiStep r fov v (rawElem fov a i k) (rawElem fov b j k)) acc

/-! ## Reduction units (R106, R107) -/

/-- One element of a combine of MX blocks: exact sum under the scales. -/
def mxSum (f : FP) (x y : Nat) (sx sy : Nat) : FVal :=
  (FVal.add .rne ((f.val false x).scaled 1 ((sx : Int) - 127)) ((f.val false y).scaled 1 ((sy : Int) - 127))).1
/-- The smallest X from −127 to 127 with m ≤ top × 2^X; −127 where no sum is finite, so that there is no m: DESIGN CHOICE, log
entry 48. -/
def mxScaleFor (top : Nat) (m : Dyadic) : Int :=
  if m.m = 0 then -127
  else
    let k : Int := (Nat.log2 m.m : Int) + m.e - (Nat.log2 top : Int)
    let x := if Dyadic.le m ⟨top, k⟩ then k else k + 1
    max (-127) (min 127 x)
/-- Two MX blocks combined: the scale, the elements, and whether the block counts a combine saturation. The elements of a NaN block are
written 0x00: DESIGN CHOICE, log entry 48. -/
def mxCombine (f : FP) (top : Nat) (sx sy : Nat) (xs ys : List Nat) : Nat × List Nat × Bool :=
  if sx = 0xFF ∨ sy = 0xFF then (0xFF, xs.map (fun _ => 0), false)
  else
    let sums := List.zipWith (fun x y => mxSum f x y sx sy) xs ys
    let m := maxAbs sums
    let x := mxScaleFor top m
    let beyond := !(Dyadic.le m ⟨top, 127⟩)
    ((x + 127).toNat,
      sums.map (fun v => match v with
        | .fin a n e =>
          if !(Dyadic.le ⟨n, e⟩ ⟨top, x⟩) then (if a then f.signBit else 0) + f.maxCode
          else (f.conv false .rne (.fin a n (e - x))).1
        | v => (f.conv false .rne v).1), beyond)

/-- The operation of a collective on one element of a format without blocks (R107). A floating-point minimum or maximum is the canonical
NaN with a NaN operand and orders −0 below +0: DESIGN CHOICE, log entry 48. -/
def combineElem (op : CollOp) (f : Fmt) (x y : Nat) : Nat :=
  match op with
  | .or => x ||| y
  | .add =>
    if f.isI then (x + y) % 2 ^ f.width
    else ((fpOf f).conv false .rne (FVal.add .rne ((fpOf f).val false x) ((fpOf f).val false y)).1).1
  | .min =>
    if f.isI then (if intVal f.isSigned f.width x ≤ intVal f.isSigned f.width y then x else y)
    else (fpOf f).code (FVal.min2 ((fpOf f).val false x) ((fpOf f).val false y)).1
  | .max =>
    if f.isI then (if intVal f.isSigned f.width x ≤ intVal f.isSigned f.width y then y else x)
    else (fpOf f).code (FVal.max2 ((fpOf f).val false x) ((fpOf f).val false y)).1

end Sys2Proof.Machine
end

