-- ==== Sys2Proof/Machine/TaskEngine.lean ====
section
/-!
DEFINITION. The task engine: what it checks of every TCB (R41, R42), a task that becomes ready (R43), the decrement of a predecessor
counter (R44), the live-task count and the end of a team (R45).
-/
namespace Sys2Proof.Machine
open Sys2Proof

/-! ## References and checks (R42, R388) -/

/-- Extent index and offset of an address, as the reports of R42 give them; bit 59 and the address when no valid extent holds it. R42
gives this form for TSPAWN and TDEC; a fault found at dispatch or on the retiring task's own TCB is reported in the same form, which is
the model's choice (log entry 17). -/
def tcbRef (t : Team) (a : Nat) : Word :=
  match (List.range 16).find? (fun x => (vget t.ext x Extent.empty).grants 0 a) with
  | some x => wNat (x * 2 ^ 60 + (a - (vget t.ext x Extent.empty).base.toNat) % 2 ^ 46)
  | none => wNat (2 ^ 59 + a % 2 ^ 53)
/-- Whether one extent of the team grants reading and writing of a range. -/
def Extent.holds (x : Extent) (a n : Nat) : Bool := x.grants 3 a && decide (a + n - 1 ≤ x.limit.toNat)
def Team.mayUse (t : Team) (a n : Nat) : Bool := (List.range 16).any (fun x => (vget t.ext x Extent.empty).holds a n)

/-- The fields of a TCB (R41). -/
def tcbEntry (s : State) (t : Team) (a : Nat) : Nat := s.teamNat t a 2
def tcbPcnt (s : State) (t : Team) (a : Nat) : Nat := s.teamNat t (a + 4) 2
def tcbFlags (s : State) (t : Team) (a : Nat) : Nat := s.teamNat t (a + 6) 1
def tcbScnt (s : State) (t : Team) (a : Nat) : Nat := s.teamNat t (a + 7) 1
def tcbSlist (s : State) (t : Team) (a : Nat) : Nat := s.teamNat t (a + 8) 8
def tcbTarget (s : State) (t : Team) (a : Nat) : Nat := s.teamNat t (a + 0x10) 8
def tcbArg (s : State) (t : Team) (a k : Nat) : Nat := s.teamNat t (a + 0x18 + 8 * k) 8
def tcbTid (s : State) (t : Team) (a : Nat) : Nat := s.teamNat t (a + 0x38) 4

/-- Whether the TCB's reserved fields are zero and its ENTRY names a row of the task table. -/
def tcbFieldsOk (s : State) (t : Team) (a : Nat) : Bool :=
  s.teamNat t (a + 2) 2 == 0 && fld (tcbFlags s t a) 4 4 == 0 && fld (tcbSlist s t a) 46 14 == 0
    && fld (tcbTarget s t a) 16 48 == 0 && s.teamNat t (a + 0x3C) 4 == 0 && decide (tcbEntry s t a < t.tasks.length)
/-- The trap code a TCB earns: ENGEXT for rights or alignment, BACKSTOP where its target refuses the read (R336), MEMERR for a sealed
line whose tag fails (R362), ILLEGAL for its fields. -/
def tcbFault (s : State) (t : Team) (a : Nat) : Option (BitVec 8) :=
  if a % 64 ≠ 0 ∨ t.mayUse a 64 = false then some codeEngext
  else if s.admitsTag t.tenant a (t.targetOf a) = false then some codeBackstop
  else if s.sealFails t a 64 then some codeMemerr
  else if tcbFieldsOk s t a then none
  else some codeIllegal
/-- The detail of that trap: the reference, or the address for MEMERR and BACKSTOP. -/
def tcbDetail (code : BitVec 8) (a : Nat) (ref : Word) : Word :=
  if code = codeMemerr then wNat (a + 2 ^ 63) else if code = codeBackstop then wNat a else ref

/-- The team stops on a report of the task engine (R42, R388); by Solstice on one of the backstop (R355). -/
def State.engineStop (s : State) (t : Team) (code : BitVec 8) (detail : Word) (lcid : Nat) : State :=
  if code = codeBackstop then s.backstop (.main lcid) none detail.toNat
  else s.teamFault t.num code detail lcid lcid

/-! ## Ready work (R41, R43, R46) -/

/-- Whether the tile holds the running team's task, and where a ready task goes: a named tile's local queue, or a cluster queue. A
target outside the placement counts as the readying cluster (R42). -/
def State.makeReady (s : State) (t : Team) (from_ a : Nat) : State :=
  let cls := tcbFlags s t a % 4
  let target := tcbTarget s t a % 2 ^ 16
  let named := fld (tcbFlags s t a) 3 1 == 1
  let item (n : Bool) : ReadyItem := ⟨t.num, .task a, cls, n, s.cycle, none⟩
  if named && t.tiles.contains target then
    let k := s.getTile target
    s.setTile target { k with localQ := k.localQ ++ [item true] }
  else
    let c := if !named && t.clusters.any (fun x => x.1 == target) then target else from_
    let k := s.getCluster c
    s.setCluster c { k with readyQ := k.readyQ ++ [item false] }

/-- One decrement of a TCB's predecessor counter at its home, checked by the task engine (R42–R44): a late one is counted; the one
that reaches zero readies the task. It is dropped over an uncorrectable error, which enters the processor's record (R393). `detail` names
the TCB as its reference does. -/
def State.decrement (s : State) (p : ProcId) (team lcid a : Nat) (detail : Word) : State :=
  match s.findTeam team with
  | none => s
  | some t =>
    match tcbFault s t a with
    | some code => s.engineStop t code (tcbDetail code a detail) lcid
    | none =>
      let n := tcbPcnt s t a
      if s.badHeld p (a + 4) 2 then s.dropped p codeMemerr (a + 4)
      else if n = 0 then s.countAt lcid 0 5 1
      else
        let s1 := s.teamPut t (cellsOf (a + 4) (n - 1) 2)
        if n = 1 then s1.makeReady t (clusterOf lcid) a else s1

/-- A retiring task's decrement on its way to the home: it is dropped at a fenced tile and refused by the backstop. -/
def State.decrementHome (s : State) (team lcid a : Nat) (detail : Word) : State :=
  match s.wayFault a with
  | some code => s.dropped (.main lcid) code a
  | none => if s.admits (.main lcid) a then s.decrement (.main lcid) team lcid a detail else s.backstop (.main lcid) none a

/-- A reference of a successor entry or SLIST as index and offset (R42). -/
def refDetail (r : Nat) : Word := wNat (r / 2 ^ 60 * 2 ^ 60 + r % 2 ^ 46)
/-- The address a reference names. -/
def Team.refAddr (t : Team) (r : Nat) : Nat := (vget t.ext (r / 2 ^ 60) Extent.empty).base.toNat + r % 2 ^ 46

/-- The decrements of a retiring task's successors, in list order; a fault stops the team and the rest. -/
def State.decrementList (s : State) (team lcid a : Nat) : Nat → State
  | 0 => s
  | n + 1 =>
    match s.findTeam team with
    | none => s
    | some t =>
      let r := s.teamNat t a 8
      if t.state = .failed then s
      else if s.admitsTag t.tenant a (t.targetOf a) = false then s.engineStop t codeBackstop (wNat a) lcid
      else if s.sealFails t a 8 then s.engineStop t codeMemerr (wNat (a + 2 ^ 63)) lcid
      else if fld r 46 14 ≠ 0 then s.engineStop t codeIllegal (refDetail r) lcid
      else if r % 64 ≠ 0 ∨ (vget t.ext (r / 2 ^ 60) Extent.empty).holds (t.refAddr r) 64 = false then
        s.engineStop t codeEngext (refDetail r) lcid
      else (s.decrementHome team lcid (t.refAddr r) (refDetail r)).decrementList team lcid (a + 8) n

/-- The successors of the task whose TCB lies at `a` (R43, R281). -/
def State.decrementAll (s : State) (team lcid a : Nat) : State :=
  match s.findTeam team with
  | none => s
  | some t =>
    match tcbFault s t a with
    | some code => s.engineStop t code (tcbDetail code a (tcbRef t a)) lcid
    | none =>
      let n := tcbScnt s t a
      let l := tcbSlist s t a
      if n = 0 then s
      else if l % 8 ≠ 0 ∨ (vget t.ext (l / 2 ^ 60) Extent.empty).holds (t.refAddr l) (8 * n) = false then
        s.engineStop t codeEngext (refDetail l) lcid
      else s.decrementList team lcid (t.refAddr l) n

/-! ## The live count (R45, R280) -/

/-- A tile of a team that has ended: nothing runs, and its ready and parked work is discarded (R280). DESIGN CHOICE: so are the reads and
atomics that its stage core has issued and not performed, of which R334 says nothing (log entry 54). -/
def State.stopTile (s : State) (n : Nat) : State :=
  let s1 := s.setCore (.main n) { s.getCore (.main n) with running := false, wait := none, load := none, lates := [] }
  let s2 := s1.setCore (.stage n) { (s1.getCore (.stage n)).dropFills with running := false, wait := none, load := none, lates := [] }
  s2.setTile n { s2.getTile n with task := none, conts := [], localQ := (s2.getTile n).localQ.filter (fun i => i.team != (s2.getTile n).team) }
/-- The team is ENDED (R45). -/
def State.endTeam (s : State) (t : Team) : State :=
  let s1 := t.tiles.foldl State.stopTile s
  let s2 := t.clusters.foldl (fun s c =>
    (s.setCluster c.1 { s.getCluster c.1 with readyQ := (s.getCluster c.1).readyQ.filter (fun i => i.team != t.num) }).setCore (.coll c.1) { s.getCore (.coll c.1) with running := false }) s1
  s2.putTeam { t with state := .ended, key := [], live := 0 }
/-- A report has stopped the team by Solstice, and it is still to become FAILED (R355). -/
def Team.failing (t : Team) : Bool := t.reason == .fail && (match t.stop with | .named _ => true | _ => false)
/-- One task less lives; the team ends with the last one, unless it is to fail. -/
def State.retireTask (s : State) (team : Nat) : State :=
  match s.findTeam team with
  | none => s
  | some t => if t.state = .failed ∨ t.failing then s else if t.live ≤ 1 then s.endTeam t else s.putTeam { t with live := t.live - 1 }
/-- One task more lives. -/
def State.addTask (s : State) (team : Nat) : State :=
  match s.findTeam team with
  | none => s
  | some t => s.putTeam { t with live := t.live + 1 }

/-! ## Commands by handle, and the return of the collective firmware (R262, R266) -/

def State.findCmd (s : State) (p : ProcId) (h : BitVec 16) : Option Cmd := (s.getCore p).cmds.find? (fun c => c.handle == h)
def Core.putCmd (k : Core) (c : Cmd) : Core := { k with cmds := k.cmds.map (fun d => if d.handle = c.handle then c else d) }
def State.putCmd (s : State) (p : ProcId) (c : Cmd) : State := s.setCore p ((s.getCore p).putCmd c)

/-- Where the firmware returns to through a14: one word past its last. -/
def Team.collExit (t : Team) : Nat := 8 * t.coll.length
/-- The firmware returns: its engine is idle again, and the member's command is done. -/
def State.firmwareReturn (s : State) (cl : Nat) : State :=
  let k := s.getCluster cl
  match k.fw with
  | none => s
  | some (h, l) =>
    let s1 := (s.setCluster cl { k with fw := none }).setCore (.coll cl) { s.getCore (.coll cl) with running := false }
    match s1.findCmd (.main l) h with
    | some c => s1.putCmd (.main l) { c with status := .done }
    | none => s1

end Sys2Proof.Machine
end

