-- ==== Sys2Proof/Machine/Perform.lean ====
section
/-!
DEFINITION. The ordering machine's steps on issued writing accesses (R219–R238): what holds an access back (R222, R223), what it does
at its home when it performs, and its acknowledgement.
-/
namespace Sys2Proof.Machine
open Sys2Proof

def noAccess : Access := ⟨.store, 0, 0, [], true, .rlx, .self, false, none, false, false, false, 0, 0⟩

/-! ## Preserved program order (R222, R223) -/

/-- Whether a scope covers a class for a processor's team (R218). -/
def State.coversOf (s : State) (p : ProcId) (sc : Scope) (c : Cls) : Bool :=
  sc.covers (match s.teamOf p with | some t => t.fabric | none => false) c
/-- Whether a scope covers a location (R218): of other modules, DOMAIN covers those of the fabric team alone. -/
def State.coversLoc (s : State) (p : ProcId) (sc : Scope) (a : Nat) : Bool :=
  s.coversOf p sc (s.classOf p a) && (match sc, s.region a with
    | .domain, .peer m => (match s.teamOf p with | some t => t.mods.contains m | none => false)
    | _, _ => true)
/-- Whether a scope covers a location of a range. -/
def State.coversSome (s : State) (p : ProcId) (sc : Scope) (a n : Nat) : Bool := s.coversLoc p sc a || s.coversLoc p sc (a + n - 1)
/-- Whether a scope covers the classes of an access's locations. -/
def State.coversAccess (s : State) (p : ProcId) (sc : Scope) (a : Access) : Bool :=
  s.coversOf p sc (s.classOf p a.addr) || s.coversOf p sc (s.classOf p (a.addr + a.size - 1))
def Ord.releases (o : Ord) : Bool := o == .rel || o == .ar
def Ord.acquires (o : Ord) : Bool := o == .acq || o == .ar
def AccKind.isSev : AccKind → Bool
  | .sev _ => true
  | _ => false
/-- The same by location. -/
def State.coversAt (s : State) (p : ProcId) (sc : Scope) (a : Access) : Bool := s.coversSome p sc a.addr a.size
def AccKind.isPush : AccKind → Bool
  | .qpush _ => true
  | _ => false
def AccKind.isKsend : AccKind → Bool
  | .ksend _ _ _ => true
  | _ => false
/-- Whether an earlier issued access that has not performed holds back a later access of `n` bytes at `b`: rows P1, P5 and P6, and
R222. SEV's set is no access of R219 and holds nothing back. -/
def State.holds (s : State) (p : ProcId) (a : Access) (b n : Nat) (ord : Ord) (sco : Scope) : Bool :=
  !a.performed && !a.kind.isSev &&
    (overlaps a.addr a.size b n || (Ord.releases ord && s.coversAt p sco a) || (Ord.releases a.ord && Ord.acquires ord))
/-- The same of an earlier reading access that has not performed: rows P1, P4, P5 and P6. -/
def State.lateHolds (s : State) (p : ProcId) (a : Late) (b n : Nat) (ord : Ord) (sco : Scope) : Bool :=
  overlaps a.addr a.size b n || (Ord.acquires a.ord && s.coversSome p a.sco b n) || (Ord.releases ord && s.coversSome p sco a.addr a.size)
    || (Ord.releases a.ord && Ord.acquires ord)
/-- Whether some issued access of a processor holds back a later access. -/
def State.heldBack (s : State) (p : ProcId) (b n : Nat) (ord : Ord) (sco : Scope) : Bool :=
  (s.getCore p).pend.any (fun a => s.holds p a b n ord sco) || (s.getCore p).lates.any (fun a => s.lateHolds p a b n ord sco)
/-- A reading access that changes a queue or a location is a writing access too (R219). -/
def LateKind.writes : LateKind → Bool
  | .amo _ _ _ _ _ | .qtry _ _ => true
  | _ => false
/-- Whether an access issued before the `j`-th pending reading access of a processor holds it back; every earlier reading one holds one
that also writes (row P3). -/
def State.lateHeld (s : State) (p : ProcId) (j : Nat) (l : Late) : Bool :=
  (s.getCore p).pend.any (fun a => decide (a.seq < l.seq) && s.holds p a l.addr l.size l.ord l.sco)
    || ((s.getCore p).lates.take j).any (fun a => l.kind.writes || s.lateHolds p a l.addr l.size l.ord l.sco)

/-- Whether an access or a command by its number follows, in program order, passes that a main core's sequencer still holds (R214): it comes
after what they will issue (R223, R229, R233, R237). -/
def State.behindPasses (s : State) (p : ProcId) (seq : Nat) : Bool :=
  match p with
  | .main l => (s.getTile l).rep.count != 0 && (match (s.getCore p).behind with | some n => decide (n ≤ seq) | none => false)
  | _ => false

/-- The narrowest scope that contains a class of tiles (R233). -/
def scopeOfCls : Cls → Scope
  | .tile => .tile | .cluster => .cluster | .die => .die | .module => .module | .host => .host | .fabric => .fabric
/-- Whether the `i`-th issued access of a processor may perform: no earlier access holds it back, no pass before it is still to issue, and
no earlier reading access is pending at all (row P3). Elements of key-routed sends perform in any order (R236); SEV's set waits for earlier
writing accesses alone (R233). -/
def State.mayPerform (s : State) (p : ProcId) (i : Nat) : Bool :=
  let l := (s.getCore p).pend
  let a := l.getD i noAccess
  let before := l.take i
  let reads := (s.getCore p).lates.filter (fun e => decide (e.seq < a.seq))
  s.sendOpen (.access p a.seq) a.paid a.addr && !s.behindPasses p a.seq && (if a.kind.isSev then
      before.all (fun e => e.performed || e.kind.isSev || !s.coversAccess p (scopeOfCls (s.classOf p a.addr)) e)
        && reads.all (fun e => !e.kind.writes || !s.coversLoc p (scopeOfCls (s.classOf p a.addr)) e.addr)
    else before.all (fun e => (e.kind.isKsend && a.kind.isKsend) || !s.holds p e a.addr a.size a.ord a.sco) && reads.isEmpty)

/-! ## At the home -/

/-- The key configuration's fields (R255). -/
def keyBase (k : Word) : Nat := fld k.toNat 0 20
def keyNb (k : Word) : Nat := fld k.toNat 20 18
def keyOp (k : Word) : Nat := fld k.toNat 38 3
def keyLevel (k : Word) : Nat := fld k.toNat 41 3

/-- A bin after an update (R256). -/
def keyUpdate (op bin value : Nat) : Nat :=
  let f := fpFp32
  let x := f.val false bin
  let y := f.val false value
  match op with
  | 0 => (bin + value) % 2 ^ 32
  | 1 => (f.conv false .rne (FVal.add .rne x y).1).1
  | 2 => if intVal true 32 bin ≤ intVal true 32 value then bin else value
  | 3 => if intVal true 32 bin ≤ intVal true 32 value then value else bin
  | 4 => f.code (FVal.min2 x y).1
  | 5 => f.code (FVal.max2 x y).1
  | _ => bin ||| value
/-- A key-routed update at its receiving tile (R256): dropped and counted when the tile's configuration has another operation or
fewer bins. -/
def State.keyStep (s : State) (lcid op bin value : Nat) (put : State → Nat → List Host.Cell → State) : State :=
  let k := (s.getTile lcid).keycfg
  if keyNb k = 0 ∨ keyOp k ≠ op ∨ keyNb k ≤ bin then s.countAt lcid 3 5 1
  else
    let a := scratchAddr lcid (keyBase k + 4 * bin)
    put s a (cellsOf a (keyUpdate op (memNat s.mem a 4) value) 4)
def State.keyLand (s : State) (p : ProcId) (lcid op bin value : Nat) : State :=
  s.keyStep lcid op bin value (fun s a cells => s.putCells p a cells)

/-- A queue by its key 8 × LCID + n. -/
def State.queue (s : State) (k : Nat) : List Word := assoc s.queues k []
def State.setQueue (s : State) (k : Nat) (l : List Word) : State :=
  { s with queues := if l = [] then s.queues.filter (fun q => q.1 != k) else assocSet s.queues k l }

/-- A step at a home, whose cycle and place are kept: steps of one cycle on a queue or a unit have an order (R233, R247, R253). -/
def State.stepHome (s : State) (h : Home) (place : Nat) : State := { s with homeAt := assocSet s.homeAt h (s.cycle, place) }
/-- Whether a step would follow one of the same cycle that comes after it in that order. -/
def State.afterHome (s : State) (h : Home) (place : Nat) : Bool :=
  s.homeAt.any (fun q => q.1 == h && q.2.1 == s.cycle && decide (place < q.2.2))
/-- The places of a queue's steps: pushes by the issuing LCID, then pops. -/
def popPlace : Nat := 2 ^ 20
def pushPlace (p : ProcId) : Nat := (homeTile p).getD 0xFFFF
/-- The places of a unit's steps (R247). -/
def clearPlace : Nat := 1
def fillPlace : Nat := 2
def readPlace : Nat := 3
/-- A pop step at a queue's home leaves the rest of its entries. -/
def State.queuePop (s : State) (k : Nat) (rest : List Word) : State := (s.setQueue k rest).stepHome (.queue k) popPlace
/-- The home and the place of an access's step, where they have an order. -/
def State.placeOf (s : State) (p : ProcId) (a : Access) : Option (Home × Nat) :=
  match a.kind with
  | .qpush _ => (s.region a.addr).queue.map (fun q => (.queue (8 * q.1 + q.2), pushPlace p))
  | .feset => some (.unit (a.addr / 8), fillPlace)
  | .feclr => some (.unit (a.addr / 8), clearPlace)
  | _ => none
/-- Whether an access's step must wait for the next cycle. -/
def State.outOfTurn (s : State) (p : ProcId) (a : Access) : Bool := match s.placeOf p a with | some q => s.afterHome q.1 q.2 | none => false
def State.stepTaken (s : State) (p : ProcId) (a : Access) : State := match s.placeOf p a with | some q => s.stepHome q.1 q.2 | none => s

/-- TDEC's decrement, whose access names the PCNT of its TCB. -/
def State.pcntHome (s : State) (p : ProcId) (addr : Nat) : State :=
  match homeTile p, s.teamOf p with
  | some l, some t => s.decrement p t.num l (addr - 4) (tcbRef t (addr - 4))
  | _, _ => s
/-- Whether the task engine refuses a decrement by its extents before it leaves (R42). -/
def State.pcntRefused (s : State) (p : ProcId) (k : AccKind) (addr : Nat) : Bool :=
  k == .pcnt && (match s.teamOf p with | some t => !t.mayUse (addr - 4) 64 | none => false)

/-- The home's part of a step: the state after it, and whether the home accepted it (a full queue refuses a push, R447). What a module has
accepted performs there, whatever becomes of the peer table. -/
def State.atHome (s : State) (p : ProcId) (a : Access) (addr : Nat) (cells : List Host.Cell) : State × Bool :=
  if s.pcntRefused p a.kind addr then (s.pcntHome p addr, true)
  else match (if a.paid then none else s.wayFault addr) with
  | some code => (s.dropped p code addr, true)
  | none =>
    if !s.admits p addr then (s.backstop p (some a.pc) addr, true)
    else
      match a.kind with
      | .store => (s.landCells p addr cells, true)
      | .feset => ({ s with full := setIn s.full (addr / 8) }, true)
      | .feclr => ({ s with full := setOut s.full (addr / 8) }, true)
      | .qpush e =>
        match (s.region addr).queue with
        | some (l, n) =>
          if 32 ≤ (s.queue (8 * l + n)).length ∨ s.tileStopped l then (s.countOf p 3 6 1, false)
          else if s.keptOut addr 8 ≠ [] then (s.dropped p codeMemerr addr, true)
          else ((({ s with bad := s.mended addr 8 } : State).setQueue (8 * l + n) (s.queue (8 * l + n) ++ [e])).event l 1 |>.eventStage l 1, true)
        | none => (s, true)
      | .sev stage =>
        match s.region addr with
        | .port l _ =>
          if s.tileStopped l then (s.logEntry l (.sev l stage (s.senderOf p)), true)
          else (if stage then s.eventStage l 0 else s.event l 0, true)
        | _ => (s, true)
      | .ksend op bin value =>
        match s.region addr with
        | .scratch l _ => (s.keyLand p l op bin value.toNat, true)
        | _ => (s, true)
      | .pcnt => (s.pcntHome p addr, true)
      | .engine _ => (s, true)

/-- A list with one element replaced or removed. -/
def setAt {α : Type} (l : List α) (i : Nat) (x : α) : List α :=
  match l, i with
  | [], _ => []
  | _ :: r, 0 => x :: r
  | y :: r, i + 1 => y :: setAt r i x
def dropAt {α : Type} (l : List α) (i : Nat) : List α :=
  match l, i with
  | [], _ => []
  | _ :: r, 0 => r
  | y :: r, i + 1 => y :: dropAt r i
def State.setPend (s : State) (p : ProcId) (i : Nat) (a : Access) : State :=
  let c := s.getCore p
  s.setCore p { c with pend := setAt c.pend i a }

/-- The payload of an access's message. -/
def Access.payload (a : Access) : List Byte :=
  match a.kind with
  | .qpush e => (cellsOf 0 e.toNat 8).map Prod.snd
  | .ksend _ _ v => (cellsOf 0 v.toNat 4).map Prod.snd
  | _ => a.pieces.flatten.map Prod.snd
/-- The module towards which the message of an access is still to leave (R423). -/
def State.mustSend (s : State) (a : Access) : Option Nat := if a.paid then none else s.peerAt a.addr
/-- The message of the `i`-th issued access leaves for another module: its home takes it in a later step. -/
def State.sendAccess (s : State) (p : ProcId) (i m : Nat) : State :=
  let a := (s.getCore p).pend.getD i noAccess
  (s.sendTo m (s.tagOf p) (.access p a.seq) a.payload).setPend p i { a with paid := true }
/-- The module that an access's message went to has accepted it. -/
def State.accepted (s : State) (p : ProcId) (a : Access) : State :=
  if a.paid then { s with fabric := s.fabric.accept (.access p a.seq) } else s
/-- The `k`-th piece of the `i`-th issued access of a processor performs, when it may (STORE and the other steps of R220); towards another
module, its message leaves first. -/
def State.performPiece (s : State) (p : ProcId) (i k : Nat) : State :=
  let a := (s.getCore p).pend.getD i noAccess
  if a.performed || !s.mayPerform p i || s.outOfTurn p a then s
  else match s.mustSend a with
  | some m => s.sendAccess p i m
  | none => match a.pieces[k]? with
    | none => s
    | some cells =>
      let addr := match cells with | [] => a.addr | c :: _ => c.1
      let r := (s.accepted p a).atHome p a addr cells
      if r.2 then
        let rest := dropAt a.pieces k
        let mark := (s.wayFault addr).isNone && !s.admits p addr
        (r.1.stepTaken p a).setPend p i { a with pieces := rest, performed := rest == [], refused := false, marked := a.marked || mark }
      else r.1.setPend p i { a with refused := true }
/-- The message of the `i`-th issued access where it has one, and all its remaining pieces. -/
def State.performAccess (s : State) (p : ProcId) (i : Nat) : State :=
  (List.range (((s.getCore p).pend.getD i noAccess).pieces.length + 1)).foldl (fun s _ => s.performPiece p i 0) s
/-- The issued accesses of a processor perform in program order, as far as they may. -/
def State.drain (s : State) (p : ProcId) : State :=
  (List.range (s.getCore p).pend.length).foldl (fun s i => s.performAccess p i) s
/-- A processor issues no further instruction. -/
def State.stopCore (s : State) (p : ProcId) : State := s.setCore p { s.getCore p with running := false }
/-- A marked acknowledgement stops the context that receives it (R364): a tile's main and stage core, or the collective engine. -/
def State.stopContext (s : State) (p : ProcId) : State :=
  match p with
  | .main n | .stage n => (s.stopCore (.main n)).stopCore (.stage n)
  | _ => s.stopCore p
/-- Every access that has performed is acknowledged (ACK, R220); one with a BACKSTOP mark stops the context and stays. -/
def State.ackAll (s : State) (p : ProcId) : State :=
  let c := s.getCore p
  let s0 := s.setCore p { c with pend := c.pend.filter (fun a => !a.performed || a.marked) }
  let s1 := if c.pend.any (fun a => a.performed && !a.marked) then s0.progressOf p else s0
  if c.pend.any (fun a => a.performed && a.marked) then s1.stopContext p else s1
/-- Whether every issued access a test picks has performed and been acknowledged. -/
def State.allAcked (s : State) (p : ProcId) (f : Access → Bool) : Bool := (s.getCore p).pend.all (fun a => !f a)
/-- Every processor that has issued accesses. -/
def State.procs (s : State) : List ProcId := s.cur :: (s.cores.map (fun c => c.1)).filter (fun p => p != s.cur)

/-- A number with that of an access put in at `n`. -/
def shifted (n k : Nat) : Nat := if n ≤ k then k + 1 else k
/-- An access joins a processor's store queue and U (R220). While passes are to issue, one of a scalar instruction comes behind them, and
one of a pass goes before those (R214). -/
def Core.join (c : Core) (a : Access) (passes : Bool) : Core :=
  match c.behind, passes && a.vec with
  | some n, true =>
    { c with
      pend := c.pend.filter (fun e => decide (e.seq < n)) ++ { a with seq := n } ::
        (c.pend.filter (fun e => decide (n ≤ e.seq))).map (fun e => { e with seq := e.seq + 1 })
      cmds := c.cmds.map (fun d => { d with seq := shifted n d.seq })
      behind := some (n + 1), seq := c.seq + 1 }
  | b, _ => { c with pend := c.pend ++ [{ a with seq := c.seq }], seq := c.seq + 1,
                     behind := if passes && !a.vec then some (b.getD c.seq) else b }
/-- A writing access of the processor in focus is issued (R220). -/
def State.issueAccess (s : State) (a : Access) : State :=
  { s with core := s.core.join { a with pc := s.core.pc.toNat } (s.onMain && s.tile.rep.count != 0) }
/-- A store of the low `n` bytes of a number. -/
def storeOf (a n x : Nat) (ord : Ord) (sco : Scope) : Access :=
  ⟨.store, a, n, (pieces a n).map (fun q => cellsOf q.1 (x / 2 ^ (8 * (q.1 - a))) q.2), false, ord, sco, false, none, false, false, false, 0, 0⟩
/-- An access whose step is one piece of its own kind. -/
def oneStep (kind : AccKind) (a n : Nat) (ord : Ord) (sco : Scope) : Access := ⟨kind, a, n, [[]], false, ord, sco, false, none, false, false, false, 0, 0⟩

/-! ## The steps of the opcode table -/

/-- STORE (R220): a store, FESET or FECLR. -/
def execStoreStep (x : EvPiece) (s : State) : Out :=
  match ((s.getCore x.p).pend.getD x.i noAccess).kind with
  | .store | .feset | .feclr => .next (s.performPiece x.p x.i x.k)
  | _ => .next s
/-- ACK (R220): an access that has performed leaves U. -/
def execAckStep (x : EvAcc) (s : State) : Out :=
  let c := s.getCore x.p
  match c.pend[x.i]? with
  | some a =>
    if !a.performed then .next s
    else if a.marked then .next (s.stopContext x.p)
    else .next ((s.setCore x.p { c with pend := dropAt c.pend x.i }).progressOf x.p)
  | none => .next s
/-- QUEUE_PUSH_STEP (R233, R253). -/
def execQueuePushStep (x : EvAcc) (s : State) : Out :=
  match ((s.getCore x.p).pend.getD x.i noAccess).kind with
  | .qpush _ => .next (s.performPiece x.p x.i 0)
  | _ => .next s
/-- QPUSH_RESEND (R447): the NI re-sends a refused push. -/
def execQpushResend (x : EvAcc) (s : State) : Out :=
  let a := (s.getCore x.p).pend.getD x.i noAccess
  match a.kind with
  | .qpush _ => if a.refused then .next (s.performPiece x.p x.i 0) else .next s
  | _ => .next s
/-- SEV_SET (R233, R291). -/
def execSevSet (x : EvAcc) (s : State) : Out :=
  match ((s.getCore x.p).pend.getD x.i noAccess).kind with
  | .sev _ => .next (s.performPiece x.p x.i 0)
  | _ => .next s
/-- KSEND_DELIVERY (R236, R256). -/
def execKsendDelivery (x : EvAcc) (s : State) : Out :=
  match ((s.getCore x.p).pend.getD x.i noAccess).kind with
  | .ksend _ _ _ => .next (s.performPiece x.p x.i 0)
  | _ => .next s
/-- PCNT_DECREMENT (R44, R279). -/
def execPcntDecrement (x : EvAcc) (s : State) : Out :=
  match ((s.getCore x.p).pend.getD x.i noAccess).kind with
  | .pcnt => .next (s.performPiece x.p x.i 0)
  | _ => .next s

end Sys2Proof.Machine
end

