-- ==== Sys2Proof/Machine/Registers.lean ====
section
/-!
DEFINITION. The registers each instruction reads and writes (R111, R116–R122), as Varpen's liveness (R343) and the dependences of R224
take them.
-/
namespace Sys2Proof.Machine
open Sys2Proof

/-! ## Registers (R111, R116–R122)

A register is a number below 96: the unified number, and 64 + n for v<n>. g0, p0 and w0 stand for no register. -/

abbrev Regs := BitVec 96
def Regs.none : Regs := 0
def Regs.of (l : List Nat) : Regs := (l.foldl (fun s n => s ||| (1#96 <<< n)) 0) &&& ~~~((1#96 <<< 0) ||| (1#96 <<< 48) ||| (1#96 <<< 56))
def Regs.has (s : Regs) (n : Nat) : Bool := s.getLsbD n
def gNum (r : GReg) : Nat := r.toNat
def aNum (r : AReg) : Nat := 32 + r.toNat
def pNum (r : PReg) : Nat := 48 + r.toNat
def vNum (r : VReg) : Nat := 64 + r.toNat

/-- How many sources a vector function uses. -/
def vSources (m fn et : Nat) : Nat :=
  match m, fn with
  | 0x10, 3 | 0x10, 4 | 0x10, 5 | 0x15, 8 => 3
  | 0x10, 8 | 0x10, 9 | 0x10, 0xB | 0x11, 0xC | 0x12, 3 | 0x12, 7 | 0x15, 0 | 0x15, 6 | 0x15, 7 => 1
  | 0x13, _ => 1
  | 0x14, n => if n = 3 then 2 else 1
  | 0x16, 1 | 0x16, 2 => if et = 9 then 2 else 1
  | 0x26, 1 => 1
  | 0x26, 2 => 0
  | _, _ => 2
/-- The register of a source field; those of WAND, WOR and WNOT are unified. -/
def vSource (masks : Bool) (w kLo oLo : Nat) : List Nat :=
  match fld w kLo 2 with
  | 0 => [if masks then fld w oLo 6 else 64 + fld w oLo 6]
  | 1 => [fld w oLo 6]
  | _ => []
/-- Whether a vector function's destination is a mask or a g register. -/
def vUnified (m fn : Nat) : Bool := (m == 0x12 && fn != 3 && fn != 4) || (m == 0x15 && (fn == 4 || fn == 9))
/-- Whether a vector function keeps part of its old destination: masked lanes, VINSR and a narrowing VCVT. -/
def vKeeps (m fn wm : Nat) : Bool :=
  (m == 0x15 && fn == 5) || (m == 0x16 && fn == 0)
    || (wm != 0 && !vUnified m fn && m != 0x14 && !(m == 0x12 && fn == 4) && !(m == 0x15 && decide (6 ≤ fn ∧ fn ≤ 8)))
/-- What a V-format word reads and writes. -/
def vReads (w : Nat) : List Nat :=
  let m := fld w 56 6
  let fn := fld w 44 8
  let n := if m = 0x15 ∧ fn = 4 ∧ fld w 0 4 ≠ 0 then 0 else vSources m fn (fld w 10 4)
  let masks := m == 0x12 && decide (5 ≤ fn)
  (if 1 ≤ n then vSource masks w 36 30 else []) ++ (if 2 ≤ n then vSource masks w 28 22 else []) ++ (if 3 ≤ n then vSource masks w 20 14 else [])
    ++ [56 + fld w 4 3] ++ (if vKeeps m fn (fld w 4 3) then [64 + fld w 38 6] else [])
def vWrites (w : Nat) : List Nat :=
  let m := fld w 56 6
  if m = 0x26 then [] else [if vUnified m (fld w 44 8) then fld w 38 6 else 64 + fld w 38 6]
/-- What an M-format word reads and writes, its address part apart. -/
def mReads (w : Nat) : List Nat :=
  let fn := fld w 44 8
  let d := fld w 38 6
  match fld w 56 6 with
  | 0x17 => if fn = 1 ∨ fn = 3 then [64 + d] else if fn = 4 then [65 + d] else if fn = 5 then [64 + d, 65 + d] else []
  | 0x21 => [d]
  | 0x23 => if fn = 9 then [d, d + 1] else [d]
  | 0x25 => if fn = 0 then [d] else []
  | _ => []
def mWrites (w : Nat) : List Nat :=
  let fn := fld w 44 8
  let d := fld w 38 6
  match fld w 56 6 with
  | 0x17 => if fn = 0 ∨ fn = 2 ∨ fn = 4 then [64 + d] else []
  | 0x20 | 0x23 => [d]
  | 0x22 => if fn = 0 ∨ fn = 3 then [d] else []
  | 0x25 => if fn = 0 then [] else if fn = 3 then [d, 48 + fld w 0 3] else [d]
  | 0x29 => if fn = 0 then (if 3 < fld w 20 4 then [64 + d] else [d]) ++ (if fld w 14 2 = 1 then [48 + fld w 52 3] else []) else [d]
  | _ => []
/-- The registers an instruction of the R and X formats reads and writes. -/
def xReads : Instr → List Nat
  | .cpy x => [aNum x.dst, aNum x.src, gNum x.len]
  | .cpyw x => [aNum x.dst, aNum x.src, gNum x.len]
  | .cpy2 x => [aNum x.dst, aNum x.src, gNum x.len, gNum x.rows, gNum x.sstr, gNum x.dstr]
  | .estat x => [gNum x.a]
  | .ewait x => [gNum x.a]
  | .cstat x => [gNum x.a]
  | .cwait x => [gNum x.a]
  | .coll x => [aNum x.dst, aNum x.src, gNum x.cnt]
  | .rcfg x => [gNum x.g]
  | .rtol x => [gNum x.g]
  | .rquant x => [aNum x.src, gNum x.band, gNum x.str]
  | .rfill x => [aNum x.src, gNum x.width, gNum x.str]
  | .rfillw x => [aNum x.src, gNum x.width, gNum x.str]
  | .mdrain x => match x.mode with | .mem a g => [aNum a, gNum g] | .vec _ _ _ => []
  | .mload x => [aNum x.src, gNum x.str]
  | _ => []
def xWrites : Instr → List Nat
  | .cpy x => [gNum x.d]
  | .cpyw x => [gNum x.d]
  | .cpy2 x => [gNum x.d]
  | .estat x => [gNum x.d]
  | .ewait x => [gNum x.d]
  | .cstat x => [gNum x.d]
  | .cwait x => [gNum x.d]
  | .coll x => [gNum x.d]
  | .rget x => [gNum x.d]
  | .rquant x => [gNum x.d]
  | .rfill x => [gNum x.d]
  | .rfillw x => [gNum x.d]
  | .mverd x => [gNum x.d]
  | .mstat x => [gNum x.d]
  | .mdrain x => match x.mode with | .mem _ _ => [] | .vec v _ _ => [vNum v]
  | _ => []
def Instr.word (i : Instr) : Nat := i.encode.headD 0
def isV (w : Nat) : Bool := let m := fld w 56 6; decide (0x10 ≤ m ∧ m ≤ 0x16) || m == 0x26
def isM (w : Nat) : Bool := let m := fld w 56 6; m == 0x17 || decide (0x20 ≤ m ∧ m ≤ 0x23) || m == 0x25 || m == 0x29
/-- Whether a word is of format S (R116, R123). -/
def isS (w : Nat) : Bool := let m := fld w 56 6; decide (1 ≤ m ∧ m ≤ 8) || m == 0x18 || m == 0x19 || m == 0x24 || m == 0x2A || decide (0x30 ≤ m ∧ m ≤ 0x33)
/-- The registers an instruction reads, its guard among them; INS reads its destination. -/
def Instr.reads (i : Instr) : Regs :=
  let w := Instr.word i
  let m := fld w 56 6
  Regs.of ((if m = 0x0A ∨ m = 0x19 then [] else [48 + fld w 52 3])
    ++ (if isS w then [fld w 32 6, fld w 26 6, fld w 20 6] ++ (if m = 6 ∧ fld w 44 8 = 2 then [fld w 38 6] else [])
      else if m = 9 then [fld w 32 6]
      else if m = 0x0A then [fld w 38 6]
      else if isV w then vReads w
      else if isM w then [fld w 32 6, fld w 26 6] ++ mReads w
      else xReads i))
/-- The registers an instruction may write. -/
def Instr.writes (i : Instr) : Regs :=
  let w := Instr.word i
  let m := fld w 56 6
  Regs.of (if isS w then [fld w 38 6]
    else if m = 9 then [fld w 38 6]
    else if isV w then vWrites w
    else if isM w then mWrites w
    else xWrites i)
def Instr.guarded (i : Instr) : Bool := let w := Instr.word i; fld w 52 4 != 0 && fld w 56 6 != 0x0A
/-- The registers whose old value an instruction surely ends: a guarded one ends none, QTRY and a WLD that does not wait may write
none. -/
def Instr.kills (i : Instr) : Regs :=
  match i with
  | .qtry _ => Regs.none
  | _ => if Instr.guarded i then Regs.none else Instr.writes i

end Sys2Proof.Machine
end

