-- ==== Sys2Proof/Machine/Memory.lean ====
section
/-!
DEFINITION. Majors 0x20 to 0x23 and 0x25: loads and stores, full-empty bits, atomics and tile queues (R240–R253, R447), and the LOAD
and QUEUE_POP_STEP steps.
-/
namespace Sys2Proof.Machine
open Sys2Proof

/-! ## Checks before an access (R240, R70, R81) -/

/-- A pointer an access may use: reserved bits zero, fmt and blog agreeing. -/
def ptrOk (w : Word) : Bool := ptrReserved w == 0 && blogOk (ptrFmt w) (ptrBlog w)
/-- A precise trap of a memory access; a BACKSTOP quarantines the object as well (R356). -/
def raise (code : BitVec 8) (detail : Word) (len : Nat) (s : State) : Out :=
  let s1 := if code = codeBackstop then (match s.team with | some t => s.quarantine t (some s.core.pc.toNat) | none => s) else s
  trapAt code detail len s1
def memTrap (code : BitVec 8) (ea len : Nat) (s : State) : Out := raise code (wNat ea) len s
/-- The checks of R240 in order, for an access of the size of `asz`; an access runs on with its address when it passes. Both its first
and its last byte lie in the regions. -/
def checked (m : MemOp) (asz : Asz) (ok : Region → Bool) (aligned : Bool) (s : State) (k : Nat → State → Out) : Out :=
  let w := s.rdA m.ab
  let ea := s.ea m asz
  if !ptrOk w then trapAt codeBadaddr w 8 s
  else if !(ok (s.region ea) && ok (s.region (ea + asz.bytes - 1))) then trapAt codeBadaddr (wNat ea) 8 s
  else if aligned && ea % asz.bytes != 0 then trapAt codeAlign (wNat ea) 8 s
  else k ea s

/-! ## Reading (R220, R222, R446) -/

/-- A byte string as a number, first byte least significant (R4). -/
def leNat : List Byte → Nat
  | [] => 0
  | b :: r => b.toNat + 256 * leNat r

/-- The pieces of several accesses of `n` bytes, in order. -/
def allPieces (as_ : List Nat) (n : Nat) : List (Nat × Nat) := as_.flatMap (fun a => pieces a n)
/-- The parts of a pending load of them. -/
def loadParts (as_ : List Nat) (n : Nat) : List LoadPart :=
  as_.zipIdx.flatMap (fun (w : Nat × Nat) => (pieces w.1 n).map (fun q => ⟨q.1, q.2, w.2, w.1, n, none⟩))
/-- The first fault among pieces to be read. -/
def State.firstFault (s : State) (ps : List (Nat × Nat)) : Option (BitVec 8 × Nat) :=
  match ps with
  | [] => none
  | (a, n) :: r =>
    match s.readFault s.cur a n with
    | some (c, tag) => some (c, marked tag a)
    | none => s.firstFault r
/-- The messages of reading accesses to other modules: one each (R424). -/
def State.spendAll (s : State) (as_ : List Nat) : State := as_.foldl State.spend s
/-- Whether the messages of all of them can leave: every peer's allowance pays for its own. -/
def State.waysOpen (s : State) (as_ : List Nat) : Bool :=
  as_.all (fun a => s.wayOpen a && (match s.peerAt a with
    | some m => decide ((as_.filter (fun b => s.peerAt b == some m)).length ≤ (vget s.fabric.peers m Peer.empty).allow)
    | none => true))
/-- Whether reading accesses of `n` bytes must wait: an earlier access holds one back, its way is closed, or a piece lies in an
intercalary window (R269). -/
def State.mustWait (s : State) (as_ : List Nat) (n : Nat) (ord : Ord) (sco : Scope) : Bool :=
  as_.any (fun a => s.heldBack s.cur a n ord sco || (pieces a n).any (fun q => s.inWindow q.1)) || !s.waysOpen as_
/-- The state in which an access that must wait waits: an eager processor performs its earlier accesses itself. -/
def State.settled (s : State) : State := if s.eager then s.drain s.cur else s

/-- The detail of a reading access that faults at the address `a`: `ea`, or `a` for BACKSTOP and where no `ea` is given. -/
def faultAt (code : BitVec 8) (a : Nat) (ea : Option Nat) : Nat :=
  if code = codeBackstop then a else match ea with
    | some e => marked (decide (2 ^ 63 ≤ a)) e
    | none => a
/-- What the issue of an instruction counts (R403): nothing more once it waits, by a kind of wait, for what it has issued. -/
def State.atIssue (s : State) (kind : WaitKind) (f : State → State) : State :=
  match s.core.wait with
  | some w => if w.kind = kind then s else f s
  | none => f s
/-- The bytes and requests of reading accesses. -/
def State.countReads (s : State) (n : Nat) (as_ : List Nat) : State := as_.foldl (fun t a => t.countBytes s.cur 0 a n) s
/-- A reading access: the instruction goes on with the bytes of its accesses in order, or traps precisely, or waits. An eager
processor reads all pieces in its step; another waits for their LOAD steps. The accesses count as they issue. -/
def reading (as_ : List Nat) (n : Nat) (ord : Ord) (sco : Scope) (ea : Option Nat) (len : Nat) (s : State)
    (k : List Byte → State → Out) : Out :=
  let ps := allPieces as_ n
  let s := s.atIssue .load (fun s => s.countReads n as_)
  if s.eager then
    let s1 := if s.mustWait as_ n ord sco then s.settled else s
    if s1.mustWait as_ n ord sco then stay .load 0 s1
    else match s1.firstFault ps with
      | some (c, a) => memTrap c (faultAt c a ea) len s1
      | none => k (ps.flatMap (fun q => s1.readBytes q.1 q.2)) (s1.spendAll as_)
  else match s.core.load with
    | none =>
      let l : Load := ⟨loadParts as_ n, ord, sco, as_.length != 1, none⟩
      stay .load 0 { s with core := { s.core with load := some l } }
    | some l =>
      match l.fault with
      | some (c, a) => memTrap c (faultAt c a ea) len { s with core := { s.core with load := none } }
      | none =>
        if l.parts.all (fun q => q.bytes.isSome) then
          k (l.parts.flatMap (fun q => q.bytes.getD [])) { s with core := { s.core with load := none } }
        else .next s

/-- Whether an access that reads and writes must wait: as a reading one, and for every earlier reading access (row P3). -/
def State.heldWriting (s : State) (a n : Nat) (ord : Ord) (sco : Scope) : Bool :=
  s.heldBack s.cur a n ord sco || !s.core.lates.isEmpty

/-- Whether piece `k` of pending reading accesses is held back with the whole of its access: by an issued access, or by an earlier
access among them (R222, rows P1 and P4 of R223, R227). -/
def State.partHeld (s : State) (p : ProcId) (l : Load) (k : Nat) (q : LoadPart) : Bool :=
  s.heldBack p q.base q.size l.ord l.sco || (l.each && (l.parts.take k).any (fun e => e.bytes.isNone && e.no != q.no
    && (overlaps e.base e.size q.base q.size || (Ord.acquires l.ord && s.coversSome p l.sco q.base q.size))))
/-- LOAD (R220): a piece of a pending reading access is read at its home, when no row of R222 and R223 holds it back. -/
def State.loadPiece (s : State) (p : ProcId) (k : Nat) : State :=
  let c := s.getCore p
  match c.load with
  | none => s
  | some l =>
    match l.parts[k]? with
    | none => s
    | some q =>
      if q.bytes.isSome ∨ s.partHeld p l k q ∨ s.messageOpen (paidPiece l.parts q) q.addr = false ∨ s.inWindow q.addr then s
      else match s.readFault p q.addr q.len with
        | some (code, tag) => s.setCore p { c with load := some { l with fault := some (l.fault.getD (code, marked tag q.addr)) } }
        | none => (s.payPiece l.parts q).setCore p
            { c with load := some { l with parts := setAt l.parts k { q with bytes := some (s.bytesFor p q.addr q.len) } } }

/-! ## Reads that are not held for (R220, R446) -/

/-- Whether the processor in focus goes on past an issued read: one that is no main core. An eager machine reads at once. -/
def State.goesOn (s : State) : Bool := !s.onMain && !s.eager
/-- A reading access of `n` bytes at `a` joins the pending accesses of its processor (R220). -/
def State.issueLate (s : State) (kind : LateKind) (a n : Nat) (ord : Ord) (sco : Scope) : State :=
  { s with core := { s.core with
      lates := s.core.lates ++ [⟨kind, a, n, ord, sco, loadParts [a] n, s.core.seq, s.core.pc.toNat⟩], seq := s.core.seq + 1 } }

/-! ## Loads and stores (R244, R245) -/

/-- A loaded number as the register receives it. -/
def extended (ext : Bool) (n x : Nat) : Word := if ext then wInt (intVal true (8 * n) x) else wNat x
/-- A loaded number enters its register. -/
def State.loaded (s : State) (d : LdDst) (ext : Bool) (n x : Nat) : State :=
  match d with
  | .g r => s.wrG r (extended ext n x)
  | .a r => s.wrA r (wNat x)

def execLd (x : OpLd) (s : State) : Out :=
  guarded x.q 8 s fun s =>
    checked x.m x.asz Region.ldOk false s fun ea s =>
      let n := x.asz.bytes
      if s.goesOn then complete 8 ((s.countBytes s.cur 0 ea n).issueLate (.ld x.d x.ext none) ea n x.ord x.sco)
      else reading [ea] n x.ord x.sco (some ea) 8 s fun bytes s =>
        complete 8 (s.loaded x.d x.ext n (leNat bytes))

def execSt (x : OpSt) (s : State) : Out :=
  guarded x.q 8 s fun s =>
    checked x.m x.asz Region.stOk false s fun ea s =>
      complete 8 ((s.issueAccess (storeOf ea x.asz.bytes (s.rdG x.d).toNat x.ord x.sco)).countBytes s.cur 1 ea x.asz.bytes)

/-! ## Full-empty bits (R246, R247) -/

def State.isFull (s : State) (ea : Nat) : Bool := s.full.contains (ea / 8)
/-- A step that reads a unit's bit (R247). -/
def State.readUnit (s : State) (ea : Nat) : State := s.stepHome (.unit (ea / 8)) readPlace

/-- What a waiting read meets before its step: everything but an uncorrectable error, which only the step meets that reads the bytes
(R232, R233, R393). -/
def State.wayBlocked (s : State) (ea n : Nat) : Option (BitVec 8) :=
  match s.readFault s.cur ea n with
  | some (c, _) => if c = codeMemerr then none else some c
  | none => none
def execLds (x : OpMemG) (s : State) : Out :=
  guarded x.q 8 s fun s =>
    checked x.m x.asz Region.isScratch true s fun ea s =>
      let s := s.atIssue .lds (fun s => s.countBytes s.cur 0 ea x.asz.bytes)
      match s.wayBlocked ea x.asz.bytes with
      | some c => memTrap c ea 8 s
      | none =>
        let s1 := if s.heldBack s.cur ea x.asz.bytes x.ord x.sco then s.settled else s
        if !s1.isFull ea || s1.heldBack s.cur ea x.asz.bytes x.ord x.sco then stay .lds 0 s1
        else match s1.readFault s.cur ea x.asz.bytes with
          | some (c, _) => memTrap c ea 8 s1
          | none => complete 8 ((s1.readUnit ea).wrG x.d (extended x.ext x.asz.bytes (s1.readNat ea x.asz.bytes)))

/-- FESET and FECLR: a writing step of the unit's home. -/
def fullStep (kind : AccKind) (x : OpFe) (s : State) : Out :=
  guarded x.q 8 s fun s =>
    checked x.m .d Region.isScratch true s fun ea s => complete 8 ((s.issueAccess (oneStep kind ea 8 x.ord x.sco)).countRequest s.cur ea 8)
def execFeset (x : OpFe) (s : State) : Out := fullStep .feset x s
def execFeclr (x : OpFe) (s : State) : Out := fullStep .feclr x s

/-- A one-step read of a unit's bit or of a queue's count: it waits for what holds it back, and meets an uncorrectable error only in the
step itself (R232, R233). -/
def relaxedStep (ea : Nat) (ord : Ord) (sco : Scope) (s : State) (k : State → Out) : Out :=
  match s.wayBlocked ea 8 with
  | some c => memTrap c ea 8 s
  | none =>
    let s1 := if s.heldBack s.cur ea 8 ord sco then s.settled else s
    if s1.heldBack s.cur ea 8 ord sco then stay .load 0 s1
    else match s1.readFault s.cur ea 8 with
      | some (c, _) => memTrap c ea 8 s1
      | none => k s1
def execFepoll (x : OpFepoll) (s : State) : Out :=
  guarded x.q 8 s fun s =>
    checked x.m .d Region.isScratch true s fun ea s =>
      let s := s.atIssue .load (fun s => s.countRequest s.cur ea 8)
      if s.goesOn then complete 8 (s.issueLate (.fepoll x.d) ea 8 x.ord x.sco)
      else relaxedStep ea x.ord x.sco s fun s => complete 8 ((s.readUnit ea).wrP x.d (s.isFull ea))

/-! ## Atomics (R248, R249) -/

/-- The floating-point format of AMOFADD. -/
def amoFp (asz : Asz) : FP := if asz = .w then fpFp32 else fpFp64
/-- AMOFADD: no FTZ, no DAZ, no flags. -/
def amoFadd (f : FP) (m v : Nat) : Nat := (f.conv false .rne (FVal.add .rne (f.val false m) (f.val false v)).1).1
/-- The new value of an AMO of `n` bytes from the old value and the low bits of g[d] and g[d + 1]; none leaves memory as it is. -/
def amoNew (op : AmoOp) (n m v w : Nat) : Option Nat :=
  match op with
  | .add => some ((m + v) % 2 ^ (8 * n))
  | .and => some (m &&& v)
  | .or => some (m ||| v)
  | .xor => some (m ^^^ v)
  | .min => some (if intVal true (8 * n) m ≤ intVal true (8 * n) v then m else v)
  | .max => some (if intVal true (8 * n) m ≤ intVal true (8 * n) v then v else m)
  | .minn => some (min m v)
  | .maxn => some (max m v)
  | .swp => some v
  | .cas => if m = v then some w else none
  | .fadd => some (amoFadd (if n = 4 then fpFp32 else fpFp64) m v)
  | .inc => some (if v ≤ m then 0 else m + 1)
/-- The one step of an AMO at its home: g[d] takes the old value and memory the new one. -/
def State.amoStep (s : State) (op : AmoOp) (d : GReg) (ext : Bool) (ea n : Nat) (v w : Word) : State :=
  let m := s.readNat ea n
  let s1 := match amoNew op n m (v.toNat % 2 ^ (8 * n)) (w.toNat % 2 ^ (8 * n)) with
    | some y => s.putCells s.cur ea (cellsOf ea y n)
    | none => s
  s1.wrG d (extended ext n m)
/-- One that the backstop refuses returns zeros, and its report stops the team by Solstice (R355). -/
def State.amoRefused (s : State) (d : GReg) (ea : Nat) : State := (s.backstop s.cur (some s.core.pc.toNat) ea).wrG d 0
/-- The step of an AMO that a holding processor has issued: at its home, or a fault on its way there. -/
def amoHome (op : AmoOp) (x : OpMemG) (ea : Nat) (s : State) : Out :=
  match s.readFault s.cur ea x.asz.bytes with
  | some (c, tag) => if c = codeBackstop then complete 8 (s.amoRefused x.d ea) else memTrap c (marked tag ea) 8 s
  | none => complete 8 (s.amoStep op x.d x.ext ea x.asz.bytes (s.rdG x.d) (s.rdG (x.d + 1)))
/-- The mark of an AMO whose message to another module has left: a read of no bytes. -/
def amoSent (ea n : Nat) (ord : Ord) (sco : Scope) : Load := ⟨[⟨ea, n, 0, ea, n, some []⟩], ord, sco, false, none⟩
/-- An AMO: one step that reads the old value and writes the new one. Towards another module its message leaves first, and may be refused
(R423); an eager processor takes both in one step. -/
def amo (op : AmoOp) (x : OpMemG) (s : State) : Out :=
  guarded x.q 8 s fun s =>
    checked x.m x.asz Region.amoOk true s fun ea s =>
      let n := x.asz.bytes
      let v := s.rdG x.d
      let w := s.rdG (x.d + 1)
      let s := s.atIssue .load (fun s => s.countAmo s.cur ea n)
      if s.goesOn then complete 8 (s.issueLate (.amo op x.d x.ext v w) ea n x.ord x.sco)
      else match s.core.load with
      | some l =>
        let s1 : State := { s with core := { s.core with load := none } }
        (match l.fault with
          | some (c, _) => if c = codeBackstop then complete 8 (s1.amoRefused x.d ea) else memTrap c ea 8 s1
          | none => amoHome op x ea s1)
      | none =>
        let s1 := if s.mustWait [ea] n x.ord x.sco then s.settled else s
        if s1.mustWait [ea] n x.ord x.sco || !s1.core.lates.isEmpty then stay .load 0 s1
        else
          let s2 := s1.spend ea
          if !s.eager && (s.peerAt ea).isSome then stay .load 0 { s2 with core := { s2.core with load := some (amoSent ea n x.ord x.sco) } }
          else amoHome op x ea s2

def execAmoadd (x : OpMemG) (s : State) : Out := amo .add x s
def execAmoand (x : OpMemG) (s : State) : Out := amo .and x s
def execAmoor (x : OpMemG) (s : State) : Out := amo .or x s
def execAmoxor (x : OpMemG) (s : State) : Out := amo .xor x s
def execAmomin (x : OpMemG) (s : State) : Out := amo .min x s
def execAmomax (x : OpMemG) (s : State) : Out := amo .max x s
def execAmominn (x : OpMemG) (s : State) : Out := amo .minn x s
def execAmomaxn (x : OpMemG) (s : State) : Out := amo .maxn x s
def execAmoswp (x : OpMemG) (s : State) : Out := amo .swp x s
def execAmocas (x : OpMemG) (s : State) : Out := amo .cas x s
def execAmofadd (x : OpMemG) (s : State) : Out := amo .fadd x s
def execAmoinc (x : OpMemG) (s : State) : Out := amo .inc x s

/-! ## Tile queues (R252, R253, R447) -/

/-- The address of a queue instruction (R252). -/
def State.queueEa (s : State) (ab : AReg) (ix : GReg) (isc : Isc) : Nat := s.ea ⟨ab, ix, isc, 0⟩ .d
/-- The checks of a queue instruction; pops and counts reach the own tile only (R240). -/
def queueChecked (ab : AReg) (ix : GReg) (isc : Isc) (own : Bool) (s : State) (k : Nat → Nat → State → Out) : Out :=
  let w := s.rdA ab
  let ea := s.queueEa ab ix isc
  if !ptrOk w then trapAt codeBadaddr w 8 s
  else match (s.region ea).queue with
    | none => trapAt codeBadaddr (wNat ea) 8 s
    | some (l, n) =>
      if own && homeTile s.cur != some l then trapAt codeBadaddr (wNat ea) 8 s
      else k ea (8 * l + n) s

/-- Whether the push the waiting QPUSH has issued is still to be accepted. -/
def Core.pushOpen (c : Core) : Bool := c.pend.any (fun a => a.seq + 1 == c.seq && !a.performed)

def execQpush (x : OpQue) (s : State) : Out :=
  guarded x.q 8 s fun s =>
    queueChecked x.ab x.ix x.isc false s fun ea _ s =>
      let sent : Bool := match s.core.wait with | some w => w.kind == .push | none => false
      let s1 := if sent then s else (s.issueAccess (oneStep (.qpush (s.rdG x.d)) ea 8 .rel x.sco)).countRequest s.cur ea 8
      let s2 := s1.settled
      if s2.core.pushOpen then stay .push 0 s2 else complete 8 s2

/-- A pop takes the head when the queue holds an entry and nothing holds its step back; it waits otherwise. -/
def popStep (kind : WaitKind) (x : OpQue) (s : State) : Out :=
  guarded x.q 8 s fun s =>
    queueChecked x.ab x.ix x.isc true s fun ea q s =>
      match s.wayBlocked ea 8 with
      | some c => memTrap c ea 8 s
      | none =>
        let s1 := if s.heldWriting ea 8 .acq x.sco then s.settled else s
        match s1.queue q with
        | [] => stay kind 0 s1
        | e :: r =>
          if s1.heldWriting ea 8 .acq x.sco then stay kind 0 s1
          else match s1.readFault s.cur ea 8 with
            | some (c, _) => memTrap c ea 8 s1
            | none => complete 8 ((s1.queuePop q r).wrG x.d e)
def execQpop (x : OpQue) (s : State) : Out := popStep .pop x s
def execQpopw (x : OpQue) (s : State) : Out := popStep .popYield x s

def execQtry (x : OpQtry) (s : State) : Out :=
  guarded x.q 8 s fun s =>
    queueChecked x.ab x.ix x.isc true s fun ea q s =>
      if s.goesOn then complete 8 (s.issueLate (.qtry x.d x.pn) ea 8 .acq x.sco)
      else match s.wayBlocked ea 8 with
      | some c => memTrap c ea 8 s
      | none =>
        let s1 := if s.heldWriting ea 8 .acq x.sco then s.settled else s
        if s1.heldWriting ea 8 .acq x.sco then stay .load 0 s1
        else match s1.queue q with
          | [] => complete 8 ((s1.queuePop q []).wrP x.pn false)
          | e :: r => match s1.readFault s.cur ea 8 with
            | some (c, _) => memTrap c ea 8 s1
            | none => complete 8 (((s1.queuePop q r).wrG x.d e).wrP x.pn true)

def execQcnt (x : OpQue) (s : State) : Out :=
  guarded x.q 8 s fun s =>
    queueChecked x.ab x.ix x.isc true s fun ea q s =>
      if s.goesOn then complete 8 (s.issueLate (.qcnt x.d) ea 8 .rlx .self)
      else relaxedStep ea .rlx .self s fun s => complete 8 (s.wrG x.d (wNat (s.queue q).length))

/-- QUEUE_POP_STEP (R233): a processor that waits at a pop takes it together with the instruction's issue. -/
def execQueuePopStep (x : EvProc) (s : State) : Out :=
  let c := s.getCore x.p
  match c.wait with
  | some w =>
    if c.running && !s.pastStop x.p && (w.kind == .pop || w.kind == .popYield) then
      let s1 := s.focus x.p
      match s1.fetch with
      | .words a b =>
        match decodeFor (columnOf x.p) a.toNat b.toNat with
        | .ok (.qpop y) => execQpop y s1
        | .ok (.qpopw y) => execQpopw y s1
        | _ => .next s
      | _ => .next s
    else .next s
  | none => .next s

/-! ## The LOAD step of a read that is not held for (R220, R446) -/

/-- The queue an address names. -/
def State.queueAt (s : State) (a : Nat) : Nat := match (s.region a).queue with | some (l, n) => 8 * l + n | none => 0
/-- What the last LOAD step of such a read does, given the bytes it has read; the processor is in focus. -/
def State.landLate (s : State) (l : Late) (bytes : List Byte) : State :=
  match l.kind with
  | .ld d ext _ => s.loaded d ext l.size (leNat bytes)
  | .amo op d ext v w => s.amoStep op d ext l.addr l.size v w
  | .fepoll d => (s.readUnit l.addr).wrP d (s.isFull l.addr)
  | .qcnt d => s.wrG d (wNat (s.queue (s.queueAt l.addr)).length)
  | .qtry d pn =>
    match s.queue (s.queueAt l.addr) with
    | [] => (s.queuePop (s.queueAt l.addr) []).wrP pn false
    | e :: r => ((s.queuePop (s.queueAt l.addr) r).wrG d e).wrP pn true
/-- What piece `q` of such a read meets at its home: QTRY's pop of an empty queue reads no entry. -/
def State.lateFault (s : State) (l : Late) (q : LoadPart) : Option (BitVec 8 × Bool) :=
  match s.readFault s.cur q.addr q.len with
  | some (c, tag) =>
    (match l.kind with
      | .qtry _ _ => if c = codeMemerr ∧ s.queue (s.queueAt l.addr) = [] then none else some (c, tag)
      | _ => some (c, tag))
  | none => none
/-- LOAD of piece `k` of the `j`-th pending read of a processor that is in focus; the traps of such processors name the instruction that
issued the read. -/
def lateStep (j k : Nat) (s : State) : Out :=
  match s.core.lates[j]? with
  | none => .next s
  | some l =>
    match l.parts[k]? with
    | none => .next s
    | some q =>
      let gone : State := { s with core := { s.core with lates := dropAt s.core.lates j } }
      if q.bytes.isSome ∨ s.lateHeld s.cur j l ∨ s.messageOpen (paidPiece l.parts q) q.addr = false then .next s
      else if s.inWindow q.addr then (match l.kind with | .ld _ _ (some g) => .next (gone.wrP g false) | _ => .next s)
      else match s.lateFault l q with
        | some (c, tag) =>
          let at_ : State := { gone with core := { gone.core with pc := wNat l.pc } }
          (match l.kind with
            | .amo _ d _ _ _ => if c = codeBackstop then
                .next { (at_.amoRefused d l.addr) with core := { (at_.amoRefused d l.addr).core with pc := s.core.pc } }
              else memTrap c (marked tag l.addr) 8 at_
            | _ => memTrap c (faultAt c (marked tag q.addr) (some l.addr)) 8 at_)
        | none =>
          let parts := setAt l.parts k { q with bytes := some (s.readBytes q.addr q.len) }
          if parts.all (fun e => e.bytes.isSome) then
            .next ((gone.payPiece l.parts q).landLate l (parts.flatMap (fun e => e.bytes.getD []))).progress
          else .next ({ s with core := { s.core with lates := setAt s.core.lates j { l with parts := parts } } }.payPiece l.parts q)

/-- A refusal by another module answers the `j`-th pending read: PEERLOST, or BACKSTOP by its mark, precise at its instruction (R355,
R423). -/
def State.lateRefused (s : State) (p : ProcId) (j : Nat) (code : BitVec 8) : State :=
  let u := s.focus p
  match u.core.lates[j]? with
  | none => s
  | some l =>
    let gone : State := { u with core := { u.core with lates := dropAt u.core.lates j, pc := wNat l.pc } }
    let back (t : State) : State := { t with core := { t.core with pc := u.core.pc } }
    match l.kind with
    | .amo _ d _ _ _ =>
      if code = codeBackstop then (back (gone.amoRefused d l.addr)).focus s.cur
      else (match memTrap code l.addr 8 gone with | .next t => t.focus s.cur | _ => s)
    | _ => match memTrap code l.addr 8 gone with | .next t => t.focus s.cur | _ => s

/-! ## What waits for a pending read (R224, row P2) -/

/-- The registers, as unified numbers, that a pending read still writes. -/
def LateKind.dests : LateKind → List Nat
  | .ld (.g r) _ gp => r.toNat :: (match gp with | some p => [48 + p.toNat] | none => [])
  | .ld (.a r) _ _ => [32 + r.toNat]
  | .amo _ d _ _ _ => [d.toNat]
  | .fepoll d => [48 + d.toNat]
  | .qtry d pn => [d.toNat, 48 + pn.toNat]
  | .qcnt d => [d.toNat]
/-- Whether an instruction names a register that a pending read still writes: it issues when the read has performed (R154, R224). -/
def State.awaits (s : State) (i : Instr) : Bool :=
  s.core.lates.any (fun l => l.kind.dests.any (fun d => Regs.has (Instr.reads i ||| Instr.writes i) d))

end Sys2Proof.Machine
end

