-- ==== Sys2Proof/Machine/Stream.lean ====
section
/-!
DEFINITION. Streams (R206–R210), the loads and stores of the vector unit (R202–R205), and the LOAD step (R220).
-/
namespace Sys2Proof.Machine
open Sys2Proof

/-- What part of an instruction's effect gives: a value and the state after it; a precise trap, which leaves no effect; or a wait. -/
inductive Res (α : Type) where
  | ok (x : α) (s : State)
  | trap (code : BitVec 8) (detail : Word)
  | wait
def resBind {α β : Type} (r : Res α) (k : α → State → Res β) : Res β :=
  match r with
  | .ok x s => k x s
  | .trap c d => .trap c d
  | .wait => .wait
/-- An instruction of the vector pipe that ends with its effect (C0 counter 7), or traps, or waits with none of it. -/
def vecEnd (s : State) (r : Res Unit) : Out :=
  match r with
  | .ok _ t => complete 8 (t.count 0 7 1)
  | .trap c d => raise c d 8 s
  | .wait => stay .other 0 s.settled

/-! ## Slots (R206–R209) -/

/-- The slot a vector register belongs to. -/
def slotOf (r : VReg) : Option Nat := if 28 ≤ r.toNat then some (r.toNat - 28) else none
def State.slot (s : State) (n : Nat) : Stream := vget s.tile.streams n Stream.empty
def State.setSlot (s : State) (n : Nat) (x : Stream) : State :=
  { s with tile := { s.tile with streams := vset s.tile.streams n x } }
/-- The bound slot of a vector register. -/
def State.boundSlot (s : State) (r : VReg) : Option Nat :=
  match slotOf r with
  | some n => if (s.slot n).isBound then some n else none
  | none => none

/-- The detail of STREAM but for the pass number (R209). -/
def streamDetail (cause slot : Nat) : Word := wNat (cause + slot * 2 ^ 8)

def Stream.bd (x : Stream) (k : Nat) : Nat := (vget x.bound k 0).toNat
def Stream.ix (x : Stream) (k : Nat) : Nat := (vget x.index k 0).toNat
/-- N (R208). -/
def Stream.length (x : Stream) : Nat := x.bd 0 * x.bd 1 * x.bd 2 * x.bd 3
/-- The number of the vector at the position. -/
def Stream.number (x : Stream) : Nat := x.ix 0 + x.bd 0 * (x.ix 1 + x.bd 1 * (x.ix 2 + x.bd 2 * x.ix 3))
/-- Whether the position lies beyond the last vector (log entry 47). -/
def Stream.done (x : Stream) : Bool := decide (x.length ≤ x.number)
/-- The byte address of the vector at the position (R208). -/
def Stream.addr (x : Stream) : Nat :=
  let at_ (k : Nat) : Int := (x.ix k : Int) * (vget x.stride k 0).toInt
  addr53 ((ptrAddr x.base : Int) + (at_ 0 + at_ 1 + at_ 2 + at_ 3) * ((ptrFmt x.base).step : Int))
/-- The position one vector further: i0 advances, carrying into the next dimension when it reaches its bound. -/
def carried : List (Nat × Nat) → List Nat
  | [] => []
  | [(i, _)] => [i + 1]
  | (i, b) :: r => if i + 1 < b then (i + 1) :: r.map Prod.fst else 0 :: carried r
def Stream.next (x : Stream) : Stream :=
  let l := carried ((List.range 4).map (fun k => (x.ix k, x.bd k)))
  let at_ (k : Nat) : BitVec 32 := BitVec.ofNat 32 (l.getD k 0)
  { x with
    index := #v[at_ 0, at_ 1, at_ 2, at_ 3]
    ahead := x.ahead.filterMap (fun e => if e.1 = 0 then none else some (e.1 - 1, e.2))
    lost := x.lost.filter (fun q => q.1 != x.addr) }
/-- The position `k` vectors further. -/
def Stream.nexts : Nat → Stream → Stream
  | 0, x => x
  | k + 1, x => (x.nexts k).next

/-- The regions vector accesses reach (R204, R209). -/
def Region.vecOk (r : Region) : Bool := r.isGlobal || r.isScratch
def State.vecOk (s : State) (a n : Nat) : Bool := (s.region a).vecOk && (s.region (addr53 ((a : Int) + n - 1))).vecOk

/-- What a pop stream holds of the vector `k` pops away. -/
def Stream.held (x : Stream) (k : Nat) : List LoadPart := assoc x.ahead k (loadParts [(x.nexts k).addr] 64)
def partsLeft (l : List LoadPart) : List (Nat × Nat) := (l.filter (fun q => q.bytes.isNone)).map (fun q => (q.addr, q.len))
/-- The bytes of pieces, read now where they were not read before. -/
def State.partBytes (s : State) (l : List LoadPart) : List Byte := l.flatMap (fun q => q.bytes.getD (s.readBytes q.addr q.len))

/-- The effect of a pop beyond its value: the slot moves on, and what was not fetched is read now. -/
def State.popped (s : State) (n : Nat) : State :=
  let x := s.slot n
  let s1 := if (x.held 0).any (fun q => q.bytes.isSome) then s else s.spend x.addr
  (s1.setSlot n x.next).countBytes s.cur 0 x.addr 64
/-- A pop (R209): the next vector of a slot; an eager processor reads what is not fetched. -/
def popSlot (n : Nat) (s : State) : Res Nat :=
  let x := s.slot n
  let a := x.addr
  if x.push then .trap codeStream (streamDetail 3 n)
  else if x.done then .trap codeStream (streamDetail 1 n)
  else if !s.vecOk a 64 then .trap codeBadaddr (wNat a)
  else
    let parts := x.held 0
    let left := partsLeft parts
    match x.lost.find? (fun q => q.1 == a) with
    | some q => .trap q.2 (wNat a)
    | none =>
    if left != [] && s.mustWait [a] 64 .rlx .self then .wait
    else match s.firstFault left with
      | some (c, f) => .trap c (wNat f)
      | none => if left != [] && !s.eager then .wait else .ok (leNat (s.partBytes parts)) (s.popped n)

/-- The store of some bytes of a range, piece by piece. -/
def storeCells (a n : Nat) (cells : List Host.Cell) (slot : Option (BitVec 2)) : Access :=
  let ps := ((pieces a n).map (fun q => cells.filter (fun c => decide (q.1 ≤ c.1 ∧ c.1 < q.1 + q.2)))).filter (fun l => l != [])
  ⟨.store, a, n, ps, false, .rlx, .self, false, slot, true, false, false, 0, 0⟩
/-- A push (R209): the bytes given are stored at the slot's position, which moves on. -/
def pushSlot (n : Nat) (bytes : List (Option Byte)) (s : State) : Res Unit :=
  let x := s.slot n
  let a := x.addr
  if !x.push then .trap codeStream (streamDetail 3 n)
  else if x.done then .trap codeStream (streamDetail 2 n)
  else if !s.vecOk a 64 then .trap codeBadaddr (wNat a)
  else
    let cells := (List.range 64).filterMap (fun i => (bytes.getD i none).map (fun b => ((a + i), b)))
    let s1 := s.setSlot n x.next
    .ok () (if cells = [] then s1
      else (s1.issueAccess (storeCells a 64 cells (some (BitVec.ofNat 2 n)))).countBytes s.cur 1 a cells.length)

/-! ## Reading and writing vector registers -/

/-- The slots that sources name, each once. -/
def State.slotsOf (s : State) (rs : List VReg) : List Nat := (rs.filterMap s.boundSlot).dedup
/-- The pops of the slots named, in order. -/
def popAll : List Nat → State → Res (List (Nat × Nat))
  | [], s => .ok [] s
  | n :: r, s => resBind (popSlot n s) fun x s => resBind (popAll r s) fun l s => .ok ((n, x) :: l) s
/-- The bits of vector registers, a bound one replaced by the vector it pops. -/
def readVecs (rs : List VReg) (s : State) : Res (List Nat) :=
  let bound := rs.map s.boundSlot
  let vals := rs.map (fun r => (s.rdV r).toNat)
  resBind (popAll (s.slotsOf rs) s) fun l s =>
    .ok (List.zipWith (fun b v => match b with | some n => assoc l n 0 | none => v) bound vals) s

/-! ## STRM (R206, R207) -/

def execScfg (x : OpScfg) (s : State) : Out :=
  guarded x.q 8 s fun s =>
    let n := x.slot.toNat
    if !ptrOk (s.rdA x.a) then trapAt codeBadaddr (s.rdA x.a) 8 s
    else if (s.slot n).isBound then trapAt codeStream (streamDetail 5 n) 8 s
    else
      let y := { Stream.empty with base := s.rdA x.a, bound := Vector.replicate 4 1, configured := true, push := x.push }
      complete 8 ((s.setSlot n y).count 0 7 1)
def execSdim (x : OpSdim) (s : State) : Out :=
  guarded x.q 8 s fun s =>
    let n := x.slot.toNat
    let y := s.slot n
    if y.isBound then trapAt codeStream (streamDetail 5 n) 8 s
    else if decide (2 ^ 32 ≤ (s.rdG x.bound).toNat) || sI (s.rdG x.stride) < -2 ^ 31 || sI (s.rdG x.stride) ≥ 2 ^ 31 then
      trapAt codeStream (streamDetail 6 n) 8 s
    else
      let bd := vset y.bound x.dim.toNat ((s.rdG x.bound).setWidth 32)
      let st := vset y.stride x.dim.toNat ((s.rdG x.stride).setWidth 32)
      complete 8 ((s.setSlot n { y with bound := bd, stride := st }).count 0 7 1)
def execSon (x : OpSlot) (s : State) : Out :=
  guarded x.q 8 s fun s =>
    let n := x.slot.toNat
    if (s.slot n).configured then complete 8 ((s.setSlot n { s.slot n with isBound := true }).count 0 7 1)
    else trapAt codeStream (streamDetail 4 n) 8 s
def execSoff (x : OpSlot) (s : State) : Out :=
  guarded x.q 8 s fun s =>
    let n := x.slot.toNat
    complete 8 ((s.setSlot n { s.slot n with isBound := false, ahead := [], lost := [] }).count 0 7 1)

/-- An eager processor performs and acknowledges its own accesses; another waits for their steps. -/
def State.settledAcks (s : State) : State := if s.eager then (s.drain s.cur).ackAll s.cur else s
def Access.ofSlot (n : BitVec 2) (a : Access) : Bool := a.slot == some n
def execSwait (x : OpSlot) (s : State) : Out :=
  guarded x.q 8 s fun s =>
    let s1 := s.settledAcks
    if s1.allAcked s.cur (Access.ofSlot x.slot) then complete 8 (s1.count 0 7 1) else stay .other 0 s1

/-! ## VMEM (R202–R205) -/

/-- A VMEM d field that names a bound stream register (R209). -/
def dField (r : VReg) (s : State) (k : State → Out) : Out :=
  match s.boundSlot r with
  | some n => trapAt codeStream (streamDetail 3 n) 8 s
  | none => k s
/-- The checks of R204 on every address before any access. -/
def vmemChecked (m : MemOp) (as_ : List Nat) (n : Nat) (aligned : Bool) (s : State) (k : State → Out) : Out :=
  if !ptrOk (s.rdA m.ab) then trapAt codeBadaddr (s.rdA m.ab) 8 s
  else match as_.find? (fun a => !s.vecOk a n) with
    | some a => trapAt codeBadaddr (wNat a) 8 s
    | none =>
      match (if aligned then as_.find? (fun a => a % n != 0) else none) with
      | some a => trapAt codeAlign (wNat a) 8 s
      | none => k s

/-- The element addresses of VLDS and VSTS (R203). -/
def State.strided (s : State) (m : MemOp) (asz : Asz) : List Nat :=
  (List.range (64 / asz.bytes)).map fun (i : Nat) =>
    addr53 ((ptrAddr (s.rdA m.ab) : Int) + m.off.toInt + (i : Int) * sI (s.rdG m.ix) * (m.isc.factor asz : Int))
/-- The element addresses of VGATH and VSCAT from the indices' bits (R203). -/
def State.gathered (s : State) (m : MemOp) (asz : Asz) (u : Nat) : List Nat :=
  (List.range (64 / asz.bytes)).map fun (i : Nat) => addr53 ((s.ea m asz : Int) + ((fld u (8 * asz.bytes * i) (8 * asz.bytes) * asz.bytes : Nat) : Int))

/-- Stores of one element of `n` bytes at each address, in lane order. -/
def State.storeLanes (s : State) (n x : Nat) (ord : Ord) (sco : Scope) : Nat → List Nat → State
  | _, [] => s
  | i, a :: r =>
    ((s.issueAccess { storeOf a n (fld x (8 * n * i) (8 * n)) ord sco with vec := true }).countBytes s.cur 1 a n).storeLanes n x ord sco (i + 1) r

/-- A vector load of `n` bytes at each address; `fin` is what else completes with it. -/
def loadVec (x : OpVmem) (as_ : List Nat) (aligned : Bool) (fin : State → State) (s : State) : Out :=
  vmemChecked x.m as_ x.asz.bytes aligned s fun s =>
    reading as_ x.asz.bytes x.ord x.sco none 8 s fun bytes s =>
      complete 8 (((fin s).wrV x.d (BitVec.ofNat 512 (leNat bytes))).count 0 7 1)
def storeVec (x : OpVmem) (as_ : List Nat) (aligned : Bool) (fin : State → State) (s : State) : Out :=
  vmemChecked x.m as_ x.asz.bytes aligned s fun s =>
    complete 8 (((fin s).storeLanes x.asz.bytes (s.rdV x.d).toNat x.ord x.sco 0 as_).count 0 7 1)
/-- The indices of VGATH and VSCAT: v[d + 1], popped when it is a bound stream register; the pop takes effect at `fin`. -/
def indexed (x : OpVmem) (s : State) (k : Nat → (State → State) → State → Out) : Out :=
  let slots := s.slotsOf [x.d + 1]
  match readVecs [x.d + 1] s with
  | .ok l _ => k (l.headD 0) (fun u => slots.foldl (fun u n => u.popped n) u) s
  | .trap c d => raise c d 8 s
  | .wait => stay .other 0 s.settled

def execVld (x : OpVmem) (s : State) : Out :=
  guarded x.q 8 s fun s => dField x.d s fun s => loadVec x [s.ea x.m x.asz] false id s
def execVst (x : OpVmem) (s : State) : Out :=
  guarded x.q 8 s fun s => dField x.d s fun s => storeVec x [s.ea x.m x.asz] false id s
def execVlds (x : OpVmem) (s : State) : Out :=
  guarded x.q 8 s fun s => dField x.d s fun s => loadVec x (s.strided x.m x.asz) true id s
def execVsts (x : OpVmem) (s : State) : Out :=
  guarded x.q 8 s fun s => dField x.d s fun s => storeVec x (s.strided x.m x.asz) true id s
def execVgath (x : OpVmem) (s : State) : Out :=
  guarded x.q 8 s fun s => dField x.d s fun s => indexed x s fun u fin s => loadVec x (s.gathered x.m x.asz u) true fin s
def execVscat (x : OpVmem) (s : State) : Out :=
  guarded x.q 8 s fun s => dField x.d s fun s => indexed x s fun u fin s => storeVec x (s.gathered x.m x.asz u) true fin s
def execVldk (x : OpVldk) (s : State) : Out :=
  guarded x.q 8 s fun s =>
    let a := s.ea x.m .v
    vmemChecked x.m [a] 64 false s fun s =>
      reading [a] 64 .rlx .self none 8 s fun bytes s =>
        let s1 := { s with tile := { s.tile with kbank := vset s.tile.kbank x.n.toNat (BitVec.ofNat 512 (leNat bytes)) } }
        complete 8 (s1.count 0 7 1)

/-! ## LOAD (R220) -/

/-- A piece of a pop stream's vector is fetched before its pop (R207, R209). -/
def State.fetchAhead (s : State) (lcid n k i : Nat) : State :=
  let t := s.getTile lcid
  let x := vget t.streams n Stream.empty
  let y := x.nexts k
  let l := x.held k
  match l[i]? with
  | none => s
  | some q =>
    let p := ProcId.main lcid
    if x.isBound = false ∨ x.push ∨ y.done ∨ s.vecOk y.addr 64 = false ∨ q.bytes.isSome ∨ s.heldBack p q.base q.size .rlx .self
      ∨ s.messageOpen (paidPiece l q) q.addr = false ∨ s.readFault p q.addr q.len ≠ none ∨ (s.getCore p).running = false then s
    else
      let l' := setAt l i { q with bytes := some (s.bytesFor p q.addr q.len) }
      (s.payPiece l q).setTile lcid { t with streams := vset t.streams n { x with ahead := assocSet x.ahead k l' } }
def execLoadStep (x : EvLoad) (s : State) : Out :=
  match x.sel with
  | .piece k => .next (s.loadPiece x.p k)
  | .late j k =>
    match lateStep j k (s.focus x.p) with
    | .next t => .next (t.focus s.cur)
    | r => r
  | .stream slot k i =>
    match x.p with
    | .main lcid => .next (s.fetchAhead lcid slot.toNat k i)
    | _ => .next s

end Sys2Proof.Machine
end

