-- ==== Sys2Proof/Machine/Vector.lean ====
section
/-!
DEFINITION. Majors 0x10 to 0x16: what the vector instructions read and write (R179–R201). `doX` is the effect of one issue of X, which
the repeat sequencer shares; `execX` is the instruction.
-/
namespace Sys2Proof.Machine
open Sys2Proof

/-! ## Sources (R112, R180) -/

/-- A value in every lane; for b1, its lowest bit in all 512. -/
def spread (et : Fmt) (x : Nat) : Nat :=
  if et = .raw then (if x % 2 = 1 then 2 ^ 512 - 1 else 0) else packLanes et.width (List.replicate et.lanes x)
/-- The code of a literal in et. -/
def literalCode (et : Fmt) (n : Int) : Nat :=
  if et = .raw ∨ et.isI then intCode et.width n else (fpOf et).code (ofInt n)
/-- The vector registers that sources name. -/
def srcRegs (l : List Src) : List VReg := l.filterMap (fun x => match x with | .v r => some r | _ => none)
/-- The bits a source reads as, given what its vector registers read. -/
def State.srcBits (s : State) (et : Fmt) (vs : List (VReg × Nat)) (x : Src) : Nat :=
  match x with
  | .v r => assoc vs r 0
  | .g r => spread et ((s.rdG r).toNat % 2 ^ et.width)
  | .k n => (vget s.tile.kbank n.toNat 0).toNat
  | .i n => spread et (literalCode et n.toInt)
/-- The sources of one issue, each vector register read once. -/
def sources (et : Fmt) (l : List Src) (s : State) (k : List Nat → State → Res Unit) : Res Unit :=
  resBind (readVecs (srcRegs l) s) fun vs s => k (l.map (s.srcBits et ((srcRegs l).zip vs))) s
/-- A lane index or another number from a source of kind g or i (R193, R196). -/
def State.srcNum (s : State) (x : Src) : Nat :=
  match x with
  | .g r => (s.rdG r).toNat
  | .i n => (sext64 n).toNat
  | _ => 0
/-- What an instruction computes under. -/
def State.ctl (s : State) (et : Fmt) (rm : Rm) (wm : WReg) : Ctl :=
  ⟨et, resolveRm s.core.fpctl rm, s.core.fpctl.getLsbD 3, s.core.fpctl.getLsbD 4, s.core.seed,
    if et = .raw then none else some (s.rdW wm)⟩

/-! ## Results -/

/-- Flags are sticky (R67). -/
def State.addFlags (s : State) (f : FlagSet) : State := { s with core := { s.core with fpflags := s.core.fpflags ||| f } }
/-- An instruction that rounds in rsr mode consumes its pieces (R96). -/
def State.draw (s : State) (rm : Rm) (n : Nat) : State :=
  if rm = .rsr ∧ n ≠ 0 then { s with core := { s.core with seed := seedNext s.core.seed n } } else s
/-- The bytes a push stores: those of written lanes; half a byte keeps its other half, and eight lanes of et 0, which no mask covers,
make a byte. -/
def pushBytes (f : Fmt) (r : LaneRes) (old : Nat → Byte) : List (Option Byte) :=
  (List.range 64).map fun i =>
    if f.width = 1 then some (BitVec.ofNat 8 ((List.range 8).foldl (fun b j => b + laneAt r.lanes (8 * i + j) % 2 * 2 ^ j) 0))
    else if f.width = 4 then
      let lo := r.written.getD (2 * i) false
      let hi := r.written.getD (2 * i + 1) false
      if lo || hi then
        some (BitVec.ofNat 8 ((if lo then laneAt r.lanes (2 * i) else (old i).toNat) % 16
          + 16 * (if hi then laneAt r.lanes (2 * i + 1) else (old i).toNat / 16)))
      else none
    else
      let k := 8 * i / f.width
      if r.written.getD k false then some (BitVec.ofNat 8 (laneAt r.lanes k / 2 ^ (8 * i % f.width))) else none
/-- Whether a push stores half a byte, so that it needs the byte's home value. -/
def halfByte (f : Fmt) (r : LaneRes) : Bool :=
  f.width == 4 && (List.range 64).any (fun i => r.written.getD (2 * i) false != r.written.getD (2 * i + 1) false)
/-- A vector result: the register or the push stream bound to it, the flags and the random stream. -/
def deliver (d : VReg) (out : Fmt) (c : Ctl) (r : LaneRes) (s : State) : Res Unit :=
  let fin (t : State) : State := (t.addFlags r.flags).draw c.rm r.draws
  match s.boundSlot d with
  | none => .ok () (fin (s.wrV d (vecOf out r.lanes)))
  | some n =>
    let x := s.slot n
    if halfByte out r && s.mustWait [x.addr] 64 .rlx .self then .wait
    else resBind (pushSlot n (pushBytes out r (fun i => s.byteAt (x.addr + i))) s) fun _ t => .ok () (fin t)

/-! ## Shapes of effect -/

/-- One source: a result from its bits and the destination's old bits. -/
def vec1 (f : Ctl → Nat → Nat → LaneRes) (x : OpV1) (s : State) : Res Unit :=
  sources x.et [x.a] s fun l s =>
    let c := s.ctl x.et x.rm x.wm
    deliver x.d x.et c (f c (laneAt l 0) (s.rdV x.d).toNat) s
/-- Two sources. -/
def vec2 (f : Ctl → Nat → Nat → Nat → LaneRes) (x : OpV2) (s : State) : Res Unit :=
  sources x.et [x.a, x.b] s fun l s =>
    let c := s.ctl x.et x.rm x.wm
    deliver x.d x.et c (f c (laneAt l 0) (laneAt l 1) (s.rdV x.d).toNat) s
/-- Three sources. -/
def vec3 (f : Ctl → Nat → Nat → Nat → Nat → LaneRes) (x : OpV3) (s : State) : Res Unit :=
  sources x.et [x.a, x.b, x.c] s fun l s =>
    let c := s.ctl x.et x.rm x.wm
    deliver x.d x.et c (f c (laneAt l 0) (laneAt l 1) (laneAt l 2) (s.rdV x.d).toNat) s
/-- A vector source and a number from the second (R193). -/
def vecIdx (f : Ctl → Nat → Nat → Nat → LaneRes) (x : OpV2) (s : State) : Res Unit :=
  let n := s.srcNum x.b
  sources x.et [x.a] s fun l s =>
    let c := s.ctl x.et x.rm x.wm
    deliver x.d x.et c (f c (laneAt l 0) n (s.rdV x.d).toNat) s
/-- Two sources and a mask result. -/
def vecMask (f : Ctl → Nat → Nat → MaskWord × FlagSet) (x : OpWV2) (s : State) : Res Unit :=
  sources x.et [x.a, x.b] s fun l s =>
    let r := f (s.ctl x.et .rne x.wm) (laneAt l 0) (laneAt l 1)
    .ok () ((s.wrW x.d r.1).addFlags r.2)
/-- A lane-wise operation of one, two and three sources. -/
def lane1 (op : Ctl → LaneOp) (rounds : Bool) : OpV1 → State → Res Unit := vec1 fun c a old => lanewise c (op c) rounds a 0 0 old
def lane2 (op : Ctl → LaneOp) (rounds : Bool) : OpV2 → State → Res Unit := vec2 fun c a b old => lanewise c (op c) rounds a b 0 old
def lane3 (op : Ctl → LaneOp) (rounds : Bool) : OpV3 → State → Res Unit :=
  vec3 fun c a b d old => lanewise c (op c) rounds a b d old
/-- The instruction from the effect of one issue. -/
def vecRun (q : Guard) (f : State → Res Unit) (s : State) : Out := guarded q 8 s fun s => vecEnd s (f s)

/-! ## VFP (R183) -/

def doVadd (x : OpV2) (s : State) : Res Unit := lane2 opVadd true x s
def execVadd (x : OpV2) (s : State) : Out := vecRun x.q (doVadd x) s
def doVsub (x : OpV2) (s : State) : Res Unit := lane2 opVsub true x s
def execVsub (x : OpV2) (s : State) : Out := vecRun x.q (doVsub x) s
def doVmul (x : OpV2) (s : State) : Res Unit := lane2 opVmul true x s
def execVmul (x : OpV2) (s : State) : Out := vecRun x.q (doVmul x) s
def doVfma (x : OpV3) (s : State) : Res Unit := lane3 (opFused false false) true x s
def execVfma (x : OpV3) (s : State) : Out := vecRun x.q (doVfma x) s
def doVfms (x : OpV3) (s : State) : Res Unit := lane3 (opFused false true) true x s
def execVfms (x : OpV3) (s : State) : Out := vecRun x.q (doVfms x) s
def doVfnma (x : OpV3) (s : State) : Res Unit := lane3 (opFused true false) true x s
def execVfnma (x : OpV3) (s : State) : Out := vecRun x.q (doVfnma x) s
def doVmin (x : OpV2) (s : State) : Res Unit := lane2 opVmin false x s
def execVmin (x : OpV2) (s : State) : Out := vecRun x.q (doVmin x) s
def doVmax (x : OpV2) (s : State) : Res Unit := lane2 opVmax false x s
def execVmax (x : OpV2) (s : State) : Out := vecRun x.q (doVmax x) s
def doVabs (x : OpV1) (s : State) : Res Unit := lane1 opVabs false x s
def execVabs (x : OpV1) (s : State) : Out := vecRun x.q (doVabs x) s
def doVneg (x : OpV1) (s : State) : Res Unit := lane1 opVneg false x s
def execVneg (x : OpV1) (s : State) : Out := vecRun x.q (doVneg x) s
def doVdiv (x : OpV2) (s : State) : Res Unit := lane2 opVdiv true x s
def execVdiv (x : OpV2) (s : State) : Out := vecRun x.q (doVdiv x) s
def doVsqrt (x : OpV1) (s : State) : Res Unit := lane1 opVsqrt true x s
def execVsqrt (x : OpV1) (s : State) : Out := vecRun x.q (doVsqrt x) s
def doVscl (x : OpV2) (s : State) : Res Unit := lane2 opVscl true x s
def execVscl (x : OpV2) (s : State) : Out := vecRun x.q (doVscl x) s
/-! ## VINT (R184) -/

def doViadd (x : OpV2) (s : State) : Res Unit := lane2 (fun c => opInt c (fun a b => a + b)) false x s
def execViadd (x : OpV2) (s : State) : Out := vecRun x.q (doViadd x) s
def doVisub (x : OpV2) (s : State) : Res Unit := lane2 (fun c => opInt c (fun a b => a - b)) false x s
def execVisub (x : OpV2) (s : State) : Out := vecRun x.q (doVisub x) s
def doVimul (x : OpV2) (s : State) : Res Unit := lane2 (fun c => opInt c (fun a b => a * b)) false x s
def execVimul (x : OpV2) (s : State) : Out := vecRun x.q (doVimul x) s
def doVimulhi (x : OpV2) (s : State) : Res Unit := lane2 opVimulhi false x s
def execVimulhi (x : OpV2) (s : State) : Out := vecRun x.q (doVimulhi x) s
def doVimin (x : OpV2) (s : State) : Res Unit := lane2 opVimin false x s
def execVimin (x : OpV2) (s : State) : Out := vecRun x.q (doVimin x) s
def doVimax (x : OpV2) (s : State) : Res Unit := lane2 opVimax false x s
def execVimax (x : OpV2) (s : State) : Out := vecRun x.q (doVimax x) s
def doVand (x : OpV2) (s : State) : Res Unit := lane2 (fun _ => opBits (fun a b => a &&& b)) false x s
def execVand (x : OpV2) (s : State) : Out := vecRun x.q (doVand x) s
def doVor (x : OpV2) (s : State) : Res Unit := lane2 (fun _ => opBits (fun a b => a ||| b)) false x s
def execVor (x : OpV2) (s : State) : Out := vecRun x.q (doVor x) s
def doVxor (x : OpV2) (s : State) : Res Unit := lane2 (fun _ => opBits (fun a b => a ^^^ b)) false x s
def execVxor (x : OpV2) (s : State) : Out := vecRun x.q (doVxor x) s
def doVshl (x : OpV2) (s : State) : Res Unit := lane2 opVshl false x s
def execVshl (x : OpV2) (s : State) : Out := vecRun x.q (doVshl x) s
def doVshr (x : OpV2) (s : State) : Res Unit := lane2 opVshr false x s
def execVshr (x : OpV2) (s : State) : Out := vecRun x.q (doVshr x) s
def doVshra (x : OpV2) (s : State) : Res Unit := lane2 opVshra false x s
def execVshra (x : OpV2) (s : State) : Out := vecRun x.q (doVshra x) s
def doVpopc (x : OpV1) (s : State) : Res Unit := lane1 opVpopc false x s
def execVpopc (x : OpV1) (s : State) : Out := vecRun x.q (doVpopc x) s
def doViadds (x : OpV2) (s : State) : Res Unit := lane2 opViadds false x s
def execViadds (x : OpV2) (s : State) : Out := vecRun x.q (doViadds x) s
/-! ## VCMP (R185–R188) -/

def doVcmpeq (x : OpWV2) (s : State) : Res Unit := vecMask (fun c a b => compareMask c .eq a b) x s
def execVcmpeq (x : OpWV2) (s : State) : Out := vecRun x.q (doVcmpeq x) s
def doVcmplt (x : OpWV2) (s : State) : Res Unit := vecMask (fun c a b => compareMask c .lt a b) x s
def execVcmplt (x : OpWV2) (s : State) : Out := vecRun x.q (doVcmplt x) s
def doVcmple (x : OpWV2) (s : State) : Res Unit := vecMask (fun c a b => compareMask c .le a b) x s
def execVcmple (x : OpWV2) (s : State) : Out := vecRun x.q (doVcmple x) s
def doVclass (x : OpV1) (s : State) : Res Unit := lane1 classOfLane false x s
def execVclass (x : OpV1) (s : State) : Out := vecRun x.q (doVclass x) s
def doVsel (x : OpV2) (s : State) : Res Unit := vec2 (fun c a b _ => vselRes c a b) x s
def execVsel (x : OpV2) (s : State) : Out := vecRun x.q (doVsel x) s
def doWand (x : OpWWW) (s : State) : Res Unit := .ok () (s.wrW x.d (s.rdW x.a &&& s.rdW x.b))
def execWand (x : OpWWW) (s : State) : Out := vecRun x.q (doWand x) s
def doWor (x : OpWWW) (s : State) : Res Unit := .ok () (s.wrW x.d (s.rdW x.a ||| s.rdW x.b))
def execWor (x : OpWWW) (s : State) : Out := vecRun x.q (doWor x) s
def doWnot (x : OpWW) (s : State) : Res Unit := .ok () (s.wrW x.d (~~~ s.rdW x.a))
def execWnot (x : OpWW) (s : State) : Out := vecRun x.q (doWnot x) s
/-! ## VSF (R189, R190) -/

def doVexp2 (x : OpV1) (s : State) : Res Unit := lane1 (fun c => opSpecial c 0) false x s
def execVexp2 (x : OpV1) (s : State) : Out := vecRun x.q (doVexp2 x) s
def doVlog2 (x : OpV1) (s : State) : Res Unit := lane1 (fun c => opSpecial c 1) false x s
def execVlog2 (x : OpV1) (s : State) : Out := vecRun x.q (doVlog2 x) s
def doVrcp (x : OpV1) (s : State) : Res Unit := lane1 (fun c => opSpecial c 2) false x s
def execVrcp (x : OpV1) (s : State) : Out := vecRun x.q (doVrcp x) s
def doVrsq (x : OpV1) (s : State) : Res Unit := lane1 (fun c => opSpecial c 3) false x s
def execVrsq (x : OpV1) (s : State) : Out := vecRun x.q (doVrsq x) s
def doVtanh (x : OpV1) (s : State) : Res Unit := lane1 (fun c => opSpecial c 4) false x s
def execVtanh (x : OpV1) (s : State) : Out := vecRun x.q (doVtanh x) s
def doVsigm (x : OpV1) (s : State) : Res Unit := lane1 (fun c => opSpecial c 5) false x s
def execVsigm (x : OpV1) (s : State) : Out := vecRun x.q (doVsigm x) s
/-! ## VRED (R191, R192) -/

def doVrsum (x : OpV1) (s : State) : Res Unit := vec1 (fun c a _ => reduce c .add a) x s
def execVrsum (x : OpV1) (s : State) : Out := vecRun x.q (doVrsum x) s
def doVrmax (x : OpV1) (s : State) : Res Unit := vec1 (fun c a _ => reduce c .max a) x s
def execVrmax (x : OpV1) (s : State) : Out := vecRun x.q (doVrmax x) s
def doVrmin (x : OpV1) (s : State) : Res Unit := vec1 (fun c a _ => reduce c .min a) x s
def execVrmin (x : OpV1) (s : State) : Out := vecRun x.q (doVrmin x) s
def doVrdot (x : OpV2) (s : State) : Res Unit := vec2 (fun c a b _ => reduceDot c a b) x s
def execVrdot (x : OpV2) (s : State) : Out := vecRun x.q (doVrdot x) s
/-- The operation VSCAN's vx names. -/
def scanOp (n : BitVec 2) : RedOp := match n.toNat with | 0 => .add | 1 => .max | 2 => .min | _ => .or
def doVscan (x : OpScan) (s : State) : Res Unit := vec1 (fun c a _ => scan c (scanOp x.op) a) ⟨x.q, x.d, x.a, x.et, x.rm, x.wm⟩ s
def execVscan (x : OpScan) (s : State) : Out := vecRun x.q (doVscan x) s
/-! ## VPERM (R193–R197) -/

def doVmov (x : OpV1) (s : State) : Res Unit := lane1 (fun _ _ a _ _ => (a, 0)) false x s
def execVmov (x : OpV1) (s : State) : Out := vecRun x.q (doVmov x) s
def doVbcast (x : OpV2) (s : State) : Res Unit := vecIdx bcastRes x s
def execVbcast (x : OpV2) (s : State) : Out := vecRun x.q (doVbcast x) s
def doVshuf (x : OpV2) (s : State) : Res Unit := vec2 shufRes x s
def execVshuf (x : OpV2) (s : State) : Out := vecRun x.q (doVshuf x) s
def doVrot (x : OpV2) (s : State) : Res Unit := vecIdx rotRes x s
def execVrot (x : OpV2) (s : State) : Out := vecRun x.q (doVrot x) s
/-- The low L bits of a mask. -/
def maskLanes (et : Fmt) (w : MaskWord) : List Bool := (List.range et.lanes).map w.getLsbD
def doVextr (x : OpExtr) (s : State) : Res Unit :=
  match x.mode with
  | .lane a b =>
    let n := s.srcNum b
    sources x.et [a] s fun l s =>
      let v := laneAt (x.et.lanesIn (laneAt l 0)) (n % x.et.lanes)
      .ok () (s.wrG x.d (wInt (intVal x.et.isSigned x.et.width v)))
  | .count => .ok () (s.wrG x.d (wNat ((maskLanes x.et (s.rdW x.wm)).filter id).length))
  | .first => .ok () (s.wrG x.d (wNat ((maskLanes x.et (s.rdW x.wm)).findIdx id)))
def execVextr (x : OpExtr) (s : State) : Out := vecRun x.q (doVextr x) s
def doVinsr (x : OpInsr) (s : State) : Res Unit :=
  let c := s.ctl x.et .rne 0
  deliver x.d x.et c (insrRes c (s.rdG x.a).toNat (s.srcNum x.b) (s.rdV x.d).toNat) s
def execVinsr (x : OpInsr) (s : State) : Out := vecRun x.q (doVinsr x) s
def doVcompress (x : OpV1) (s : State) : Res Unit := vec1 (fun c a _ => compressRes c a) x s
def execVcompress (x : OpV1) (s : State) : Out := vecRun x.q (doVcompress x) s
def doVexpand (x : OpV1) (s : State) : Res Unit := vec1 (fun c a _ => expandRes c a) x s
def execVexpand (x : OpV1) (s : State) : Out := vecRun x.q (doVexpand x) s
def doVcswap (x : OpV3) (s : State) : Res Unit :=
  let n := s.srcNum x.b
  let b := s.srcNum x.c
  let c := s.ctl x.et x.rm x.wm
  resBind (sources x.et [x.a] s fun l s => deliver x.d x.et c (cswapRes c (laneAt l 0) n b) s) fun _ t =>
    if cswapOk c n b then .ok () t else .trap codeIllegal (wNat ((Instr.vcswap x).encode.headD 0))
def execVcswap (x : OpV3) (s : State) : Out := vecRun x.q (doVcswap x) s
def doVmatch (x : OpWV2) (s : State) : Res Unit := vecMask (fun c a b => (matchMask c a b, 0)) x s
def execVmatch (x : OpWV2) (s : State) : Out := vecRun x.q (doVmatch x) s
/-! ## VCVT (R198–R201) -/

def doVcvt (x : OpCvt) (s : State) : Res Unit :=
  sources x.src [x.a] s fun l s =>
    let c := s.ctl x.et x.rm x.wm
    deliver x.d x.et c (cvtRes c x.src x.part.toInt.toNat (laneAt l 0) (s.rdV x.d).toNat) s
def execVcvt (x : OpCvt) (s : State) : Out := vecRun x.q (doVcvt x) s
/-- The band scale of VQUANT and VDEQ; none for the MX form. -/
def State.bandScale (s : State) (f : QuantFmt) : Option (BitVec 16) :=
  match f with
  | .fp4 r => some ((s.rdG r).setWidth 16)
  | .mx => none
/-- An unmasked result of bytes or bf16 lanes. -/
def quantVec (f : Ctl → Option (BitVec 16) → Nat → LaneRes) (out : Fmt) (x : OpQuant) (s : State) : Res Unit :=
  sources .bf16 [x.a] s fun l s =>
    let c := s.ctl out x.rm 0
    deliver x.d out c (f c (s.bandScale x.fmt) (laneAt l 0)) s
def doVquant (x : OpQuant) (s : State) : Res Unit := quantVec quantRes .n8 x s
def execVquant (x : OpQuant) (s : State) : Out := vecRun x.q (doVquant x) s
def doVdeq (x : OpQuant) (s : State) : Res Unit := quantVec deqRes .bf16 x s
def execVdeq (x : OpQuant) (s : State) : Out := vecRun x.q (doVdeq x) s
def doVpack (x : OpPack) (s : State) : Res Unit :=
  sources x.et [x.a, x.b] s fun l s =>
    let c := s.ctl x.et .rne 0
    deliver x.d x.et c (packRes c x.sat (laneAt l 0) (laneAt l 1)) s
def execVpack (x : OpPack) (s : State) : Out := vecRun x.q (doVpack x) s
def doVunpack (x : OpUnpack) (s : State) : Res Unit :=
  sources x.et [x.a] s fun l s =>
    let c := s.ctl x.et .rne 0
    deliver x.d x.et c (unpackRes c x.half (laneAt l 0)) s
def execVunpack (x : OpUnpack) (s : State) : Out := vecRun x.q (doVunpack x) s

/-! ## One issue of a captured instruction (R212, R213) -/

/-- The guard and the effect of an instruction of majors 0x10–0x16. -/
def passOf (i : Instr) : Option (Guard × (State → Res Unit)) :=
  match i with
  | .vadd x => some (x.q, doVadd x)
  | .vsub x => some (x.q, doVsub x)
  | .vmul x => some (x.q, doVmul x)
  | .vfma x => some (x.q, doVfma x)
  | .vfms x => some (x.q, doVfms x)
  | .vfnma x => some (x.q, doVfnma x)
  | .vmin x => some (x.q, doVmin x)
  | .vmax x => some (x.q, doVmax x)
  | .vabs x => some (x.q, doVabs x)
  | .vneg x => some (x.q, doVneg x)
  | .vdiv x => some (x.q, doVdiv x)
  | .vsqrt x => some (x.q, doVsqrt x)
  | .vscl x => some (x.q, doVscl x)
  | .viadd x => some (x.q, doViadd x)
  | .visub x => some (x.q, doVisub x)
  | .vimul x => some (x.q, doVimul x)
  | .vimulhi x => some (x.q, doVimulhi x)
  | .vimin x => some (x.q, doVimin x)
  | .vimax x => some (x.q, doVimax x)
  | .vand x => some (x.q, doVand x)
  | .vor x => some (x.q, doVor x)
  | .vxor x => some (x.q, doVxor x)
  | .vshl x => some (x.q, doVshl x)
  | .vshr x => some (x.q, doVshr x)
  | .vshra x => some (x.q, doVshra x)
  | .vpopc x => some (x.q, doVpopc x)
  | .viadds x => some (x.q, doViadds x)
  | .vcmpeq x => some (x.q, doVcmpeq x)
  | .vcmplt x => some (x.q, doVcmplt x)
  | .vcmple x => some (x.q, doVcmple x)
  | .vclass x => some (x.q, doVclass x)
  | .vsel x => some (x.q, doVsel x)
  | .wand x => some (x.q, doWand x)
  | .wor x => some (x.q, doWor x)
  | .wnot x => some (x.q, doWnot x)
  | .vexp2 x => some (x.q, doVexp2 x)
  | .vlog2 x => some (x.q, doVlog2 x)
  | .vrcp x => some (x.q, doVrcp x)
  | .vrsq x => some (x.q, doVrsq x)
  | .vtanh x => some (x.q, doVtanh x)
  | .vsigm x => some (x.q, doVsigm x)
  | .vrsum x => some (x.q, doVrsum x)
  | .vrmax x => some (x.q, doVrmax x)
  | .vrmin x => some (x.q, doVrmin x)
  | .vrdot x => some (x.q, doVrdot x)
  | .vscan x => some (x.q, doVscan x)
  | .vmov x => some (x.q, doVmov x)
  | .vbcast x => some (x.q, doVbcast x)
  | .vshuf x => some (x.q, doVshuf x)
  | .vrot x => some (x.q, doVrot x)
  | .vextr x => some (x.q, doVextr x)
  | .vinsr x => some (x.q, doVinsr x)
  | .vcompress x => some (x.q, doVcompress x)
  | .vexpand x => some (x.q, doVexpand x)
  | .vcswap x => some (x.q, doVcswap x)
  | .vmatch x => some (x.q, doVmatch x)
  | .vcvt x => some (x.q, doVcvt x)
  | .vquant x => some (x.q, doVquant x)
  | .vdeq x => some (x.q, doVdeq x)
  | .vpack x => some (x.q, doVpack x)
  | .vunpack x => some (x.q, doVunpack x)
  | _ => none

end Sys2Proof.Machine
end

