-- ==== Sys2Proof/Machine/Repeat.lean ====
section
/-!
DEFINITION. The repeat sequencer (R211–R215): REP, REPW, one issue of a pass, what waits while the sequencer is not empty, and the end
of handler entry (R390).
-/
namespace Sys2Proof.Machine
open Sys2Proof

/-! ## REP (R211, R212) -/

def repuseDetail (cause index : Nat) : Word := wNat (cause + index * 2 ^ 8)
/-- The word at an address of the code, zero outside it. -/
def State.wordOrZero (s : State) (a : Nat) : Word := if s.inCode a then s.codeWord a else 0
/-- The first words of the next `n` instructions from an address, each with the word that follows it: a two-word instruction counts as one
(R109). -/
def State.captured (s : State) (a : Nat) : Nat → List (Word × Word)
  | 0 => []
  | n + 1 =>
    let w := s.wordOrZero a
    (w, s.wordOrZero (a + 8)) :: s.captured (a + (if fld w.toNat 62 2 = 1 then 16 else 8)) n
/-- The first of the captured instructions that does not decode as the main core's. -/
def firstBad (l : List (Word × Word)) : Option Word :=
  (l.find? (fun q => match decodeFor .main q.1.toNat q.2.toNat with | .error _ => true | .ok _ => false)).map Prod.fst
/-- Whether a word belongs to majors 0x10–0x16. -/
def isVector (w : Word) : Bool := decide (0x10 ≤ fld w.toNat 56 6 ∧ fld w.toNat 56 6 ≤ 0x16)

def execRep (x : OpRep) (s : State) : Out :=
  let pc := s.core.pc.toNat
  let len := x.lenM1.toNat + 1
  let count := if x.cnt = 0 then x.icnt.toNat else (s.rdG x.cnt).toNat
  let block := s.captured (pc + 8) len
  let ws := block.map Prod.fst
  let le := (vget s.tile.loop.le (s.tile.loop.active - 1) 0).toNat
  if s.tile.rep.count ≠ 0 then stay .sequencer 0 s
  else if 2 ^ 32 ≤ count then trapAt codeRepuse (repuseDetail 3 0) 8 s
  else match firstBad block with
    | some w => trapAt codeIllegal w 8 s
    | none =>
      let bad := ws.findIdx (fun w => !isVector w)
      if bad < len then trapAt codeRepuse (repuseDetail 1 bad) 8 s
      else if s.loopTests && decide (le ≤ pc + 8 * len) then trapAt codeRepuse (repuseDetail 2 ((le - (pc + 8)) / 8)) 8 s
      else
        let r : Repeat := if count = 0 then Repeat.empty else ⟨ws, count, 0, 0, x.stag, wNat (pc + 8), none⟩
        complete (8 + 8 * len) ({ s with core := { s.core with behind := none }, tile := { s.tile with rep := r } }.count 0 7 1)
def execRepw (x : OpN) (s : State) : Out :=
  guarded x.q 8 s fun s => if s.tile.rep.count ≠ 0 then stay .sequencer 0 s else complete 8 (s.count 0 7 1)

/-! ## A pass (R213) -/

/-- A register number moved within its own file. -/
def staggerField (v p : Nat) : Nat := if v < 32 then (v + p) % 32 else if 56 ≤ v then 56 + (v - 56 + p) % 8 else v
/-- A field of a word replaced. -/
def setFld (w lo len v : Nat) : Nat := w / 2 ^ (lo + len) * 2 ^ (lo + len) + v % 2 ^ len * 2 ^ lo + w % 2 ^ lo
/-- A source field, staggered when its kind tag is 0b00. -/
def staggerSrc (w kLo oLo p : Nat) : Nat := if fld w kLo 2 = 0 then setFld w oLo 6 (staggerField (fld w oLo 6) p) else w
/-- A captured word as pass `p` issues it. -/
def staggered (m : BitVec 4) (p w : Nat) : Nat :=
  let p := p % 32
  let w := if m.getLsbD 0 then setFld w 38 6 (staggerField (fld w 38 6) p) else w
  let w := if m.getLsbD 1 then staggerSrc w 36 30 p else w
  let w := if m.getLsbD 2 then staggerSrc w 28 22 p else w
  if m.getLsbD 3 then staggerSrc w 20 14 p else w

def State.setRep (s : State) (r : Repeat) : State := { s with tile := { s.tile with rep := r } }
/-- The sequencer after one issue. -/
def Repeat.advance (r : Repeat) : Repeat :=
  if r.next + 1 < r.words.length then { r with next := r.next + 1 }
  else if r.pass + 1 < r.count then { r with next := 0, pass := r.pass + 1 }
  else Repeat.empty
/-- A fault of a sequenced instruction empties the sequencer (R214). DESIGN CHOICE: the 6-bit field of STREAM's detail holds the low six
bits of the pass number, of which the spec says nothing beyond 63 (log entry 54). -/
def State.repFails (s : State) (code : BitVec 8) (detail : Word) : State :=
  let r := s.tile.rep
  let d := if code = codeStream then detail + wNat (r.pass % 64 * 2 ^ 10) else detail
  s.setRep { Repeat.empty with fault := some ⟨code, d, r.at_ + wNat (8 * r.next)⟩ }
/-- The tile in focus issues the sequencer's next instruction. -/
def State.passIssue (s : State) : State :=
  let r := s.tile.rep
  match r.words[r.next]? with
  | none => s
  | some w =>
    if r.count = 0 then s
    else
      let w' := staggered r.stag r.pass w.toNat
      match decodeFor .main w' 0 with
      | .error _ => s.repFails codeIllegal (wNat w')
      | .ok i =>
        match passOf i with
        | none => s.repFails codeIllegal (wNat w')
        | some (q, f) =>
          if s.guard q then
            match f s with
            | .ok _ t => (((t.setRep t.tile.rep.advance).count 0 0 1).count 0 7 1).progress
            | .trap c d => s.repFails c d
            | .wait => s.settled
          else ((s.setRep r.advance).count 0 0 1).progress
/-- REPEAT_PASS_ISSUE: the sequencer of a tile issues. A sequencer whose core is stopped issues nothing (R215); one that a handler entry
waits for does (R390, R394). -/
def execRepeatPassIssue (x : EvTile) (s : State) : Out :=
  let p := ProcId.main x.lcid
  if (s.getCore p).running && (!s.pastStop p || (s.getTile x.lcid).handler.entering) then .next (((s.focus p).passIssue).focus s.cur) else .next s

/-! ## What waits (R214, R154) -/

/-- The g registers, as unified numbers, and the guard a captured word reads. -/
def capReads (w : Nat) : List Nat :=
  let src (kLo oLo : Nat) : List Nat := if fld w kLo 2 = 1 then [fld w oLo 6] else []
  src 36 30 ++ src 28 22 ++ src 20 14 ++ [48 + fld w 52 3]
/-- The g registers the passes of a captured VEXTR write. -/
def capWrites (m : BitVec 4) (w : Nat) : List Nat :=
  if fld w 56 6 = 0x15 ∧ fld w 44 8 = 4 then (if m.getLsbD 0 then List.range 32 else [fld w 38 6]) else []
/-- Whether an instruction writes a register a captured instruction reads or writes, or reads one it writes. -/
def Repeat.meets (r : Repeat) (i : Instr) : Bool :=
  r.words.any fun c =>
    let writes := Regs.of (capWrites r.stag c.toNat)
    (Instr.writes i &&& (Regs.of (capReads c.toNat) ||| writes)) != Regs.none || (Instr.reads i &&& writes) != Regs.none
/-- Instructions of the vector, matrix and memory pipe (R19), the waits of R68 and R294, and TEND. -/
def pipeWaits (i : Instr) (w : Nat) : Bool :=
  let m := fld w 56 6
  decide (0x10 ≤ m ∧ m ≤ 0x2A) || decide (0x38 ≤ m ∧ m ≤ 0x3B) || (match i with
    | .srr x => x.idx == 0x009
    | .srw x => x.idx == 0x008 || x.idx == 0x009 || x.idx == 0x00A
    | .tend _ => true
    | _ => false)
/-- Whether an instruction waits for the sequencer, or takes the fault of a sequenced one. -/
def State.held (s : State) (i : Instr) (w : Nat) : Bool :=
  let r := s.tile.rep
  s.onMain && (match r.fault with
    | some _ => pipeWaits i w || (match s.core.wait with | some x => x.kind == .sequencer | none => false)
    | none => r.count != 0 && (pipeWaits i w || r.meets i))
/-- The trap of a sequenced instruction, taken at the waiting one: TRET of either mode resumes there (R214). -/
def takeRepFault (f : RepFault) (len : Nat) (s : State) : Out :=
  let s1 := s.setRep Repeat.empty
  let s2 := if f.code = codeBackstop then (match s.team with | some t => s1.quarantine t (some f.pc.toNat) | none => s1) else s1
  takeTrap ⟨f.code, f.detail, false, f.pc, s.core.pc, len == 16, false, false⟩ s2
/-- A waiting instruction's step: an eager core lets its sequencer issue. -/
def waitSequencer (len : Nat) (s : State) : Out :=
  match s.tile.rep.fault with
  | some f => takeRepFault f len s
  | none => stay .sequencer 0 (if s.eager then s.passIssue else s)

/-! ## The end of handler entry (R390) -/

def Access.ofStream (a : Access) : Bool := a.slot.isSome
/-- A core that has set HIN waits for its sequencer and its stream pushes; a fault during the wait is one in the handler (R401). -/
def enterStep (s : State) : Out :=
  match s.tile.rep.fault with
  | some f => takeRepFault f 8 s
  | none =>
    if s.tile.rep.count ≠ 0 then .next (if s.eager then s.passIssue else s)
    else
      let s1 := s.settledAcks
      if s1.allAcked s.cur Access.ofStream then .next s1.enterHandler else .next s1

end Sys2Proof.Machine
end

