-- ==== Sys2Proof/Machine/Engine.lean ====
section
/-!
DEFINITION. Engine and collective commands (R229–R231, R258–R267): issue, the steps ENGINE_READ, ENGINE_WRITE, ENGINE_DONE and
ENGINE_FAULT, status reads, and the copies of major 0x27 and the collectives of major 0x28.
-/
namespace Sys2Proof.Machine
open Sys2Proof

/-! ## Bytes of a collective -/

/-- Bytes of `n` elements in memory; an MX block takes its 32 elements and then its scale, and a part of one as much (log entry 20). -/
def elemBytes (f : Fmt) (n : Nat) : Nat :=
  match f with
  | .e4m3 | .e5m2 => (n + 31) / 32 * 33
  | _ => n * f.width / 8

/-! ## Sources and destinations (R261, R313, R314, R266) -/

def copyRows (a : Nat) (stride : Int) (len rows : Nat) : List (Nat × Nat) :=
  (List.range rows).map (fun (k : Nat) => (addr53 ((a : Int) + (k : Int) * stride), len))
/-- The source rows of a command: first address and length. -/
def CmdWork.srcRows (w : CmdWork) : List (Nat × Nat) :=
  match w with
  | .copy src _ len rows sstr _ => copyRows src sstr len rows
  | .quant _ src _ stride _ _ _ _ => copyRows src stride 128 64
  | .fill _ src _ stride width => copyRows src stride width 64
  | .away src len _ => [(src, len)]
  | .coll kind _ _ root src _ count fmt _ _ rank _ =>
    match kind with
    | .fw => []
    | .bcast => if rank = root then [(src, elemBytes fmt count)] else []
    | _ => [(src, elemBytes fmt count)]
/-- The destination rows; those on another module stand for the member's tile there by the module's first address. -/
def CmdWork.dstRows (w : CmdWork) : List (Nat × Nat) :=
  match w with
  | .copy _ dst len rows _ dstr => copyRows dst dstr len rows
  | .quant _ _ dst _ _ _ _ _ => [(dst, 0x2000)]
  | .fill _ _ dst _ width => [(dst, 64 * width)]
  | .away _ len m => [(m * 2 ^ 46, len)]
  | .coll kind _ _ root _ dst count fmt _ size rank _ =>
    match kind with
    | .fw => []
    | .red => if rank = root then [(dst, elemBytes fmt count)] else []
    | .gather => [(dst, elemBytes fmt (size * count))]
    | .redsc => [(dst, elemBytes fmt (count / size))]
    | .allred | .bcast => [(dst, elemBytes fmt count)]

/-- The ranges ENGINE-ACCEPT checks (R229, R265): every member of a collective gives both, whatever its kind and rank. -/
def CmdWork.srcChecked (w : CmdWork) : List (Nat × Nat) :=
  match w with
  | .coll _ _ _ _ src _ count fmt _ _ _ _ => [(src, elemBytes fmt count)]
  | _ => w.srcRows
def CmdWork.dstChecked (w : CmdWork) : List (Nat × Nat) :=
  match w with
  | .away _ _ _ => []
  | .coll kind _ _ _ _ dst count fmt _ size _ _ =>
    [(dst, elemBytes fmt (match kind with | .gather => size * count | .redsc => count / size | _ => count))]
  | _ => w.dstRows
def CmdWork.isColl (w : CmdWork) : Bool := match w with | .coll _ _ _ _ _ _ _ _ _ _ _ _ => true | _ => false

/-- The pieces of a range at aligned boundaries of `u` bytes. -/
def chunks (u a n : Nat) : List (Nat × Nat) :=
  if n = 0 then []
  else (List.range ((a % u + n + u - 1) / u)).map fun i =>
    let lo := max a (u * (a / u + i))
    (lo, min (a + n) (u * (a / u + i + 1)) - lo)
/-- A piece of a row: its offset in the command's bytes, its address and its length. -/
structure Span where
  off : Nat
  addr : Nat
  len : Nat
  deriving DecidableEq, Repr
def spansOf (u : Nat) : Nat → List (Nat × Nat) → List Span
  | _, [] => []
  | o, (a, n) :: r => (chunks u a n).map (fun q => ⟨o + (q.1 - a), q.1, q.2⟩) ++ spansOf u (o + n) r
/-- The 32 B pieces a command reads, and the parts of its destination rows that fall in one 8 B unit each (R230). -/
def Cmd.pieces (c : Cmd) : List Span := spansOf 32 0 c.work.srcRows
def Cmd.units (c : Cmd) : List Span := spansOf 8 0 c.work.dstRows
/-- The parts that the single ENGINE-WRITE of a unit writes: those of every row that shares the unit with `u` (R230, R261). -/
def Cmd.group (c : Cmd) (u : Span) : List (Span × Nat) := c.units.zipIdx.filter (fun v => v.1.addr / 8 == u.addr / 8)

/-! ## Commands of a processor -/

def Core.pending (k : Core) : Nat := (k.cmds.filter (fun c => c.status == .pending)).length
/-- The commands kept beside a new one: those still pending, faulted fills, which keep their claims (R315), collectives that another
member may still need (R266), fills that are not published, and the 63 most recent (R258). -/
def keepCmds (l : List Cmd) : List Cmd :=
  (l.take (l.length - 63)).filter (fun c => c.status == .pending || (c.work.isFill && c.status != .done) || c.needed)
    ++ l.drop (l.length - 63)
def Core.handle (k : Core) : BitVec 16 := BitVec.ofNat 16 k.issued
/-- The processor in focus has a new command (R258, R229); one of a scalar instruction comes behind the passes still to issue (R214). -/
def State.addCmd (s : State) (w : CmdWork) (st : CmdStatus) : State :=
  let k := s.core
  let c : Cmd := ⟨k.handle, w, st, 0, [], [], [], k.seq, k.pc.toNat, w.isColl || w.isFill⟩
  let passes := s.onMain && s.tile.rep.count != 0
  { s with core := { k with cmds := keepCmds k.cmds ++ [c], issued := k.issued + 1,
                            behind := if passes then some (k.behind.getD k.seq) else k.behind } }
/-- The engine record keeps the oldest unreported fault (R251). -/
def State.engineFaulted (s : State) (p : ProcId) (r : EngRec) : State :=
  let k := s.getCore p
  match k.engRec with
  | none => s.setCore p { k with engRec := some r }
  | some _ => s.countOf p 5 2 1

/-- The detail of ENGEXT and of the other codes (R263). -/
def engextDetail (h : BitVec 16) (opnd off : Nat) : Word := wNat (h.toNat * 2 ^ 48 + opnd * 2 ^ 46 + off % 2 ^ 46)
/-- The same for the other codes; bit 63 is set where a sealed line's tag failed (R362). -/
def engineDetail (h : BitVec 16) (a : Nat) : Word :=
  wNat (h.toNat * 2 ^ 48 + a % 2 ^ 48) ||| (if 2 ^ 63 ≤ a then 0x8000000000000000 else 0)

/-! ## Checks at issue (R260) -/

/-- The regions an engine reaches. -/
def Region.engSrc (r : Region) : Bool := r.isGlobal || r.isScratch || r.isWeights
def Region.engDst (r : Region) : Bool := r.isGlobal || r.isScratch
/-- The first byte of [a, e) outside some regions; regions change at multiples of 64 KiB only. -/
def State.outsideFrom (s : State) (ok : Region → Bool) : Nat → Nat → Nat → Option Nat
  | 0, _, _ => none
  | k + 1, a, e => if e ≤ a then none else if ok (s.region a) then s.outsideFrom ok k ((a / 2 ^ 16 + 1) * 2 ^ 16) e else some a
def State.firstOutside (s : State) (ok : Region → Bool) : List (Nat × Nat) → Option Nat
  | [] => none
  | (a, n) :: r =>
    match s.outsideFrom ok (n / 2 ^ 16 + 2) a (a + n) with
    | some b => some b
    | none => s.firstOutside ok r
/-- The offset of the first byte of the rows that no extent grants; bytes of the weight store need its right as well. -/
def State.firstUngranted (s : State) (need : BitVec 4) : Nat → List (Nat × Nat) → Option Nat
  | _, [] => none
  | o, (a, n) :: r =>
    let need' := if (s.region a).isWeights then need ||| 8 else need
    match s.firstRefused need' a n with
    | some b => some (o + (b - a))
    | none => s.firstUngranted need (o + n) r

/-- Whether some team holds a die's weight store open (R260). -/
def Team.opens (t : Team) (s : State) (die : Nat) : Bool :=
  (t.state == .launching || t.state == .waiting || t.state == .running || t.state == .halted)
    && t.bufs.any (fun b => !b.scratch && (match s.region b.addr with | .weights d _ => d == die | _ => false))
def State.storeOpen (s : State) (a : Nat) : Bool :=
  match s.region a with
  | .weights d _ => s.teams.any (fun t => t.opens s d)
  | _ => false

/-- ENGINE-ACCEPT and what follows it, the one check of the command against its extents (R352): a new command, pending, done at once when it
moves no byte, or faulted with ENGEXT; the handle goes to g[d]. -/
def accept (d : GReg) (w : CmdWork) (need : BitVec 4) (needD : BitVec 4) (s : State) : State :=
  let h := s.core.handle
  let n := (w.srcRows.map Prod.snd).sum
  let m := (w.dstRows.map Prod.snd).sum
  let src := (w.srcRows.headD (0, 0)).1
  let dst := (w.dstRows.headD (0, 0)).1
  let s1 := (s.wrG d (h.setWidth 64)).progress
  match s.firstUngranted need 0 w.srcChecked with
  | some o => (s1.addCmd w (.faulted codeEngext (engextDetail h 0 o))).engineFaulted s.cur ⟨h, codeEngext, engextDetail h 0 o⟩
  | none =>
    match s.firstUngranted needD 0 w.dstChecked with
    | some o => (s1.addCmd w (.faulted codeEngext (engextDetail h 1 o))).engineFaulted s.cur ⟨h, codeEngext, engextDetail h 1 o⟩
    | none => ((s1.addCmd w .pending).countBytes s.cur 0 src n).countBytes s.cur 1 dst m

/-! ## Collectives: the members' commands (R266) -/

/-- The members of a processor's level-L domain on this module, in rank order. -/
def State.membersOf (s : State) (p : ProcId) (level : Nat) : List Nat :=
  match homeTile p, s.teamOf p with
  | some n, some t => t.members n level
  | _, _ => []
/-- The number of members before this module's, and of all (log entry 21: every module of a fabric team has as many members as this
one). -/
def State.domainSize (s : State) (p : ProcId) (level : Nat) : Nat :=
  let n := (s.membersOf p level).length
  match s.teamOf p with
  | some t => if level = 4 then n * t.nmod else n
  | none => n
def State.rankBase (s : State) (p : ProcId) (level : Nat) : Nat :=
  match s.teamOf p with
  | some t => if level = 4 then (s.membersOf p level).length * t.fidx else 0
  | none => 0
/-- A member's rank (R147). -/
def State.rankOf (s : State) (p : ProcId) (level : Nat) : Nat :=
  match homeTile p with
  | some n => s.rankBase p level + (s.membersOf p level).findIdx (fun m => m == n)
  | none => 0

def Cmd.isColl (c : Cmd) (level nth : Nat) : Bool :=
  match c.work with
  | .coll _ _ l _ _ _ _ _ n _ _ _ => l == level && n == nth
  | _ => false
/-- Each member's n-th command at the level, in rank order. -/
def State.peerCmds (s : State) (p : ProcId) (level nth : Nat) : List (Option Cmd) :=
  (s.membersOf p level).map (fun m => (s.getCore (.main m)).cmds.find? (fun c => c.isColl level nth))
/-- Whether two members' commands have the same kind, op, count, fmt and root. -/
def CmdWork.agrees (v w : CmdWork) : Bool :=
  match v, w with
  | .coll k o _ r _ _ c f _ _ _ _, .coll k' o' _ r' _ _ c' f' _ _ _ _ => k == k' && o == o' && r == r' && c == c' && f == f'
  | _, _ => false
/-- What the collective engine finds of a member's command: it waits for others, it runs, or it is faulted with a code. -/
inductive Match where
  | waits
  | runs
  | faults (code : BitVec 8)
  deriving DecidableEq, Repr
def faultOf (c : Cmd) : Option (BitVec 8) :=
  match c.status with
  | .faulted code _ => some code
  | _ => none
def State.matched (s : State) (p : ProcId) (c : Cmd) (level nth : Nat) : Match :=
  let l := s.peerCmds p level nth
  let here := l.filterMap id
  match (here.filterMap faultOf).head? with
  | some code => .faults code
  | none =>
    if here.any (fun d => !(d.work.agrees c.work)) then .faults codeIllegal
    else if l.all Option.isSome then .runs
    else .waits
/-- Whether a command that is no collective, or whose members match, may write. -/
def State.mayRun (s : State) (p : ProcId) (c : Cmd) : Bool :=
  match c.work with
  | .coll _ _ level _ _ _ _ _ nth _ _ _ => s.matched p c level nth == .runs
  | _ => true

/-- The bytes a command holds of its source. -/
def Cmd.input (c : Cmd) : List Byte := memBytes c.buf 0 (c.work.srcRows.map Prod.snd).sum
/-- Whether every piece of a command has been read. -/
def Cmd.allRead (c : Cmd) : Bool := (List.range c.pieces.length).all (fun k => c.reads.contains k)
def Cmd.allWritten (c : Cmd) : Bool := (List.range c.units.length).all (fun k => c.writes.contains k)

/-- Two partial values combined block by block or element by element, with the combine saturations. -/
def combineMx (f : FP) (top : Nat) : Nat → List Byte → List Byte → List Byte × Nat
  | 0, _, _ => ([], 0)
  | n + 1, x, y =>
    let r := mxCombine f top (byteNat x 32) (byteNat y 32) ((x.take 32).map BitVec.toNat) ((y.take 32).map BitVec.toNat)
    let t := combineMx f top n (x.drop 33) (y.drop 33)
    (r.2.1.map (BitVec.ofNat 8) ++ [BitVec.ofNat 8 r.1] ++ t.1, bit r.2.2 + t.2)
def combinePlain (op : CollOp) (f : Fmt) : Nat → List Byte → List Byte → List Byte
  | 0, _, _ => []
  | n + 1, x, y =>
    let w := f.width / 8
    natBytes (combineElem op f (bytesNat x 0 w) (bytesNat y 0 w)) w ++ combinePlain op f n (x.drop w) (y.drop w)
def combineBytes (op : CollOp) (f : Fmt) (count : Nat) (x y : List Byte) : List Byte × Nat :=
  match f with
  | .e4m3 => combineMx fpE4m3 448 (count / 32) x y
  | .e5m2 => combineMx fpE5m2 57344 (count / 32) x y
  | _ => (combinePlain op f count x y, 0)
/-- A partial value and a count of its combine saturations; none where a member of another module has contributed. -/
def combineKnown (op : CollOp) (f : Fmt) (count : Nat) (x y : Option (List Byte)) : Option (List Byte) × Nat :=
  match x, y with
  | some a, some b => let r := combineBytes op f count a b; (some r.1, r.2)
  | _, _ => (none, 0)
/-- One round of the binomial tree: rank r with rank r + 2^j. -/
def combineRound (op : CollOp) (f : Fmt) (count : Nat) : List (Option (List Byte)) → List (Option (List Byte)) × Nat
  | x :: y :: r =>
    let a := combineKnown op f count x y
    let t := combineRound op f count r
    (a.1 :: t.1, a.2 + t.2)
  | l => (l, 0)
def combineTree (op : CollOp) (f : Fmt) (count : Nat) : Nat → List (Option (List Byte)) → Option (List Byte) × Nat
  | 0, l => (l.headD none, 0)
  | n + 1, l =>
    match l with
    | [] => (none, 0)
    | [x] => (x, 0)
    | _ =>
      let t := combineRound op f count l
      let u := combineTree op f count n t.1
      (u.1, t.2 + u.2)
/-- The bytes of free values. -/
def freeBytes (k n : Nat) : List Byte := (List.range n).map (Config.freeByte k)

/-- Every member's source bytes in rank order; none for the members on other modules, whose sources are not of this state. -/
def State.inputs (s : State) (p : ProcId) (level nth size : Nat) : List (Option (List Byte)) :=
  let l := s.peerCmds p level nth
  (List.range size).map (fun r =>
    if r < s.rankBase p level then none else match l.getD (r - s.rankBase p level) none with | some d => some d.input | none => none)
/-- A collective's destination bytes and combine saturations (R266); what members on other modules contribute is a free value
(log entry 21), and so are the bytes of a member's part of an MX result that is no whole number of blocks (log entry 20). -/
def State.collOutput (s : State) (p : ProcId) (c : Cmd) : List Byte × Nat :=
  match c.work with
  | .coll kind op level root _ _ count fmt nth size rank _ =>
    let ins := s.inputs p level nth size
    let n := elemBytes fmt count
    let known (o : Option (List Byte)) : List Byte := o.getD (freeBytes s.free n)
    let t := combineTree op fmt count 17 ins
    let sats := t.2 + (if t.1.isNone then (Config.freeByte s.free (2 ^ 64)).toNat + 256 * (Config.freeByte s.free (2 ^ 64 + 1)).toNat else 0)
    match kind with
    | .bcast => (known (ins.getD root none), 0)
    | .gather => (ins.zipIdx.flatMap (fun x => x.1.getD ((freeBytes s.free (n * (x.2 + 1))).drop (n * x.2))), 0)
    | .fw => ([], 0)
    | .allred | .red => (known t.1, sats)
    | .redsc =>
      if (fmt == .e4m3 || fmt == .e5m2) && count / size % 32 != 0 then (freeBytes s.free (elemBytes fmt (count / size)), sats)
      else (((known t.1).drop (elemBytes fmt (rank * (count / size)))).take (elemBytes fmt (count / size)), sats)
  | _ => ([], 0)
/-- The bytes a command writes at an offset. -/
def State.cmdOutput (s : State) (p : ProcId) (c : Cmd) (off n : Nat) : List Byte :=
  match c.work with
  | .quant _ _ _ stride band rm seed anchor =>
    ((quantEntry (roundingOf seed rm) band anchor stride c.input).drop off).take n
  | .coll _ _ _ _ _ _ _ _ _ _ _ _ => ((s.collOutput p c).1.drop off).take n
  | _ => memBytes c.buf off n
/-- Whether every member on this module has written its part of a collective, with every unit acknowledged: a member's fault is one in
every member (R266). -/
def State.peersWritten (s : State) (p : ProcId) (c : Cmd) : Bool :=
  match c.work with
  | .coll _ _ level _ _ _ _ _ nth _ _ _ => (s.membersOf p level).all (fun m =>
      match (s.getCore (.main m)).cmds.find? (fun d => d.isColl level nth) with
      | some d => d.allWritten && (s.getCore (.main m)).pend.all (fun a => a.kind != .engine d.handle)
      | none => true)
  | _ => true
/-- Whether every member's input of a collective has been read: what its result and its combine saturations come from. -/
def State.peersRead (s : State) (p : ProcId) (c : Cmd) : Bool :=
  match c.work with
  | .coll _ _ level _ _ _ _ _ nth _ _ _ => (s.peerCmds p level nth).all (fun d => match d with | some d => d.allRead | none => true)
  | _ => true
/-- Whether the input a unit needs has been read: its own bytes for a copy, everything for the others. -/
def State.inputRead (s : State) (p : ProcId) (c : Cmd) (u : Span) : Bool :=
  match c.work with
  | .quant _ _ _ _ _ _ _ _ => c.allRead
  | .coll _ _ _ _ _ _ _ _ _ _ _ _ => s.peersRead p c
  | _ => c.pieces.zipIdx.all (fun q => !(overlaps q.1.off q.1.len u.off u.len) || c.reads.contains q.2)

/-! ## Engine steps (R230, R231) -/

/-- Whether an earlier access of the processor holds a command's steps back, which count as one access (R229): a writing one that shares
a location with its source or destination (row P1), and every reading one (row P3); so do the passes before it (R214). -/
def State.cmdHeld (s : State) (p : ProcId) (c : Cmd) : Bool :=
  let rows := match c.work with
    | .coll .fw _ _ _ _ _ _ _ _ _ _ _ => c.work.srcChecked ++ c.work.dstChecked
    | w => w.srcRows ++ w.dstRows
  s.behindPasses p c.seq || (s.getCore p).pend.any (fun e => decide (e.seq < c.seq) && !e.performed && !e.kind.isSev
    && rows.any (fun r => overlaps e.addr e.size r.1 r.2))
    || (s.getCore p).lates.any (fun e => decide (e.seq < c.seq))
/-- Whether the commands of a processor take steps: its team's context is not stopped, and its saved state is not still to come back (R258,
R394). -/
def State.engineOpen (s : State) (p : ProcId) : Bool :=
  match s.teamOf p with
  | some t => !t.isStopped
  | none => true
/-- Whether the message of 64 B that a piece belongs to has left with an earlier one (R420). -/
def Cmd.paid (done : List Nat) (l : List Span) (q : Span) : Bool :=
  done.any (fun j => match l[j]? with | some v => v.addr / 64 == q.addr / 64 | none => false)
/-- ENGINE_READ: piece `k` of a command is read. -/
def State.engineRead (s : State) (p : ProcId) (h : BitVec 16) (k : Nat) : State :=
  match s.findCmd p h with
  | none => s
  | some c =>
    match c.pieces[k]? with
    | none => s
    | some q =>
      if c.status ≠ .pending ∨ s.engineOpen p = false ∨ c.reads.contains k ∨ s.cmdHeld p c
        ∨ s.messageOpen (Cmd.paid c.reads c.pieces q) q.addr = false ∨ s.inWindow q.addr
        ∨ s.readFault p q.addr q.len ≠ none then s
      else
        let buf := memPut c.buf (cellsAt q.off (s.bytesFor p q.addr q.len))
        (if Cmd.paid c.reads c.pieces q then s else s.spend q.addr).putCmd p { c with reads := k :: c.reads, buf := buf }

/-- What an engine write meets: none when it writes, or is dropped and recorded, over a part of a failing unit or towards a lost peer
(R393, R423). -/
def State.writeFault (s : State) (p : ProcId) (a : Nat) : Option (BitVec 8) :=
  match s.wayFault a with
  | some c => if c = codePeerlost then none else some c
  | none => if s.admits p a then none else some codeBackstop
/-- A full bit set by an engine write raises its events (R69, R232, R292). -/
def State.fullSet (s : State) (a : Nat) : State :=
  match s.region a with
  | .scratch l o =>
    let s1 := { s with full := setIn s.full (a / 8) }
    match s.findTeam (s.getTile l).team with
    | some t => if o < t.spsize then (s1.event l 3).eventStage l 3 else s1
    | none => s1
  | _ => s
/-- A unit an engine command has written joins U until it is acknowledged (R230); a BACKSTOP mark stops the context (R364). -/
def State.engineAck (s : State) (p : ProcId) (c : Cmd) (u : Span) (mark : Bool) : State :=
  let k := s.getCore p
  s.setCore p { k with pend := k.pend ++ [⟨.engine c.handle, u.addr, u.len, [], true, .rlx, .self, false, none, false, mark, true, c.seq, c.pc⟩] }
/-- Of the bytes that a command's rows have for one address, the one it takes: where they overlap, a free one (R261, log entry 3). -/
def overlapped (n a : Nat) (l : List Host.Cell) : Option Host.Cell :=
  match l with
  | x :: y :: r => some ((x :: y :: r).getD (Config.overlap n a % (r.length + 2)) x)
  | l => l.head?
/-- The bytes of a command that fall in the unit of a part, in address order. -/
def State.unitCells (s : State) (p : ProcId) (c : Cmd) (u : Span) : List Host.Cell :=
  let l := (c.group u).flatMap (fun v => cellsAt v.1.addr (s.cmdOutput p c v.1.off v.1.len))
  (List.range 8).filterMap (fun i => overlapped c.seq (u.addr / 8 * 8 + i) (l.filter (fun x => x.1 == u.addr / 8 * 8 + i)))
/-- The home's part of a unit: its bytes and its full bit, in one step; a member of another module keeps its own. -/
def State.putUnit (s : State) (p : ProcId) (c : Cmd) (u : Span) : State :=
  match c.work with
  | .away _ _ _ => s
  | _ =>
    let l := s.unitCells p c u
    let a := match l with | [] => u.addr | x :: _ => x.1
    let s1 := (s.putCells p a l).stepHome (.unit (u.addr / 8)) fillPlace
    if s.keptOut a l.length = [] then s1.fullSet u.addr else s1
/-- The message of 64 B that a unit goes in (R420), and whether it has left for another module. -/
def Cmd.cargo (c : Cmd) (p : ProcId) (u : Span) : Cargo := .unit p c.handle (u.addr / 64)
def State.unitSent (s : State) (p : ProcId) (c : Cmd) (u : Span) : Bool :=
  Cmd.paid c.writes c.units u || s.fabric.carries (c.cargo p u)
/-- Whether a unit's step may be taken: its command is pending and not held back, its input is read, its message can leave or has left, its
home takes it in its turn, and no part of it is written. -/
def State.unitOpen (s : State) (p : ProcId) (c : Cmd) (u : Span) (k : Nat) : Bool :=
  c.status == .pending && s.engineOpen p && !c.writes.contains k && !s.cmdHeld p c
    && s.sendOpen (c.cargo p u) (s.unitSent p c u) u.addr && s.mayRun p c && (c.group u).all (fun v => s.inputRead p c v.1)
    && !s.afterHome (.unit (u.addr / 8)) fillPlace
/-- ENGINE_WRITE: the unit of part `k` of a command is written; one towards a lost peer is dropped and recorded, and towards another
module the message leaves first (R423). -/
def State.engineWrite (s : State) (p : ProcId) (h : BitVec 16) (k : Nat) : State :=
  match s.findCmd p h with
  | none => s
  | some c =>
    match c.units[k]? with
    | none => s
    | some u =>
      let sent := s.unitSent p c u
      let lost := s.wayFault u.addr == some codePeerlost && !sent
      if s.unitOpen p c u k = false ∨ s.writeFault p u.addr ≠ none then s
      else match (if sent then none else s.peerAt u.addr) with
      | some m => s.sendTo m (s.tagOf p) (c.cargo p u) ((s.unitCells p c u).map Prod.snd)
      | none =>
        let s1 : State := { s with fabric := s.fabric.accept (c.cargo p u) }
        let s2 := if lost then s.dropped p codePeerlost u.addr else s1.putUnit p c u
        (s2.engineAck p c u false).putCmd p { c with writes := (c.group u).map Prod.snd ++ c.writes }
/-- Whether every unit a command has written is acknowledged. -/
def State.unitsAcked (s : State) (p : ProcId) (h : BitVec 16) : Bool := (s.getCore p).pend.all (fun a => a.kind != .engine h)
/-- When no member's command is pending any more, none needs the others' (R266). -/
def State.releaseColl (s : State) (p : ProcId) (c : Cmd) : State :=
  match c.work with
  | .coll _ _ level _ _ _ _ _ nth _ _ _ =>
    let l := s.membersOf p level
    let of_ (m : Nat) : Option Cmd := (s.getCore (.main m)).cmds.find? (fun d => d.isColl level nth)
    if l.all (fun m => match of_ m with | some d => d.status != .pending | none => false) then
      l.foldl (fun s m => match of_ m with | some d => s.putCmd (.main m) { d with needed := false, buf := [] } | none => s) s
    else s
  | _ => s
/-- ENGINE_DONE. A collective's saturations enter its status, and it is done when every member has written (R266). -/
def State.engineDone (s : State) (p : ProcId) (h : BitVec 16) : State :=
  match s.findCmd p h with
  | none => s
  | some c =>
    let fw : Bool := match c.work with | .coll .fw _ _ _ _ _ _ _ _ _ _ _ => true | _ => false
    if c.status ≠ .pending ∨ s.engineOpen p = false ∨ fw ∨ c.allWritten = false ∨ c.allRead = false ∨ s.unitsAcked p h = false
      ∨ s.mayRun p c = false ∨ s.peersRead p c = false ∨ s.peersWritten p c = false then s
    else
      let sats := (s.collOutput p c).2
      let d : Cmd := { c with status := .done, csat := min 0xFFFF sats, buf := if c.work.isColl then c.buf else [] }
      let s1 := (((s.putCmd p d).countOf p 3 7 sats).releaseColl p c).progressOf p
      if c.work.isColl then { s1 with free := s1.free + 1 } else s1

/-- The lowest byte of a processor's range in a failing unit; its first byte when no unit fails. -/
def State.badByte (s : State) (p : ProcId) (a n : Nat) : Nat :=
  ((List.range n).find? (fun i => match s.linesAt p (a + i) 1 with
    | [] => s.badUnits (a + i) 1 != []
    | ls => ls.any (fun l => s.badUnits l 64 != []))).elim a (fun i => a + i)
/-- The lowest byte of the rows in the ECC unit, or the sealed line, of a byte that fails (R263). -/
def State.lowestByte (s : State) (p : ProcId) (rows : List (Nat × Nat)) (b : Nat) : Nat :=
  let same (a : Nat) : Bool := match s.linesAt p b 1 with
    | [] => a / (s.region b).eccSize == b / (s.region b).eccSize
    | ls => s.linesAt p a 1 == ls
  b - ((List.range 32).filter (fun i => decide (i ≤ b) && same (b - i)
    && rows.any (fun q => decide (q.1 ≤ b - i ∧ b - i < q.1 + q.2)))).foldl max 0
/-- The fault of a piece a command reads: code and address. -/
def State.spanFault (s : State) (p : ProcId) (rows : List (Nat × Nat)) (q : Span) : Option (BitVec 8 × Nat) :=
  match s.readFault p q.addr q.len with
  | some (code, tag) =>
    some (code, if code = codeMemerr ∧ tag = false then s.lowestByte p rows (s.badByte p q.addr q.len) else marked tag q.addr)
  | none => none
/-- The faults of the pieces a command still reads and of the units it still writes; a step that is held back meets none. -/
def State.readFaults (s : State) (p : ProcId) (c : Cmd) : List (BitVec 8 × Nat) :=
  if s.cmdHeld p c then []
  else c.pieces.zipIdx.filterMap (fun q => if c.reads.contains q.2 then none else s.spanFault p c.work.srcRows q.1)
def State.writeFaults (s : State) (p : ProcId) (c : Cmd) : List (BitVec 8 × Nat) :=
  if s.cmdHeld p c then []
  else c.units.zipIdx.filterMap (fun q =>
    if c.writes.contains q.2 then none else (s.writeFault p q.1.addr).map (fun code => (code, q.1.addr)))
/-- The faults a command can meet now. -/
def State.cmdFaults (s : State) (p : ProcId) (c : Cmd) : List (BitVec 8 × Nat) :=
  let peer := match c.work with
    | .coll _ _ level _ _ _ _ _ nth _ _ _ => (match s.matched p c level nth with | .faults code => [(code, 0)] | _ => [])
    | _ => []
  peer ++ s.readFaults p c ++ s.writeFaults p c
/-- A faulted collective leaves free values in the range of its destination, whatever the member's part in it (R266). -/
def State.unspecified (s : State) (p : ProcId) (c : Cmd) : State :=
  match c.work with
  | .coll _ _ _ _ _ _ _ _ _ _ _ _ =>
    let s1 := c.work.dstChecked.foldl (fun s q => s.putCells p q.1 (cellsAt q.1 (freeBytes s.free q.2))) s
    { s1 with free := s.free + 1 }
  | _ => s
/-- A command is faulted: its status and record, and what a collective leaves. A mismatch has no address, and a fault taken over from
another member no operand (log entry 53). -/
def State.faultCmd (s : State) (p : ProcId) (c : Cmd) (code : BitVec 8) (a : Nat) : State :=
  let d := if code = codeEngext then engextDetail c.handle 0 0 else engineDetail c.handle a
  let s1 := s.putCmd p { c with status := .faulted code d, buf := if c.work.isColl then c.buf else [] }
  (((s1.unspecified p c).engineFaulted p ⟨c.handle, code, d⟩).releaseColl p c).progressOf p
/-- The parts of a command's units whose message stands in a replay buffer, and which are not written. -/
def State.unitsOut (s : State) (p : ProcId) (c : Cmd) (blk : Nat) : List (Span × Nat) :=
  if s.fabric.carries (.unit p c.handle blk) then c.units.zipIdx.filter (fun v => v.1.addr / 64 == blk && !c.writes.contains v.2) else []
/-- A message of an engine's units is lost (R423, R427): they count as written, and the address enters the processor's record. -/
def State.unitsLost (s : State) (p : ProcId) (c : Cmd) (blk : Nat) (a : Nat) : State :=
  let l := s.unitsOut p c blk
  if l = [] then s
  else
    let s1 : State := { s with fabric := s.fabric.accept (.unit p c.handle blk) }
    (s1.putCmd p { c with writes := l.map Prod.snd ++ c.writes }).dropped p codePeerlost a
/-- A refusal by another module answers an engine's message (R423): a read faults its command; a write is dropped and recorded, or by the
mark of the peer's backstop stops the command and the context (R355, R364). -/
def State.engineRefused (s : State) (p : ProcId) (a : Nat) (code : BitVec 8) : State :=
  let reads (c : Cmd) : Bool := !s.cmdHeld p c && c.pieces.zipIdx.any (fun q => q.1.addr == a && !c.reads.contains q.2)
  match (s.getCore p).cmds.find? (fun c => c.status == .pending && (reads c || s.unitsOut p c (a / 64) != [])) with
  | none => s
  | some c =>
    if reads c then
      (if code = codeBackstop then (s.faultCmd p c code a).backstop p (some c.pc) a else s.faultCmd p c code a)
    else if code = codeBackstop then
      let s1 : State := { s with fabric := s.fabric.accept (.unit p c.handle (a / 64)) }
      ((s1.faultCmd p c code a).engineAck p c ⟨0, a, 1⟩ true).backstop p (some c.pc) a
    else s.unitsLost p c (a / 64) a
/-- ENGINE_FAULT: the engine meets a fault; a refusal by the backstop stops the team as well (R355). -/
def State.engineFault (s : State) (p : ProcId) (h : BitVec 16) (code : BitVec 8) (a : Nat) : State :=
  match s.findCmd p h with
  | none => s
  | some c =>
    if c.status ≠ .pending ∨ s.engineOpen p = false ∨ (s.cmdFaults p c).contains (code, a) = false then s
    else
      let s2 := s.faultCmd p c code a
      let s3 := if code = codeBackstop ∧ (s.writeFaults p c).contains (code, a) then s2.engineAck p c ⟨0, a, 1⟩ true else s2
      if code = codeBackstop then s3.backstop p (some c.pc) a else s3

/-- An eager machine acknowledges a command's units at once. -/
def State.ackUnits (s : State) (p : ProcId) (h : BitVec 16) : State :=
  let k := s.getCore p
  s.setCore p { k with pend := k.pend.filter (fun a => a.kind != .engine h || a.marked) }
/-- A command reads all its pieces, writes all its units, and ends, as far as it may; towards another module a unit takes two steps. -/
def State.readAll (s : State) (p : ProcId) (h : BitVec 16) : State :=
  match s.findCmd p h with
  | none => s
  | some c => (List.range c.pieces.length).foldl (fun s k => s.engineRead p h k) s
def State.writeAll (s : State) (p : ProcId) (h : BitVec 16) : State :=
  match s.findCmd p h with
  | none => s
  | some c => ((List.range c.units.length).foldl (fun (s : State) (k : Nat) => (s.engineWrite p h k).engineWrite p h k) s).ackUnits p h
/-- A command that meets a fault is faulted. -/
def State.failCmd (s : State) (p : ProcId) (h : BitVec 16) : State :=
  match s.findCmd p h with
  | none => s
  | some d => match s.cmdFaults p d with
    | (code, a) :: _ => s.engineFault p h code a
    | [] => s
/-- The processors and handles of the commands a command's end depends on: a collective's members on this module, or its own. -/
def State.partners (s : State) (p : ProcId) (c : Cmd) : List (ProcId × BitVec 16) :=
  match c.work with
  | .coll _ _ level _ _ _ _ _ nth _ _ _ => (s.membersOf p level).filterMap (fun m =>
      ((s.getCore (.main m)).cmds.find? (fun d => d.isColl level nth)).map (fun d => (ProcId.main m, d.handle)))
  | _ => [(p, c.handle)]
def State.runCmd (s : State) (p : ProcId) (h : BitVec 16) : State :=
  match s.findCmd p h with
  | none => s
  | some c =>
    let l := s.partners p c
    let s1 := l.foldl (fun s q => s.readAll q.1 q.2) s
    let s2 := l.foldl (fun s q => s.writeAll q.1 q.2) s1
    let s3 := l.foldl (fun s q => s.failCmd q.1 q.2) s2
    match s3.findCmd p h with
    | none => s3
    | some d =>
      match s3.cmdFaults p d with
      | (code, a) :: _ => s3.engineFault p h code a
      | [] => s3.engineDone p h
/-- Every pending command of a processor runs, oldest first. -/
def State.runCmds (s : State) (p : ProcId) : State := (s.getCore p).cmds.foldl (fun s c => s.runCmd p c.handle) s

/-- ENGINE_DONE of a command whose last step has been taken (R231). -/
def execEngineDone (x : EvCmd) (s : State) : Out := .next (s.engineDone x.p x.h)
def execEngineWrite (x : EvCmdPiece) (s : State) : Out := .next (s.engineWrite x.p x.h x.k)
def execEngineFault (x : EvCmdFault) (s : State) : Out := .next (s.engineFault x.p x.h x.code x.addr)

/-! ## The collective firmware (R266) -/

/-- The cluster's engine begins a member's firmware command, when it is idle. -/
def State.startFirmware (s : State) (p : ProcId) (c : Cmd) : State :=
  match homeTile p, s.teamOf p, c.work with
  | some l, some t, .coll .fw _ _ _ src dst count fmt _ _ _ ext =>
    let cl := clusterOf l
    let k := s.getCluster cl
    let e := s.getCore (.coll cl)
    if t.state ≠ .running ∨ s.engineOpen p = false ∨ k.fw.isSome ∨ e.running ∨ s.cmdHeld p c ∨ s.mayRun p c = false ∨ c.status ≠ .pending ∨ t.collEntry.isNone then s
    else
      let blog : BitVec 3 := if fmt = .e4m3 ∨ fmt = .e5m2 then 5 else 0
      let g := vset (vset (vset e.g 1 (c.handle.setWidth 64)) 2 (wNat count)) 3 (wNat ext)
      let a := vset (vset (vset e.a 1 (mkPtr fmt blog dst)) 2 (mkPtr fmt blog src)) 14 (wNat t.collExit)
      let pc := wNat (t.collEntry.getD 0)
      (s.setCluster cl { k with fw := some (c.handle, l) }).setCore (.coll cl) { e with g := g, a := a, pc := pc, running := true, wait := none, load := none }
  | _, _, _ => s
/-- ENGINE_READ; for a firmware collective, the cluster's engine begins the firmware. -/
def execEngineRead (x : EvCmdPiece) (s : State) : Out :=
  match s.findCmd x.p x.h with
  | some c =>
    match c.work with
    | .coll .fw _ _ _ _ _ _ _ _ _ _ _ => .next (s.startFirmware x.p c)
    | _ => .next (s.engineRead x.p x.h x.k)
  | none => .next s

/-! ## ENG (R259–R263) -/

/-- A pointer of an engine command: its reserved bits and its fmt and blog (R260 step 1). -/
def ptrsOk (dst src : Word) (len : Nat) (s : State) (k : State → Out) : Out :=
  if !ptrOk src then trapAt codeBadaddr src len s
  else if !ptrOk dst then trapAt codeBadaddr dst len s
  else k s
/-- An issue waits while 16 commands are pending (R258). -/
def whenRoom (s : State) (k : State → Out) : Out :=
  if s.core.pending < 16 then k s
  else
    let s1 := if s.eager then s.runCmds s.cur else s
    if s1.core.pending < 16 then k s1 else stay .queueFull 0 s1

/-- The first byte of the rows that lies outside some regions, or outside the addresses below 2^53 (R260); rows in order. -/
def State.rowOutside (s : State) (ok : Region → Bool) (a : Nat) (stride : Int) (len : Nat) : Nat → Nat → Option Int
  | _, 0 => none
  | k, n + 1 =>
    let b := (a : Int) + (k : Int) * stride
    if b < 0 ∨ 2 ^ 53 ≤ b then some b
    else match s.outsideFrom ok (len / 2 ^ 16 + 2) b.toNat (min (b.toNat + len) (2 ^ 53)) with
      | some c => some (c : Int)
      | none => if 2 ^ 53 < b.toNat + len then some (2 ^ 53) else s.rowOutside ok a stride len (k + 1) n
/-- A copy of `rows` rows; `weights` for CPYW; `word` is the instruction's first word. DESIGN CHOICE: the detail of WSBUSY is 0, since
neither R260 nor R388 names one (log entry 54). -/
def copyCmd (d : GReg) (dst src : AReg) (len rows : Nat) (sstr dstr : Int) (weights : Bool) (word : Nat) (s : State) : Out :=
  let pd := s.rdA dst
  let ps := s.rdA src
  let w := CmdWork.copy (ptrAddr ps) (ptrAddr pd) len rows sstr dstr
  ptrsOk pd ps 16 s fun s =>
    if decide (2 ^ 32 ≤ rows) then trapAt codeIllegal (wNat word) 16 s
    else
      let none_ := len == 0 || rows == 0
      let bad := if none_ then none else match s.rowOutside Region.engSrc (ptrAddr ps) sstr len 0 rows with
        | some b => some b
        | none => s.rowOutside (if weights then Region.isWeights else Region.engDst) (ptrAddr pd) dstr len 0 rows
      match bad with
      | some b => trapAt codeBadaddr (wInt b) 16 s
      | none =>
        if weights && s.storeOpen (ptrAddr pd) then trapAt codeWsbusy 0 16 s
        else whenRoom s fun s =>
          if none_ then complete 16 ((s.wrG d (s.core.handle.setWidth 64)).addCmd w .done)
          else complete 16 (accept d w 5 (if weights then 14 else 6) s)
def execCpy (x : OpCpy) (s : State) : Out :=
  guarded x.q 16 s fun s => copyCmd x.d x.dst x.src (s.rdG x.len).toNat 1 0 0 false ((Instr.cpy x).encode.headD 0) s
def execCpy2 (x : OpCpy2) (s : State) : Out :=
  guarded x.q 16 s fun s =>
    copyCmd x.d x.dst x.src (s.rdG x.len).toNat (s.rdG x.rows).toNat (sI (s.rdG x.sstr)) (sI (s.rdG x.dstr)) false
      ((Instr.cpy2 x).encode.headD 0) s
def execCpyw (x : OpCpy) (s : State) : Out :=
  guarded x.q 16 s fun s => copyCmd x.d x.dst x.src (s.rdG x.len).toNat 1 0 0 true ((Instr.cpyw x).encode.headD 0) s

/-- The command a handle names, when it is among the 64 most recent (R262). -/
def Core.known (k : Core) (h : Word) : Option Cmd :=
  let n := h.toNat % 2 ^ 16
  if k.issued = 0 ∨ h.toNat ≥ 2 ^ 16 ∨ (k.issued - 1 + 2 ^ 16 - n) % 2 ^ 16 ≥ min 64 k.issued then none
  else k.cmds.find? (fun c => c.handle.toNat == n)
/-- The result word (R262). -/
def statusWord (c : Option Cmd) : Word :=
  match c with
  | none => 3
  | some c =>
    match c.status with
    | .pending => 0
    | .done => wNat (1 + c.csat * 2 ^ 16)
    | .faulted code _ => wNat (2 + code.toNat * 2 ^ 8 + c.csat * 2 ^ 16)
/-- A faulted status read clears the engine record that holds the command (R262). -/
def State.statusRead (s : State) (c : Option Cmd) : State :=
  match c, s.core.engRec with
  | some c, some r => if r.handle = c.handle ∧ (faultOf c).isSome then { s with core := { s.core with engRec := none } } else s
  | _, _ => s
/-- A status read acts as acquire: earlier releases of the processor have performed (row P6). DESIGN CHOICE: it has no address, and row P4
is tested for it at address 0, that is for a pending acquiring read whose scope covers HBM stack 0 (log entry 54). -/
def acquired (s : State) (k : State → Out) : Out :=
  let s1 := if s.heldBack s.cur 0 0 .acq .self then s.settled else s
  if s1.heldBack s.cur 0 0 .acq .self then stay .other 0 s1 else k s1
/-- ESTAT and CSTAT. -/
def readStatus (x : OpGG) (s : State) : Out :=
  guarded x.q 16 s fun s => acquired s fun s =>
    let c := s.core.known (s.rdG x.a)
    complete 16 ((s.statusRead c).wrG x.d (statusWord c))
/-- EWAIT and CWAIT: an eager machine runs the command. -/
def awaitStatus (x : OpGG) (s : State) : Out :=
  guarded x.q 16 s fun s => acquired s fun s =>
    let h := s.rdG x.a
    let s1 := match s.core.known h with
      | some c => if s.eager && c.status == CmdStatus.pending then s.runCmd s.cur c.handle else s
      | none => s
    let c := s1.core.known h
    match c with
    | none => complete 16 (s1.wrG x.d (statusWord none))
    | some k =>
      match k.status with
      | .pending => stay (.engine k.handle) 0 s1
      | .done => complete 16 (s1.wrG x.d (statusWord c))
      | .faulted code d =>
        let held := match s1.core.engRec with | some r => r.handle == k.handle | none => false
        trapAfter code d held true 16 (s1.statusRead c)
def execEstat (x : OpGG) (s : State) : Out := readStatus x s
def execEwait (x : OpGG) (s : State) : Out := awaitStatus x s
def execCstat (x : OpGG) (s : State) : Out := readStatus x s
def execCwait (x : OpGG) (s : State) : Out := awaitStatus x s

/-! ## COL (R264–R266) -/

/-- Bit L of DOM.LV. -/
def State.hasLevel (s : State) (level : Nat) : Bool := s.tile.dom.getLsbD level
def Fmt.isMx (f : Fmt) : Bool := f == .e4m3 || f == .e5m2
/-- The precise checks of R265. -/
def State.collIllegal (s : State) (x : OpColl) (d r : Word) (n : Nat) : Bool :=
  let f := ptrFmt r
  let size := s.domainSize s.cur x.level.toNat
  !s.hasLevel x.level.toNat || decide (size ≤ x.root.toNat) || ptrFmt d != f || ptrBlog d != ptrBlog r
    || f == .raw || f == .fp4 || f == .fp64 || (Fmt.isMx f && ptrBlog r != 5)
    || (x.op == .or && !f.isI) || (Fmt.isMx f && (x.op != .add || n % 32 != 0))
    || (x.kind == .redsc && n % size != 0) || (x.kind == .fw && (match s.team with | some t => !t.hasColl | none => true))
def execColl (x : OpColl) (s : State) : Out :=
  guarded x.q 16 s fun s =>
    let pd := s.rdA x.dst
    let ps := s.rdA x.src
    let n := (s.rdG x.cnt).toNat
    let lv := x.level.toNat
    if s.collIllegal x pd ps n then trapAt codeIllegal (wNat ((Instr.coll x).encode.headD 0)) 16 s
    else ptrsOk pd ps 16 s fun s =>
        let w := CmdWork.coll x.kind x.op lv x.root.toNat (ptrAddr ps) (ptrAddr pd) n (ptrFmt ps) (vget s.core.colls lv 0)
          (s.domainSize s.cur lv) (s.rankOf s.cur lv) (((Instr.coll x).encode.getD 1 0))
        let rows (ok : Region → Bool) (l : List (Nat × Nat)) : Option Int := match l with
          | (a, m) :: _ => if m = 0 then none else s.rowOutside ok a 0 m 0 1
          | [] => none
        match (rows Region.engSrc w.srcChecked).or (rows Region.engDst w.dstChecked) with
        | some b => trapAt codeBadaddr (wInt b) 16 s
        | none => whenRoom s fun s =>
          let s1 := accept x.d w 5 6 s
          let s2 := { s1 with core := { s1.core with colls := vset s1.core.colls lv (vget s1.core.colls lv 0 + 1) } }
          let e := s2.getCore (.coll s.cluster)
          complete 16 (s2.setCore (.coll s.cluster) (e.latched s.cycle))

end Sys2Proof.Machine
end

