-- ==== Sys2Proof/Machine/Fence.lean ====
section
/-!
DEFINITION. Majors 0x24, 0x26, 0x29 and 0x2A: fences and the fault records (R225, R250, R251), key-routed sends (R254–R257), the weight
store (R268–R270) and the fabric drain (R272–R275).
-/
namespace Sys2Proof.Machine
open Sys2Proof

/-! ## Fault records (R251) -/

/-- The first class a scope covers whose record holds a fault, in the order of R217. -/
def firstRecord (l : Vector (Option Nat) 6) (covers : Cls → Bool) : Option (Nat × Nat) :=
  (Cls.all.filter covers).findSome? (fun k => (vget l k.index none).map (fun a => (k.index, a)))
/-- The report of a fence at a scope: code, detail and the processor with the record cleared; `peer` tests the PEERLOST record. -/
def State.report (s : State) (sc : Scope) (peer : Bool) : Option (BitVec 8 × Word × Core) :=
  let c := s.core
  match c.engRec with
  | some r => some (r.code, r.detail, { c with engRec := none })
  | none =>
    match firstRecord c.fencedRec (s.covers sc) with
    | some (k, a) => some (codeFenced, wNat a, { c with fencedRec := vset c.fencedRec k none })
    | none =>
      match firstRecord c.memerrRec (s.covers sc) with
      | some (k, a) => some (codeMemerr, wNat a, { c with memerrRec := vset c.memerrRec k none })
      | none =>
        match c.peerRec with
        | some a => if peer then some (codePeerlost, wNat a, { c with peerRec := none }) else none
        | none => none
/-- The end of a fence, barrier or superstep: the first record is reported as a trap after the instruction, or it completes. -/
def reported (sc : Scope) (peer : Bool) (s : State) : Out :=
  match s.report sc peer with
  | some (code, d, c) => trapAfter code d true s.core.engRec.isSome 8 { s with core := c }
  | none => complete 8 s

/-! ## FENCE and FENCEE (R225) -/

/-- Whether the passes of the sequencer, whose pushes and pops are earlier accesses of the main core, have all issued. -/
def State.passesDone (s : State) : Bool := !s.onMain || s.tile.rep.count == 0
/-- Whether the processor's drain markers have left the replay buffers, which a fence over the fabric waits for (R428). -/
def State.markersGone (s : State) : Bool :=
  s.fabric.flights.all (fun x => match x.cargo with | .marker p _ => p != s.cur | _ => true)
/-- Whether the accesses a fence at a scope waits for are gone; SELF waits until those of the vector pipe have performed. -/
def State.fenceDone (s : State) (sc : Scope) : Bool :=
  s.passesDone && (!s.covers sc .fabric || s.markersGone) && s.core.pend.all (fun a => a.kind.isSev || (if sc = .self then !a.vec || a.performed else !s.coversAccess s.cur sc a))
    && (sc == .self || s.core.lates.all (fun a => !s.coversSome s.cur sc a.addr a.size))
/-- An eager machine's drain markers are accepted, where no dark interval holds them. -/
def State.settledMarkers (s : State) : State :=
  if s.eager && s.fabric.dark.isNone then
    { s with fabric := { s.fabric with flights := s.fabric.flights.filter (fun x => match x.cargo with | .marker p _ => p != s.cur | _ => true) } }
  else s
/-- An eager machine issues the next pass, or performs the accesses that are left. -/
def State.fenceStep (s : State) : State := if s.passesDone then s.settledAcks.settledMarkers else if s.eager then s.passIssue else s
/-- Performs the waited-for accesses on an eager machine; goes on when none is left. -/
def fenced (sc : Scope) (s : State) (k : State → Out) : Out :=
  let s1 := if s.fenceDone sc then s else s.fenceStep
  if s1.fenceDone sc then k s1 else stay .other 0 s1
def execFence (x : OpFence) (s : State) : Out :=
  guarded x.q 8 s fun s => fenced x.sco s fun s => reported x.sco (x.sco == .fabric || x.sco == .system) s

/-- Where a command's destination lies: its rows, or its dst operand for a collective that writes nothing here. -/
def CmdWork.destination (w : CmdWork) : List (Nat × Nat) :=
  match w with
  | .coll _ _ _ _ _ dst _ _ _ _ _ _ => if w.dstRows = [] then [(dst, 1)] else w.dstRows
  | _ => w.dstRows
/-- Whether every command whose destination a scope covers is done or faulted; classes change at multiples of 4 KiB only. -/
def State.cmdsDone (s : State) (sc : Scope) : Bool :=
  s.core.cmds.all (fun c => c.status != .pending || c.work.destination.all (fun r =>
    (chunks 4096 r.1 r.2).all (fun q => !s.coversLoc s.cur sc q.1)))
def execFencee (x : OpFence) (s : State) : Out :=
  guarded x.q 8 s fun s =>
    let s1 := if s.cmdsDone x.sco || !s.eager then s else s.runCmds s.cur
    if s1.cmdsDone x.sco then reported x.sco false s1 else stay .other 0 s1

/-! ## KEY (R254–R257) -/

/-- The scratchpad size a team declares (R140). -/
def State.spsize (s : State) : Nat := match s.team with | some t => t.spsize | none => 0
/-- Whether a configuration word keeps R255. -/
def State.keyOk (s : State) (k : Word) : Bool :=
  fld k.toNat 44 20 == 0 && decide (keyLevel k ≤ 4) && s.hasLevel (keyLevel k) && keyOp k != 7 && keyNb k != 0
    && keyBase k % 4 == 0 && decide (keyBase k + 4 * keyNb k ≤ s.spsize)
/-- Whether an access is a key-routed update towards a tile. -/
def State.keyTo (s : State) (lcid : Nat) (a : Access) : Bool :=
  !a.performed && (match a.kind, s.region a.addr with
    | .ksend _ _ _, .scratch l _ => l == lcid
    | _, _ => false)
def execKcfg (x : OpG) (s : State) : Out :=
  guarded x.q 8 s fun s =>
    if !s.keyOk (s.rdG x.a) then trapAt codeIllegal (wNat ((Instr.kcfg x).encode.headD 0)) 8 s
    else
      let arriving (s : State) : Bool := s.procs.any (fun p => (s.getCore p).pend.any (s.keyTo s.here))
      let s1 := if arriving s && s.eager then s.procs.foldl (fun s p => s.drain p) s else s
      if arriving s1 then stay .other 0 s1
      else complete 8 { s1 with tile := { s1.tile with keycfg := s.rdG x.a } }

/-- The pairs of element type and operation KSEND takes (R256). -/
def keyPair (et : Fmt) (op : Nat) : Bool :=
  match op with
  | 0 | 6 => et == .i32 || et == .n32
  | 2 | 3 => et == .i32
  | 1 | 4 | 5 => et == .fp32
  | _ => false
/-- The tile-window address of the member of a rank, where a bin's update lands; for one on another module, an address there that names the
member by its place among that module's. -/
def State.keyTarget (s : State) (level rank bin : Nat) : Nat :=
  let l := s.membersOf s.cur level
  let i := rank - s.rankBase s.cur level
  if s.rankBase s.cur level ≤ rank ∧ i < l.length then scratchAddr (l.getD i 0) ((keyBase s.tile.keycfg + 4 * bin) % 2 ^ 20)
  else match s.team with
    | some t => t.mods.getD (rank / max 1 l.length) 0 * 2 ^ 46 + rank % max 1 l.length
    | none => 0
/-- The updates of the active lanes, in lane order. -/
def State.sendKeys (s : State) (level op nb size : Nat) (m : MaskWord) : Nat → List Nat → List Nat → State
  | i, k :: ks, v :: vs =>
    if m.getLsbD i then
      let h := (k / nb * 0x9E3779B1) % 2 ^ 32
      let a := s.keyTarget level (h * size / 2 ^ 32) (k % nb)
      ((s.issueAccess (oneStep (.ksend op (k % nb) (BitVec.ofNat 32 v)) a 4 .rlx .self)).countBytes s.cur 1 a 4).sendKeys
        level op nb size m (i + 1) ks vs
    else s.sendKeys level op nb size m (i + 1) ks vs
  | _, _, _ => s
def doKsend (x : OpKsend) (s : State) : Res Unit :=
  sources x.et [.v x.keys, x.b] s fun l s =>
    let k := s.tile.keycfg
    if keyNb k = 0 ∨ keyPair x.et (keyOp k) = false then .trap codeIllegal (wNat ((Instr.ksend x).encode.headD 0))
    else .ok () (s.sendKeys (keyLevel k) (keyOp k) (keyNb k) (s.domainSize s.cur (keyLevel k)) (s.rdW x.wm) 0
      (lanesOf 32 (laneAt l 0) 16) (lanesOf 32 (laneAt l 1) 16))
def execKsend (x : OpKsend) (s : State) : Out :=
  guarded x.q 8 s fun s =>
    match doKsend x s with
    | .ok _ t => complete 8 t
    | .trap c d => raise c d 8 s
    | .wait => stay .other 0 s.settled

def Access.isKsend (a : Access) : Bool := a.kind.isKsend
def execKflush (x : OpN) (s : State) : Out :=
  guarded x.q 8 s fun s =>
    let s1 := if s.allAcked s.cur Access.isKsend then s else s.settledAcks
    if s1.allAcked s.cur Access.isKsend then complete 8 s1 else stay .kflush 0 s1

/-! ## WST (R268–R271) -/

/-- Whether a range, or what is left of it to read, meets an intercalary window. -/
def State.meetsWindow (s : State) (a n : Nat) : Bool :=
  match s.core.load with
  | none => (pieces a n).any (fun q => s.inWindow q.1)
  | some l => l.parts.any (fun q => q.bytes.isNone && s.inWindow q.addr)
/-- The destination of a WLD: a g register, or a vector register with the bytes above cleared, which may push a stream. -/
def wldWrite (d : WldDst) (n x : Nat) (s : State) : Res Unit :=
  match d with
  | .g r ext => .ok () (s.wrG r (extended ext n x))
  | .v r =>
    match s.boundSlot r with
    | none => .ok () (s.wrV r (BitVec.ofNat 512 x))
    | some k => pushSlot k ((natBytes x 64).map some) s
/-- What a WLD into a vector register may raise before it reads: a bound register it cannot push to. The stage core has no vector
registers. -/
def wldDst (x : OpWld) (s : State) (k : State → Out) : Out :=
  match x.d with
  | .g _ _ => k s
  | .v _ =>
    if !s.onMain then trapAt codeIllegal (wNat ((Instr.wld x).encode.headD 0)) 8 s
    else match wldWrite x.d 64 0 s with
      | .trap c d => raise c d 8 s
      | _ => k s
/-- WLD: no write reaches an open weight store, so the load needs no ordering (R239). -/
def execWld (x : OpWld) (s : State) : Out :=
  guarded x.q 8 s fun s => checked x.m x.asz Region.isWeights false s fun ea s =>
    let n := x.asz.bytes
    if x.nowait && s.meetsWindow ea n then complete 8 ({ s with core := { s.core with load := none } }.wrP x.q.gp false)
    else wldDst x s fun s =>
      match s.goesOn, x.d with
      | true, .g r ext =>
        complete 8 ((s.countBytes s.cur 0 ea n).issueLate (.ld (.g r) ext (if x.nowait then some x.q.gp else none)) ea n .rlx .self)
      | _, _ =>
        reading [ea] n .rlx .self (some ea) 8 s fun bytes s =>
          match wldWrite x.d n (leNat bytes) s with
          | .ok _ t => complete 8 t
          | .trap c d => raise c d 8 s
          | .wait => stay .other 0 s.settled
/-- The answer of IWIN for a bank group at a time (R270). -/
def windowTime (gtime grp : Nat) : Nat :=
  let t := gtime % 32000
  let a := 1000 * grp
  if a ≤ t ∧ t < a + 1000 then 2 ^ 63 + (a + 1000 - t) else (a + 32000 - t) % 32000
def execIwin (x : OpIwin) (s : State) : Out :=
  guarded x.q 8 s fun s => checked x.m .b Region.isWeights false s fun ea s =>
    complete 8 (s.wrG x.d (wNat (windowTime s.gtime (fld ea 25 5))))
/-- INTERCALARY_WINDOW_END: the time base reaches the end of a bank group's window (R29). -/
def execIntercalaryWindowEnd (x : EvBank) (s : State) : Out :=
  if s.gtime % 32000 / 1000 = x.grp then .next { s with gtime := s.gtime / 1000 * 1000 + 1000 } else .next s

/-! ## FAB (R272–R275) -/

def State.validPeers (s : State) : List Nat := (List.range 64).filter (fun m => (vget s.fabric.peers m Peer.empty).valid)
/-- Whether every fabric write of the processor has been injected (R273). -/
def State.fabricSent (s : State) : Bool :=
  s.core.pend.all (fun a => a.performed || a.paid || s.classOf s.cur a.addr != .fabric)
def execXmark (x : OpEpoch) (s : State) : Out :=
  guarded x.q 8 s fun s =>
    let s1 := if s.fabricSent then s else s.settled
    if !s1.fabricSent || s1.fabric.dark.isSome || s1.validPeers.any (fun m => !s1.fabric.opens (vget s1.fabric.peers m Peer.empty)) then stay .other 0 s1
    else complete 8 (s1.validPeers.foldl (fun s m => s.sendTo m s.tag (.marker s.cur x.e) []) s1)
def State.epochsAre (s : State) (e : BitVec 8) : Bool :=
  s.validPeers.all (fun m => (vget s.fabric.peers m Peer.empty).epoch == some e)
/-- Whether a wait's timeout has passed: cycle c + T has ended, with T = 0 for none. -/
def State.timedOut (s : State) : Bool :=
  match s.core.wait with
  | some w => w.limit != 0 && decide (w.since + w.limit < s.cycle)
  | none => false
/-- Whether every valid peer's marker of the epoch arrived before a waiting XWAIT's timeout elapsed. DESIGN CHOICE: one that arrives in the
timeout's last cycle is in time, as R286 and R290 say of BARW and WFED and R274 does not say (log entry 54). -/
def State.epochsInTime (s : State) (e : BitVec 8) : Bool :=
  s.epochsAre e && (match s.core.wait with
    | some w => w.limit == 0 || s.validPeers.all (fun m => decide ((vget s.fabric.peers m Peer.empty).epochAt ≤ w.since + w.limit))
    | none => true)
/-- A task that resumed at an XWAIT makes its single test (R448). -/
def State.singleTest (s : State) : Bool := match s.tile.task with | some t => t.single | none => false
def State.endSingle (s : State) : State :=
  { s with tile := { s.tile with task := s.tile.task.map (fun t => { t with single := false }) } }
def execXwait (x : OpXwait) (s : State) : Out :=
  guarded x.q 8 s fun s =>
    if s.epochsInTime x.e then complete 8 (s.endSingle.wrP x.d true)
    else if s.timedOut || (s.onMain && s.singleTest) then complete 8 (s.endSingle.wrP x.d false)
    else stay (.xwait x.d x.e) (s.rdG x.a).toNat s
/-- XWAIT_TIMEOUT: the timeout of a waiting XWAIT elapses. -/
def execXwaitTimeout (x : EvProc) (s : State) : Out :=
  match (s.getCore x.p).wait with
  | some ⟨.xwait d e, _, _⟩ =>
    let s1 := s.focus x.p
    if s1.timedOut && !s1.epochsInTime e && s1.core.running && !s.pastStop x.p then complete 8 (s1.wrP d false) else .next s
  | _ => .next s
/-- The word of a peer-table entry (R275). -/
def State.peerWord (s : State) (i : Nat) : Nat :=
  let gen := s.fabric.gen.toNat * 2 ^ 48
  if 64 ≤ i then gen
  else
    let q := vget s.fabric.peers i Peer.empty
    bit q.valid * 2 ^ 63 + gen + q.allow * 2 ^ 32 + q.port.toNat * 2 ^ 8 + i
def execXpeer (x : OpGG) (s : State) : Out :=
  guarded x.q 8 s fun s => complete 8 (s.wrG x.d (wNat (s.peerWord (s.rdG x.a).toNat)))
/-- DRAIN_MARKER: a peer's marker arrives after its earlier messages, and its epoch is recorded (R273). -/
def State.recordEpoch (s : State) (m : Nat) (e : BitVec 8) : State :=
  let q := vget s.fabric.peers m Peer.empty
  if q.valid then { s with fabric := { s.fabric with peers := vset s.fabric.peers m { q with epoch := some e, epochAt := s.cycle } } } else s
def execDrainMarker (x : EvMarker) (s : State) : Out := .next (s.recordEpoch x.peer x.epoch)

end Sys2Proof.Machine
end

