-- ==== Sys2Proof/Machine/Tasks.lean ====
section
/-!
DEFINITION. Major 0x30 and the task engine's steps (R41–R52, R278–R284, R448): spawning, decrementing, retiring, yielding,
continuations, dispatch, migration, the launch entry and CLOAD.
-/
namespace Sys2Proof.Machine
open Sys2Proof

/-! ## TSPAWN and TDEC (R278, R279) -/

/-- The checks of a TCB pointer. -/
def tcbPointer (r : AReg) (s : State) (k : Nat → State → Out) : Out :=
  let w := s.rdA r
  let t := ptrAddr w
  if !ptrOk w then trapAt codeBadaddr w 8 s
  else if !((s.region t).isGlobal || (s.region t).isScratch) then trapAt codeBadaddr (wNat t) 8 s
  else if t % 64 ≠ 0 then trapAt codeAlign (wNat t) 8 s
  else k t s
/-- The task engine reads a spawned TCB: it checks it, and the task is ready when its PCNT is 0. -/
def State.spawned (s : State) (t : Team) (a : Nat) : State :=
  match tcbFault s t a with
  | some code => s.engineStop t code (tcbDetail code a (tcbRef t a)) s.here
  | none => if tcbPcnt s t a = 0 then s.makeReady t (clusterOf s.here) a else s
/-- TSPAWN. DESIGN CHOICE: one whose TCB lies on a fenced tile or in a lost peer's memory raises a precise FENCED or PEERLOST with the TCB's
address and starts no task, since R241 lists no read of the task engine and R278 names BADADDR and ALIGN alone (log entry 54). -/
def execTspawn (x : OpA) (s : State) : Out :=
  guarded x.q 8 s fun s => tcbPointer x.a s fun a s => fenced .domain s fun s =>
    match s.team with
    | none => complete 8 s
    | some t =>
      let s := if s.heldBack s.cur a 64 .rlx .self then s.settled else s
      if s.heldBack s.cur a 64 .rlx .self then stay .other 0 s
      else match (if t.mayUse a 64 then s.wayFault a else none) with
      | some code => memTrap code a 8 s
      | none =>
        let s1 := (s.retire.advance 8).addTask t.num
        .next (s1.spawned t a)
def execTdec (x : OpA) (s : State) : Out :=
  guarded x.q 8 s fun s => tcbPointer x.a s fun a s => 
    complete 8 ((s.issueAccess (oneStep .pcnt (a + 4) 2 .rel .domain)).countRequest s.cur (a + 4) 2)

/-! ## TEND (R281, R282) -/

/-- Every command of the processor is done or faulted. -/
def Core.idleEngines (c : Core) : Bool := c.cmds.all (fun d => d.status != .pending)
/-- Every access has performed and been acknowledged; SEV's set is none. -/
def Core.quiet (c : Core) : Bool := c.pend.all (fun a => a.kind.isSev) && c.lates.isEmpty
/-- An eager processor runs its commands and performs its accesses. -/
def State.finish (s : State) : State := if s.eager then (s.runCmds s.cur).settledAcks else s
/-- Every slot unbound and unconfigured. -/
def State.unbind (s : State) : State := { s with tile := { s.tile with streams := Vector.replicate 4 Stream.empty } }
/-- The loops end, and the task with its hint is gone; the core is idle. -/
def State.endTask (s : State) : State :=
  let l := { s.tile.loop with active := 0, lc := Vector.replicate 4 0 }
  { s with core := { s.core with running := false, wait := none, load := none }
           tile := { s.tile with loop := l, task := none, handler := { s.tile.handler with inBody := false } } }
/-- The running task retires (R43–R45). -/
def State.retireRunning (s : State) : State :=
  let team := s.teamNum
  let s1 := ((s.retire.count 0 2 1).trace 2)
  let s2 := match s.tile.task with
    | some t => s1.decrementAll team s.here t.tcb
    | none => s1
  (s2.endTask).retireTask team
def execTend (x : OpN) (s : State) : Out :=
  guarded x.q 8 s fun s =>
    let s1 := s.settledAcks
    if !s1.allAcked s1.cur Access.ofStream then stay .other 0 s1
    else
      let s2 := s1.unbind.finish
      if !s2.core.idleEngines || !s2.core.quiet then stay .other 0 s2
      else match s2.report .system true with
        | some (code, d, c) => trapHeld code d s2.core.engRec.isSome 8 { s2 with core := c }
        | none => .next s2.retireRunning
/-- TEND on the stage core: the PC stays at the TEND. -/
def execStageTend (x : OpN) (s : State) : Out :=
  guarded x.q 8 s fun s =>
    let s1 := s.finish
    if !s1.core.idleEngines || !s1.core.quiet then stay .other 0 s1
    else match s1.report .system true with
      | some (code, d, c) => trapHeld code d s1.core.engRec.isSome 8 { s1 with core := c }
      | none => .next { s1.retire with core := { s1.retire.core with running := false } }

/-! ## Continuations (R48–R50, R283, R284) -/

/-- The translator's record of the instruction at the PC (R49, R343). -/
def State.live (s : State) : Option LiveRec :=
  match s.team with
  | some t => t.code.live.find? (fun r => r.pc == s.core.pc.toNat)
  | none => none
/-- The number of bits set among the low `n`. -/
def bitCount (m : BitVec 48) : Nat → Nat
  | 0 => 0
  | n + 1 => bit (m.getLsbD n) + bitCount m n
/-- The continuation store is full: its 64 records, one of them kept free for a record whose migration may come back (R18, R49, R51). -/
def Tile.storeFull (t : Tile) : Bool := decide (64 ≤ t.conts.length + bit t.migrating)
/-- Whether a would-be yield does not happen (R49); an instruction without a record keeps the core. -/
def State.keepsCore (s : State) : Bool :=
  (match s.live with | some r => r.vec || decide (16 < bitCount r.mask 48) | none => true)
    || s.tile.loop.active != 0 || (List.range 4).any (fun k => (s.slot k).isBound) || s.tile.rep.count != 0
    || s.tile.rep.fault.isSome || s.tile.storeFull || s.tile.handler.hin || s.tile.task.isNone
/-- The registers a live mask names, in ascending number. -/
def liveRegs (g : Vector Word 32) (a : Vector Word 16) (m : BitVec 48) : List Word :=
  ((g.toList ++ a.toList).zipIdx.filter (fun r => m.getLsbD r.2)).map Prod.fst
def predByte (p : Vector Bool 8) : BitVec 8 := BitVec.ofNat 8 ((List.range 8).foldl (fun n i => n + bit (i != 0 && vget p i false) * 2 ^ i) 0)
/-- The continuation the running task forms. -/
def State.continuation (s : State) (k : Task) (pc : Word) (w : ContWait) : Cont :=
  let m := match s.live with | some r => r.mask | none => 0
  let c := s.core
  { id := s.tile.nextCont, pc := pc, mask := m, regs := liveRegs c.g c.a m, seed := c.seed, tid := k.tid, preds := predByte c.p,
    cls := k.cls, restartable := k.restartable, named := k.named || k.matrix, fpctl := c.fpctl, fpflags := c.fpflags, wait := w,
    isReady := w == .ready, hint := k.hint, time := s.cycle, tcb := k.tcb, single := false, home := k.home }
/-- A ready continuation's place in its tile's local ready queue. -/
def contItem (team : Nat) (c : Cont) : ReadyItem := ⟨team, .cont c.id, c.cls.toNat, c.named, c.time, none⟩
/-- The running task parks; the core becomes idle. -/
def State.park (s : State) (pc : Word) (w : ContWait) : State :=
  match s.tile.task with
  | none => s
  | some k =>
    let c := s.continuation k pc w
    let s1 := (s.count 0 3 1).trace 3
    let q := if w = .ready then s1.tile.localQ ++ [contItem s.teamNum c] else s1.tile.localQ
    { s1 with core := { s1.core with running := false, wait := none, load := none }
              tile := { s1.tile with conts := s1.tile.conts ++ [c], nextCont := c.id + 1, localQ := q, task := none } }
/-- Whether everything the task has issued is done, but for a push its home has refused (R237). -/
def Core.parkable (c : Core) (w : ContWait) : Bool :=
  c.pend.all (fun a => a.kind.isSev || (match w with | .pushed n => a.seq == n && a.refused | _ => false))
def execTyield (x : OpN) (s : State) : Out :=
  guarded x.q 8 s fun s =>
    if s.keepsCore then complete 8 s
    else
      let s1 := s.settledAcks
      if s1.core.parkable .ready then .next ((s1.retire).park (s.core.pc + 8) .ready) else stay .other 0 s1
def execThint (x : OpHint) (s : State) : Out :=
  guarded x.q 8 s fun s =>
    complete 8 { s with tile := { s.tile with task := s.tile.task.map (fun t => { t with hint := x.h }) } }

/-- What the continuation of a waiting yielding instruction waits for, and where it resumes (R448). -/
def State.contWait (s : State) (w : Wait) (i : Instr) (len : Nat) : Option (ContWait × Word) :=
  let pc := s.core.pc
  match w.kind, i with
  | .lds, .lds x => some (.full (s.ea x.m x.asz / 8), pc)
  | .push, .qpush _ => some (.pushed (s.core.seq - 1), pc + wNat len)
  | .popYield, .qpopw x => match (s.region (s.queueEa x.ab x.ix x.isc)).queue with
    | some (l, n) => some (.entry (8 * l + n), pc)
    | none => none
  | .engine h, _ => some (.cmd h, pc)
  | .kflush, _ => some (.kflush, pc)
  | .xwait _ e, _ => some (.epoch e (if w.limit = 0 then 0 else w.since + w.limit), pc)
  | .queueFull, _ => some (.room, pc)
  | _, _ => none
/-- The running main core of a tile yields at the instruction it waits at, when it may. -/
def State.yieldNow (s : State) (w : Wait) : State :=
  match s.fetch with
  | .words a b =>
    match decodeFor .main a.toNat b.toNat with
    | .ok i =>
      match s.contWait w i (if fld a.toNat 62 2 = 1 then 16 else 8) with
      | some (c, pc) =>
        let s1 := s.settledAcks
        if s1.core.parkable c then s1.park pc c else s
      | none => s
    | .error _ => s
  | _ => s
/-- YIELD_TIMEOUT (R48): the 64 cycles after a yielding instruction's issue have passed; from the time of a stop on nothing parks (R394). -/
def execYieldTimeout (x : EvTile) (s : State) : Out :=
  let c := s.getCore (.main x.lcid)
  match c.wait with
  | some w =>
    if c.running ∧ s.pastStop (.main x.lcid) = false ∧ w.since + 64 ≤ s.cycle then
      let s1 := s.focus (.main x.lcid)
      .next ((if s1.keepsCore then s1 else s1.yieldNow w).focus s.cur)
    else .next s
  | none => .next s

/-- Whether a parked continuation's condition holds (R448). -/
def State.contHolds (s : State) (lcid : Nat) (c : Cont) : Bool :=
  let k := s.getCore (.main lcid)
  match c.wait with
  | .ready => true
  | .full u => s.full.contains u
  | .pushed n => k.pend.all (fun a => a.seq != n)
  | .entry q => s.queue q != []
  | .cmd h => match k.cmds.find? (fun d => d.handle == h) with | some d => d.status != .pending | none => true
  | .kflush => k.pend.all (fun a => !a.isKsend)
  | .epoch e t => s.epochsAre e || (t != 0 && decide (t < s.cycle))
  | .room => decide (k.pending < 16)
/-- CONTINUATION_READY. -/
def execContinuationReady (x : EvCont) (s : State) : Out :=
  let t := s.getTile x.lcid
  match t.conts[x.i]? with
  | some c =>
    if c.isReady ∨ s.tileRuns x.lcid = false ∨ s.contHolds x.lcid c = false then .next s
    else
      let d := { c with isReady := true, time := s.cycle }
      .next (s.setTile x.lcid { t with conts := setAt t.conts x.i d, localQ := t.localQ ++ [contItem t.team d] })
  | none => .next s

/-- The stub at which the core in focus stands. -/
def State.stubAt (s : State) : Option Nat :=
  if !s.onMain then none
  else s.team.bind (fun t => t.code.linkOf s.core.pc.toNat)
/-- A context at a stub waits in place until the function is published, and goes on there. -/
def atStub (i : Nat) (s : State) : Out :=
  match s.team.bind (fun t => t.code.published i) with
  | some a => .next { s with core := { s.core with wait := none, pc := wNat a }, tile := { s.tile with call := 0 } }
  | none => stay .other 0 s

/-! ## Dispatch (R46, R75) -/

/-- Whether an item comes before another: a lower class, then an earlier time; the first of equals stays first. -/
def ReadyItem.before (x y : ReadyItem) : Bool := decide (x.cls < y.cls) || (x.cls == y.cls && decide (x.time < y.time))
def bestItem : List ReadyItem → Option ReadyItem
  | [] => none
  | x :: r => match bestItem r with
    | some y => if y.before x then some y else some x
    | none => some x
/-- The ready work within a tile's reach: its local queue, then its cluster's. -/
def State.reach (s : State) (lcid : Nat) : List ReadyItem :=
  let t := s.getTile lcid
  (t.localQ ++ (s.getCluster (clusterOf lcid)).readyQ).filter (fun i => i.team == t.team)
/-- The item a dispatch takes (R46). -/
def State.choose (s : State) (lcid : Nat) : Option ReadyItem :=
  let l := s.reach lcid
  match (if 15 ≤ (s.getCluster (clusterOf lcid)).since3 then bestItem (l.filter (fun i => i.cls == 3)) else none) with
  | some i => some i
  | none => bestItem l
def removeItem (i : ReadyItem) (l : List ReadyItem) : List ReadyItem := l.erase i
/-- An item leaves its queue, and the cluster counts the dispatch. -/
def State.take (s : State) (lcid : Nat) (i : ReadyItem) : State :=
  let t := s.getTile lcid
  let cl := clusterOf lcid
  let k := s.getCluster cl
  let n := if i.cls = 3 then 0 else min 15 (k.since3 + 1)
  if t.localQ.contains i then (s.setTile lcid { t with localQ := t.localQ.erase i }).setCluster cl { k with since3 := n }
  else s.setCluster cl { k with since3 := n, readyQ := k.readyQ.erase i }

/-- The a registers of the buffers a task declares (R75, R144). -/
def bufPointer (t : Team) (lcid : Nat) (b : Nat) : Word :=
  match t.bufs[b]? with
  | some x => mkPtr (Fmt.ofCode x.fmt.toNat) x.blog (if x.scratch then scratchAddr lcid x.addr else x.addr)
  | none => 0
/-- The main core's registers at task entry (R75); SEED is the home LCID's (R52). -/
def entryCore (s : State) (t : Team) (r : TaskRow) (c : Core) (lcid tcb home : Nat) : Core :=
  let g : Vector Word 32 := Vector.ofFn (fun i => if 1 ≤ i.val ∧ i.val ≤ 4 then wNat (tcbArg s t tcb (i.val - 1)) else 0)
  let a : Vector Word 16 := Vector.ofFn (fun i =>
    if i.val = 0 then wNat tcb
    else if i.val ≤ 6 then (match r.bufix[i.val - 1]? with | some b => if b = 0xFF then 0 else bufPointer t lcid b | none => 0)
    else if i.val = 14 then wNat t.code.exitStub
    else if i.val = 15 then wNat (scratchAddr lcid 0x100000)
    else 0)
  { c with g := g, a := a, p := Vector.replicate 8 false, pc := wNat (t.code.entry r.link), fpctl := 0, fpflags := 0,
           seed := seedStart t.jobseed home, running := true, wait := none, load := none }
/-- The tile's units as a task finds them at its entry, and a continuation when it resumes. -/
def Tile.entry (t : Tile) (k : Task) : Tile :=
  { t with v := Vector.replicate 32 0, w := Vector.replicate 8 0, loop := LoopState.empty, streams := Vector.replicate 4 Stream.empty,
           rep := Repeat.empty, task := some k, call := 0 }
/-- The register a mask bit names takes its value from the list. -/
def restoreRegs (m : BitVec 48) : Nat → Nat → List Word → List Word
  | _, 0, _ => []
  | i, n + 1, l =>
    match m.getLsbD i, l with
    | true, x :: r => x :: restoreRegs m (i + 1) n r
    | _, l => 0 :: restoreRegs m (i + 1) n l
/-- The main core's registers when a continuation resumes (R50). -/
def resumeCore (c : Cont) (k : Core) : Core :=
  let l := restoreRegs c.mask 0 48 c.regs
  { k with g := Vector.ofFn (fun i => l.getD i.val 0), a := Vector.ofFn (fun i => l.getD (32 + i.val) 0),
           p := Vector.ofFn (fun i => c.preds.getLsbD i.val), pc := c.pc, fpctl := c.fpctl, fpflags := c.fpflags, seed := c.seed,
           running := true, wait := none, load := none }

/-- A trace record of a tile's running task. -/
def State.traceAt (s : State) (lcid kind : Nat) : State := s.traceOn lcid kind (s.getTile lcid).tid
/-- A dispatch into an unloaded object, or a restore of a marked context (R79, R351): FAULTW and FAULTA of the context hold the PC at
which it would have resumed, and the team fails with CODEGONE. -/
def State.codeGone (s : State) (t : Team) (lcid : Nat) (pc : Word) : State :=
  let w := faultWord codeCodegone false 0 pc.toNat
  let d := pc &&& 0x1FFFFFFFFFFFFF#64
  let s1 := s.setCore (.main lcid) { s.getCore (.main lcid) with faultw := w, faulta := d }
  ((s1.traceAt lcid 6).countAt lcid 5 1 1).failTeam t.num w d lcid
/-- The first dispatch of a launch counts its latency (C7 counter 0), and the team holds its slice. -/
def State.place (s : State) (t : Team) (lcid : Nat) : State :=
  let s1 := if t.placed || t.hasSave then s else s.countAt lcid 7 0 (s.gtime - t.launchAt)
  match s1.findTeam t.num with
  | some u => s1.putTeam { u with placed := true }
  | none => s1
/-- The dispatch of a task by its TCB; a restarted one keeps its home (R399). The detail of a fault found here is the form of R42 for a
TCB named by address: the model's choice (log entry 17). -/
def State.startTask (s : State) (t : Team) (lcid tcb : Nat) (named : Bool) (home : Option Nat) : State :=
  match tcbFault s t tcb with
  | some code => s.engineStop t code (tcbDetail code tcb (tcbRef t tcb)) lcid
  | none =>
    match t.tasks[tcbEntry s t tcb]? with
    | none => s.engineStop t codeIllegal (tcbRef t tcb) lcid
    | some r =>
      if !t.code.holds (t.code.entry r.link) then s.codeGone t lcid (wNat (t.code.entry r.link))
      else
        let f := tcbFlags s t tcb
        let h := home.getD lcid
        let k : Task := ⟨tcb, BitVec.ofNat 32 (tcbTid s t tcb), BitVec.ofNat 2 f, fld f 2 1 == 1, named, 0, false, false, h⟩
        let c := s.getCore (.main lcid)
        (((s.setCore (.main lcid) (entryCore s t r c lcid tcb h)).setTile lcid ((s.getTile lcid).entry k)).place t lcid).traceAt lcid 1
/-- The dispatch of a continuation of the tile's store. -/
def State.startCont (s : State) (t : Team) (lcid id : Nat) : State :=
  let k := s.getTile lcid
  match k.conts.find? (fun c => c.id == id) with
  | none => s
  | some c =>
    let k' := { k with conts := k.conts.filter (fun d => d.id != id) }
    if !t.code.holds c.pc.toNat then (s.setTile lcid k').codeGone t lcid c.pc
    else
      let single : Bool := match c.wait with | .epoch _ _ => true | _ => false
      let r : Task := ⟨c.tcb, c.tid, c.cls, c.restartable, c.named, 0, false, single, c.home⟩
      (((s.setCore (.main lcid) (resumeCore c (s.getCore (.main lcid)))).setTile lcid (k'.entry r)).place t lcid).traceAt lcid 1
/-- No stop of the team has fallen yet: one that is named for later stops nothing before its time (R394). -/
def Team.beforeStop (t : Team) (now : Nat) : Bool :=
  match t.stop with
  | .none => true
  | .named a => decide (now < a)
  | _ => false
/-- The team's saved state has not come back yet (R54). -/
def Team.restorePending (t : Team) : Bool := t.hasSave && !t.placed
/-- Whether a tile's task engine may dispatch: its team holds the cluster and runs, and its main core is idle. -/
def State.mayDispatch (s : State) (lcid : Nat) : Option Team :=
  let k := s.getTile lcid
  match s.findTeam k.team with
  | some t =>
    if t.state = .running ∧ t.beforeStop s.gtime ∧ t.restorePending = false ∧ k.task.isNone ∧ k.fenced = false ∧ k.frozen = false ∧ (s.getCore (.main lcid)).running = false
    then some t else none
  | none => none
/-- DISPATCH (R46). -/
def execDispatch (x : EvTile) (s : State) : Out :=
  match s.mayDispatch x.lcid, s.choose x.lcid with
  | some t, some i =>
    let s1 := s.take x.lcid i
    match i.work with
    | .task a => .next (s1.startTask t x.lcid a i.named i.home)
    | .cont id => .next (s1.startCont t x.lcid id)
  | _, _ => .next s

/-! ## Migration (R51, R284) and CLOAD (R24) -/

/-- The ready depth of a tile (R24). -/
def Tile.depth (t : Tile) : Nat :=
  (t.localQ.filter (fun i => match i.work with | .task _ => true | _ => false)).length + (t.conts.filter (fun c => c.isReady)).length
def State.cloadField (s : State) (lcid : Nat) : Nat :=
  let t := s.getTile lcid
  if t.fenced then 15 else min t.depth 14
/-- CLOAD_REFRESH. -/
def execCloadRefresh (x : EvCluster) (s : State) : Out :=
  let w := (List.range 16).foldl (fun n t => n + s.cloadField (tileOfCluster x.cl t) * 2 ^ (4 * t)) 0
  .next (s.setCluster x.cl { s.getCluster x.cl with cload := wNat w })

/-- The largest class, and in it the one that became ready last. -/
def migrant : List Cont → Option Cont
  | [] => none
  | c :: r => match migrant r with
    | some d => if d.cls.toNat < c.cls.toNat ∨ (d.cls = c.cls ∧ d.time < c.time) then some c else some d
    | none => some c
/-- The continuations a tile offers (R51, R284): of the largest class among the ready ones, without those of named-tile tasks and those
that keep their tile; with 8 or fewer ready, those that are to spread. -/
def Tile.offers (t : Tile) : List Cont :=
  let l := t.conts.filter (fun c => c.isReady)
  let cls := l.foldl (fun m c => max m c.cls.toNat) 0
  l.filter (fun c => c.cls.toNat == cls && !c.named && c.hint != 1 && (decide (8 < l.length) || c.hint == 2))
/-- The other tile of the cluster with the smallest CLOAD field, and that field. -/
def State.leastLoaded (s : State) (lcid : Nat) : Option (Nat × Nat) :=
  let w := (s.getCluster (clusterOf lcid)).cload.toNat
  ((List.range 16).filter (fun t => t != tileInCluster lcid)).foldl (fun b t =>
    let f := fld w (4 * t) 4
    match b with
    | some (g, u) => if f < g then some (f, t) else some (g, u)
    | none => some (f, t)) none
/-- CONTINUATION_MIGRATE. -/
def execContinuationMigrate (x : EvTile) (s : State) : Out :=
  let k := s.getTile x.lcid
  match migrant k.offers, s.leastLoaded x.lcid, s.findTeam k.team with
  | some c, some (f, t), some tm =>
    if k.migrating ∨ k.depth < f + 2 ∨ tm.state ≠ .running ∨ tm.beforeStop s.gtime = false ∨ tm.restorePending then .next s
    else
      let k' := { k with migrating := true, conts := k.conts.filter (fun d => d.id != c.id),
                         localQ := k.localQ.filter (fun i => i.work != .cont c.id) }
      let m : Migration := ⟨x.lcid, tileOfCluster (clusterOf x.lcid) t, c, false⟩
      let s1 := (s.setTile x.lcid k').countFlits (.main x.lcid) (scratchAddr m.to_ 0) 160
      .next (({ s1 with migrations := s1.migrations ++ [m] }).traceOn x.lcid 4 c.tid.toNat)
  | _, _, _ => .next s
/-- A continuation enters a tile's store and local ready queue, in its place in time. -/
def State.storeCont (s : State) (lcid : Nat) (c : Cont) : State :=
  let k := s.getTile lcid
  let d := { c with id := k.nextCont }
  s.setTile lcid { k with conts := k.conts ++ [d], nextCont := k.nextCont + 1, localQ := k.localQ ++ [contItem k.team d] }
def State.endMigration (s : State) (lcid : Nat) : State := s.setTile lcid { s.getTile lcid with migrating := false }
/-- MIGRATION_ARRIVAL: the target takes the record, without the hint, which no record carries (R284), or sends it back. -/
def execMigrationArrival (x : EvIdx) (s : State) : Out :=
  match s.migrations[x.i]? with
  | some m =>
    let k := s.getTile m.to_
    if m.back ∨ s.tileRuns m.from_ = false then .next s
    else if k.fenced ∨ k.storeFull then .next { s with migrations := setAt s.migrations x.i { m with back := true } }
    else .next (((({ s with migrations := dropAt s.migrations x.i }).storeCont m.to_ { m.cont with hint := 0 }).endMigration m.from_).countAt
      m.from_ 0 4 1)
  | none => .next s
/-- MIGRATION_RETURN: a refused record returns to its own store; to a fenced tile once the tile is remapped. -/
def execMigrationReturn (x : EvIdx) (s : State) : Out :=
  match s.migrations[x.i]? with
  | some m =>
    if m.back ∧ s.tileRuns m.from_ ∧ (s.getTile m.from_).fenced = false then
      .next ((({ s with migrations := dropAt s.migrations x.i }).storeCont m.from_ { m.cont with hint := 0 }).endMigration m.from_)
    else .next s
  | none => .next s

/-! ## The launch entry (R47) and the stage cores (R334) -/

/-- The task engine reads a TCB that the launch entry brings, and checks it as every TCB it touches (R42, R47); a fault stops the team and
the rest. -/
def State.launchTcb (s : State) (num a : Nat) : State :=
  match s.findTeam num with
  | none => s
  | some t =>
    if t.state = .failed then s
    else match tcbFault s t a with
      | some code => s.engineStop t code (tcbDetail code a (tcbRef t a)) (t.tiles.headD 0)
      | none => if tcbPcnt s t a = 0 then s.makeReady t ((t.clusters.headD (0, 0)).1) a else s
/-- STAGE_START: the stage core of a placed tile starts at the STAGE entry with the state of R64. -/
def execStageStart (x : EvTile) (s : State) : Out :=
  let k := s.getTile x.lcid
  let c := s.getCore (.stage x.lcid)
  match s.findTeam k.team with
  | some t =>
    match t.stageEntry with
    | some e =>
      if t.state ≠ .running ∨ t.beforeStop s.gtime = false ∨ t.restorePending ∨ k.stageOn ∨ k.fenced ∨ k.frozen then .next s
      else
        let d := { Core.empty with seed := seedStart t.jobseed (x.lcid + 1024), pc := wNat e, running := true, latch := c.latch }
        .next ((s.setCore (.stage x.lcid) d).setTile x.lcid { k with stageOn := true })
    | none => .next s
  | none => .next s

end Sys2Proof.Machine
end

