-- ==== Sys2Proof/Machine/Sync.lean ====
section
/-!
DEFINITION. Majors 0x31 and 0x32: barriers, the superstep gate with its phases (R40), events and time (R234, R235, R285–R293), with the steps GATE_ARRIVE,
GATE_DEPART and BARRIER_COMPLETE and the timeouts of BARW and WFED.
-/
namespace Sys2Proof.Machine
open Sys2Proof

/-! ## Barrier state (R74, R285) -/

def Tile.bar (t : Tile) (lv : Nat) : BarLevel := vget t.bars lv BarLevel.empty
def Tile.setBar (t : Tile) (lv : Nat) (b : BarLevel) : Tile := { t with bars := vset t.bars lv b }
/-- The bytes of a context's barrier record: episodes of levels 1 to 4, then phases. -/
def Tile.barBytes (t : Tile) (lcid : Nat) : List Host.Cell :=
  (List.range 4).flatMap fun k =>
    cellsOf (portAddr lcid (0xFE0 + 4 * k)) (t.bar (k + 1)).episodes.toNat 4
      ++ cellsOf (portAddr lcid (0xFF0 + 4 * k)) (t.bar (k + 1)).phase.toNat 4
/-- A level of a context changes; for levels 1 to 4 the record is rewritten, and it raises its event. -/
def State.putBar (s : State) (lcid lv : Nat) (b : BarLevel) : State :=
  let t := (s.getTile lcid).setBar lv b
  let s1 := s.setTile lcid t
  if lv = 0 then s1 else ({ s1 with mem := memPut s1.mem (t.barBytes lcid) }).event lcid 2
/-- The members of the level-L domain of a tile on this module. -/
def State.domain (s : State) (lcid lv : Nat) : List Nat :=
  match s.findTeam (s.getTile lcid).team with
  | some t => t.members lcid lv
  | none => [lcid]
/-- Whether a level reaches beyond this module, so that only an event tells of the other modules' members. -/
def State.beyond (s : State) (lcid lv : Nat) : Bool :=
  lv == 4 && (match s.findTeam (s.getTile lcid).team with | some t => decide (1 < t.nmod) | none => false)

/-! ## BAR and BARW (R285, R286) -/

/-- Whether the timeout of the BARW at which a tile's main core waits has elapsed: its arrival no longer stands (R286). -/
def State.withdrawn (s : State) (lcid : Nat) : Bool :=
  match (s.getCore (.main lcid)).wait with
  | some ⟨.barw _ _, since, limit⟩ => limit != 0 && decide (since + limit < s.cycle)
  | _ => false
def State.allArrived (s : State) (lcid lv : Nat) : Bool :=
  (s.domain lcid lv).all (fun m => ((s.getTile m).bar lv).arrived && !s.withdrawn m)
/-- The episode completes for every member. -/
def State.completeBarrier (s : State) (lcid lv : Nat) : State :=
  (s.domain lcid lv).foldl (fun s m =>
    let b := (s.getTile m).bar lv
    (s.putBar m lv { b with arrived := false, done := true, episodes := b.episodes + 1 }).countAt m 7 3 1) s
/-- The sender of an arrival as the mailbox log names it (R396): the tile itself, or, at a level that reaches beyond the module, a member of
another module, which is a free value (log entry 21). -/
def State.arrivalFrom (s : State) (lcid lv : Nat) : Nat :=
  if s.beyond lcid lv then Config.farSender s.free % 2 ^ 32 else s.senderOf (.main lcid)
/-- An arrival from another module for a stopped team of several modules whose tile another team holds (R396). -/
def State.arrivalAway (s : State) (x : EvTileLevel) (e : Nat → BarLevel → LogEntry) : State :=
  if x.level = 4 then match s.awayTeam x.lcid (fun _ => true) with
    | some t => s.logFor t (e (Config.farSender s.free % 2 ^ 32) (t.barOf x.lcid 4))
    | none => s
  else s
/-- BARRIER_COMPLETE: every member has arrived; at level 4 the event tells that the other modules' have. What reaches a stopped
context is logged (R396). -/
def execBarrierComplete (x : EvTileLevel) (s : State) : Out :=
  if s.allArrived x.lcid x.level then
    (if s.tileStopped x.lcid then .next (s.logEntry x.lcid
      (.barrier x.lcid x.level (s.arrivalFrom x.lcid x.level) ((s.getTile x.lcid).bar x.level).episodes.toNat)) else .next (s.completeBarrier x.lcid x.level))
  else .next (s.arrivalAway x (fun p b => .barrier x.lcid 4 p b.episodes.toNat))

def State.myBar (s : State) (lv : Nat) : BarLevel := s.tile.bar lv
/-- The arrival, and on an eager machine the completion it brings. -/
def State.arrive (s : State) (lv : Nat) : State :=
  let s1 := { s with tile := s.tile.setBar lv { s.myBar lv with arrived := true } }
  if s.eager && s1.allArrived s.here lv && !s1.beyond s.here lv then s1.completeBarrier s.here lv else s1
/-- One barrier instruction: `kind` and `limit` make its wait, `fin` writes its result and `late` ends it by its timeout. -/
def barrier (lv : BitVec 3) (word : Word) (kind : WaitKind) (limit : Nat) (fin late : State → State) (s : State) : Out :=
  let l := lv.toNat
  let after (s : State) : Out :=
    if (s.myBar l).done then
      reported (levelScope l) false (fin { s with tile := s.tile.setBar l { s.myBar l with done := false } })
    else if s.timedOut then complete 8 (late { s with tile := s.tile.setBar l { s.myBar l with arrived := false } })
    else stay kind limit s
  if !s.hasLevel l then trapAt codeIllegal word 8 s
  else if (s.myBar l).done || (s.myBar l).arrived then after s
  else if s.timedOut then complete 8 (late s)
  else
    let s1 := if s.fenceDone (levelScope l) then s else s.fenceStep
    if s1.fenceDone (levelScope l) then after (s1.arrive l) else stay kind limit s1
def execBar (x : OpLevel) (s : State) : Out :=
  guarded x.q 8 s fun s => barrier x.lv (wNat ((Instr.bar x).encode.headD 0)) .bar 0 id id s
def execBarw (x : OpBarw) (s : State) : Out :=
  guarded x.q 8 s fun s =>
    barrier x.lv (wNat ((Instr.barw x).encode.headD 0)) (.barw x.d x.lv) (s.rdG x.a).toNat
      (fun s => s.wrP x.d true) (fun s => s.wrP x.d false) s
/-- BARW_TIMEOUT: the timeout of a waiting BARW elapses; a completion in its last cycle wins. -/
def execBarwTimeout (x : EvProc) (s : State) : Out :=
  match (s.getCore x.p).wait with
  | some ⟨.barw d lv, _, _⟩ =>
    let s1 := s.focus x.p
    if s1.timedOut && !(s1.myBar lv.toNat).done && s1.core.running && !s.pastStop x.p then
      complete 8 ({ s1 with tile := s1.tile.setBar lv.toNat { s1.myBar lv.toNat with arrived := false } }.wrP d false)
    else .next s
  | _ => .next s

/-! ## The superstep gate (R235, R287) -/

/-- The records that apply to a compute phase of a level (R147). -/
def StepRec.applies (r : StepRec) (lv n : Nat) : Bool :=
  r.level == lv && (r.phase == n || (decide (0 < r.period ∧ r.phase ≤ n) && (n - r.phase) % r.period == 0))
/-- One STEP transfer of the tile in focus (R147), issued as a copy command; of one towards another module this state holds the reads
and the messages (log entry 21). -/
def State.stepTransfer (s : State) (t : Team) (lv : Nat) (x : StepXfer) : State :=
  let size := s.domainSize s.cur lv
  let rank := (((s.rankOf s.cur lv : Nat) : Int) + x.peer) % (size : Int)
  let i := rank.toNat - s.rankBase s.cur lv
  let l := s.membersOf s.cur lv
  let off (b : Nat) : Nat := match t.bufs[b]? with | some y => y.addr | none => 0
  let src := scratchAddr s.here (off x.src + x.srcOff)
  if s.rankBase s.cur lv ≤ rank.toNat ∧ i < l.length then
    accept 0 (.copy src (scratchAddr (l.getD i 0) (off x.dst + x.dstOff)) x.len 1 0 0) 5 6 s
  else accept 0 (.away src x.len (t.mods.getD (rank.toNat / max 1 l.length) 0)) 5 0 s
/-- The transfers that apply to a compute phase, in record order. -/
def State.stepTransfers (s : State) (lv n : Nat) : State :=
  match s.team with
  | none => s
  | some t => ((t.steps.filter (fun r => r.applies lv n)).flatMap StepRec.xfers).foldl (fun s x => s.stepTransfer t lv x) s

/-- Whether GATE-ARRIVE of a processor is enabled: its covered accesses, its commands and its key-routed sends are done. -/
def State.mayArrive (s : State) (p : ProcId) (lv : Nat) : Bool :=
  let c := s.getCore p
  (match p with | .main n => (s.getTile n).rep.count == 0 | _ => true)
    && c.pend.all (fun a => a.kind.isSev || (!s.coversAccess p (levelScope lv) a && !a.isKsend)) && c.idleEngines
/-- Whether every member has arrived for a member's phase; one that has departed is a phase further. -/
def State.mayDepart (s : State) (lcid lv : Nat) : Bool :=
  let b := (s.getTile lcid).bar lv
  b.gateArrived && (s.domain lcid lv).all (fun m =>
    let c := (s.getTile m).bar lv
    (c.phase == b.phase && c.gateArrived) || c.phase == b.phase + 1)
def State.gateArrive (s : State) (lcid lv : Nat) : State :=
  s.setTile lcid ((s.getTile lcid).setBar lv { (s.getTile lcid).bar lv with gateArrived := true })
/-- GATE-DEPART of a member: the next phase begins for it. -/
def State.gateDepart (s : State) (lcid lv : Nat) : State :=
  let b := (s.getTile lcid).bar lv
  (s.putBar lcid lv { b with gateArrived := false, gateDone := true, sent := false, phase := b.phase + 1 }).countAt lcid 7 1 1

/-- GATE_ARRIVE: a member that waits at an SSTEP of the level arrives, when R235 enables it. -/
def execGateArrive (x : EvTileLevel) (s : State) : Out :=
  let p := ProcId.main x.lcid
  match (s.getCore p).wait with
  | some ⟨.sstep lv, _, _⟩ =>
    let b := (s.getTile x.lcid).bar x.level
    if lv.toNat = x.level ∧ b.sent ∧ !b.gateDone ∧ !s.pastStop p ∧ s.mayArrive p x.level then .next (s.gateArrive x.lcid x.level) else .next s
  | _ => .next s
/-- GATE_DEPART; at level 4 the event tells that the other modules' members have arrived. -/
def execGateDepart (x : EvTileLevel) (s : State) : Out :=
  if s.mayDepart x.lcid x.level then
    (if s.tileStopped x.lcid then .next (s.logEntry x.lcid
      (.gate x.lcid x.level (s.arrivalFrom x.lcid x.level) ((s.getTile x.lcid).bar x.level).phase.toNat)) else .next (s.gateDepart x.lcid x.level))
  else .next (s.arrivalAway x (fun p b => .gate x.lcid 4 p b.phase.toNat))

/-- An eager machine takes the gate's steps of the processor in focus. -/
def State.gateSteps (s : State) (lv : Nat) : State :=
  if !s.eager then s
  else
    let s1 := if (s.myBar lv).gateArrived || s.mayArrive s.cur lv then s else if s.passesDone then s.finish else s.passIssue
    let s2 := if s1.mayArrive s1.cur lv then s1.gateArrive s.here lv else s1
    if s2.mayDepart s.here lv && !s2.beyond s.here lv then s2.gateDepart s.here lv else s2
/-- SSTEP after its transfers: it waits for its departure, and reports. -/
def sstepEnd (x : OpSstep) (s : State) : Out :=
  let l := x.lv.toNat
  let s1 := if (s.myBar l).gateDone then s else s.gateSteps l
  if (s1.myBar l).gateDone then
    let s2 := { s1 with tile := s1.tile.setBar l { s1.myBar l with gateDone := false } }
    reported (levelScope l) false ((s2.wrG x.d (wNat (s2.myBar l).phase.toNat)).trace 5)
  else stay (.sstep x.lv) 0 s1
def execSstep (x : OpSstep) (s : State) : Out :=
  guarded x.q 8 s fun s =>
    let l := x.lv.toNat
    let b := s.myBar l
    if !s.hasLevel l then trapAt codeIllegal (wNat ((Instr.sstep x).encode.headD 0)) 8 s
    else if b.gateDone || b.gateArrived || b.sent then sstepEnd x s
    else
      let s1 := if b.phase.toNat % 2 = 0 then s.stepTransfers l (b.phase.toNat / 2) else s
      sstepEnd x { s1 with tile := s1.tile.setBar l { b with sent := true } }

/-! ## Events and time (R290–R293) -/

/-- The latch consumed. -/
def State.clearLatch (s : State) : State := { s with core := s.core.consumed s.cycle }
def execWfe (x : OpN) (s : State) : Out :=
  guarded x.q 8 s fun s => if s.core.latch then complete 8 s.clearLatch else stay .other 0 s
/-- Whether the latch was set before a waiting WFED's timeout ended; a set in its last cycle wins. -/
def State.latchInTime (s : State) : Bool :=
  match s.core.wait with
  | some w => w.limit == 0 || decide (s.core.latchAt ≤ w.since + w.limit)
  | none => true
def execWfed (x : OpPG) (s : State) : Out :=
  guarded x.q 8 s fun s =>
    if s.core.latch && s.latchInTime then complete 8 (s.clearLatch.wrP x.d true)
    else if s.timedOut then complete 8 (s.wrP x.d false)
    else stay (.wfed x.d) (s.rdG x.a).toNat s
/-- WFED_TIMEOUT: the timeout of a waiting WFED elapses; a set in its last cycle wins. -/
def execWfedTimeout (x : EvProc) (s : State) : Out :=
  match (s.getCore x.p).wait with
  | some ⟨.wfed d, _, _⟩ =>
    let s1 := s.focus x.p
    if s1.timedOut && !(s1.core.latch && s1.latchInTime) && s1.core.running && !s.pastStop x.p then complete 8 (s1.wrP d false) else .next s
  | _ => .next s

/-- SEV: its set is a step of its own at the target tile's latch word. -/
def execSev (x : OpG) (s : State) : Out :=
  guarded x.q 8 s fun s =>
    let w := (s.rdG x.a).toNat
    if fld w 17 47 ≠ 0 ∨ fld w 10 6 ≠ 0 then trapAt codeIllegal (wNat ((Instr.sev x).encode.headD 0)) 8 s
    else complete 8 ((s.issueAccess (oneStep (.sev (fld w 16 1 == 1)) (portAddr (fld w 0 10) 0x1000) 8 .rlx .self)).countRequest s.cur
      (portAddr (fld w 0 10) 0x1000) 8)
def execGtime (x : OpG) (s : State) : Out := guarded x.q 8 s fun s => complete 8 (s.wrG x.a (wNat s.gtime))

end Sys2Proof.Machine
end

