-- ==== Sys2Proof/Machine/System.lean ====
section
/-!
DEFINITION. Major 0x33: special registers (R24, R34, R39, R55, R65–R69, R271, R294, R367, R433, R444), TRAP, BRK and TRET (R295, R296).
-/
namespace Sys2Proof.Machine
open Sys2Proof

/-! ## Special registers -/

/-- A processor of a compute die, which has a tile's or a cluster's placement. -/
def State.placed (s : State) : Bool :=
  match s.cur with
  | .main _ | .stage _ | .coll _ => true
  | .trust _ | .mgmt => false
/-- The tile whose LCID, DOM and counters a processor reads. -/
def State.ownTile (s : State) : Tile :=
  match s.cur with
  | .main _ | .stage _ => s.tile
  | .coll c => s.getTile (tileOfCluster c 0)
  | .trust _ | .mgmt => Tile.empty
/-- NETCAP (R34). -/
def State.netcap (s : State) : Nat :=
  8 * 2 ^ 48 + 32 * 2 ^ 40 + 32 * 2 ^ 32 + s.host.msgmax * 2 ^ 24 + 64 * 2 ^ 16 + 32 * 2 ^ 8 + 32
/-- EXTBn and EXTLn (R65). -/
def Extent.wordB (x : Extent) : Nat :=
  bit x.sr * 2 ^ 63 + bit x.er * 2 ^ 62 + bit x.wr * 2 ^ 61 + bit x.rd * 2 ^ 60 + x.base.toNat
def Extent.wordL (x : Extent) : Nat := x.tag.toNat * 2 ^ 54 + bit x.valid * 2 ^ 53 + x.limit.toNat
/-- The slot of the calendar that is current (R53). -/
def slotNow (gtime : Nat) : Nat := gtime / 2 ^ 18 % 16
/-- SLICE (R55). -/
def State.sliceWord (s : State) : Nat :=
  let k := s.getCluster s.cluster
  let share := if s.placed then (k.slots.toList.filter (fun t => t == some s.teamNum)).length else 0
  share * 2 ^ 32 + slotNow s.gtime * 2 ^ 28 + (2 ^ 18 - s.gtime % 2 ^ 18)
/-- A cluster's monitor word (R444). -/
def Cluster.monitor (k : Cluster) : Nat := min k.droops 0xFFFF * 2 ^ 32 + k.clock % 16 * 2 ^ 24 + k.temp.toNat
/-- What SRR reads at an index. -/
def State.special (s : State) (idx : Nat) : Word :=
  if idx = 0x000 then wNat (if s.placed then s.recordLcid else 0)
  else if idx = 0x001 then wNat s.modid.toNat
  else if idx = 0x002 then wNat s.teamNum
  else if idx = 0x003 then wNat s.tag
  else if idx = 0x004 then (if s.onMain then (match s.tile.task with | some k => wNat k.tid.toNat | none => 0) else 0)
  else if idx = 0x005 then s.ownTile.dom
  else if idx = 0x006 then (if s.placed then (s.getCluster s.cluster).cload else 0)
  else if idx = 0x007 then wNat s.netcap
  else if idx = 0x008 then wNat s.core.fpctl.toNat
  else if idx = 0x009 then wNat s.core.fpflags.toNat
  else if idx = 0x00A then s.core.seed
  else if idx = 0x00B then wNat s.core.evmask.toNat
  else if idx = 0x00C then wNat (s.gtime % 32000 / 1000 * 2 ^ 16 + s.gtime % 32000)
  else if idx = 0x00D then s.core.faultw
  else if idx = 0x00E then s.core.faulta
  else if idx = 0x00F then s.boot.ready
  else if idx < 0x020 then wNat (s.extent (idx - 0x010)).wordB
  else if idx < 0x030 then wNat (s.extent (idx - 0x020)).wordL
  else if idx < 0x080 then vget s.ownTile.ctr (idx - 0x040) 0
  else if idx = 0x080 then wNat s.sliceWord
  else if idx = 0x100 then s.host.doorbell
  else wNat (s.getCluster (idx - 0x140)).monitor
/-- R68: FPFLAGS is read and written once every stream push already issued has completed. -/
def State.flagsSettled (s : State) (idx : Nat) : State :=
  if idx != 0x009 || s.allAcked s.cur Access.ofStream then s else s.settledAcks
/-- Whether a stream push still holds an access to FPFLAGS. -/
def State.flagsHeld (s : State) (idx : Nat) : Bool := idx == 0x009 && !s.allAcked s.cur Access.ofStream
def execSrr (x : OpSrr) (s : State) : Out :=
  guarded x.q 8 s fun s =>
    let s1 := s.flagsSettled x.idx.toNat
    if s1.flagsHeld x.idx.toNat then stay .other 0 s1 else complete 8 (s1.wrG x.d (s1.special x.idx.toNat))

/-- The values SRW may write: no reserved bit set, and no reserved rounding mode (R66, R67). -/
def specialOk (idx v : Nat) : Bool :=
  if idx = 0x008 then decide (v < 2 ^ 5 ∧ v % 8 < 6)
  else if idx = 0x009 then decide (v < 2 ^ 5)
  else if idx = 0x00B then decide (v < 2 ^ 4)
  else true
/-- The processor with an RW special register written. -/
def Core.setSpecial (c : Core) (idx : Nat) (v : Word) : Core :=
  if idx = 0x008 then { c with fpctl := v.setWidth 5 }
  else if idx = 0x009 then { c with fpflags := v.setWidth 5 }
  else if idx = 0x00A then { c with seed := v }
  else { c with evmask := v.setWidth 4 }
def execSrw (x : OpSrw) (s : State) : Out :=
  guarded x.q 8 s fun s =>
    let v := s.rdG x.a
    if specialOk x.idx.toNat v.toNat then
      let s1 := s.flagsSettled x.idx.toNat
      if s1.flagsHeld x.idx.toNat then stay .other 0 s1 else complete 8 { s1 with core := s1.core.setSpecial x.idx.toNat v }
    else trapAt codeIllegal (wNat ((Instr.srw x).encode.headD 0)) 8 s

/-! ## TRAP, BRK and TRET (R295, R296) -/

def execTrapI (x : OpTrap) (s : State) : Out := guarded x.q 8 s fun s => trapAfter x.code (s.rdG x.a) false false 8 s
def execBrk (x : OpBrk) (s : State) : Out := guarded x.q 8 s fun s => trapAfter codeBreak (wNat x.n.toNat) false false 8 s

def execTret (x : OpTret) (s : State) : Out :=
  guarded x.q 8 s fun s =>
    let h := s.tile.handler
    if !h.hin then trapAt codeIllegal (wNat ((Instr.tret x).encode.headD 0)) 8 s
    else
      let s1 := s.retire.leaveHandler
      if x.mode && h.skip then
        let r := if s1.loopTests then s1.endOfBody h.hresume else (s1, none)
        .next { r.1 with core := { r.1.core with pc := r.2.getD (h.hresume + (if h.hlen16 then 16 else 8)) } }
      else .next { s1 with core := { s1.core with pc := h.hresume } }

end Sys2Proof.Machine
end

