-- ==== Sys2Proof/Machine/Rings.lean ====
section
/-!
DEFINITION. Majors 0x38 and 0x39: the ring registers (R300–R310) and the fills (R311–R315), with the step FILL_PUBLISH.
-/
namespace Sys2Proof.Machine
open Sys2Proof

/-! ## Rings (R300, R301) -/

def Tile.ring (t : Tile) (m : Ring) : RingReg := vget t.rings m.toNat RingReg.empty
def State.ring (s : State) (m : Ring) : RingReg := s.tile.ring m
def State.setRing (s : State) (m : Ring) (r : RingReg) : State := { s with tile := { s.tile with rings := vset s.tile.rings m.toNat r } }
/-- The configuration word (R300). -/
def RingReg.word (r : RingReg) : Word := wNat (r.base.toNat + r.count * 2 ^ 20 + r.esize * 2 ^ 27 + bit r.layout * 2 ^ 36)
/-- COUNT − FILLED − K. -/
def RingReg.free (r : RingReg) : Nat := r.count - r.filled - r.claims.length
/-- The scratchpad offset of an entry. -/
def RingReg.entry (r : RingReg) (e : Nat) : Nat := r.base.toNat + e % max 1 r.count * r.esize * 256
def RingReg.pop (r : RingReg) (n : Nat) : RingReg := { r with head := (r.head + n) % max 1 r.count, filled := r.filled - n }
def RingReg.publish (r : RingReg) (n : Nat) : RingReg := { r with tail := (r.tail + n) % max 1 r.count, filled := r.filled + n }

/-- Whether a step of a place in the order of R301 may fall in a cycle: no step of a later place has fallen in it. -/
def RingReg.may (r : RingReg) (rank now : Nat) : Bool := r.at_ != now || decide (r.rank ≤ rank)
def RingReg.stamp (r : RingReg) (rank now : Nat) : RingReg := { r with at_ := now, rank := rank }
/-- A step on a ring that the other processor has configured, or that a later place has been taken of, in this cycle falls in a later
one (R301, R335). -/
def inOrder (m : Ring) (rank : Nat) (s : State) (k : State → Out) : Out := if (s.ring m).may rank s.cycle then k s else stay .other 0 s
/-- The place of a configuration: the main core's takes effect first (R335). -/
def State.cfgRank (s : State) : Nat := if s.onMain then 5 else 6

/-- A ring or matrix instruction that a task has issued binds its continuations to the tile (R333). -/
def State.useMatrix (s : State) : State :=
  if s.onMain then { s with tile := { s.tile with task := s.tile.task.map (fun t => { t with matrix := true }) } } else s
/-- A ring or matrix instruction traps. -/
def matrixTrap (code : BitVec 8) (detail : Word) (len : Nat) (s : State) : Out := trapAt code detail len s.useMatrix
/-- The detail of RINGUSE (R303). -/
def ringUse (cause : Nat) (m : Ring) (len : Nat) (s : State) : Out := matrixTrap codeRinguse (wNat (cause + m.toNat * 2 ^ 8)) len s
/-- A ring or matrix instruction completes. -/
def matrixDone (len : Nat) (s : State) : Out := complete len s.useMatrix

/-! ## Publication of fills (R301, R310) -/

/-- Whether the oldest claimed fill of a ring has written its entry; one that has been discarded never has (R334). -/
def State.fillReady (s : State) (lcid : Nat) (h : BitVec 16) : Bool :=
  match s.findCmd (.stage lcid) h with
  | some c => c.status == .done || (c.status == .pending && c.allWritten && c.allRead)
  | none => false
/-- A fill's command after its publication. -/
def State.released (s : State) (lcid : Nat) (h : BitVec 16) : State :=
  match s.findCmd (.stage lcid) h with
  | some c => s.putCmd (.stage lcid) { c with needed := false }
  | none => s
/-- Whether a tile's fills are published: its team has not failed (R334), and its commands take steps. -/
def State.mayPublish (s : State) (lcid : Nat) : Bool :=
  s.engineOpen (.stage lcid) && (match s.teamOf (.stage lcid) with | some t => t.state != .failed | none => true)
/-- The entry at TAIL is published, when its fill has written it. -/
def State.publishFill (s : State) (lcid : Nat) (m : Ring) : State :=
  let k := s.getTile lcid
  let r := k.ring m
  match r.claims with
  | [] => s
  | h :: rest =>
    if s.fillReady lcid h && r.may 2 s.cycle && s.mayPublish lcid then
      let r1 := ({ r.publish 1 with claims := rest } : RingReg).stamp 2 s.cycle
      (((s.setTile lcid { k with rings := vset k.rings m.toNat r1 }).released lcid h).countAt lcid 2 7 1).progressOf (.stage lcid)
    else s
/-- FILL_PUBLISH. -/
def execFillPublish (x : EvRing) (s : State) : Out := .next (s.publishFill x.lcid x.m)
/-- An eager tile runs its stage core's commands and publishes what they have filled. -/
def State.pumpFills (s : State) (m : Ring) : State :=
  if s.eager then
    (List.range (s.ring m).claims.length).foldl (fun s _ => s.publishFill s.here m) (s.runCmds (.stage s.here))
  else s

/-! ## RING (R304–R309) -/

/-- The word of R300 taken apart. -/
def ringOfWord (r : RingReg) (w : Nat) : RingReg :=
  { r with base := BitVec.ofNat 20 w, count := fld w 20 7, esize := fld w 27 9, layout := fld w 36 1 == 1, head := 0, tail := 0,
           filled := 0, ncommit := 0, wid8 := 0, wid16 := 0 }
/-- Whether a configuration word keeps R305's limits. -/
def ringWordOk (spsize w : Nat) : Bool :=
  let count := fld w 20 7
  let esize := fld w 27 9
  let base := fld w 0 20
  if count = 0 then decide (w = 0)
  else decide (count ≤ 64 ∧ 1 ≤ esize ∧ esize ≤ 256 ∧ base % 4096 = 0 ∧ base + count * esize * 256 ≤ spsize)
    && (fld w 36 1 == 0 || esize == 32)
/-- Whether a matrix instruction in progress reads a ring. -/
def State.ringRead (s : State) (m : Ring) : Bool := s.tile.mmas.any (fun x => x.ma == m || x.mb == m)
def execRcfg (x : OpRing) (s : State) : Out :=
  guarded x.q 8 s fun s =>
    let w := (s.rdG x.g).toNat
    if fld w 37 27 ≠ 0 then matrixTrap codeIllegal (wNat ((Instr.rcfg x).encode.headD 0)) 8 s
    else if !ringWordOk s.spsize w then ringUse 1 x.m 8 s
    else
      let s1 := if (s.ring x.m).claims = [] then s else s.pumpFills x.m
      if (s1.ring x.m).claims ≠ [] ∨ s1.ringRead x.m then stay .other 0 s1
      else inOrder x.m s1.cfgRank s1 fun s =>
        matrixDone 8 (s.setRing x.m ((ringOfWord (s.ring x.m) w).stamp s.cfgRank s.cycle))
def execRtol (x : OpRing) (s : State) : Out :=
  guarded x.q 8 s fun s =>
    let w := s.rdG x.g
    if fld w.toNat 34 30 ≠ 0 then matrixTrap codeIllegal (wNat ((Instr.rtol x).encode.headD 0)) 8 s
    else inOrder x.m s.cfgRank s fun s =>
      matrixDone 8 (s.setRing x.m (({ s.ring x.m with tol := w } : RingReg).stamp s.cfgRank s.cycle))
/-- What RGET selects (R307). -/
def RingReg.select (r : RingReg) (sel : Nat) : Word :=
  match sel with
  | 0 => r.word
  | 1 => wNat (r.head + r.tail * 2 ^ 8 + r.filled * 2 ^ 16 + r.claims.length * 2 ^ 24)
  | 2 => r.tol
  | 3 => r.ncommit
  | 4 => r.wid8
  | _ => r.wid16
def execRget (x : OpRget) (s : State) : Out :=
  guarded x.q 8 s fun s => inOrder x.m 4 s fun s =>
    matrixDone 8 ((s.wrG x.d ((s.ring x.m).select x.sel.toNat)).setRing x.m ((s.ring x.m).stamp 4 s.cycle))

/-- Whether every earlier access to a location of class TILE has performed (R310). -/
def State.tileQuiet (s : State) : Bool :=
  s.core.pend.all (fun a => a.performed || a.kind.isSev || !s.coversAccess s.cur .tile a)
    && s.core.lates.all (fun a => !s.coversSome s.cur .tile a.addr a.size)
def execRadv (x : OpRadv) (s : State) : Out :=
  guarded x.q 8 s fun s => inOrder x.m (if x.far then 2 else 1) s fun s =>
    let r := s.ring x.m
    let n := x.n.toNat
    if r.count = 0 then ringUse 2 x.m 8 s
    else if x.far && r.claims != [] then ringUse 5 x.m 8 s
    else if (if x.far then r.free else r.filled) < n then ringUse 4 x.m 8 s
    else
      let s1 := if s.tileQuiet then s else s.settled
      if !s1.tileQuiet || (!x.far && s1.ringRead x.m) then stay .other 0 s1
      else
        matrixDone 8 (s1.setRing x.m ((if x.far then (s1.ring x.m).publish n else (s1.ring x.m).pop n).stamp (if x.far then 2 else 1)
          s1.cycle))
def execRwait (x : OpRadv) (s : State) : Out :=
  guarded x.q 8 s fun s => inOrder x.m 4 s fun s =>
    let n := x.n.toNat
    let ok (s : State) : Bool := decide (n ≤ (if x.far then (s.ring x.m).free else (s.ring x.m).filled))
    if (s.ring x.m).count = 0 then ringUse 2 x.m 8 s
    else if (s.ring x.m).count < n then ringUse 6 x.m 8 s
    else acquired s fun s =>
      let s1 := if ok s then s else s.pumpFills x.m
      if ok s1 then matrixDone 8 (s1.setRing x.m ((s1.ring x.m).stamp 4 s1.cycle)) else stay .other 0 s1

/-! ## FILL (R311–R315) -/

/-- A fill's acceptance (R312 step 7): its source rows against the extents. -/
def acceptFill (d : GReg) (w : CmdWork) (need : BitVec 4) (s : State) : State :=
  let h := s.core.handle
  let s1 := (s.wrG d (h.setWidth 64)).progress
  match s.firstUngranted need 0 w.srcRows with
  | some o => (s1.addCmd w (.faulted codeEngext (engextDetail h 0 o))).engineFaulted s.cur ⟨h, codeEngext, engextDetail h 0 o⟩
  | none =>
    (((s1.addCmd w .pending).countBytes s.cur 0 ((w.srcRows.headD (0, 0)).1) ((w.srcRows.map Prod.snd).sum)).countBytes s.cur 1
      ((w.dstRows.headD (0, 0)).1) ((w.dstRows.map Prod.snd).sum))
/-- The ANCHOR of a source row (R302): the lowest extent that holds its first byte with read and engine rights. -/
def State.anchorOf (s : State) (a : Nat) : Word :=
  match (List.range 16).find? (fun x => (s.extent x).grants 5 a) with
  | some x => wNat (12 * 2 ^ 60 + x * 2 ^ 56 + (a - (s.extent x).base.toNat))
  | none => wNat (12 * 2 ^ 60)
/-- The wait for a free entry and for room in the queue, and the claim (R312 steps 5 and 6). -/
def claimed (m : Ring) (s : State) (k : Nat → State → Out) : Out :=
  let s1 := if (s.ring m).free = 0 then s.pumpFills m else s
  if (s1.ring m).free = 0 then stay .other 0 s1
  else whenRoom s1 fun s => inOrder m 3 s fun s =>
    let r := s.ring m
    k (scratchAddr s.here (r.entry (r.tail + r.claims.length)))
      (s.setRing m (({ r with claims := r.claims ++ [s.core.handle] } : RingReg).stamp 3 s.cycle))
/-- The checks of R312 steps 1 to 4, with the 64 source rows, the regions they may lie in, the illegal case and the ring's condition. -/
def fillChecks (m : Ring) (src : AReg) (a str w : Nat) (ok : Region → Bool) (bad : Bool) (fits : RingReg → Bool) (word : Nat)
    (s : State) (k : State → Out) : Out :=
  if !ptrOk (s.rdA src) then trapAt codeBadaddr (s.rdA src) 16 s
  else match s.rowOutside ok a str w 0 64 with
    | some b => trapAt codeBadaddr (wInt b) 16 s
    | none =>
      if bad then trapAt codeIllegal (wNat word) 16 s
      else inOrder m 3 s fun s =>
        if (s.ring m).count = 0 then ringUse 2 m 16 s
        else if !fits (s.ring m) then ringUse 3 m 16 s
        else k s
/-- The regions RQUANT and RFILL read. -/
def Region.fillSrc (r : Region) : Bool := r.isGlobal || r.isScratch
def execRquant (x : OpRquant) (s : State) : Out :=
  guarded x.q 16 s fun s =>
    let w := s.rdA x.src
    let a := ptrAddr w
    let str := if x.str = 0 then 128 else (s.rdG x.str).toNat
    let band := if x.fixed then some ((s.rdG x.band).setWidth 16) else none
    fillChecks x.m x.src a str 128 Region.fillSrc (ptrFmt w != .bf16 || ptrBlog w != 0 || decide (2 ^ 32 ≤ str))
      (fun r => r.layout) ((Instr.rquant x).encode.headD 0) s fun s =>
      claimed x.m s fun dst s =>
        let rm := resolveRm s.core.fpctl x.rm
        let c := s.core
        let s1 := if rm = .rsr then { s with core := { c with seed := seedNext c.seed 8192 } } else s
        complete 16 (acceptFill x.d (.quant x.m a dst str band rm c.seed (s.anchorOf a)) 5 s1)
/-- RFILL, and RFILLW from the weight store. -/
def rawFill (x : OpRfill) (ok : Region → Bool) (need : BitVec 4) (word : Nat) (s : State) : Out :=
  guarded x.q 16 s fun s =>
    let a := ptrAddr (s.rdA x.src)
    let w := (s.rdG x.width).toNat
    let str := if x.str = 0 then w else (s.rdG x.str).toNat
    fillChecks x.m x.src a str w ok (decide (x.str ≠ 0 ∧ 2 ^ 32 ≤ str) || w == 0)
      (fun r => !r.layout && decide (64 * w ≤ r.esize * 256)) word s fun s =>
      claimed x.m s fun dst s => complete 16 (acceptFill x.d (.fill x.m a dst str w) need s)
def execRfill (x : OpRfill) (s : State) : Out := rawFill x Region.fillSrc 5 ((Instr.rfill x).encode.headD 0) s
def execRfillw (x : OpRfill) (s : State) : Out := rawFill x Region.isWeights 13 ((Instr.rfillw x).encode.headD 0) s

end Sys2Proof.Machine
end

