-- ==== Sys2Proof/Machine/Matrix.lean ====
section
/-!
DEFINITION. Majors 0x3A and 0x3B: the matrix instructions (R316–R328), accumulators in and out (R329–R331), and the steps
ANCHOR_REFETCH and MMA_COMMIT of a matrix instruction that has begun.
-/
namespace Sys2Proof
open Machine

/-- Element sizes of the memory forms. -/
def AccFmt.size : AccFmt → Nat
  | .w80 => 10 | .bf16 => 2 | .fp16 => 2 | .fp32 => 4
def AccFmt.fp : AccFmt → FP
  | .w80 => fpW80 | .bf16 => fpBf16 | .fp16 => fpFp16 | .fp32 => fpFp32

end Sys2Proof
namespace Sys2Proof.Machine
open Sys2Proof

/-! ## Accumulator sets (R62) -/

def Tile.accSet (t : Tile) (c : Bool) : AccSet := vget t.acc (bit c) AccSet.empty
def State.setAcc (s : State) (c : Bool) (x : AccSet) : State := { s with tile := { s.tile with acc := vset s.tile.acc (bit c) x } }
/-- The cells that are no +0, by their place in the bank. -/
def bankOf (cells : List Nat) : List (Nat × W80) :=
  (cells.zipIdx.filter (fun c => c.1 != 0)).map (fun c => (c.2, BitVec.ofNat 80 c.1))
def AccSet.cell (x : AccSet) (n : Nat) : Nat := (assoc x.cells n 0).toNat
/-- A set whose bank is written whole, with its verdict and totals reset. -/
def AccSet.fresh (cells : List (Nat × W80)) : AccSet := ⟨cells, [], none, Vector.replicate 3 0⟩

/-! ## The refetch (R322) -/

/-- The detail of a refetch's failure. -/
def anchorDetail (m : Ring) (opnd row a : Nat) : Word := wNat (m.toNat * 2 ^ 61 + opnd * 2 ^ 60 + row * 2 ^ 54 + a % 2 ^ 53)
/-- The extent an entry's ANCHOR names, and the address of a row of its source, which may pass 2^53. -/
def anchorExt (e : List Byte) : Nat := bytesNat e 0 8 / 2 ^ 56 % 16
def State.anchorRow (s : State) (e : List Byte) (i : Nat) : Nat :=
  (s.extent (anchorExt e)).base.toNat + bytesNat e 0 8 % 2 ^ 53 + i * bytesNat e 0x10 4
/-- The regions a refetch reads. -/
def Region.anchorSrc (r : Region) : Bool :=
  match r with
  | .peer _ => false
  | r => r.engSrc
/-- What a row of a refetch fails with; a row that passes 2^53 fails its check, as R260 says of a range. DESIGN CHOICE: a row's ANCHOR comes
before its FENCED and that before its MEMERR, and the detail of FENCED is the piece's address, for which R322 gives no layout (log
entry 54). -/
def State.rowFault (s : State) (m : Ring) (opnd : Nat) (e : List Byte) (i : Nat) : Option (BitVec 8 × Word) :=
  let a := s.anchorRow e i
  let fail (b : Nat) : Option (BitVec 8 × Word) := some (codeAnchor, anchorDetail m opnd i b)
  if !(s.extent (anchorExt e)).valid then fail a
  else match s.firstOutside Region.anchorSrc [(a, min 128 (2 ^ 53 - a))], s.firstUngranted 5 0 [(a, min 128 (2 ^ 53 - a))] with
    | some b, some o => fail (min b (a + o))
    | some b, none => fail b
    | none, some o => fail (a + o)
    | none, none =>
        if 2 ^ 53 < a + 128 then fail (max a (2 ^ 53))
        else match (pieces a 128).findSome? (fun q => (s.wayFault q.1).map (fun c => (c, wNat q.1))) with
        | some f => some f
        | none =>
          if s.badHeld s.cur a 128 then some (codeMemerr, anchorDetail m opnd i (s.badByte s.cur a 128))
          else match (List.range 128).find? (fun k => s.tagFails s.cur (a + k) 1) with
            | some k => some (codeMemerr, anchorDetail m opnd i (a + k) ||| 0x8000000000000000)
            | none => none

/-! ## The products and the checks (R318–R325) -/

/-- The bytes of the entry `k` beyond HEAD of a ring. -/
def State.entryBytes (s : State) (m : Ring) (k : Nat) : List Byte :=
  let r := s.ring m
  s.readBytes (scratchAddr s.here (r.entry (r.head + k))) (r.esize * 256)
def State.headBytes (s : State) (m : Ring) : List Byte := s.entryBytes m 0
/-- A check's three counts, from the census fields at the given offsets. -/
def checkS (off : Nat) (a b : List Byte) : Nat := min 0xFFFF (bytesNat a off 2 + bytesNat b off 2)
/-- The cells that the products of a phase leave, with the cancelling ones; `a` and `b` are the entries, or the replay buffer's tiles. -/
def productsOf (k : MmaKind) (tol : Word) (ph : MmaPhase) (acc : Nat → Nat) (a b : List Byte) : List Nat × Nat :=
  match k with
  | .semi r fov => ((List.range 4096).map (fun n => semiCell r fov (acc n) a b (n / 64) (n % 64)), 0)
  | .fixed fov => ((planeOf (match fov with | .fp4 => 0 | .e4m3 => 1 | _ => 2) 64 acc a b).cells, 0)
  | .narrowFirst =>
    let p := planeOf (match ph with | .first => 0 | .wide8 => 1 | _ => 2) (tolThresh tol) acc a b
    (p.cells, p.cancelling)
/-- The narrow and the wide check of an MMA (R319). -/
def narrowPasses (tol : Word) (a b : List Byte) (canc : Nat) : Bool := checkPasses tol (checkS 0x0A a b) (checkS 0x0C a b) canc
def widePasses (tol : Word) (a b : List Byte) (canc : Nat) : Bool := checkPasses tol (checkS 0x14 a b) (checkS 0x16 a b) canc
/-- The verdict of an MMA that commits in a format (R327, R328). -/
def verdictOf (fmt cancn cancw : Nat) (a b : List Byte) : Verdict :=
  let nan := fld (byteNat a 0x0E) 0 1 == 1 || fld (byteNat b 0x0E) 0 1 == 1
  if fmt = 0 then ⟨0, false, false, nan, cancn, 0, checkS 0x0A a b, checkS 0x0C a b, 0, 0⟩
  else ⟨fmt, true, fmt == 2, nan, cancn, cancw, checkS 0x0A a b, checkS 0x0C a b, checkS 0x14 a b, checkS 0x16 a b⟩
/-- What a matrix instruction comes to from the committed bank and its entries: the cells, with an MMA's verdict, or a refetch of the
bf16 tiles, with the cells of both checks that cancel. -/
inductive Result where
  | cells (l : List Nat) (v : Option Verdict)
  | needsRefetch (cancn cancw : Nat)
def mmaResult (k : MmaKind) (tol : Word) (acc : Nat → Nat) (a b : List Byte) : Result :=
  match k with
  | .fixed .bf16 => .needsRefetch 0 0
  | .narrowFirst =>
    let p := productsOf k tol .first acc a b
    if narrowPasses tol a b p.2 then .cells p.1 (some (verdictOf 0 p.2 0 a b))
    else
      let q := productsOf k tol .wide8 acc a b
      if widePasses tol a b q.2 then .cells q.1 (some (verdictOf 1 p.2 q.2 a b)) else .needsRefetch p.2 q.2
  | k => .cells (productsOf k tol .first acc a b).1 none
def State.resultOf (s : State) (k : MmaKind) (c : Bool) (ma mb : Ring) (tol : Word) : Result :=
  mmaResult k tol (s.tile.accSet c).cell (s.headBytes ma) (s.headBytes mb)
/-- The verdict of an instruction that commits after its refetch. -/
def wideVerdict (k : MmaKind) (cancn cancw : Nat) (a b : List Byte) : Option Verdict :=
  match k with
  | .narrowFirst => some (verdictOf 2 cancn cancw a b)
  | _ => none

/-! ## The commit (R320) -/

/-- A ring after a commit: one entry popped, and ring ma's counters for an MMA. -/
def State.popRing (s : State) (m : Ring) : State := s.setRing m (((s.ring m).pop 1).stamp 1 s.cycle)
def RingReg.counted (r : RingReg) (fmt : Nat) : RingReg :=
  { r with ncommit := satAdd r.ncommit (bit (fmt == 0)), wid8 := satAdd r.wid8 (bit (decide (1 ≤ fmt))),
           wid16 := satAdd r.wid16 (bit (fmt == 2)) }
def State.countMma (s : State) (v : Option Verdict) : State :=
  match v with
  | none => s.count 2 3 1
  | some v => (((s.count 2 v.fmt 1).count 2 4 v.sn).count 2 5 v.un).count 2 6 (v.cancn + v.cancw)
/-- The committed bank takes its new cells and the pending bank is empty, the entries are popped, and the counters follow. -/
def State.commit (s : State) (c : Bool) (ma mb : Ring) (l : List (Nat × W80)) (v : Option Verdict) : State :=
  let old := s.tile.accSet c
  let totals := match v with
    | some v => vset old.totals v.fmt (min 0xFFFF (vget old.totals v.fmt 0 + 1))
    | none => old.totals
  let s1 := s.setAcc c ⟨l, [], v, totals⟩
  let s2 := if ma = mb then s1.popRing ma else (s1.popRing ma).popRing mb
  let s3 := match v with
    | some v => s2.setRing ma ((s2.ring ma).counted v.fmt)
    | none => s2
  s3.countMma v
/-- Whether the pops of a commit may fall in this cycle (R301). -/
def State.mayPop (s : State) (ma mb : Ring) : Bool := (s.ring ma).may 1 s.cycle && (s.ring mb).may 1 s.cycle

/-! ## The matrix unit's steps (R317, R321) -/

def State.setMmas (s : State) (l : List Mma) : State := { s with tile := { s.tile with mmas := l } }
def State.setPending (s : State) (c : Bool) (l : List (Nat × W80)) : State := s.setAcc c { s.tile.accSet c with pending := l }
/-- No entry is popped, the pending banks are discarded and the sets are as they were (R321). -/
def State.dropMmas (s : State) : State := ((s.setPending false []).setPending true []).setMmas []
/-- The products of a phase of an instruction enter the pending bank; `skip` tells how far beyond HEAD its entries lie. -/
def State.products (s : State) (x : Mma) (ph : MmaPhase) (skipA skipB : Nat) : State × Mma :=
  let r := productsOf x.kind x.tol ph (s.tile.accSet x.c).cell (s.entryBytes x.ma skipA) (s.entryBytes x.mb skipB)
  let y : Mma := match ph with | .first => { x with phase := ph, cancn := r.2 } | _ => { x with phase := ph, cancw := r.2 }
  (s.setPending x.c (bankOf r.1), y)
/-- An instruction begins its products; MMAF in bf16 begins with its refetch. -/
def State.begin (s : State) (k : MmaKind) (c : Bool) (ma mb : Ring) (skipA skipB : Nat) : State × Mma :=
  let x : Mma := ⟨k, c, ma, mb, (s.ring ma).tol, .first, 0, 0, []⟩
  match k with
  | .fixed .bf16 => (s, { x with phase := .fetch })
  | _ => s.products x .first skipA skipB
/-- A check fails: the oldest instruction widens, and the younger one's products are abandoned (R317). -/
def State.widen (s : State) (x : Mma) : State :=
  let s1 := s.setPending (!x.c) []
  match x.phase with
  | .first => let r := s1.products x .wide8 0 0; r.1.setMmas [r.2]
  | _ => (s1.setPending x.c []).setMmas [{ x with phase := .fetch }]
/-- The verdict with which the oldest instruction commits, or none where it cannot commit in its phase. -/
def State.checked (s : State) (x : Mma) : Option (Option Verdict) :=
  let a := s.headBytes x.ma
  let b := s.headBytes x.mb
  match x.kind, x.phase with
  | _, .fetch => none
  | .narrowFirst, .first => if narrowPasses x.tol a b x.cancn then some (some (verdictOf 0 x.cancn 0 a b)) else none
  | .narrowFirst, .wide8 => if widePasses x.tol a b x.cancw then some (some (verdictOf 1 x.cancn x.cancw a b)) else none
  | k, _ => some (wideVerdict k x.cancn x.cancw a b)

/-! ## MMA, MMAF and MSR (R316, R317, R324, R325) -/

/-- The bytes an MSR entry must have. -/
def rawTile (fov : Fmt) : Nat :=
  match fov with
  | .raw => 512 | .e4m3 => 4096 | _ => 8192
/-- Whether a ring's entries suit a matrix instruction. -/
def RingReg.suits (r : RingReg) (k : MmaKind) : Bool :=
  match k with
  | .semi _ fov => !r.layout && decide (rawTile fov ≤ r.esize * 256)
  | _ => r.layout
/-- The rows of a tile that is refetched whole: zeros where the backstop refuses them (R355). -/
def State.rowBytes (s : State) (a : Nat) : List Byte :=
  (List.range 128).map (fun i => if s.admits s.cur (a + i) then s.byteAt (a + i) else 0)
def State.tileBytes (s : State) (e : List Byte) : List Byte := (List.range 64).flatMap (fun i => s.rowBytes (s.anchorRow e i))
/-- The first byte of a refetch that the backstop refuses. -/
def State.rowRefused (s : State) (e : List Byte) : Option Nat :=
  (List.range 64).findSome? (fun i => ((pieces (s.anchorRow e i) 128).find? (fun q => !s.admits s.cur q.1)).map Prod.fst)
/-- The failure of the lowest operand and lowest row of a refetch. -/
def State.refetchFault (s : State) (ma mb : Ring) (ea eb : List Byte) : Option (BitVec 8 × Word) :=
  ((List.range 64).findSome? (fun i => s.rowFault ma 0 ea i)).or ((List.range 64).findSome? (fun i => s.rowFault mb 1 eb i))
/-- The 32 B pieces of a refetch: those of operand A's rows, then of operand B's; and what they count (R403). -/
def State.refetchSpans (s : State) (ea eb : List Byte) : List (Nat × Nat) :=
  (List.range 64).flatMap (fun i => chunks 32 (s.anchorRow ea i) 128) ++ (List.range 64).flatMap (fun i => chunks 32 (s.anchorRow eb i) 128)
def State.countSpans (s : State) (l : List (Nat × Nat)) : State := l.foldl (fun t q => t.countBytes s.cur 0 q.1 q.2) s
/-- Whether rows of a refetch lie in an intercalary window. -/
def State.refetchWaits (s : State) (ea eb : List Byte) : Bool :=
  (List.range 64).any (fun i => s.inWindow (s.anchorRow ea i) || s.inWindow (s.anchorRow eb i))
/-- An eager machine takes the whole instruction; it waits while a refetch meets an intercalary window. -/
def runMma (k : MmaKind) (c : Bool) (ma mb : Ring) (s : State) : Out :=
  let tol := (s.ring ma).tol
  let ea := s.headBytes ma
  let eb := s.headBytes mb
  match s.resultOf k c ma mb tol with
  | .cells l v => matrixDone 8 (s.commit c ma mb (bankOf l) v)
  | .needsRefetch n w =>
    if s.refetchWaits ea eb then stay .other 0 s.useMatrix
    else match s.refetchFault ma mb ea eb with
      | some (code, d) => matrixTrap code d 8 s
      | none =>
        let s1 := match (s.rowRefused ea).or (s.rowRefused eb) with
          | some f => s.backstop s.cur (some s.core.pc.toNat) f
          | none => s
        let r := productsOf k tol .wide16 (s.tile.accSet c).cell (s.tileBytes ea) (s.tileBytes eb)
        matrixDone 8 ((s1.countSpans (s.refetchSpans ea eb)).commit c ma mb (bankOf r.1) (wideVerdict k n w ea eb))
/-- Whether the entry a matrix instruction reads of a ring is published and no earlier own store to it is left; `k` entries before it
are an older instruction's. -/
def State.entryReady (s : State) (m : Ring) (k : Nat) : Bool :=
  let r := s.ring m
  decide (k < r.filled) && !s.heldBack s.cur (scratchAddr s.here (r.entry (r.head + k))) (r.esize * 256) .rlx .self
    && r.may 4 s.cycle
def State.entriesReady (s : State) (ma mb : Ring) : Bool := s.entryReady ma 0 && s.entryReady mb 0 && s.mayPop ma mb
/-- The kind and operands of a word that is a matrix instruction with a guard that passes. -/
def State.matrixAt (s : State) : Option (MmaKind × Bool × Ring × Ring) :=
  match s.fetch with
  | .words w e =>
    match decodeFor .main w.toNat e.toNat with
    | .ok (.mma x) => if s.guard x.q then some (.narrowFirst, x.c, x.ma, x.mb) else none
    | .ok (.mmaf x) => if s.guard x.q then some (.fixed x.fov, x.c, x.ma, x.mb) else none
    | .ok (.msr x) => if s.guard x.q then some (.semi x.ring x.fov, x.c, x.ma, x.mb) else none
    | _ => none
  | _ => none
/-- The next matrix instruction on the other set begins its products while an older one has only its first check left (R317): it reads the
entries behind the older one's. Once the older one widens it waits for its commit. One that would trap waits until it is the oldest. -/
def State.beginYounger (s : State) (old : Mma) : State :=
  if old.phase ≠ .first then s
  else match (s.advance 8).matrixAt with
    | some (k, c, ma, mb) =>
      let skip (m : Ring) : Nat := bit (old.ma == m || old.mb == m)
      if c = old.c ∨ (s.ring ma).count = 0 ∨ (s.ring mb).count = 0 ∨ (s.ring ma).suits k = false ∨ (s.ring mb).suits k = false
        ∨ s.entryReady ma (skip ma) = false ∨ s.entryReady mb (skip mb) = false then s
      else let r := s.begin k c ma mb (skip ma) (skip mb); r.1.setMmas [old, r.2]
    | none => s
def matrixOp (k : MmaKind) (c : Bool) (ma mb : Ring) (s : State) : Out :=
  match s.tile.mmas with
  | [old] => stay .other 0 (s.beginYounger old)
  | _ :: _ => stay .other 0 s
  | [] =>
    if !s.mayPop ma mb then stay .other 0 s
    else if (s.ring ma).count = 0 then ringUse 2 ma 8 s
    else if (s.ring mb).count = 0 then ringUse 2 mb 8 s
    else if !(s.ring ma).suits k then ringUse 3 ma 8 s
    else if !(s.ring mb).suits k then ringUse 3 mb 8 s
    else
      let s1 := if s.entriesReady ma mb then s else ((s.pumpFills ma).pumpFills mb).settled
      if !s1.entriesReady ma mb then stay .other 0 s1.useMatrix
      else if s1.eager then runMma k c ma mb s1
      else let r := s1.begin k c ma mb 0 0; stay .other 0 (r.1.setMmas [r.2]).useMatrix
def execMma (x : OpMma) (s : State) : Out := guarded x.q 8 s fun s => matrixOp .narrowFirst x.c x.ma x.mb s
def execMmaf (x : OpMmaf) (s : State) : Out := guarded x.q 8 s fun s => matrixOp (.fixed x.fov) x.c x.ma x.mb s
def execMsr (x : OpMsr) (s : State) : Out := guarded x.q 8 s fun s => matrixOp (.semi x.ring x.fov) x.c x.ma x.mb s

/-! ## The refetch's steps (R322, R323) -/

def State.refetchPieces (s : State) (x : Mma) : List (Nat × Nat) := s.refetchSpans (s.headBytes x.ma) (s.headBytes x.mb)
/-- The tiles of a replay buffer that holds every piece, in order. -/
def Mma.tiles (x : Mma) (n : Nat) : List Byte × List Byte :=
  let l := (List.range n).flatMap (fun k => assoc x.replay k [])
  (l.take 8192, l.drop 8192)
/-- ANCHOR_REFETCH: the matrix unit of a tile reads a piece into its replay buffer, or the instruction fails; after the last piece the
bf16 products enter the pending bank. -/
def execAnchorRefetch (x : EvTilePiece) (s : State) : Out :=
  let s1 := s.focus (.main x.lcid)
  match s1.tile.mmas with
  | [] => .next s
  | m :: _ =>
    let l := s1.refetchPieces m
    match l[x.k]? with
    | none => .next s
    | some (a, n) =>
      if m.phase ≠ .fetch ∨ s1.core.running = false ∨ s.pastStop (.main x.lcid) ∨ m.replay.any (fun e => e.1 == x.k) ∨ s1.inWindow a then .next s
      else match s1.refetchFault m.ma m.mb (s1.headBytes m.ma) (s1.headBytes m.mb) with
        | some (code, d) => (match trapAt code d 8 s1.dropMmas with | .next t => .next (t.focus s.cur) | r => r)
        | none =>
          let open_ := s1.admits s1.cur a
          let s0 := s1.countSpans [(a, n)]
          let s2 := if open_ then s0 else s0.backstop s1.cur (some s1.core.pc.toNat) a
          let y : Mma := { m with replay := (x.k, if open_ then s1.readBytes a n else List.replicate n 0) :: m.replay }
          let s3 := if y.replay.length < l.length then s2.setMmas [y]
            else
              let t := y.tiles l.length
              let r := productsOf y.kind y.tol .wide16 (s2.tile.accSet y.c).cell t.1 t.2
              (s2.setPending y.c (bankOf r.1)).setMmas [{ y with phase := .wide16, replay := [] }]
          .next (s3.focus s.cur)
/-- MMA_COMMIT: the oldest instruction of a tile's matrix unit is checked; it commits and its core goes on, or it widens. -/
def execMmaCommit (x : EvTile) (s : State) : Out :=
  let s1 := s.focus (.main x.lcid)
  match s1.tile.mmas with
  | [] => .next s
  | m :: r =>
    if s1.core.running = false ∨ s.pastStop (.main x.lcid) ∨ m.phase = .fetch then .next s
    else match s1.checked m with
      | some v =>
        if s1.mayPop m.ma m.mb then
          .next ((((((s1.commit m.c m.ma m.mb (s1.tile.accSet m.c).pending v).setMmas r).useMatrix).retire).advance 8).focus s.cur)
        else .next s
      | none => .next ((s1.widen m).focus s.cur)

/-! ## MZERO, MVERD and MSTAT (R326–R328) -/

def zeroCells (v : ZeroVal) : List (Nat × W80) :=
  match v with
  | .zero => []
  | .pinf => bankOf (List.replicate 4096 fpW80.infCode)
  | .ninf => bankOf (List.replicate 4096 (fpW80.signBit + fpW80.infCode))
def execMzero (x : OpMzero) (s : State) : Out := guarded x.q 8 s fun s => matrixDone 8 (s.setAcc x.c (AccSet.fresh (zeroCells x.val)))
def verdictWord (v : Option Verdict) : Nat :=
  match v with
  | none => 3
  | some v => v.cancw * 2 ^ 32 + v.cancn * 2 ^ 19 + bit v.srcnan * 2 ^ 4 + bit v.brw * 2 ^ 3 + bit v.brn * 2 ^ 2 + v.fmt
def execMverd (x : OpMverd) (s : State) : Out :=
  guarded x.q 8 s fun s => matrixDone 8 (s.wrG x.d (wNat (verdictWord (s.tile.accSet x.c).verdict)))
def AccSet.stat (x : AccSet) (sel : Nat) : Nat :=
  match sel, x.verdict with
  | 0, some v => v.sn + v.un * 2 ^ 16 + v.cancn * 2 ^ 32
  | 1, some v => v.sw + v.uw * 2 ^ 16 + v.cancw * 2 ^ 32
  | 2, _ => vget x.totals 0 0 + vget x.totals 1 0 * 2 ^ 16 + vget x.totals 2 0 * 2 ^ 32
  | _, _ => 0
def execMstat (x : OpMstat) (s : State) : Out :=
  guarded x.q 8 s fun s => matrixDone 8 (s.wrG x.d (wNat ((s.tile.accSet x.c).stat x.sel.toNat)))

/-! ## MDRAIN and MLOAD (R329–R331) -/

/-- The address of cell (i, j), n = 64 i + j. -/
def cellAddr (base stride z n : Nat) : Nat := base + n / 64 * stride + n % 64 * z
/-- Whether the 64 rows lie in the own tile's scratchpad window. -/
def rowsInside (lcid base stride z : Nat) : Bool :=
  decide (scratchAddr lcid 0 ≤ base ∧ base + 63 * stride + 64 * z ≤ scratchAddr lcid 0 + 2 ^ 20)
/-- The checks of R330 and R331, and the address and stride they leave. -/
def bankChecked (r : AReg) (g : GReg) (z word len : Nat) (s : State) (k : Nat → Nat → State → Out) : Out :=
  let w := s.rdA r
  let base := ptrAddr w
  let stride := if g = 0 then 64 * z else (s.rdG g).toNat
  let u := if z = 10 then 2 else z
  if !ptrOk w then matrixTrap codeBadaddr w len s
  else if 2 ^ 32 ≤ stride then matrixTrap codeIllegal (wNat word) len s
  else if !rowsInside s.here base stride z then matrixTrap codeBadaddr (wNat base) len s
  else if base % u ≠ 0 ∨ stride % u ≠ 0 then matrixTrap codeAlign (wNat base) len s
  else k base stride s
/-- Cell n as MDRAIN gives it. -/
def drained (x : AccSet) (f : AccFmt) (seed : Word) (rm : Rm) (n k : Nat) : Nat :=
  match f with
  | .w80 => x.cell n
  | _ => (f.fp.conv false (roundingOf seed rm k) (fpW80.val false (x.cell n))).1
/-- The stream after an instruction's draws. -/
def State.drew (s : State) (rm : Rm) (n : Nat) : State :=
  if rm = .rsr then { s with core := { s.core with seed := seedNext s.core.seed n } } else s
/-- The stores of a bank, issued in row-major order. -/
def State.storeBank (s : State) (x : AccSet) (f : AccFmt) (rm : Rm) (base stride : Nat) : State :=
  (List.range 4096).foldl (fun s n =>
    (s.issueAccess (storeOf (cellAddr base stride f.size n) f.size (drained x f s.core.seed rm n n) .rlx .self)).countBytes s.cur 1
      (cellAddr base stride f.size n) f.size) s
/-- Whether the stores an MDRAIN has issued have performed. -/
def Core.bankStored (c : Core) : Bool := c.pend.all (fun a => a.performed || decide (a.seq + 4096 < c.seq))
def execMdrain (x : OpMdrain) (s : State) : Out :=
  guarded x.q 16 s fun s =>
    let rm : Rm := if x.fov = .w80 then .rne else resolveRm s.core.fpctl x.rm
    let acc := s.tile.accSet x.c
    match x.mode with
    | .mem dst str =>
      bankChecked dst str x.fov.size ((Instr.mdrain x).encode.headD 0) 16 s fun base stride s =>
        let sent : Bool := match s.core.wait with | some w => w.kind == .mdrain | none => false
        let s1 := if sent then s else s.storeBank acc x.fov rm base stride
        let s2 := s1.settled
        if s2.core.bankStored then matrixDone 16 (s2.drew rm 4096) else stay .mdrain 0 s2.useMatrix
    | .vec vd row part =>
      let z := x.fov.size
      let l := 64 / z
      let bytes := (List.range l).flatMap (fun q =>
        natBytes (drained acc x.fov s.core.seed rm (row.toNat * 64 + part.toNat * l + q) q) z)
      match s.boundSlot vd with
      | none => matrixDone 16 ((s.wrV vd (BitVec.ofNat 512 (bytesNat bytes 0 64))).drew rm l)
      | some k =>
        match pushSlot k (bytes.map some) s with
        | .ok _ t => matrixDone 16 (t.drew rm l)
        | .trap c d => raise c d 16 s.useMatrix
        | .wait => stay .other 0 s.settled

/-- The cells of values as loaded: W80 bytes as they stand, fp32 converted exactly. -/
def loadedCells (f : AccFmt) : Nat → List Byte → List Nat
  | 0, _ => []
  | n + 1, l =>
    let v := leNat (l.take f.size)
    (match f with | .w80 => v | _ => fpW80.code (f.fp.val false v)) :: loadedCells f n (l.drop f.size)
def execMload (x : OpMload) (s : State) : Out :=
  guarded x.q 8 s fun s =>
    bankChecked x.src x.str x.fov.size ((Instr.mload x).encode.headD 0) 8 s fun base stride s =>
      reading ((List.range 4096).map (cellAddr base stride x.fov.size)) x.fov.size .rlx .self none 8 s.useMatrix fun bytes s =>
        matrixDone 8 (s.setAcc x.c (AccSet.fresh (bankOf (loadedCells x.fov 4096 bytes))))

end Sys2Proof.Machine
end

