-- ==== Sys2Proof/Machine/Clock.lean ====
section
/-!
DEFINITION. The passing of time: a step takes some cycles and some nanoseconds, and the counters of cycles and of energy grow with it
(R402, R403, R442).
-/
namespace Sys2Proof.Machine
open Sys2Proof

/-- A cluster that the power manager runs below its nominal clock (R442). -/
def State.slowed (s : State) (cl : Nat) : Bool := s.boot.ready.getLsbD 20 && decide ((s.getCluster cl).clock < 15)
/-- Whether a processor has a pending access or command that an intercalary window holds (R29). -/
def State.windowHeld (s : State) (c : Core) : Bool :=
  let part (q : LoadPart) : Bool := q.bytes.isNone && s.inWindow q.addr
  (match c.load with | some l => l.parts.any part | none => false) || c.lates.any (fun l => l.parts.any part)
    || c.cmds.any (fun d => d.status == .pending && d.work.srcRows.any (fun r => s.inWindow r.1))
/-- Whether an intercalary window holds the refetch of a tile's oldest matrix instruction (R322). -/
def State.refetchHeld (s : State) (n : Nat) : Bool :=
  match (s.getTile n).mmas with
  | m :: _ => m.phase == .fetch && ((s.focus (.main n)).refetchPieces m).zipIdx.any (fun q => !m.replay.any (fun e => e.1 == q.2) && s.inWindow q.1.1)
  | [] => false
def Core.waitsFor (c : Core) (f : WaitKind → Bool) : Bool := match c.wait with | some w => f w.kind | none => false
/-- What a step of `d` cycles adds to counters of a tile (R402), as counter number and amount: cycles a task held the main core, of waits
in place by each core, held by windows, in SSTEP, in BAR and BARW, and of a slowed cluster. Corrected errors and energy are free
values (log entry 3). -/
def State.tickCounts (s : State) (n d : Nat) : List (Nat × Nat) :=
  let m := s.getCore (.main n)
  let g := s.getCore (.stage n)
  let on (b : Bool) : Nat := if b then d else 0
  [(1, on (s.getTile n).task.isSome), (6, on m.wait.isSome + on g.wait.isSome), (14, on (s.windowHeld m || s.windowHeld g || s.refetchHeld n)),
   (58, on (m.waitsFor WaitKind.isSstep)), (60, on (m.waitsFor WaitKind.isBar)), (38, on (s.slowed (clusterOf n) && s.heldNow (clusterOf n)))]
    ++ [15, 32, 33, 34, 35].map (fun k => (k, Config.counterTick s.free n k))
/-- The counters of a tile that a team holds, after a step of `d` cycles. -/
def State.tickTile (s : State) (d n : Nat) (k : Tile) : Tile :=
  if k.team = 0 then k else { k with ctr := (s.tickCounts n d).foldl (fun c x => vset c x.1 (satAdd (vget c x.1 0) x.2)) k.ctr }
/-- A step takes some cycles and some nanoseconds: free values (log entry 3). -/
def State.tick (s : State) : State :=
  let d := Config.stepCycles s.free
  { s with
    cycle := s.cycle + d
    gtime := s.gtime + Config.stepNs s.free
    tile := s.tickTile d s.here s.tile
    tiles := s.tiles.map (fun q => (q.1, s.tickTile d q.1 q.2))
    free := s.free + 1 }

end Sys2Proof.Machine
end

