-- ==== Sys2Proof/Machine/Solstice.lean ====
section
/-!
DEFINITION. The slice calendar (R53, R54), Solstice stops, context records and restores (R77–R79, R394–R398), the clear sequence
(R360), placement (R64) and Vigil (R17, R399). A wait in place takes no step when a stop falls (R299) and completes no operation
for Vigil (R298).
-/
namespace Sys2Proof

/-- The 128 B of a tile's fault records and pending command state in the team-level part, by its main and its stage core (R395), whose
layout is not stated. -/
opaque Config.savedRecords : Machine.Core → Machine.Core → List Byte

end Sys2Proof
namespace Sys2Proof.Machine
open Sys2Proof

/-! ## Clearing and placing a tile (R64, R360) -/

/-- Bytes outside a range. -/
def dropCells (m : List Host.Cell) (a n : Nat) : List Host.Cell := m.filter (fun c => !(decide (a ≤ c.1 ∧ c.1 < a + n)))
/-- A tile's scratchpad, full bits, port and queues, cleared. -/
def State.wipe (s : State) (lcid : Nat) : State :=
  let a := scratchAddr lcid 0
  { s with mem := dropCells (dropCells s.mem a (2 ^ 20)) (portAddr lcid 0) (2 ^ 16)
           full := s.full.filter (fun u => !(decide (a / 8 ≤ u ∧ u < a / 8 + 2 ^ 17)))
           bad := s.bad.filter (fun u => !(decide (a ≤ u ∧ u < a + 2 ^ 20)))
           queues := s.queues.filter (fun q => q.1 / 8 != lcid) }
/-- The flits of processors whose state is gone stay in the replay buffers, and nothing waits for them. -/
def State.orphanFlits (s : State) (gone : ProcId → Bool) : State :=
  let mine (c : Cargo) : Bool := match c with | .access p _ | .unit p _ _ | .marker p _ => gone p | _ => false
  { s with fabric := { s.fabric with flights := s.fabric.flights.map (fun x => if mine x.cargo then { x with cargo := .answer } else x) } }
/-- A tile that no team holds; a fence lasts, and so does what other teams' launches have made ready there. -/
def State.clearTile (s : State) (lcid : Nat) : State :=
  let k := s.getTile lcid
  ((((s.wipe lcid).orphanFlits (fun p => p == .main lcid || p == .stage lcid)).setTile lcid { Tile.empty with fenced := k.fenced, localQ := k.localQ.filter (fun i => i.team != k.team) }).setCore (.main lcid) Core.empty).setCore (.stage lcid) Core.empty
/-- The counter store of a team outlives its tiles (R404): the copies of a cluster that it gives up are kept with the team, unless they
stand beside its saved contexts. -/
def State.keepStore (s : State) (c : Nat) : State :=
  match (s.getCluster c).holder.bind s.findTeam with
  | none => s
  | some t =>
    let mine := ((List.range 16).map (tileOfCluster c)).filter (fun n => (s.getTile n).team == t.num && t.snaps == [])
    s.putTeam { t with kept := t.kept ++ mine.map (fun n => (n, (s.getTile n).ctrCopy, (s.getTile n).copyTime)) }
/-- Messages of migrations within a cluster are gone (R360). -/
def State.dropMigrations (s : State) (c : Nat) : State :=
  { s with migrations := s.migrations.filter (fun m => clusterOf m.from_ != c) }
/-- The clear sequence of a cluster; its dispatch history and calendar are the cluster's own. -/
def State.clearCluster (s : State) (c : Nat) : State :=
  let s1 := (List.range 16).foldl (fun s t => s.clearTile (tileOfCluster c t)) ((s.keepStore c).dropMigrations c)
  ((s1.setCluster c { s1.getCluster c with fw := none, holder := none }).orphanFlits (fun p => p == .coll c)).setCore (.coll c) Core.empty

/-- DOM (R39). -/
def Team.domWord (t : Team) (lcid : Nat) : Word :=
  let c := clusterOf lcid
  let g := t.groupOf c
  wNat ((if t.fabric then 31 else 15) + c * 2 ^ 19 + g * 2 ^ 25 + (t.clusters.filter (fun x => x.2 == g)).length * 2 ^ 31
    + t.clusters.length * 2 ^ 38 + t.nmod * 2 ^ 45 + t.fidx * 2 ^ 52)
/-- A tile as the launch unit leaves it at placement. -/
def Team.freshTile (t : Team) (lcid : Nat) (fenced : Bool) : Tile :=
  { Tile.empty with
    tenant := t.tenant
    team := t.num
    dom := t.domWord lcid
    ext := t.ext
    rings := Vector.ofFn (fun i => { RingReg.empty with tol := assoc t.tols i.val 0 })
    kbank := Vector.ofFn (fun i => t.consts.getD i.val 0)
    fenced := fenced }
/-- The images of a team's scratch buffers. -/
def Team.imageCells (t : Team) (lcid : Nat) : List Host.Cell := t.images.flatMap (fun i => cellsAt (scratchAddr lcid i.1) i.2)
/-- A stage core at placement: the registers of R64, and SEED (R95). -/
def Team.freshStage (t : Team) (lcid : Nat) : Core := { Core.empty with seed := seedStart t.jobseed (lcid + 1024) }
def State.placeTile (s : State) (t : Team) (lcid : Nat) : State :=
  let s1 := s.clearTile lcid
  let s2 := s1.setTile lcid { t.freshTile lcid (s1.getTile lcid).fenced with progress := s.cycle, localQ := (s1.getTile lcid).localQ }
  { s2.setCore (.stage lcid) (t.freshStage lcid) with mem := memPut s2.mem (t.imageCells lcid) }

/-! ## The calendar (R53, R54) -/

def State.slotTeam (s : State) (cl slot : Nat) : Option Team := (vget (s.getCluster cl).slots slot none).bind s.findTeam
/-- A cluster no team runs on. -/
def State.clusterFree (s : State) (cl : Nat) : Bool :=
  match (s.getCluster cl).holder.bind s.findTeam with
  | some t => t.state != .running
  | none => true
/-- The calendar names a stop at a time; an earlier one stands, and a command's later one is kept beside it (R54, R380, R394). -/
def Team.calendarStop (t : Team) (at_ : Nat) : Team :=
  match t.stop with
  | .none => { t with stop := .named at_, stopAt := at_, reason := .slot }
  | .named b =>
    if at_ < b then { t with stop := .named at_, stopAt := at_, reason := if t.haltAt.isSome ∧ t.reason ≠ .fail then .slot else t.reason } else t
  | _ => t
/-- A command names a stop at T for a team that runs, waits or is being launched: a stop of the calendar before T stands, and the team
stops for the command at T (R380, R394, R400). -/
def Team.commandStop (t : Team) (at_ : Nat) : Team :=
  let u := { t with haltAt := some at_ }
  if t.state = .running then
    match t.stop with
    | .none => { u with stop := .named at_, stopAt := at_, reason := .halt }
    | .named b => if t.reason = StopReason.fail then t else if b < at_ then u else { u with stop := .named at_, stopAt := at_, reason := .halt }
    | _ => if t.reason = StopReason.fail then t else u
  else if t.state = .waiting ∨ t.state = .launching then u
  else t
/-- The stop a command has named comes with a new slice. -/
def Team.atSlice (t : Team) : Team :=
  match t.haltAt with
  | some a => { t with stop := .named a, stopAt := a, reason := .halt }
  | none => { t with stop := .none }
/-- The stop the calendar names for the team that holds a cluster, when its slot does not go on: at B − 2^16 ns (R54). DESIGN CHOICE (log
entry 55): where a new calendar leaves less than the lead of R394, or the slot is already another's, 1 µs from now. -/
def State.nameStop (s : State) (cl : Nat) : State :=
  match (s.getCluster cl).holder.bind s.findTeam with
  | none => s
  | some t =>
    if t.state ≠ .running then s
    else
      let now := slotNow s.gtime
      let b := (s.gtime / 2 ^ 18 + 1) * 2 ^ 18
      let soon := s.gtime + 1000
      if vget (s.getCluster cl).slots now none ≠ some t.num then s.putTeam (t.calendarStop soon)
      else if vget (s.getCluster cl).slots ((now + 1) % 16) none ≠ some t.num then s.putTeam (t.calendarStop (max (b - 2 ^ 16) soon))
      else s
/-- A stop that the old calendar named and that has not fallen is withdrawn: a command's own stands (log entry 55). -/
def Team.recalled (t : Team) (now : Nat) : Team :=
  match t.stop with
  | .named a => if t.reason = StopReason.slot ∧ now < a then t.atSlice else t
  | _ => t
def State.recallStop (s : State) (cl : Nat) : State :=
  match (s.getCluster cl).holder.bind s.findTeam with
  | some t => if t.state = .running then s.putTeam (t.recalled s.gtime) else s
  | none => s
/-- A new calendar names the stops of the clusters it is for. -/
def State.renameStops (s : State) (mask : Word) : State :=
  (List.range 64).foldl (fun s c => if mask.getLsbD c then (s.recallStop c).nameStop c else s) s
/-- The power manager runs a team's clusters at 1.1 GHz while it stops, saves and restores (R443). -/
def State.fullClock (s : State) (t : Team) : State :=
  if s.boot.ready.getLsbD 20 then t.clusters.foldl (fun s c => s.setCluster c.1 { s.getCluster c.1 with clock := 15 }) s else s
/-- What was put off while the clusters ran at 1.1 GHz: 0.55 GHz at 105 °C (R443, R445). -/
def State.coolDown (s : State) (t : Team) : State :=
  t.clusters.foldl (fun s c => if 840 ≤ (s.getCluster c.1).temp.toInt then s.setCluster c.1 { s.getCluster c.1 with clock := 7 } else s) s
/-- A team takes its clusters: those another team held last are cleared, at 1.1 GHz (R443). -/
def State.takeClusters (s : State) (t : Team) : State :=
  t.clusters.foldl (fun s c =>
    let s1 := if (s.getCluster c.1).holder = some t.num then s
      else
        let u := s.clearCluster c.1
        if s.boot.ready.getLsbD 20 then u.setCluster c.1 { u.getCluster c.1 with clock := 15 } else u
    s1.setCluster c.1 { s1.getCluster c.1 with holder := some t.num }) s
/-- A tile of a team whose restore is to follow is the team's, with the counters of its store (R404). -/
def State.claimTile (s : State) (t : Team) (lcid : Nat) : State :=
  match t.snaps.find? (fun x => x.lcid == lcid) with
  | some x => s.setTile lcid { s.getTile lcid with tenant := t.tenant, team := t.num, dom := t.domWord lcid, ext := t.ext, ctr := x.tile.ctrCopy,
                                                   ctrCopy := x.tile.ctrCopy, copyTime := x.tile.copyTime }
  | none => s
/-- The incoming team's slice begins: its restore is to follow, or it is placed for the first time, and the calendar names the stop at the
end of its slot. Vigil counts from the placement, and goes on where it paused at a stop (R399). -/
def State.beginSlice (s : State) (t : Team) : State :=
  let s1 := s.takeClusters t
  let s2 := if t.hasSave then t.tiles.foldl (fun s n => s.claimTile t n) (s1.fullClock t) else t.tiles.foldl (fun s n => s.placeTile t n) (s1.coolDown t)
  let s3 := s2.putTeam { t.atSlice with state := .running, placed := false, due := none, lastCycle := if t.hasSave then t.lastCycle else s.cycle }
  let s4 := if t.hasSave then s3 else t.tiles.foldl (fun s n => s.countAt n 7 5 1) s3
  match t.clusters with
  | [] => s4
  | c :: _ => s4.nameStop c.1
/-- Whether no thermal trip has named its stop or switched the rails off (R445). -/
def State.untripped (s : State) : Bool := s.boot.tripAt.isNone && !s.boot.tripped
/-- Whether a tenant's teams may run (R375, R386). -/
def State.tenantRuns (s : State) (tag : Nat) : Bool := s.tenants.any (fun x => x.tag == tag && x.state == .run && x.mig == 0)
/-- Whether a copy into the weight store of a die is still to end (R261). -/
def Cmd.fillsStore (c : Cmd) (s : State) (die : Nat) : Bool :=
  c.status == .pending && (match c.work with
    | .copy _ dst _ _ _ _ => (match s.region dst with | .weights d _ => d == die | _ => false)
    | _ => false)
def State.storeBusy (s : State) (die : Nat) : Bool :=
  s.procs.any (fun p => (s.getCore p).cmds.any (fun c => c.fillsStore s die))
    || s.teams.any (fun t => t.snaps.any (fun x => (x.main.cmds ++ x.stage.cmds).any (fun c => c.fillsStore s die))
      || t.collSnaps.any (fun x => x.2.1.cmds.any (fun c => c.fillsStore s die)))
/-- Whether the launch unit writes an image into a die's weight store for a team. -/
def Team.fillsStore (t : Team) (s : State) (die : Nat) : Bool :=
  t.storeImage.any (fun c => match s.region c.1 with | .weights d _ => d == die | _ => false)
/-- Whether the launch unit may post a team's launch entry: its tenant's teams may run, no trip has begun, no copy is pending into the
weight store of a die of its placement or of one that it holds open (R261), and no other team holds a store open that its images go to
(R239, log entry 52). -/
def State.mayPost (s : State) (t : Team) : Bool :=
  t.state == .launching && s.tenantRuns t.tenant && s.untripped && (List.range 4).all (fun d =>
    !((t.clusters.any (fun c => c.1 / 16 == d) || t.opens s d) && s.storeBusy d)
      && !(t.fillsStore s d && s.teams.any (fun u => u.num != t.num && u.state != .launching && u.opens s d)))
/-- A team that waits takes the clusters of its placement in a slot of its own, once they are free: where a save or a clear sequence ends
late, in the same slot after it (R37, R54, R443). -/
def State.tryBegin (s : State) (t : Team) : State :=
  if t.state = .waiting ∧ s.tenantRuns t.tenant = true ∧ s.untripped = true then
    if t.clusters.all (fun c => s.clusterFree c.1) then s.beginSlice t else s.putTeam { t with due := some (s.gtime / 2 ^ 18) }
  else s
/-- Whether a team may begin at this time: within 100 ns of the boundary of an owned slot, or late in a slot whose boundary it has met. -/
def State.mayBegin (s : State) (t : Team) : Bool := decide (s.gtime % 2 ^ 18 ≤ 100) || t.due == some (s.gtime / 2 ^ 18)
/-- Whether the current slot is a team's (R53). -/
def State.slotIs (s : State) (t : Team) : Bool :=
  match t.clusters with
  | [] => false
  | c :: _ => vget (s.getCluster c.1).slots (slotNow s.gtime) none == some t.num
/-- A launch entry is posted (R37, R47): the team leaves LAUNCHING, and runs at once when its slot is current. -/
def State.postLaunch (s : State) (t : Team) : State :=
  if s.mayPost t then
    let u := { t with state := .waiting, storeImage := [] }
    let s1 := (s.putTeam u).teamPut u t.storeImage
    match s1.findTeam t.num with
    | some v => if s1.slotIs v then s1.tryBegin v else s1
    | none => s1
  else s
/-- SLICE_BOUNDARY: the calendar names the stop of a team whose slot ends, and the team that owns the current slot takes its
clusters when they are free. -/
def execSliceBoundary (x : EvCluster) (s : State) : Out :=
  let s1 := match s.host.nextMsgmax with
    | some m => { s with host := { s.host with msgmax := m, nextMsgmax := none } }
    | none => s
  let s2 := s1.nameStop x.cl
  match s2.slotTeam x.cl (slotNow s.gtime) with
  | some t => .next (if t.state = .launching then s2.postLaunch t else if s2.mayBegin t then s2.tryBegin t else s2)
  | none => .next s2
/-- LAUNCH_ENTRY_ARRIVAL: the launch entry, posted by now, arrives, and the TCBs with PCNT 0 become ready in table order. -/
def execLaunchEntryArrival (x : EvTeam) (s : State) : Out :=
  match s.findTeam x.team with
  | some t =>
    let s1 := if t.state = .launching then s.postLaunch t else s
    match s1.findTeam x.team with
    | some u =>
      if !u.entryPosted ∨ u.state = .launching then .next s1
      else .next ((List.range u.tasks.length).foldl (fun s k => s.launchTcb u.num (u.tcbBase + 64 * k)) (s1.putTeam { u with entryPosted := false }))
    | none => .next s1
  | none => .next s

/-! ## The stop (R394) -/

/-- A core at its boundary: a wait in place ends without a step, but for that of a push its home holds (R237, R299). -/
def Core.halted (c : Core) : Core :=
  { c with running := false, load := none, lates := [], wait := match c.wait with | some w => if w.kind = .push then some w else none | none => none }
/-- What a processor has in flight falls into the stash: writes, and reads that a dark interval holds (R394, R429). -/
def State.stashOf (s : State) (p : ProcId) : List Stashed :=
  ((s.getCore p).pend.filter (fun a => !a.performed)).map (Stashed.access p) ++ (s.getCore p).lates.map (Stashed.read p)
def State.haltCore (s : State) (p : ProcId) : State := s.setCore p { (s.getCore p).halted with pend := [] }
/-- A tile's units: a matrix instruction that has not committed is abandoned with its pending bank (R62, R332). -/
def Tile.stopped (t : Tile) (now : Nat) : Tile :=
  { t with mmas := [], acc := t.acc.map (fun x => { x with pending := [] }), migrating := false, streams := t.streams.map Stream.stopped,
           ctrCopy := t.ctr, copyTime := now }
def Team.procs (t : Team) : List ProcId :=
  t.tiles.flatMap (fun n => [ProcId.main n, ProcId.stage n]) ++ t.clusters.map (fun c => ProcId.coll c.1)
/-- A pending read that an intercalary window holds, which a stop abandons (R394). -/
def State.inWindowLoad (s : State) (l : Load) : Bool := l.parts.all (fun q => q.bytes.isNone) && l.parts.any (fun q => s.inWindow q.addr)
/-- Whether a dark interval holds a message towards an address back (R427, R429). -/
def State.darkAt (s : State) (a : Nat) : Bool :=
  match s.region a with
  | .peer m => (vget s.fabric.peers m Peer.empty).valid && s.fabric.dark.isSome
  | _ => false
/-- Whether a main core stands at an MLOAD, which a stop abandons with its bank unchanged (R332). -/
def State.atMload (s : State) (p : ProcId) : Bool :=
  match p with
  | .main _ => let w := memNat s.mem (s.getCore p).pc.toNat 8; fld w 56 6 == 0x3B && fld w 44 8 == 1
  | _ => false
/-- Whether a stop abandons a read in progress, whose instruction issues anew: one that a window or a dark interval holds, and an MLOAD
(R332, R394, R429). -/
def State.abandons (s : State) (p : ProcId) (l : Load) : Bool :=
  s.inWindowLoad l || s.atMload p || l.parts.any (fun q => q.bytes.isNone && s.darkAt q.addr)
/-- Whether every read a processor has issued has performed, with its value in its register (R237), but for those that a stop abandons or
stashes. -/
def State.readsDone (s : State) (p : ProcId) : Bool :=
  (s.getCore p).lates.all (fun l => s.darkAt l.addr) && (match (s.getCore p).load with | some l => s.abandons p l | none => true)
/-- Whether the processor in focus may issue at or after its team's stop time: only to end a read in progress (R394, stages 1 and 2). -/
def State.issueOpen (s : State) : Bool :=
  !s.pastStop s.cur || (match s.core.load with | some l => !s.abandons s.cur l | none => false)
/-- Whether a core of a tile is in the middle of a handler entry, which completes before its context stops (R394). -/
def State.enters (s : State) (n : Nat) : Bool := (s.getTile n).handler.entering && (s.getCore (.main n)).running
/-- A stop of a team may fall now: no core is in the middle of a handler entry, and every issued read has performed (R394). -/
def State.stoppable (s : State) (t : Team) : Bool := t.tiles.all (fun n => !s.enters n) && t.procs.all s.readsDone
/-- Stream pushes that have been issued complete before the records are written (R210). -/
def State.finishPushes (s : State) (t : Team) : State :=
  t.procs.foldl (fun s p => if (s.getCore p).pend.any (fun a => a.slot.isSome) then s.drain p else s) s
/-- Whether a push is still to complete; one that a dark interval holds falls into the stash (R429). -/
def State.pushesLeft (s : State) (t : Team) : Bool :=
  t.procs.any (fun p => (s.getCore p).pend.any (fun a => a.slot.isSome && !a.performed && !s.darkAt a.addr))
/-- A team stopped because the backstop refused one of its requests becomes FAILED (R355). -/
def State.failStopped (s : State) (t : Team) : State :=
  ((s.freezeTeam t).coolDown t).putTeam { t with state := .failed, key := [], stop := .none, stopTime := s.gtime }
/-- Whether a flit is a message of one of some processors. -/
def Flight.of (x : Flight) (l : List ProcId) : Bool :=
  match x.cargo with
  | .access p _ | .unit p _ _ | .marker p _ => l.contains p
  | _ => false
/-- The traffic of a team's processors falls into the stash, with their flits in the replay buffers before the rest (R394, R429). -/
def State.stash (s : State) (t : Team) : State :=
  let acc := (s.fabric.flights.filter (fun x => x.of t.procs)).map Stashed.flit ++ t.procs.flatMap s.stashOf
  let mine := s.migrations.filter (fun m => t.tiles.contains m.from_)
  let migs := mine.map (fun m => Stashed.migration m.from_ (if m.back then m.from_ else m.to_) m.cont)
  let s1 := { s with
    migrations := s.migrations.filter (fun m => !t.tiles.contains m.from_)
    fabric := { s.fabric with flights := s.fabric.flights.filter (fun x => !x.of t.procs) } }
  let s2 := t.procs.foldl State.haltCore s1
  let s3 := t.tiles.foldl (fun s n => s.setTile n ((s.getTile n).stopped s.gtime)) s2
  (s3.fullClock t).putTeam { t with stop := .stopped, stash := acc ++ migs, log := [], stopCycle := s.cycle, stopTime := s.gtime }
/-- The team's processors stop: its pushes complete, and then the rest of its traffic falls into the stash; a push that the backstop
refuses makes it FAILED. -/
def State.stopNow (s : State) (t : Team) : State :=
  let s1 := s.finishPushes t
  match s1.findTeam t.num with
  | some u =>
    if u.reason = StopReason.fail then s1.failStopped u
    else if s1.pushesLeft u then s1
    else s1.stash { u with reason := t.reason, byStop := t.byStop }
  | none => s1
/-- The state of a team after a stop with its save. -/
def Team.afterStop (t : Team) : TeamState := if t.reason = StopReason.slot then .waiting else .halted
/-- SOLSTICE_STOP: at its time, once the team may stop; a team whose restore is still to come keeps its save, and one that waits is halted
at once. -/
def execSolsticeStop (x : EvTeam) (s : State) : Out :=
  match s.findTeam x.team with
  | some t =>
    if t.state = .waiting ∧ t.haltAt.any (fun a => decide (a ≤ s.gtime)) then .next (s.putTeam { t with state := .halted, haltAt := none })
    else match t.stop with
    | .named at_ =>
      if t.state ≠ .running ∨ s.gtime < at_ then .next s
      else if t.reason = .fail then .next (if t.tiles.any s.enters then s else s.failStopped t)
      else if t.restorePending then .next ((s.coolDown t).putTeam { t with stop := .saved, state := t.afterStop })
      else if s.stoppable t then .next ((s.fullClock t).stopNow t)
      else .next (s.fullClock t)
    | _ => .next s
  | none => .next s

/-! ## Context records (R77) -/

/-- A field of a record: its offset, its size in bytes and its value. -/
abbrev Fld := Nat × Nat × Nat
def fields (o w : Nat) (l : List Nat) : List Fld := l.mapIdx (fun i x => (o + w * i, w, x))
def loopFields (l : LoopState) (h : Handler) : List Fld :=
  fields 0x250 4 (l.lc.toList.map BitVec.toNat) ++ fields 0x260 8 (l.ls.toList.map BitVec.toNat)
    ++ fields 0x280 8 (l.le.toList.map BitVec.toNat) ++ [(0x2A0, 8, l.active), (0x2A8, 72, 0)]
    ++ [(0x2F0, 8, if h.hin then 2 ^ 63 + bit h.hlen16 * 2 ^ 62 + bit h.skip * 2 ^ 61 + h.hresume.toNat % 2 ^ 53 else 0),
        (0x2F8, 8, if h.hin then h.xl.toNat else 0)]
def streamFields (o : Nat) (x : Stream) : List Fld :=
  [(o, 8, x.base.toNat)] ++ fields (o + 0x08) 4 (x.bound.toList.map BitVec.toNat)
    ++ fields (o + 0x18) 4 (x.stride.toList.map BitVec.toNat) ++ fields (o + 0x28) 4 (x.index.toList.map BitVec.toNat)
    ++ [(o + 0x38, 8, bit x.configured + 2 * bit x.isBound + 4 * bit x.push), (o + 0x40, 64, 0)]
def repeatFields (r : Repeat) : List Fld :=
  fields 0xD00 8 ((List.range 16).map (fun i => (r.words.getD i 0).toNat))
    ++ [(0xD80, 4, r.count), (0xD84, 4, r.pass), (0xD88, 1, r.next), (0xD89, 1, r.words.length), (0xD8A, 6, r.stag.toNat), (0xD90, 112, 0)]
def ringFields (o : Nat) (r : RingReg) : List Fld :=
  [(o, 4, r.base.toNat), (o + 4, 1, r.count), (o + 5, 1, bit r.layout), (o + 6, 2, r.esize), (o + 8, 1, r.head), (o + 9, 1, r.tail),
   (o + 0xA, 1, r.filled), (o + 0xB, 5, 0), (o + 0x10, 8, r.tol.toNat), (o + 0x18, 8, r.ncommit.toNat), (o + 0x20, 8, r.wid8.toNat),
   (o + 0x28, 8, r.wid16.toNat), (o + 0x30, 16, 0)]
def predNat (p : Vector Bool 8) : Nat := (predByte p).toNat + 1
/-- A continuation record (R50). -/
def contFields (o : Nat) (c : Cont) : List Fld :=
  [(o, 8, c.pc.toNat), (o + 8, 8, c.mask.toNat)] ++ fields (o + 0x10) 8 ((List.range 16).map (fun i => (c.regs.getD i 0).toNat))
    ++ [(o + 0x90, 8, c.seed.toNat), (o + 0x98, 4, c.tid.toNat), (o + 0x9C, 1, c.preds.toNat),
        (o + 0x9D, 1, c.cls.toNat + 4 * bit c.restartable + 8 * bit c.named), (o + 0x9E, 1, c.fpctl.toNat), (o + 0x9F, 1, c.fpflags.toNat)]
def coreWord (c : Core) : Nat := c.fpctl.toNat + c.fpflags.toNat * 2 ^ 8 + c.evmask.toNat * 2 ^ 16 + bit c.latch * 2 ^ 20
/-- The fields of a context record up to the scratchpad. -/
def recordFields (t : Team) (lcid seq : Nat) (k : Tile) (c d : Core) : List Fld :=
  let tid := match k.task with | some x => x.tid.toNat | none => 0
  let hint := match k.task with | some x => x.hint.toNat | none => 0
  [(0, 4, 1), (4, 2, lcid), (6, 2, bit k.task.isSome + 2 * bit k.codegone), (8, 8, c.pc.toNat), (0x10, 4, tid), (0x14, 4, seq),
   (0x18, 8, t.spsize), (0x20, 1, k.conts.length), (0x21, 1, hint), (0x22, 6, 0), (0x28, 8, k.keycfg.toNat), (0x30, 16, 0)]
    ++ fields 0x40 8 (c.g.toList.map BitVec.toNat) ++ fields 0x140 8 (c.a.toList.map BitVec.toNat)
    ++ fields 0x1C0 16 ((2 ^ 128 - 1) :: (k.w.toList.drop 1).map BitVec.toNat)
    ++ [(0x240, 8, predNat c.p + c.fpctl.toNat * 2 ^ 8 + c.fpflags.toNat * 2 ^ 16 + c.evmask.toNat * 2 ^ 24 + bit c.latch * 2 ^ 28),
        (0x248, 8, c.seed.toNat)]
    ++ loopFields k.loop k.handler ++ fields 0x300 64 (k.v.toList.map BitVec.toNat)
    ++ (k.streams.toList.mapIdx (fun i x => streamFields (0xB00 + 128 * i) x)).flatten ++ repeatFields k.rep
    ++ (k.rings.toList.mapIdx (fun i x => ringFields (0xE00 + 64 * i) x)).flatten
    ++ fields 0x1000 8 (d.g.toList.map BitVec.toNat) ++ fields 0x1100 8 (d.a.toList.map BitVec.toNat)
    ++ [(0x1180, 8, predNat d.p), (0x1188, 8, d.pc.toNat), (0x1190, 8, coreWord d), (0x1198, 8, d.seed.toNat), (0x11A0, 96, 0)]
    ++ fields 0x1200 10 ((List.range 4096).map (k.accSet false).cell) ++ fields 0xB200 10 ((List.range 4096).map (k.accSet true).cell)
    ++ ((List.range 64).map (fun i => match k.conts[i]? with
        | some x => contFields (0x15200 + 160 * i) x
        | none => [(0x15200 + 160 * i, 160, 0)])).flatten
    ++ fields 0x17A00 64 (k.kbank.toList.map BitVec.toNat)
/-- A row of full bits as a number. -/
def State.fullBits (s : State) (a n : Nat) : Nat := (List.range n).foldl (fun x i => x + bit (s.full.contains (a / 8 + i)) * 2 ^ i) 0
/-- Sizes and places in the save area. -/
def recordSize (sp : Nat) : Nat := 0x19A00 + sp + (sp + 4096) / 64 + 8
def recordStride (sp : Nat) : Nat := (recordSize sp + 4095) / 4096 * 4096
def Team.recordAt (t : Team) (i : Nat) : Nat := t.saveBase + i * recordStride t.spsize
/-- The bytes of a record as cells at its place. -/
def State.recordCells (s : State) (t : Team) (i lcid seq : Nat) : List Host.Cell :=
  let o := t.recordAt i
  let sp := t.spsize
  (recordFields t lcid seq (s.getTile lcid) (s.getCore (.main lcid)) (s.getCore (.stage lcid))).flatMap (fun f => cellsOf (o + f.1) f.2.2 f.2.1)
    ++ cellsAt (o + 0x18A00) (s.readBytes (scratchAddr lcid 0) sp)
    ++ cellsAt (o + 0x18A00 + sp) (s.readBytes (scratchAddr lcid 0xFF000) 4096)
    ++ cellsOf (o + 0x19A00 + sp) (s.fullBits (scratchAddr lcid 0) (sp / 8)) (sp / 64)
    ++ cellsOf (o + 0x19A00 + sp + sp / 64) (s.fullBits (scratchAddr lcid 0xFF000) 512) 64
    ++ cellsOf (o + recordSize sp - 8) (recordSize sp % 2 ^ 32 + seq * 2 ^ 32) 8

/-! ## The team-level part (R395) -/

/-- Barrier and gate state of a tile in its 128 B (R289, R395): 24 B a level, the order within them the model's (log entry 23). -/
def barField (b : BarLevel) : List (Nat × Nat) :=
  [(4, b.episodes.toNat), (4, b.phase.toNat), (1, bit b.arrived), (1, bit b.done), (1, bit b.sent), (1, bit b.gateArrived), (12, bit b.gateDone)]
def barCells (o : Nat) (t : Tile) : List Host.Cell :=
  (t.bars.toList.mapIdx (fun i b => (barField b).foldl (fun (q : Nat × List Host.Cell) f => (q.1 + f.1, q.2 ++ cellsOf q.1 f.2 f.1))
    (o + 24 * i, []))).flatMap Prod.snd
def readBar (m : List Host.Cell) (o : Nat) : BarLevel where
  episodes := BitVec.ofNat 32 (memNat m o 4)
  phase := BitVec.ofNat 32 (memNat m (o + 4) 4)
  arrived := memNat m (o + 8) 1 == 1
  done := memNat m (o + 9) 1 == 1
  sent := memNat m (o + 10) 1 == 1
  gateArrived := memNat m (o + 11) 1 == 1
  gateDone := memNat m (o + 12) 1 == 1
/-- A 16 B entry of the mailbox log (R396): kind and level, target, sender, and the episode, phase or payload; the kinds are numbered
1 barrier, 2 gate, 3 SEV, 4 mailbox (log entry 23). -/
def LogEntry.cells (o : Nat) : LogEntry → List Host.Cell
  | .barrier l lv p e => cellsOf o (1 + lv * 2 ^ 8) 2 ++ cellsOf (o + 2) l 2 ++ cellsOf (o + 4) p 4 ++ cellsOf (o + 8) e 8
  | .gate l lv p e => cellsOf o (2 + lv * 2 ^ 8) 2 ++ cellsOf (o + 2) l 2 ++ cellsOf (o + 4) p 4 ++ cellsOf (o + 8) e 8
  | .sev l st p => cellsOf o (3 + bit st * 2 ^ 8) 2 ++ cellsOf (o + 2) l 2 ++ cellsOf (o + 4) p 4 ++ cellsOf (o + 8) 0 8
  | .mailbox l _ b p => cellsOf o 4 2 ++ cellsOf (o + 2) l 2 ++ cellsOf (o + 4) p 4 ++ cellsAt (o + 8) ((b ++ zeros 8).take 8)

/-- The payloads of the 32 B flits a stashed access or message takes, each with its sender and its address: a piece of an access each, and
five for a continuation record. What a replay buffer held of an access is among the access's own. -/
def Stashed.flits : Stashed → List (Nat × Nat × List Byte)
  | .flit x =>
    let head := match x.cargo with | .unit p _ k => ((homeTile p).getD 0xFFFF, 64 * k) | .marker p _ => ((homeTile p).getD 0xFFFF, 0) | _ => (0xFFFF, 0)
    (match x.cargo with
    | .access _ _ => []
    | _ => (List.range ((max 1 x.bytes.length + 31) / 32)).map (fun i => (head.1, head.2, (x.bytes.drop (32 * i)).take 32)))
  | .access p a => a.pieces.map (fun l => ((homeTile p).getD 0xFFFF, (l.map Prod.fst).headD a.addr, (l.map Prod.snd).take 32))
  | .migration a b c =>
    let r := (contFields 0 c).flatMap (fun f => natBytes f.2.2 f.2.1)
    (List.range 5).map (fun i => (a, b, (r.drop (32 * i)).take 32))
  | .read p l => [((homeTile p).getD 0xFFFF, l.addr, [])]
/-- The 40 B entries of a stash. -/
def stashCells (o : Nat) (l : List Stashed) : List Host.Cell :=
  ((l.flatMap Stashed.flits).mapIdx (fun i f =>
    cellsOf (o + 40 * i) (Config.flitHead f.1 f.2.1).toNat 8 ++ cellsAt (o + 40 * i + 8) ((f.2.2 ++ zeros 32).take 32))).flatten
def Team.flitCount (t : Team) : Nat := ((t.stash.map Stashed.flits).map List.length).sum
def Team.stashAt (t : Team) : Nat := t.recordAt t.tiles.length + 64 + t.tiles.length * (4128 + 128 + 128)
def Team.levelAt (t : Team) : Nat := t.recordAt t.tiles.length
def Team.levelSize (t : Team) : Nat := 64 + t.tiles.length * (4128 + 128 + 128) + 40 * t.flitCount + 16 * t.log.length + 8
/-- Its head; the queues and mailboxes, the barrier and gate state, and the fault records of every tile; the stashed flits, the mailbox log
and the completion word (log entry 23). -/
def State.levelCells (s : State) (t : Team) (seq : Nat) : List Host.Cell :=
  let o := t.levelAt
  let n := t.tiles.length
  let parts := [64, 64 + n * 4128, 64 + n * 4256, 64 + n * 4384, 64 + n * 4384 + 40 * t.flitCount, t.levelSize - 8]
  cellsOf o 1 4 ++ cellsOf (o + 4) t.num 4 ++ cellsOf (o + 8) seq 4 ++ cellsOf (o + 12) n 4
    ++ (parts.mapIdx (fun i x => cellsOf (o + 16 + 8 * i) x 8)).flatten
    ++ (t.tiles.mapIdx (fun i l =>
        let q := o + 64 + 4128 * i
        ((List.range 8).flatMap (fun k =>
          let e := s.queue (8 * l + k)
          (List.range 32).flatMap (fun j => cellsOf (q + 264 * k + 8 * j) (e.getD j 0).toNat 8) ++ cellsOf (q + 264 * k + 256) e.length 8))
        ++ cellsAt (q + 2112) (memBytes s.mem (portAddr l 0x800) 2016))).flatten
    ++ (t.tiles.mapIdx (fun i l => barCells (o + 64 + n * 4128 + 128 * i) (s.getTile l))).flatten
    ++ (t.tiles.mapIdx (fun i l => cellsAt (o + 64 + n * 4256 + 128 * i)
        ((Config.savedRecords (s.getCore (.main l)) (s.getCore (.stage l)) ++ zeros 128).take 128))).flatten
    ++ stashCells t.stashAt t.stash
    ++ (t.log.mapIdx (fun i e => e.cells (o + 64 + n * 4384 + 40 * t.flitCount + 16 * i))).flatten
    ++ cellsOf (o + t.levelSize - 8) (t.levelSize % 2 ^ 32 + seq * 2 ^ 32) 8

/-! ## The save (R395, R398) -/

/-- Bytes the save writes to a range: whole failing units are repaired, and what falls into a unit covered in part is dropped (R393). -/
def State.saveCells (s : State) (a n : Nat) (cells : List Host.Cell) : State :=
  let out := s.keptOut a n
  { s with mem := memPut s.mem (cells.filter (fun c => !(out.any (fun u => decide (u ≤ c.1 ∧ c.1 < u + (s.region u).eccSize)))))
           bad := s.mended a n }
/-- What a context's save fails on: MEMERR when its scratchpad cannot be read, SAVEFAIL past the limit of the save area (bit 53 set), which
is a range of its own and no extent of the team's code (R59, R381); the save carries the module's own tag, which every target passes
(R354). -/
def State.saveFault (s : State) (t : Team) (i lcid : Nat) : Option (BitVec 8 × Word) :=
  let a := t.recordAt i
  let e := a + recordSize t.spsize
  if s.badUnits (scratchAddr lcid 0) t.spsize ≠ [] ∨ s.badUnits (scratchAddr lcid 0xFF000) 4096 ≠ [] then
    some (codeMemerr, wNat (lcid * 2 ^ 54 + a % 2 ^ 53))
  else if t.saveLim + 1 < e then some (codeSavefail, wNat (lcid * 2 ^ 54 + 2 ^ 53 + max a (t.saveLim + 1) % 2 ^ 53)) else none
/-- The first context whose save fails. -/
def State.firstSaveFault (s : State) (t : Team) : Option (BitVec 8 × Word) :=
  (t.tiles.zipIdx).findSome? (fun (q : Nat × Nat) => s.saveFault t q.2 q.1)
/-- A save or a restore that fails is counted and traced on the tile of its context (R402, R415). -/
def State.countSave (s : State) (num : Nat) (code : BitVec 8) (lcid : Nat) : State :=
  let s1 := s.countFault num lcid
  if code = codeMemerr then s1.countAt lcid 5 5 1 else s1
/-- A failed save makes the team FAILED; the contexts whose save was abandoned stay frozen (R398). -/
def State.failSave (s0 : State) (num : Nat) (code : BitVec 8) (d : Word) (lcid : Nat) (tiles : List Nat) : State :=
  let s := s0.countSave num code lcid
  match s.findTeam num with
  | none => s
  | some t =>
    let r : FaultRec := ⟨faultWord code false 3 0, d, s.gtime, lcid, true, false, num, false⟩
    (tiles.foldl State.freezeTile s).putTeam { t with state := .failed, key := [], faults := keepFaults t.faults r }
/-- The bytes a context's save writes: all of its record, or those below the address it fails at. -/
def State.saveContext (s u : State) (t : Team) (i lcid seq : Nat) : State :=
  let a := t.recordAt i
  match s.saveFault t i lcid with
  | none => u.saveCells a (recordSize t.spsize) (s.recordCells t i lcid seq)
  | some (code, d) =>
    if code = codeMemerr then u
    else
      let n := d.toNat % 2 ^ 53 - a % 2 ^ 53
      u.saveCells a n ((s.recordCells t i lcid seq).filter (fun c => decide (c.1 < a + n)))
/-- The save of a stopped team; what is kept of its contexts beside the records is kept with them. -/
def State.saveNow (s : State) (t : Team) : State :=
  let seq := t.saveSeq + 1
  let s1 := ((t.tiles.zipIdx).foldl (fun u (q : Nat × Nat) => s.saveContext u t q.2 q.1 seq) s).coolDown t
  let lcid := (t.tiles.getLast?).getD 0
  match s.firstSaveFault t with
  | some (code, d) =>
    let bad := ((t.tiles.zipIdx).filter (fun q => (s.saveFault t q.2 q.1).isSome)).map Prod.fst
    (s1.putTeam { t with saveSeq := seq, stop := .none }).failSave t.num code d (d.toNat / 2 ^ 54) bad
  | none =>
    if t.saveLim + 1 < t.levelAt + t.levelSize then
      let d := wNat (lcid * 2 ^ 54 + 2 ^ 53 + (t.saveLim + 1) % 2 ^ 53)
      (s1.putTeam { t with saveSeq := seq, stop := .none }).failSave t.num codeSavefail d lcid []
    else
      let snaps := t.tiles.map (fun n => (⟨n, s.getTile n, s.getCore (.main n), s.getCore (.stage n)⟩ : Snap))
      let colls := t.clusters.map (fun c => (c.1, s.getCore (.coll c.1), (s.getCluster c.1).fw))
      (s1.saveCells t.levelAt t.levelSize (s.levelCells t seq)).putTeam
        { t with saveSeq := seq, hasSave := true, stop := .saved, levelLen := t.levelSize, snaps := snaps, collSnaps := colls, placed := false, state := t.afterStop }
/-- CONTEXT_SAVE; a team that has FAILED meanwhile writes no record (R417). -/
def execContextSave (x : EvTeam) (s : State) : Out :=
  match s.findTeam x.team with
  | some t => if t.stop = .stopped ∧ t.state ≠ .failed then .next (s.saveNow t) else .next s
  | none => .next s

/-! ## Fencing (R17, R399) -/

/-- The physical row a logical tile occupies: its own, or that of the spare it was mapped to last (R17). -/
def State.physicalRow (s : State) (lcid : Nat) : Nat :=
  match (s.boot.spares.filter (fun x => x.1 == lcid)).getLast? with
  | some x => x.2
  | none => lcid / 16 % 16
/-- The free spare of a die nearest to a fenced tile's physical row: the lower row on a tie. -/
def State.spareFor (s : State) (lcid : Nat) : Option Nat :=
  let used := (s.boot.spares.filter (fun x => x.1 / 256 == lcid / 256)).map Prod.snd
  let row := s.physicalRow lcid
  ((List.range 16).filter (fun r => !used.contains r)).foldl (fun b r =>
    let d := if r ≤ row then row - r else r - row
    match b with
    | some c => if d < (if c ≤ row then row - c else c - row) then some r else some c
    | none => some r) none
/-- The restarts of a fenced tile's tasks: its ready TCBs and its restartable tasks, running or parked, with their home LCID. DESIGN CHOICE
(log entry 54): in time order a running task takes its tile's last progress, and a parked one the time at which it parked or became ready.
-/
def restarts (k : Tile) : List ReadyItem :=
  let again (tcb home : Nat) (cls : BitVec 2) (time : Nat) : ReadyItem := ⟨k.team, .task tcb, cls.toNat, true, time, some home⟩
  k.localQ.filter (fun i => match i.work with | .task _ => true | _ => false)
    ++ (match k.task with | some t => [again t.tcb t.home t.cls k.progress] | none => [])
    ++ k.conts.map (fun c => again c.tcb c.home c.cls c.time)
/-- The TID of a task of the tile that cannot start again. -/
def lostTask (k : Tile) : Option Nat :=
  match k.task with
  | some t => if t.restartable then (k.conts.find? (fun c => !c.restartable)).map (fun c => c.tid.toNat) else some t.tid.toNat
  | none => (k.conts.find? (fun c => !c.restartable)).map (fun c => c.tid.toNat)
/-- Vigil fences a tile: its state is discarded; its barrier state is its unit's, and a migration message of its is still on its way. C5
counter 6 grows by `n`. -/
def State.fenceTile (s : State) (t : Team) (lcid n : Nat) : State :=
  let k := s.getTile lcid
  let s1 := s.clearTile lcid
  let keep := { t.freshTile lcid true with localQ := restarts k, ctr := k.ctrCopy, ctrCopy := k.ctrCopy, copyTime := k.copyTime, bars := k.bars,
                                           migrating := k.migrating }
  let s2 := { s1.setTile lcid (keep.count 5 6 n) with mem := memPut s1.mem (keep.barBytes lcid) }
  match lostTask k with
  | some tid => s2.teamFault t.num codeFenced (wNat (lcid * 2 ^ 54 + tid)) lcid lcid
  | none => s2
/-- A spare receives the placement state of its team: the stage core's and the images (R399). -/
def State.placeSpare (s : State) (t : Team) (lcid : Nat) : State :=
  { s.setCore (.stage lcid) (t.freshStage lcid) with mem := memPut s.mem (t.imageCells lcid) }
/-- A context restored to a logical tile that has stayed absent since meets Vigil's rules there, and one saved absent that a spare has taken
over meanwhile receives its placement state (R17). -/
def State.refence (s : State) (t : Team) (x : Snap) : State :=
  if (s.getTile x.lcid).fenced then s.fenceTile t x.lcid 0 else if x.tile.fenced then s.placeSpare t x.lcid else s
/-- The launch unit remaps a fenced tile to a spare, whatever becomes of its team, and the spare of a running team receives the placement
state (R17, R399); without a free spare the cluster takes no new placement. -/
def State.remap (s : State) (lcid : Nat) : State :=
  match s.spareFor lcid with
  | none => s.setCluster (clusterOf lcid) { s.getCluster (clusterOf lcid) with noPlace := true }
  | some r =>
    let k := s.getTile lcid
    let s1 := { s with boot := { s.boot with spares := s.boot.spares ++ [(lcid, r)] } }
    let s2 := s1.setTile lcid { k with fenced := false, progress := s.cycle }
    match s.findTeam k.team with
    | some t =>
      if t.state = .running ∧ t.restorePending = false then s2.placeSpare t lcid else s2
    | none => s2
/-! ## The restore (R78, R79, R359, R397) -/

/-- An address after the moves of extents since the save. -/
def moved (l : List (Nat × Nat × Nat)) (a : Nat) : Nat :=
  l.foldl (fun a m => if m.1 ≤ a ∧ a ≤ m.2.1 + 1 then a - m.1 + m.2.2 else a) a
def movedPtr (l : List (Nat × Nat × Nat)) (w : Word) : Word := withAddr w (moved l (ptrAddr w))
def Cont.moved (l : List (Nat × Nat × Nat)) (c : Cont) : Cont :=
  let n := bitCount c.mask 32
  { c with regs := c.regs.mapIdx (fun i x => if i < n then x else movedPtr l x) }
def CmdWork.moved (l : List (Nat × Nat × Nat)) (w : CmdWork) : CmdWork :=
  let f := Machine.moved l
  match w with
  | .copy src dst len rows a b => .copy (f src) (f dst) len rows a b
  | .quant r src dst st b rm sd an => .quant r (f src) dst st b rm sd an
  | .fill r src dst st w => .fill r (f src) dst st w
  | .away src n m => .away (f src) n m
  | .coll k o lv root src dst n fm nth sz rk ext => .coll k o lv root (f src) (f dst) n fm nth sz rk ext
def Core.movedCmds (l : List (Nat × Nat × Nat)) (c : Core) : Core :=
  { c with cmds := c.cmds.map (fun d => if d.status = .pending then { d with work := d.work.moved l } else d) }
/-- A stored access with its bytes where the move put them. -/
def Access.moved (l : List (Nat × Nat × Nat)) (a : Access) : Access :=
  { a with addr := Machine.moved l a.addr, pieces := a.pieces.map (fun p => p.map (fun c => (Machine.moved l c.1, c.2))) }

/-- Whether a record is whole and of the current save. -/
def State.recordOk (s : State) (t : Team) (i : Nat) : Bool :=
  let o := t.recordAt i
  memNat s.mem (o + 0x14) 4 == t.saveSeq && memNat s.mem (o + recordSize t.spsize - 4) 4 == t.saveSeq
/-- Reading a record's numbers. -/
def readVec {n : Nat} (m : List Host.Cell) (o w : Nat) (k : Nat) : Vector (BitVec n) k := Vector.ofFn (fun i => BitVec.ofNat n (memNat m (o + w * i.val) w))
def readPred (x : Nat) : Vector Bool 8 := Vector.ofFn (fun i => x.testBit i.val)
def readStream (m : List Host.Cell) (l : List (Nat × Nat × Nat)) (o : Nat) : Stream :=
  let f := memNat m (o + 0x38) 1
  { base := movedPtr l (wNat (memNat m o 8)), bound := readVec m (o + 8) 4 4, stride := readVec m (o + 0x18) 4 4,
    index := readVec m (o + 0x28) 4 4, configured := f.testBit 0, isBound := f.testBit 1, push := f.testBit 2, ahead := [], lost := [] }
/-- The sequencer of a record; the address of its block and a fault still to be taken are kept beside the record. -/
def readRepeat (m : List Host.Cell) (o : Nat) (r : Repeat) : Repeat :=
  { words := (List.range (memNat m (o + 0x89) 1)).map (fun i => wNat (memNat m (o + 8 * i) 8)), count := memNat m (o + 0x80) 4,
    pass := memNat m (o + 0x84) 4, next := memNat m (o + 0x88) 1, stag := BitVec.ofNat 4 (memNat m (o + 0x8A) 1),
    at_ := r.at_, fault := r.fault }
def readRing (m : List Host.Cell) (o : Nat) (claims : List (BitVec 16)) : RingReg :=
  { base := BitVec.ofNat 20 (memNat m o 4), count := memNat m (o + 4) 1, layout := memNat m (o + 5) 1 == 1, esize := memNat m (o + 6) 2,
    head := memNat m (o + 8) 1, tail := memNat m (o + 9) 1, filled := memNat m (o + 0xA) 1, claims := claims,
    tol := wNat (memNat m (o + 0x10) 8), ncommit := wNat (memNat m (o + 0x18) 8), wid8 := wNat (memNat m (o + 0x20) 8),
    wid16 := wNat (memNat m (o + 0x28) 8), at_ := 0, rank := 0 }
/-- The handler state of a record; its loop tests are suspended as R392 and R178 have it. -/
def readHandler (m : List Host.Cell) (o active : Nat) (inBody : Bool) : Handler :=
  let h := memNat m (o + 0x2F0) 8
  if h.testBit 63 then
    { hin := true, hresume := wNat (h % 2 ^ 53), hlen16 := h.testBit 62, skip := h.testBit 61, xl := wNat (memNat m (o + 0x2F8) 8),
      entering := false, inBody := inBody && active != 0 }
  else Handler.empty
/-- A continuation of the store: its record, with what it waits for. One parked at an XWAIT is ready from the restore on. -/
def readCont (m : List Host.Cell) (l : List (Nat × Nat × Nat)) (now o : Nat) (c : Cont) : Cont :=
  let x := memNat m (o + 0x9D) 1
  let k : BitVec 48 := BitVec.ofNat 48 (memNat m (o + 8) 6)
  let ready : Bool := match c.wait with | .epoch _ _ => true | _ => c.isReady
  Cont.moved l { c with
    pc := wNat (memNat m o 8), mask := k, regs := (List.range (bitCount k 48)).map (fun i => wNat (memNat m (o + 0x10 + 8 * i) 8)),
    seed := wNat (memNat m (o + 0x90) 8), tid := BitVec.ofNat 32 (memNat m (o + 0x98) 4), preds := BitVec.ofNat 8 (memNat m (o + 0x9C) 1),
    cls := BitVec.ofNat 2 x, restartable := x.testBit 2, named := x.testBit 3, fpctl := BitVec.ofNat 5 (memNat m (o + 0x9E) 1),
    fpflags := BitVec.ofNat 5 (memNat m (o + 0x9F) 1), isReady := ready, hint := 0,
    time := if ready && !c.isReady then now else c.time }
def readBank (m : List Host.Cell) (o : Nat) : AccSet := AccSet.fresh (bankOf ((List.range 4096).map (fun n => memNat m (o + 10 * n) 10)))

/-- The tile a record at `o`, its barrier and gate state at `b` and what was kept beside them give; a fence is that of the logical tile now.
-/
def restoredTile (m : List Host.Cell) (t : Team) (o b : Nat) (x : Snap) (now : Nat) (fenced : Bool) : Tile :=
  let k := x.tile
  let act := memNat m (o + 0x2A0) 8
  let conts := k.conts.mapIdx (fun i c => readCont m t.moves now (o + 0x15200 + 160 * i) c)
  let woken := (conts.zip k.conts).filter (fun q => q.1.isReady && !q.2.isReady)
  { k with
    tenant := t.tenant
    team := t.num
    ext := t.ext
    w := readVec m (o + 0x1C0) 16 8
    v := readVec m (o + 0x300) 64 32
    loop := { lc := readVec m (o + 0x250) 4 4, ls := readVec m (o + 0x260) 8 4, le := readVec m (o + 0x280) 8 4, active := act }
    handler := readHandler m o act k.handler.inBody
    streams := Vector.ofFn (fun i => readStream m t.moves (o + 0xB00 + 128 * i.val))
    rep := readRepeat m (o + 0xD00) k.rep
    rings := Vector.ofFn (fun i => readRing m (o + 0xE00 + 64 * i.val) (vget k.rings i.val RingReg.empty).claims)
    acc := #v[readBank m (o + 0x1200), readBank m (o + 0xB200)]
    kbank := readVec m (o + 0x17A00) 64 64
    keycfg := wNat (memNat m (o + 0x28) 8)
    conts := conts
    localQ := k.localQ.filter (fun i => i.team == t.num) ++ woken.map (fun q => contItem t.num q.1)
    task := k.task.map (fun y => { y with hint := BitVec.ofNat 2 (memNat m (o + 0x21) 1) })
    ctr := k.ctrCopy
    bars := Vector.ofFn (fun l => readBar m (b + 24 * l.val))
    codegone := (memNat m (o + 6) 2).testBit 1
    fenced := fenced
    progress := k.progress + (now - t.stopCycle) }
/-- The main core's registers. -/
def restoredMain (m : List Host.Cell) (t : Team) (o : Nat) (x : Snap) : Core :=
  let f := memNat m (o + 0x240) 8
  Core.movedCmds t.moves { x.main with
    g := readVec m (o + 0x40) 8 32, a := (readVec m (o + 0x140) 8 16).map (movedPtr t.moves), p := readPred f, pc := wNat (memNat m (o + 8) 8),
    fpctl := BitVec.ofNat 5 (f / 2 ^ 8), fpflags := BitVec.ofNat 5 (f / 2 ^ 16), evmask := BitVec.ofNat 4 (f / 2 ^ 24), latch := f.testBit 28,
    seed := wNat (memNat m (o + 0x248) 8), running := (memNat m (o + 6) 2).testBit 0, load := none, lates := [], pend := [] }
def restoredStage (m : List Host.Cell) (t : Team) (o : Nat) (x : Snap) : Core :=
  let f := memNat m (o + 0x1190) 8
  Core.movedCmds t.moves { x.stage with
    g := readVec m (o + 0x1000) 8 32, a := (readVec m (o + 0x1100) 8 16).map (movedPtr t.moves), p := readPred (memNat m (o + 0x1180) 1),
    pc := wNat (memNat m (o + 0x1188) 8), fpctl := BitVec.ofNat 5 f, fpflags := BitVec.ofNat 5 (f / 2 ^ 8), evmask := BitVec.ofNat 4 (f / 2 ^ 16),
    latch := f.testBit 20, seed := wNat (memNat m (o + 0x1198) 8), running := x.tile.stageOn, load := none, lates := [], pend := [] }
/-- The units a row of saved full bits sets. -/
def readFull (m : List Host.Cell) (o n a : Nat) : List Nat :=
  let x := memNat m o (n / 8)
  ((List.range n).filter (fun i => x.testBit i)).map (fun i => a / 8 + i)
/-- A context comes back from its record: tile, cores, scratchpad, stack and full bits; its queues and mailboxes from the team-level
part. -/
def State.restoreTile (s : State) (t : Team) (i : Nat) (x : Snap) : State :=
  let m := s.mem
  let o := t.recordAt i
  let sp := t.spsize
  let n := x.lcid
  let q := t.levelAt + 64 + 4128 * i
  let s1 := s.wipe n
  let cells := cellsAt (scratchAddr n 0) (memBytes m (o + 0x18A00) sp) ++ cellsAt (scratchAddr n 0xFF000) (memBytes m (o + 0x18A00 + sp) 4096)
    ++ cellsAt (portAddr n 0x800) (memBytes m (q + 2112) 2016)
  let s2 := { s1 with mem := memPut s1.mem cells }
  let s3 := { s2 with full := (readFull m (o + 0x19A00 + sp) (sp / 8) (scratchAddr n 0)
      ++ readFull m (o + 0x19A00 + sp + sp / 64) 512 (scratchAddr n 0xFF000)).foldl setIn s2.full }
  let s4 := (List.range 8).foldl (fun s k => s.setQueue (8 * n + k)
    ((List.range (memNat m (q + 264 * k + 256) 8)).map (fun j => wNat (memNat m (q + 264 * k + 8 * j) 8)))) s3
  let k0 := restoredTile m t o (t.levelAt + 64 + t.tiles.length * 4128 + 128 * i) x s.cycle (s.getTile n).fenced
  let k := { k0 with localQ := (s.getTile n).localQ.filter (fun i => i.team != t.num) ++ k0.localQ }
  let s5 := ((s4.setTile n k).setCore (.main n) (restoredMain m t o x)).setCore (.stage n) (restoredStage m t o x)
  let s6 := { s5 with mem := memPut s5.mem (k.barBytes n) }
  ((s6.countAt n 7 5 1).countAt n 7 7 1).countAt n 7 6 (s.gtime - t.stopTime)
/-- A stashed flit is re-injected and performs; a push that is still refused returns to its processor. R423 applies with the present peer
table: what had left towards a module that is a peer goes again, for the unit it has spent, and anything else as if for the first time (log
entry 37). -/
def State.reinject (s : State) (moves : List (Nat × Nat × Nat)) (f : Stashed) : State :=
  match f with
  | .flit x =>
    let q := vget s.fabric.peers x.peer Peer.empty
    if q.valid then { s with fabric := s.fabric.send q.port.toNat x.peer x.tag x.cargo x.bytes (x.sends + 1) } else s
  | .access p a =>
    let c := s.getCore p
    let b := { a.moved moves with performed := false, paid := a.paid && (s.peerAt a.addr).isSome }
    let s1 := (s.setCore p { c with pend := c.pend ++ [b] }).drain p
    s1.ackAll p
  | .read p l =>
    let b : Late := { l with addr := moved moves l.addr, parts := l.parts.map (fun q => { q with addr := moved moves q.addr, base := moved moves q.base }) }
    s.setCore p { s.getCore p with lates := (s.getCore p).lates ++ [b] }
  | .migration a b c =>
    if a = b then s.storeCont a { c.moved moves with hint := 0 }
    else { s.setTile a { s.getTile a with migrating := true } with migrations := s.migrations ++ [⟨a, b, c.moved moves, false⟩] }
/-- A logged arrival, replayed: one that completes an episode or a gate completes it for every member (R397). -/
def State.replay (s : State) (e : LogEntry) : State :=
  match e with
  | .barrier l lv _ _ => if s.allArrived l lv then s.completeBarrier l lv else s
  | .gate l lv _ _ => (s.domain l lv).foldl (fun s m => if s.mayDepart m lv then s.gateDepart m lv else s) s
  | .sev l st _ => if st then s.eventStage l 0 else s.event l 0
  | .mailbox l a b _ => { s with mem := memPut s.mem (cellsAt a b) }.event l 2
/-- The first context that raises CODEGONE before its first instruction. -/
def State.goneContext (s : State) (t : Team) : Option (Nat × Word) :=
  t.tiles.findSome? (fun n => if (s.getTile n).codegone && (s.getTile n).task.isSome then some (n, (s.getCore (.main n)).pc) else none)
/-- A failed restore: the team is FAILED, on tiles that hold what its store holds, and the clusters' deferred steps follow (R78, R443). -/
def State.failRestore (s : State) (t : Team) (code : BitVec 8) (lcid a : Nat) : State :=
  ((((s.putTeam { t with snaps := [], collSnaps := [] }).countSave t.num code lcid).failTeam t.num (faultWord code false 3 0)
    (wNat (lcid * 2 ^ 54 + a % 2 ^ 53)) lcid).coolDown t)
/-- What a restore fails on: MEMERR where a record or the team-level part cannot be read (R393), SAVEFAIL with the address of the completion
word where one is not whole (R78; which address R388 does not say: log entry 23). A failure of the team-level part names the context whose
record comes last, as R388 has it for its save. -/
def State.restoreFault (s : State) (t : Team) : Option (BitVec 8 × Nat × Nat) :=
  let last := (t.tiles.getLast?).getD 0
  let records := t.snaps.zipIdx
  match records.find? (fun q => s.badUnits (t.recordAt q.2) (recordSize t.spsize) != []) with
  | some (x, i) => some (codeMemerr, x.lcid, max ((s.badUnits (t.recordAt i) (recordSize t.spsize)).headD 0) (t.recordAt i))
  | none =>
    match records.find? (fun q => !s.recordOk t q.2) with
    | some (x, i) => some (codeSavefail, x.lcid, t.recordAt i + recordSize t.spsize - 8)
    | none =>
      if s.badUnits t.levelAt t.levelLen ≠ [] then some (codeMemerr, last, max ((s.badUnits t.levelAt t.levelLen).headD 0) t.levelAt)
      else if memNat s.mem (t.levelAt + t.levelLen - 4) 4 ≠ t.saveSeq ∨ memNat s.mem (t.levelAt + 8) 4 ≠ t.saveSeq then
        some (codeSavefail, last, t.levelAt + t.levelLen - 8)
      else none
/-- A collective engine comes back, with its addresses where the moves have put them (R359). -/
def State.restoreColl (s : State) (t : Team) (x : Nat × Core × Option (BitVec 16 × Nat)) : State :=
  let c := x.2.1.movedCmds t.moves
  (s.setCore (.coll x.1) { c with a := c.a.map (movedPtr t.moves), running := x.2.2.isSome }).setCluster x.1 { s.getCluster x.1 with fw := x.2.2 }
/-- The restore of a team whose slice has begun: its contexts, what its traffic held, and the mailbox log; a fence without a spare has its
effect, and a context whose code is gone raises CODEGONE. A stop named meanwhile stands. -/
def State.restoreNow (s : State) (t : Team) : State :=
  match s.restoreFault t with
  | some (code, lcid, a) => s.failRestore t code lcid a
  | none =>
    let s1 := (t.snaps.zipIdx).foldl (fun s q => s.restoreTile t q.2 q.1) s
    let s2 := t.collSnaps.foldl (fun s c => s.restoreColl t c) s1
    let s3 := s2.putTeam { t with placed := true, stash := [], log := [], moves := [], snaps := [], collSnaps := [], kept := [],
                                  lastCycle := t.lastCycle + (s.cycle - t.stopCycle) }
    let s4 := t.stash.foldl (fun s f => s.reinject t.moves f) s3
    let s5 := (t.log.foldl State.replay s4).coolDown t
    let s6 := t.snaps.foldl (fun s x => match s.findTeam t.num with | some u => s.refence u x | none => s) s5
    match s6.findTeam t.num, s6.goneContext t with
    | some u, some (n, pc) => if u.state = .failed then s6 else s6.codeGone u n pc
    | _, _ => s6
/-- RESTORE. -/
def execRestore (x : EvTeam) (s : State) : Out :=
  match s.findTeam x.team with
  | some t => if t.state = .running ∧ t.restorePending then .next (s.restoreNow t) else .next s
  | none => .next s

/-! ## Vigil (R399) -/

/-- Whether Vigil counts for a team: it holds its clusters and is not stopped (R399, R417). -/
def Team.counts (t : Team) (now : Nat) : Bool := t.state == .running && t.beforeStop now && !t.restorePending
/-- VIGIL_EXPIRY: the team stops when it has made no progress for the period; a tile is fenced when another context of its team still makes
progress once the tile has made none for the period (R298). At a fenced tile, the remap. -/
def execVigilExpiry (x : EvTile) (s : State) : Out :=
  let k := s.getTile x.lcid
  if k.fenced then .next (s.remap x.lcid)
  else match s.findTeam k.team with
    | some t =>
      if t.counts s.gtime = false then .next s
      else if t.lastCycle + 2 ^ t.vigil ≤ s.cycle then
        .next (s.teamFault t.num codeTeamstall (wNat t.lastTime) x.lcid 0xFFFF)
      else if k.progress + 2 ^ t.vigil ≤ t.lastCycle then .next (s.fenceTile t x.lcid 1)
      else .next s
    | none => .next s

end Sys2Proof.Machine
end

