-- ==== Sys2Proof/Machine/Host.lean ====
section
/-!
DEFINITION. The command unit (R370–R377): sessions, acceptance of a command, responses and sealed result blocks; the tenants' states
(R375), their configuration (R384), and what every command that stops or releases a team uses.
-/
namespace Sys2Proof.Machine
open Sys2Proof

/-! ## Records by their names -/

def State.findSession (s : State) (sid : Nat) : Option Session := s.host.sessions.find? (fun x => x.sid == sid)
def State.putSession (s : State) (x : Session) : State :=
  { s with host := { s.host with sessions := s.host.sessions.map (fun y => if y.sid = x.sid then x else y) } }
def State.findTenant (s : State) (tag : Nat) : Option Tenant := s.tenants.find? (fun x => x.tag == tag)
def State.putTenant (s : State) (x : Tenant) : State :=
  { s with tenants := s.tenants.map (fun y => if y.tag = x.tag then x else y) }
def State.findObj (s : State) (tag objid : Nat) : Option Obj := s.objects.find? (fun o => o.objid == objid && o.tenant == tag)
def State.putObj (s : State) (x : Obj) : State := { s with objects := s.objects.map (fun o => if o.objid = x.objid then x else o) }
def State.teamsOf (s : State) (tag : Nat) : List Team := s.teams.filter (fun t => t.tenant == tag)

/-! ## Acceptance (R370, R372) -/

/-- The command unit runs, and the host port is ready (R433, R435). -/
def State.hostUp (s : State) : Bool := s.boot.ready.getLsbD 17 && s.boot.ready.getLsbD 19
/-- The plaintext session id. -/
def noSession : Nat := 0xFFFF
/-- Whether there is room for one more answer beside those held and those that accepted commands still owe (R368). -/
def State.hasRoom (s : State) : Bool := decide (s.host.held.length + (s.host.waiting.filter (fun w => w.sid != noSession)).length < 64)
/-- An open session whose next entry the running command unit accepts: no resync, no exhausted sequence, room for the response, and no
earlier command of the session or of the tenant still at work. -/
def State.mayAccept (s : State) (sid tag : Nat) : Bool :=
  match s.findSession sid with
  | some x => s.hostUp && x.phase == 2 && !x.resync && decide (x.expected < 2 ^ 64 - 2 ^ 16) && s.hasRoom
      && s.host.waiting.all (fun w => w.sid != sid && w.tag != tag)
  | none => false
/-- The number the session expects next. -/
def State.expected (s : State) (sid : Nat) : Nat := match s.findSession sid with | some x => x.expected | none => 0
/-- Acceptance: the session expects the next number. -/
def State.accept (s : State) (sid : Nat) : State :=
  match s.findSession sid with
  | some x => s.putSession { x with expected := x.expected + 1 }
  | none => s

/-! ## Responses (R371) -/

/-- What a command answers: a status and its result bytes, as the last answer of its session (R385) or not, or a wait for its completion. -/
inductive Reply where
  | done (status : Nat) (result : List Byte)
  | last (status : Nat) (result : List Byte)
  | waits (w : WaitFor)
  deriving DecidableEq, Repr
abbrev Effect := State × Reply
def ok (result : List Byte) : Reply := .done 0 result
def badState : Reply := .done 5 []
def refused (reason : Nat) : Reply := .done 6 [BitVec.ofNat 8 reason]

/-- A response in order behind those held, with the session's next sequence number; none in a session that has ended. -/
def State.respond (s : State) (sid opc cseq status : Nat) (result : List Byte) : State :=
  match s.findSession sid with
  | some x =>
    let s1 := s.putSession { x with sent := x.sent + 1 }
    { s1 with host := { s1.host with held := s1.host.held ++ [⟨sid, false, opc, status, cseq, x.sent, result, x.key⟩] } }
  | none => s
/-- A session ends: what it still waits for is answered nowhere. -/
def State.endSession (s : State) (sid : Nat) : State :=
  { s with host := { s.host with
      sessions := s.host.sessions.filter (fun x => x.sid != sid)
      waiting := s.host.waiting.map (fun w => if w.sid = sid then { w with sid := noSession } else w) } }
/-- A command's effect and its answer. -/
def State.conclude (sid tag opc cseq : Nat) (e : Effect) : State :=
  match e.2 with
  | .done st r => e.1.respond sid opc cseq st r
  | .last st r => (e.1.respond sid opc cseq st r).endSession sid
  | .waits w => { e.1 with host := { e.1.host with waiting := e.1.host.waiting ++ [⟨sid, tag, opc, cseq, w⟩] } }
/-- A command of an open session: accepted, executed and answered. A command that cannot be accepted now has not occurred. -/
def hostCommand (sid tag opc : Nat) (body : State → Effect) (s : State) : Out :=
  if s.mayAccept sid tag then .next (State.conclude sid tag opc (s.expected sid) (body (s.accept sid))) else .next s

/-! ## Sealed result blocks (R369, R377) -/

def asciiBytes (l : List Char) : List Byte := l.map (fun c => BitVec.ofNat 8 c.toNat)
/-- A byte string cut or filled with zeros to `n` bytes. -/
def fixed (n : Nat) (l : List Byte) : List Byte := (l ++ zeros n).take n
def xorBytes (a b : List Byte) : List Byte := a.zipWith (fun x y => x ^^^ y) b
/-- A session's keys and initialisation vectors, derived from its secret for a direction (R369). -/
def hostKey (secret : List Byte) : List Byte := Config.derive secret (asciiBytes ['h', 'k', 'e', 'y'])
def hostIv (secret : List Byte) : List Byte := (Config.derive secret (asciiBytes ['h', 'i', 'v'])).take 12
def devKey (secret : List Byte) : List Byte := Config.derive secret (asciiBytes ['d', 'k', 'e', 'y'])
def devIv (secret : List Byte) : List Byte := (Config.derive secret (asciiBytes ['d', 'i', 'v'])).take 12
/-- The nonce of a sequence number: the vector xor SEQ. -/
def nonceOf (iv : List Byte) (seq : Nat) : List Byte := xorBytes iv (natBytes seq 8 ++ zeros 4)
/-- Bytes 0x00–0x0F of an entry. -/
def entryHead (sid kind len seq : Nat) : List Byte := natBytes sid 2 ++ natBytes kind 2 ++ natBytes len 4 ++ natBytes seq 8
/-- The address of host physical memory in the host window (R366). -/
def hostAddr (s : State) (a : Nat) : Nat := s.modid.toNat * 2 ^ 46 + 0x100000000000 + a
/-- Bytes written through the host window with tag 0. -/
def State.putHost (s : State) (a : Nat) (l : List Byte) : State := { s with mem := memPut s.mem (cellsAt (hostAddr s a) l) }
def State.getHost (s : State) (a n : Nat) : List Byte := memBytes s.mem (hostAddr s a) n
/-- Whether a result buffer of `n` bytes at an aligned host address lies in the host window. -/
def rawOk (raddr : Word) (n : Nat) : Bool := raddr.toNat % 64 == 0 && decide (raddr.toNat < 2 ^ 44 ∧ raddr.toNat + n ≤ 2 ^ 44)
/-- A sealed block: length, tag, ciphertext. -/
def State.sealedBlock (s : State) (sid : Nat) (block : List Byte) : List Byte :=
  match s.findSession sid with
  | some x =>
    let c := Config.aeadSeal (Config.derive (devKey x.key) (asciiBytes ['T', 'T', '3', ' ', 'r', 'e', 's', 'u', 'l', 't']))
      (nonceOf (devIv x.key) x.sent) (entryHead sid 0 208 x.sent) block
    natBytes block.length 8 ++ c.drop block.length ++ c.take block.length
  | none => []
/-- The result block written to the buffer a command names. -/
def State.writeResult (s : State) (sid : Nat) (raddr rlen : Word) (block : List Byte) : Effect :=
  if !rawOk raddr (block.length + 24) then (s, refused 0x11)
  else if rlen.toNat < block.length + 24 then (s, refused 0x13)
  else (s.putHost raddr.toNat (s.sealedBlock sid block), ok (natBytes block.length 8))

/-! ## The tenant's configuration (R384) -/

def extentBytes (v : Vector Extent 16) : List Byte := v.toList.flatMap (fun x => natBytes x.wordB 8 ++ natBytes x.wordL 8)
def GranuleId.before (a b : GranuleId) : Bool :=
  decide (a.kind < b.kind) || (a.kind == b.kind && (decide (a.die < b.die) || (a.die == b.die && decide (a.index < b.index))))
/-- A list with an element put before the first that does not precede it. -/
def insertBy {α : Type} (lt : α → α → Bool) (x : α) : List α → List α
  | [] => [x]
  | y :: r => if lt y x then y :: insertBy lt x r else x :: y :: r
def sortBy {α : Type} (lt : α → α → Bool) (l : List α) : List α := l.foldr (insertBy lt) []
/-- The digest of a tenant's extents, grants, objects and Almanacs, each in ascending order. -/
def State.tcfgOf (s : State) (x : Tenant) : List Byte :=
  let g := sortBy GranuleId.before ((s.granules.filter (fun g => g.tag == x.tag)).map Granule.id)
  let o := sortBy (fun a b => decide (a.objid < b.objid)) (s.objects.filter (fun o => o.tenant == x.tag))
  let t := sortBy (fun a b => decide (a.num < b.num)) (s.teamsOf x.tag)
  Config.sha512 (extentBytes x.ext ++ g.flatMap (fun i => natBytes i.kind 1 ++ natBytes i.die 1 ++ natBytes i.index 4)
    ++ o.flatMap Obj.digest ++ t.flatMap (fun t => Config.sha512 t.almanac))
/-- A command that changed the configuration of a LOCKED or RUN tenant has completed. -/
def State.reconfigure (s : State) (tag : Nat) : State :=
  match s.findTenant tag with
  | some x =>
    if x.state = .locked ∨ x.state = .run then
      s.putTenant { x with tcfg := s.tcfgOf x, cfgGen := min 0xFFFFFFFF (x.cfgGen + 1) }
    else s
  | none => s

/-! ## Tenant states and sessions (R374) -/

def State.inState (s : State) (tag : Nat) (l : List TenantState) : Bool :=
  match s.findTenant tag with | some x => l.contains x.state | none => false
/-- A command of the operator session, of the tenant's own session, or of either. -/
def byOperator (sid : Nat) : Bool := sid == 0
def byTenant (sid tag : Nat) : Bool := sid == tag && sid != 0
def anyState : List TenantState := [.unlocked, .locked, .run, .error]

/-! ## Halting a team (R37, R394, R395) -/

/-- The stop of a team that holds its clusters, with its save; then it waits for its slot or is halted. -/
def State.stopAndSave (s : State) (t : Team) (r : StopReason) : State :=
  let s1 := if t.stop = .stopped then s.putTeam { t with reason := r, byStop := false } else s.stopNow { t with reason := r, byStop := false }
  match s1.findTeam t.num with
  | some u => if u.stop = .stopped then s1.saveNow u else s1
  | none => s1
/-- A Solstice stop of a team that is RUNNING or WAITING, complete at once. -/
def State.haltTeam (s : State) (r : StopReason) (num : Nat) : State :=
  match s.findTeam num with
  | none => s
  | some t =>
    let after : TeamState := if r = StopReason.slot then .waiting else .halted
    if t.state = .running then
      if t.stop ≠ .none ∧ t.reason = StopReason.fail then s.failStopped t
      else if t.restorePending then (s.coolDown t).putTeam { t with state := after, stop := .saved, reason := r, byStop := false, haltAt := none }
      else s.stopAndSave { t with haltAt := none } r
    else if t.state = .waiting then s.putTeam { t with state := after, byStop := false, haltAt := none }
    else s
def State.haltTeams (s : State) (r : StopReason) (l : List Team) : State := l.foldl (fun s t => s.haltTeam r t.num) s
/-- The tenant enters ERROR (R375): its teams still RUNNING or WAITING are left HALTED. -/
def State.enterError (s : State) (tag : Nat) : State :=
  match s.findTenant tag with
  | some x => (s.putTenant { x with state := .error }).haltTeams .halt (s.teamsOf tag)
  | none => s

/-! ## Releasing a team (R37, R416) -/

/-- What a released team had made ready at a tile is gone. -/
def State.dropReady (s : State) (num n : Nat) : State :=
  s.setTile n { s.getTile n with localQ := (s.getTile n).localQ.filter (fun i => i.team != num) }
/-- A tile its team gives up. -/
def State.leaveTile (s : State) (n : Nat) : State :=
  let s1 := s.setCore (.main n) { s.getCore (.main n) with running := false, wait := none }
  let s2 := s1.setCore (.stage n) { s1.getCore (.stage n) with running := false, wait := none }
  s2.setTile n { s2.getTile n with team := 0, tenant := 0, frozen := false }
/-- A cluster its team gives up; a team that returns to it finds it cleared. -/
def State.leaveCluster (s : State) (num c : Nat) : State :=
  let k := s.getCluster c
  let held := k.holder == some num
  let s0 := ((List.range 16).map (tileOfCluster c)).foldl (fun s n => s.dropReady num n) s
  let s1 := if held then ((List.range 16).map (tileOfCluster c)).foldl State.leaveTile (s0.dropMigrations c) else s0
  let s2 := if held then s1.setCore (.coll c) { s1.getCore (.coll c) with running := false } else s1
  s2.setCluster c { k with
    holder := if held then none else k.holder
    fw := if held then none else k.fw
    readyQ := k.readyQ.filter (fun i => i.team != num)
    slots := k.slots.map (fun x => if x = some num then none else x) }
def State.dropTeam (s : State) (t : Team) : State := { s with teams := s.teams.filter (fun u => u.num != t.num) }
/-- A team is released: its slots, its clusters and its record. -/
def State.releaseTeam (s : State) (num : Nat) : State :=
  match s.findTeam num with
  | none => s
  | some t => (t.clusters.foldl (fun s c => s.leaveCluster num c.1) s).dropTeam t

end Sys2Proof.Machine
end

