-- ==== Sys2Proof/Machine/Code.lean ====
section
/-!
DEFINITION. What Varpen reads off a function's instructions: their places, the control flow between them (R150, R173–R178), and which
registers are live (R76, R343).
-/
namespace Sys2Proof.Machine
open Sys2Proof

/-! ## Instructions and places -/

/-- The instructions of a section with their offsets, or the offset of a word its processor rejects. -/
def decodeAll (c : Column) : Nat → List Word → Except Nat (List (Nat × Instr))
  | _, [] => .ok []
  | o, [w] => match decodeFor c w.toNat 0 with
    | .ok i => if fld w.toNat 62 2 = 1 then .error o else .ok [(o, i)]
    | .error _ => .error o
  | o, w :: e :: r =>
    match decodeFor c w.toNat e.toNat with
    | .ok i =>
      (match (if fld w.toNat 62 2 = 1 then decodeAll c (o + 16) r else decodeAll c (o + 8) (e :: r)) with
        | .ok l => .ok ((o, i) :: l)
        | .error x => .error x)
    | .error _ => .error o
def sectColumn : Nat → Column
  | 0 => .main
  | 1 => .stage
  | _ => .coll
def iterate {α : Type} (g : α → α) : Nat → α → α
  | 0, x => x
  | n + 1, x => iterate g n (g x)

/-! ## Control flow -/

/-- A procedure's instructions. -/
def inProc (l : List (Nat × Instr)) (p : Nat × Nat) : List (Nat × Instr) := l.filter (fun q => decide (p.1 ≤ q.1 ∧ q.1 < p.1 + p.2))
/-- The number of instructions a loop's body has. -/
def bodyLen : Instr → Option Nat
  | .loop x => some x.len.toNat
  | .loopi x => some x.len.toNat
  | _ => none
def loopLevel : Instr → Nat
  | .loop x => x.lv.toNat
  | .loopi x => x.lv.toNat
  | _ => 0
/-- The bodies of a procedure: the loop's level, and the first and last place of its body. -/
def bodies (l : List (Nat × Instr)) : List (Nat × Nat × Nat) :=
  l.zipIdx.filterMap (fun q => (bodyLen q.1.2).map (fun n => (loopLevel q.1.2, q.2 + 1, q.2 + n)))
/-- A branch's displacement in words, when it is a BR or BRL. -/
def branchOff : Instr → Option Int
  | .br x => some x.off.toInt
  | .brl x => some x.off.toInt
  | _ => none
def placeOf (l : List (Nat × Instr)) (o : Int) : Option Nat := l.findIdx? (fun q => (q.1 : Int) == o)
def isAlways (q : Guard) : Bool := q.gp == 0 && !q.gs
/-- Whether execution may go on at the next instruction. -/
def fallsOn : Instr → Bool
  | .br x => !isAlways x.q
  | .jr x => !isAlways x.q
  | .tend x => !isAlways x.q
  | .stageTend x => !isAlways x.q
  | .tret x => !isAlways x.q
  | _ => true
/-- The places execution may go to from place `i`. -/
def nextPlaces (l : List (Nat × Instr)) (calls : List Nat) (i : Nat) (q : Nat × Instr) : List Nat :=
  (if fallsOn q.2 then [i + 1] else [])
    ++ (match branchOff q.2 with | some d => if calls.contains q.1 then [] else (placeOf l ((q.1 : Int) + 8 * d)).toList | none => [])
    ++ (match bodyLen q.2 with | some n => [i + n + 1] | none => [])
    ++ ((bodies l).filter (fun b => b.2.2 == i)).map (fun b => b.2.1)
    ++ (match q.2 with
      | .lbrk x => ((bodies l).filter (fun b => b.1 == x.lv.toNat && decide (b.2.1 ≤ i ∧ i ≤ b.2.2))).map (fun b => b.2.2 + 1)
      | _ => [])

/-! ## Functions -/

/-- A procedure as Varpen translates it: its section, its instructions, each with its offset, the link index of each CALL by its
offset, and what it is: the handler procedure, one that a CALL reaches. -/
structure Fn where
  sect : Nat
  ins : List (Nat × Instr)
  calls : List (Nat × Nat)
  handler : Bool
  called : Bool
  deriving DecidableEq, Repr
/-- The link index of a CALL at an offset. -/
def Fn.callAt (f : Fn) (o : Nat) : Option Nat := (f.calls.find? (fun c => c.1 == o)).map Prod.snd
/-- The place a branch of the procedure goes to; none for a CALL. -/
def Fn.branchPlace (f : Fn) (q : Nat × Instr) : Option Nat :=
  match f.callAt q.1, branchOff q.2 with
  | none, some d => placeOf f.ins ((q.1 : Int) + 8 * d)
  | _, _ => none
/-- Where execution may go from place `i`: the next instruction, a branch's target, the ways of a loop, past a repeated block, and, from
a return, behind every call to a place of the procedure itself. -/
def Fn.next (f : Fn) (i : Nat) (q : Nat × Instr) : List Nat :=
  nextPlaces f.ins (f.calls.map Prod.fst) i q
    ++ (match q.2 with | .rep x => [i + 2 + x.lenM1.toNat] | _ => [])
    ++ (match q.2 with
      | .jr _ => (f.ins.zipIdx.filter (fun p => match p.1.2 with | .brl _ => (f.callAt p.1.1).isNone | _ => false)).map (fun p => p.2 + 1)
      | _ => [])

/-! ## Liveness (R343) -/

/-- Live at a return: g1–g8, g16–g27, a8–a13 and a15. -/
def liveReturn : Regs := Regs.of ((List.range 8).map (· + 1) ++ (List.range 12).map (· + 16) ++ (List.range 6).map (· + 40) ++ [47])
/-- Live at a call: those, a1–a6 and a14. -/
def liveCall : Regs := liveReturn ||| Regs.of ((List.range 6).map (· + 33) ++ [46])
/-- What is live before an instruction, given what is live behind it. -/
def Fn.liveBefore (f : Fn) (i : Instr) (out : Regs) : Regs :=
  let here : Option Regs := match i with
    | .brl _ => some liveCall
    | .jr _ => some (if f.handler then ~~~Regs.none else liveReturn ||| Instr.reads i)
    | .tend _ => some Regs.none
    | .stageTend _ => some Regs.none
    | .tret _ => some (~~~Regs.none)
    | _ => none
  match here with
  | some r => r ||| (if Instr.guarded i then out ||| Instr.reads i else 0)
  | none => Instr.reads i ||| (out &&& ~~~(Instr.kills i))
/-- What is live at a place that a CALL by BR leaves: all a call needs. -/
def Fn.liveOut (f : Fn) (l : List Regs) (i : Nat) (q : Nat × Instr) : Regs :=
  ((f.next i q).foldl (fun s j => s ||| l.getD j 0) 0) ||| (match q.2, f.callAt q.1 with | .br _, some _ => liveCall | _, _ => 0)
/-- One sweep against the order of the places. -/
def Fn.liveSweep (f : Fn) (l : List Regs) : List Regs :=
  f.ins.zipIdx.reverse.foldl (fun l q =>
    l.set q.2 (if f.handler ∧ q.2 = 0 then ~~~Regs.none else f.liveBefore q.1.2 (f.liveOut l q.2 q.1))) l
/-- Sweeps until nothing changes. -/
def untilStable {α : Type} [BEq α] (g : α → α) : Nat → α → α
  | 0, x => x
  | n + 1, x => let y := g x; if y == x then x else untilStable g n y
/-- The registers live before each instruction; every register is live at the handler procedure's entry. -/
def Fn.live (f : Fn) : List Regs := untilStable f.liveSweep (f.ins.length + 2) (f.ins.map (fun _ => 0))

end Sys2Proof.Machine
end

