-- ==== Sys2Proof/Machine/Varpen.lean ====
section
/-!
DEFINITION. Varpen's confinement of core accesses (R339–R343): the provenance of every a register, the facts a proof may use, which
checks are elided, the checks that are inserted with their footprints, and the loops that checks make too long. R340 to R343 fix what a
check covers and which registers it may use; the instructions that compute its operands, and the power of the proof, are the model's
choice (log entry 25).
-/
namespace Sys2Proof.Machine
open Sys2Proof

/-! ## What a function is translated for (R338, R363) -/

/-- The buffers with the extent each is bound to, the scratch extent, every extent that may reach a base of unknown origin, and the
registers a trap handler of the object may change between any two instructions; `handled` when there is one. -/
structure Bind where
  bufs : List BufRow
  ext : List Nat
  scrx : Nat
  all : List Nat
  handled : Bool
  handlerWrites : Regs
  /-- The stream slots that a SON of the object names: their registers may be bound. -/
  streams : List Nat
  /-- The slots that the handler, and procedures a CALL reaches, configure, bind or unbind. -/
  handlerSlots : List Nat
  callSlots : List Nat
  deriving DecidableEq, Repr
/-- Whether a vector register may be a bound stream's. -/
def Bind.bound (b : Bind) (v : VReg) : Bool := decide (28 ≤ v.toNat) && b.streams.contains (v.toNat - 28)

/-! ## Provenance (R339) -/

inductive Prov where
  | buffer (b : Nat)
  | extent (x : Nat)
  | stack
  | link
  /-- A merge of provenances, with the extents that reach it. -/
  | unknown (l : List Nat)
  deriving DecidableEq, Repr
/-- The extents a pointer of a provenance may lie in. -/
def Prov.extents (b : Bind) : Prov → List Nat
  | .buffer n => [b.ext.getD n 0]
  | .extent x => [x]
  | .stack => [b.scrx]
  | .link => []
  | .unknown l => l
def Prov.join (b : Bind) (p q : Prov) : Prov :=
  if p = q then p else .unknown ((List.range 32).filter (fun x => (p.extents b).contains x || (q.extents b).contains x))

/-- A range of integers, ends included; none where nothing is known. -/
abbrev Ival := Option (Int × Int)
/-- A span of values that a register holds without wrapping. -/
def Ival.in64 (x : Ival) : Ival :=
  match x with
  | some (a, b) => if -2 ^ 63 ≤ a ∧ b < 2 ^ 63 then some (a, b) else none
  | none => none
def Ival.add (x y : Ival) : Ival :=
  match x, y with
  | some (a, b), some (c, d) => some (a + c, b + d)
  | _, _ => none
def Ival.neg (x : Ival) : Ival := x.map (fun p => (-p.2, -p.1))
def Ival.scale (k : Int) (x : Ival) : Ival := x.map (fun p => (min (k * p.1) (k * p.2), max (k * p.1) (k * p.2)))
def Ival.mul (x y : Ival) : Ival :=
  match x, y with
  | some (a, b), some (c, d) => some (min (min (a * c) (a * d)) (min (b * c) (b * d)), max (max (a * c) (a * d)) (max (b * c) (b * d)))
  | _, _ => none
def Ival.hull (x y : Ival) : Ival :=
  match x, y with
  | some (a, b), some (c, d) => some (min a c, max b d)
  | _, _ => none
/-- The one value of a span that holds one. -/
def Ival.const (x : Ival) : Option Int :=
  match x with
  | some (a, b) => if a = b then some a else none
  | none => none

/-- An a register: its provenance, the pointer step of its fmt when it is known, and its offset from the buffer's first byte or from the
entry value of a15. -/
structure Ptr where
  prov : Prov
  step : Option Nat
  off : Ival
  deriving DecidableEq, Repr
def Ptr.join (b : Bind) (p q : Ptr) : Ptr :=
  ⟨p.prov.join b q.prov, if p.step = q.step then p.step else none, if p.prov = q.prov then p.off.hull q.off else none⟩
/-- A register of unknown origin. -/
def Ptr.unknown (b : Bind) : Ptr := ⟨.unknown b.all, none, none⟩
def Ptr.isLink (p : Ptr) : Bool := p.prov == .link
def Ptr.link : Ptr := ⟨.link, none, none⟩

/-! ## Facts (R340) -/

/-- A value a stream's configuration took, and the register that still holds it; not `sure` when its SDIM may not have run. -/
structure Held where
  range : Ival
  reg : Option Nat
  sure : Bool
  deriving DecidableEq, Repr
/-- A stream slot: whether it may be configured and may be bound, and what it is configured to. -/
structure StreamFact where
  conf : Bool
  bound : Bool
  ptr : Ptr
  reg : Option Nat
  push : Option Bool
  bounds : List Held
  strides : List Held
  deriving DecidableEq, Repr
/-- What holds before an instruction in every execution: spans of the g registers, the a registers, the streams. -/
structure Facts where
  g : List Ival
  a : List Ptr
  s : List StreamFact
  deriving DecidableEq, Repr
def Facts.rg (f : Facts) (r : GReg) : Ival := if r = 0 then some (0, 0) else f.g.getD r.toNat none
def Facts.ra (f : Facts) (r : AReg) : Ptr := f.a.getD r.toNat Ptr.link
def StreamFact.unknown (b : Bind) : StreamFact := ⟨true, true, Ptr.unknown b, none, none, [], []⟩
/-- A slot as a task finds it: SON of it traps (R207). -/
def StreamFact.off : StreamFact := ⟨false, false, Ptr.link, none, none, [], []⟩
def Held.join (h k : Held) : Held := ⟨if h.range = k.range then h.range else none, if h.reg = k.reg then h.reg else none, h.sure && k.sure⟩
/-- What is known of a slot on either of two paths: one that is not configured adds nothing, as no SON passes there. -/
def StreamFact.join (b : Bind) (x y : StreamFact) : StreamFact :=
  let on := x.bound || y.bound
  if x = y then x
  else if !x.conf then { y with bound := on }
  else if !y.conf then { x with bound := on }
  else if x.ptr = y.ptr ∧ x.push = y.push then
    ⟨true, on, x.ptr, if x.reg = y.reg then x.reg else none, x.push, List.zipWith Held.join x.bounds y.bounds, List.zipWith Held.join x.strides y.strides⟩
  else { StreamFact.unknown b with bound := on }
/-- Registers that are written hold a stream's values no more. -/
def Held.drop (w : Regs) (h : Held) : Held := { h with reg := h.reg.filter (fun r => !Regs.has w r) }
def StreamFact.drop (w : Regs) (s : StreamFact) : StreamFact :=
  { s with reg := s.reg.filter (fun r => !Regs.has w r), bounds := s.bounds.map (Held.drop w), strides := s.strides.map (Held.drop w) }
/-- What joins two states of knowledge, each span by `j`. -/
def Facts.joinBy (b : Bind) (j : Ival → Ival → Ival) (f h : Facts) : Facts where
  g := List.zipWith j f.g h.g
  a := List.zipWith (fun p q => let r := p.join b q; { r with off := if p.prov = q.prov then j p.off q.off else none }) f.a h.a
  s := List.zipWith (StreamFact.join b) f.s h.s
def Facts.join (b : Bind) (f h : Facts) : Facts := f.joinBy b Ival.hull h
/-- At the head of a loop, what changes is no longer known. -/
def Facts.widen (b : Bind) (f h : Facts) : Facts := f.joinBy b (fun x y => if x.hull y = x then x else none) h
/-- Registers that a handler, or a callee, may have changed. -/
def Facts.forget (b : Bind) (w : Regs) (f : Facts) : Facts where
  g := f.g.mapIdx (fun i x => if Regs.has w i then none else x)
  a := f.a.mapIdx (fun i x => if Regs.has w (32 + i) then Ptr.unknown b else x)
  s := f.s.map (StreamFact.drop w)

/-- The value an instruction gives its g destination. -/
def gFact (i : Instr) (f : Facts) : Ival :=
  let k (n : BitVec 20) : Ival := some (n.toInt, n.toInt)
  match i with
  | .li x => k x.imm
  | .lih x => match (f.rg x.a).const with
    | some v => let y := (wNat ((wInt v).toNat * 2 ^ 20 + x.imm.toNat)).toInt; some (y, y)
    | none => none
  | .add x => ((f.rg x.a).add (f.rg x.b)).in64
  | .addi x => ((f.rg x.a).add (k x.imm)).in64
  | .subG x => ((f.rg x.a).add (f.rg x.b).neg).in64
  | .mul x => ((f.rg x.a).mul (f.rg x.b)).in64
  | .muli x => ((f.rg x.a).mul (k x.imm)).in64
  | .shli x => ((f.rg x.a).scale (2 ^ x.n.toNat)).in64
  | .shrai x => (f.rg x.a).map (fun p => (p.1 / 2 ^ x.n.toNat, p.2 / 2 ^ x.n.toNat))
  | .shri x => match f.rg x.a with
    | some (a, b) => if 0 ≤ a then some (a / 2 ^ x.n.toNat, b / 2 ^ x.n.toNat) else none
    | none => none
  | .minS x => match f.rg x.a, f.rg x.b with | some (a, b), some (c, d) => some (min a c, min b d) | _, _ => none
  | .maxS x => match f.rg x.a, f.rg x.b with | some (a, b), some (c, d) => some (max a c, max b d) | _, _ => none
  | .mini x => (f.rg x.a).map (fun p => (min p.1 x.imm.toInt, min p.2 x.imm.toInt))
  | .maxi x => (f.rg x.a).map (fun p => (max p.1 x.imm.toInt, max p.2 x.imm.toInt))
  | .andi x => match (f.rg x.a).const with
    | some v => let y := (wInt v &&& x.imm.signExtend 64).toInt; some (y, y)
    | none => if 0 ≤ x.imm.toInt then some (0, x.imm.toInt) else none
  | .ori x => (f.rg x.a).const.map (fun v => let y := (wInt v ||| x.imm.signExtend 64).toInt; (y, y))
  | .xori x => (f.rg x.a).const.map (fun v => let y := (wInt v ^^^ x.imm.signExtend 64).toInt; (y, y))
  | .sel x => (f.rg x.a).hull (f.rg x.b)
  | _ => none
def Ptr.move (p : Ptr) (n : Ival) : Ptr :=
  { p with off := match p.step with | some k => p.off.add (n.scale k) | none => none }
/-- The pointer an instruction gives its a destination: AMOV, AADD, AADDI and AFMT keep the provenance, AFROM names its extent, a BRL gives
a link (R339). -/
def aFact (b : Bind) (i : Instr) (f : Facts) : Ptr :=
  match i with
  | .amov x => f.ra x.a
  | .aadd x => (f.ra x.a).move (f.rg x.b)
  | .aaddi x => (f.ra x.a).move (some (x.imm.toInt, x.imm.toInt))
  | .afmt x => { f.ra x.a with step := some x.fmt.step }
  | .afrom x => ⟨.extent x.ext.toNat, some x.fmt.step, none⟩
  | .brl _ => Ptr.link
  | _ => Ptr.unknown b
/-- The registers a callee may change: all but g16–g27 and a8–a13 (R75). -/
def callClobbers : Regs :=
  Regs.of ((List.range 16) ++ [28, 29, 30, 31] ++ (List.range 8).map (· + 32) ++ [46, 47] ++ (List.range 8).map (· + 48) ++ (List.range 32).map (· + 64))
/-- What is known after a call: no g register, no stream that a callee may touch, and of the a registers the provenance of a8–a13 and the
link. -/
def Facts.afterCall (b : Bind) (f : Facts) : Facts where
  g := f.g.map (fun _ => none)
  a := f.a.mapIdx (fun i p => if i = 14 then Ptr.link else if Regs.has callClobbers (32 + i) then Ptr.unknown b else { p with off := none, step := none })
  s := f.s.mapIdx (fun k x => if b.callSlots.contains k then StreamFact.unknown b else x.drop callClobbers)
def Held.one : Held := ⟨some (1, 1), none, true⟩
def Held.zero : Held := ⟨some (0, 0), none, true⟩
/-- What an SDIM leaves of a bound or stride: one that may not run leaves the default beside its own value, or what it had before. -/
def Held.after (maybe : Bool) (default old new : Held) : Held :=
  if !maybe then new else if old = default then ⟨old.range.hull new.range, new.reg, false⟩ else old.join new
/-- Whether a value is known to lie in a range. -/
def Ival.within (x : Ival) (lo hi : Int) : Bool := match x with | some (a, b) => decide (lo ≤ a ∧ b ≤ hi) | none => false
/-- What a stream instruction leaves of the slots. It may have no effect by its guard, and where it traps a handler may go on behind it:
SCFG of a slot that may be bound, and SDIM of one, or of values that may be out of range (R207). -/
def streamFacts (b : Bind) (i : Instr) (f : Facts) : List StreamFact :=
  let at_ (n : BitVec 2) : StreamFact := f.s.getD n.toNat StreamFact.off
  match i with
  | .scfg x =>
    let old := at_ x.slot
    let new : StreamFact := ⟨true, old.bound, f.ra x.a, some (aNum x.a), some x.push, List.replicate 4 Held.one, List.replicate 4 Held.zero⟩
    f.s.set x.slot.toNat (if Instr.guarded i || (b.handled && old.bound) then old.join b new else new)
  | .sdim x =>
    let old := at_ x.slot
    let maybe := Instr.guarded i || (b.handled && (old.bound || !(f.rg x.bound).within 0 (2 ^ 32 - 1) || !(f.rg x.stride).within (-2 ^ 31) (2 ^ 31 - 1)))
    let put (l : List Held) (d : Held) (r : GReg) : List Held :=
      l.set x.dim.toNat (Held.after maybe d (l.getD x.dim.toNat d) ⟨f.rg r, some r.toNat, true⟩)
    if old.conf then f.s.set x.slot.toNat { old with bounds := put old.bounds Held.one x.bound, strides := put old.strides Held.zero x.stride } else f.s
  | .son x => f.s.set x.slot.toNat { at_ x.slot with bound := true }
  | .soff x => f.s.set x.slot.toNat { at_ x.slot with bound := Instr.guarded i && (at_ x.slot).bound }
  | _ => f.s
/-- What a handler may have done to the slots. -/
def Facts.touched (b : Bind) (f : Facts) : Facts :=
  { f with s := f.s.mapIdx (fun k x => if b.handlerSlots.contains k then StreamFact.unknown b else x) }
/-- A register that an unguarded instruction writes has the provenance it gives (R339); one a handler may have skipped has no known
offset beside it (R340). -/
def Ptr.after (p q : Ptr) : Ptr :=
  { q with step := if p.step = q.step then q.step else none, off := if p.prov = q.prov then p.off.hull q.off else none }
/-- The knowledge behind an instruction; one that may be skipped, by its guard or by a handler, keeps the old beside the new. -/
def factStep (b : Bind) (i : Instr) (f : Facts) : Facts :=
  let w := Instr.writes i
  let maybe := Instr.guarded i || b.handled
  let new : Facts := ⟨f.g.mapIdx (fun n x => if Regs.has w n then (if maybe then x.hull (gFact i f) else gFact i f) else x),
    f.a.mapIdx (fun n p => if Regs.has w (32 + n) then (if Instr.guarded i then p.join b (aFact b i f)
      else if b.handled then p.after (aFact b i f) else aFact b i f) else p),
    (streamFacts b i f).map (StreamFact.drop w)⟩
  (new.forget b b.handlerWrites).touched b

/-! ## Loop counts and induction (R340) -/

/-- The body of the loop at place `k`: its level and its first and last place. -/
def Fn.bodyAt (f : Fn) (k : Nat) : Option (Nat × Nat × Nat) :=
  match f.ins[k]? with
  | some q => (bodyLen q.2).map (fun n => (loopLevel q.2, k + 1, k + n))
  | none => none
/-- The places of a range. -/
def Fn.between (f : Fn) (a b : Nat) : List (Nat × Instr) := (f.ins.drop a).take (b + 1 - a)
/-- The registers the places of a range may write; a call writes what a callee may change. -/
def Fn.writesIn (f : Fn) (a b : Nat) : Regs :=
  (f.between a b).foldl (fun s q => s ||| Instr.writes q.2 ||| (match q.2 with | .brl _ => callClobbers | _ => 0)) 0
/-- The predicate register, the count register and the largest count of a comparison that bounds a loop count, when it is true. -/
def bounding (f : Facts) : Instr → Option (Nat × GReg × Int)
  | .cmpeqi x => some (pNum x.d, x.a, x.imm.toInt)
  | .cmplti x => some (pNum x.d, x.a, x.imm.toInt - 1)
  | .cmpeq x => (f.rg x.b).const.map (fun v => (pNum x.d, x.a, v))
  | .cmplt x => (f.rg x.b).const.map (fun v => (pNum x.d, x.a, v - 1))
  | .cmple x => (f.rg x.b).const.map (fun v => (pNum x.d, x.a, v))
  | .cmpltn x => (f.rg x.b).const.bind (fun v => if 0 ≤ v then some (pNum x.d, x.a, v - 1) else none)
  | .cmplen x => (f.rg x.b).const.bind (fun v => if 0 ≤ v then some (pNum x.d, x.a, v) else none)
  | _ => none
/-- Whether the branch at place `n` decides the predicate for a loop at place `k`: it leaves when the predicate is false and the paths to
the loop fall through it, or it is the one way to them and is taken when the predicate is true. No other way leads between the comparison
and the loop. -/
def Fn.decides (f : Fn) (c n k p : Nat) : Bool :=
  match f.ins[n]? with
  | some (o, .br x) =>
    let into := (f.ins.zipIdx.filter (fun q => q.2 != n)).flatMap (fun q => (f.next q.2 q.1).filter (fun j => decide (j ≠ q.2 + 1 ∧ c < j ∧ j ≤ k)))
    let t := f.branchPlace (o, .br x)
    into == [] && pNum x.q.gp == p
      && (if x.q.gs then (match t with | some j => !decide (c < j ∧ j ≤ k) | none => true)
        else match t with
          | some j => decide (n < j ∧ j ≤ k) && (match f.ins[j - 1]? with | some q => !fallsOn q.2 | none => false)
          | none => false)
  | _ => false
/-- The largest count a LOOP at place `k` can run: that of a dominating comparison of its count register, which nothing writes in between
(R340). A handler could write either register there, or skip the comparison or the branch. -/
def Fn.countBound (f : Fn) (b : Bind) (st : List (Option Facts)) (k : Nat) (r : GReg) : Option Int :=
  if b.handled then none else (List.range k).findSome? (fun c =>
    match f.ins[c]?, st.getD c none with
    | some q, some w => match bounding w q.2 with
      | some (p, g, n) =>
        if g = r ∧ !Instr.guarded q.2 ∧ !Regs.has (f.writesIn (c + 1) (k - 1)) p ∧ !Regs.has (f.writesIn (c + 1) (k - 1)) (gNum r)
            ∧ (List.range k).any (fun n => decide (c < n) && f.decides c n k p) then some n else none
      | none => none
    | _, _ => none)
/-- The passes of the loop at place `k`, when they are bounded. -/
def Fn.passes (f : Fn) (b : Bind) (st : List (Option Facts)) (k : Nat) : Option Int :=
  match f.ins[k]? with
  | some (_, .loopi x) => some x.icnt.toNat
  | some (_, .loop x) => match f.countBound b st k x.cnt with
    | some n => some n
    | none => ((st.getD k none).bind (fun w => (w.rg x.cnt).const)).bind (fun v => if 0 ≤ v then some v else none)
  | _ => none
/-- The registers a body moves by the same amount in every pass: one unguarded ADDI or AADDI of the register to itself, in no inner body,
where no branch of the body goes back and no handler writes it. -/
def Fn.induction (f : Fn) (h : Regs) (a b : Nat) : List (Nat × Int) :=
  let l := (f.between a b).zipIdx.map (fun q => (a + q.2, q.1))
  let back := l.any (fun q => match f.branchPlace q.2 with | some j => decide (j ≤ q.1) | none => false)
  let inner (n : Nat) : Bool := l.any (fun q => match f.bodyAt q.1 with | some x => decide (x.2.1 ≤ n ∧ n ≤ x.2.2) | none => false)
  let alone (n r : Nat) : Bool := !Regs.has h r && l.all (fun q => q.1 == n || !Regs.has (Instr.writes q.2.2) r)
  if back then [] else l.filterMap (fun q =>
    match q.2.2 with
    | .addi x => if x.d = x.a ∧ isAlways x.q ∧ !inner q.1 ∧ alone q.1 (gNum x.d) then some (gNum x.d, x.imm.toInt) else none
    | .aaddi x => if x.d = x.a ∧ isAlways x.q ∧ !inner q.1 ∧ alone q.1 (aNum x.d) then some (aNum x.d, x.imm.toInt) else none
    | _ => none)
/-- What holds at the start of every pass, from what holds at the loop: a register that moves by `c` has moved at most `n − 1` times. -/
def Facts.throughout (f : Facts) (n : Option Int) (l : List (Nat × Int)) : Facts :=
  let by_ (r : Nat) (x : Ival) (k : Int) : Ival :=
    match l.find? (fun p => p.1 == r) with
    | some (_, c) => match n with
      | some m => (x.add (Ival.hull (some (0, 0)) (some ((m - 1) * c * k, (m - 1) * c * k))))
      | none => none
    | none => x
  { f with g := f.g.mapIdx (fun i x => (by_ i x 1).in64), a := f.a.mapIdx (fun i p => match p.step with
      | some k => { p with off := by_ (32 + i) p.off k }
      | none => { p with off := if l.any (fun c => c.1 == 32 + i) then none else p.off }) }
/-- The registers that move keep what is known of them at the body's start. -/
def Facts.keeping (f old : Facts) (l : List (Nat × Int)) : Facts :=
  { f with g := f.g.mapIdx (fun i x => if l.any (fun c => c.1 == i) then old.g.getD i none else x)
           a := f.a.mapIdx (fun i p => if l.any (fun c => c.1 == 32 + i) then { p with off := (old.a.getD i Ptr.link).off } else p) }

/-! ## The analysis of a function -/

/-- Whether a way back leads to a place. -/
def Fn.isHead (f : Fn) (j : Nat) : Bool := (f.ins.zipIdx.drop j).any (fun q => (f.next q.2 q.1).contains j)
def Fn.mergeInto (f : Fn) (b : Bind) (st : List (Option Facts)) (j : Nat) (w : Facts) : List (Option Facts) :=
  match st[j]? with
  | some (some old) => st.set j (some (if f.isHead j then old.widen b w else old.join b w))
  | some none => st.set j (some w)
  | none => st
/-- What place `i` contributes to the place `j` behind it. What a call leaves is known at the call: a return adds nothing to it (R339). -/
def Fn.contribution (f : Fn) (b : Bind) (st : List (Option Facts)) (i j : Nat) (q : Nat × Instr) (w : Facts) : Facts :=
  let out := match q.2 with
    | .brl _ => if j = i + 1 then (factStep b q.2 w).afterCall b else factStep b q.2 w
    | _ => factStep b q.2 w
  match f.bodyAt i with
  | some x => if j = x.2.1 then out.throughout (f.passes b st i) (f.induction b.handlerWrites x.2.1 x.2.2) else out
  | none =>
    match (bodies f.ins).find? (fun x => x.2.1 == j && x.2.2 == i) with
    | some x => match st.getD j none with
      | some old => out.keeping old (f.induction b.handlerWrites x.2.1 x.2.2)
      | none => out
    | none => out
def Fn.factSweep (f : Fn) (b : Bind) (st : List (Option Facts)) : List (Option Facts) :=
  f.ins.zipIdx.foldl (fun st q =>
    match st.getD q.2 none with
    | some w => ((match q.1.2 with | .jr _ => if fallsOn q.1.2 then [q.2 + 1] else [] | _ => f.next q.2 q.1)
        ++ (if b.handled then [q.2 + 1] else [])).foldl (fun st j => f.mergeInto b st j (f.contribution b st q.2 j q.1 w)) st
    | none => st) st
/-- What a procedure's entry gives (R75, R339): the a registers, with the buffers of the tasks that enter there. -/
def entryFacts (a14 : Ptr) (a : Nat → Ptr) (stream : StreamFact) : Facts where
  g := List.replicate 32 none
  a := (List.range 16).map (fun i => if i = 14 then a14 else a i)
  s := List.replicate 4 stream
/-- What is known of a place that no path reaches. -/
def nothingKnown (b : Bind) : Facts := entryFacts (Ptr.unknown b) (fun _ => Ptr.unknown b) (StreamFact.unknown b)
/-- What holds before each instruction; none where no path leads. A handler may run before the first one. -/
def Fn.facts (f : Fn) (b : Bind) (entry : Facts) : List (Option Facts) :=
  untilStable (f.factSweep b) (50 * (f.ins.length + 1)) (f.ins.mapIdx (fun i _ => if i = 0 then some ((entry.forget b b.handlerWrites).touched b) else none))

/-! ## Accesses and their footprints (R336, R342) -/

/-- How far an access reaches from its base. -/
inductive Reach where
  /-- z bytes at index × scale + displacement. -/
  | plain (ix : GReg) (scale : Nat) (off : Int) (z : Nat)
  /-- 64/z elements, index × scale apart. -/
  | strided (ix : GReg) (scale : Nat) (off : Int) (z : Nat)
  /-- Elements that the lanes of a vector register number. -/
  | gathered (ix : GReg) (scale : Nat) (off : Int) (z : Nat) (lanes : VReg)
  /-- 64 rows of 64 elements of z bytes. -/
  | bank (str : GReg) (z : Nat)
  deriving DecidableEq, Repr
/-- A core access: its guard, its base, the rights it needs (bit 0 read, 1 write, 3 weight store), and its reach. -/
structure Touch where
  q : Guard
  base : AReg
  need : BitVec 4
  reach : Reach
  deriving DecidableEq, Repr
def MemOp.touch (m : Sys2Proof.MemOp) (q : Guard) (need : BitVec 4) (asz : Asz) : Touch :=
  ⟨q, m.ab, need, .plain m.ix (m.isc.factor asz) m.off.toInt asz.bytes⟩
def queTouch (x : OpQue) (need : BitVec 4) : Touch := ⟨x.q, x.ab, need, .plain x.ix (x.isc.factor .d) 0 8⟩
def AccFmt.bytes : AccFmt → Nat
  | .w80 => 10
  | .fp32 => 4
  | _ => 2
/-- The access of an instruction that Varpen confines (the first row of R336); a stream is confined at its SON. -/
def touchOf : Instr → Option Touch
  | .ld x => some (MemOp.touch x.m x.q 1 x.asz)
  | .st x => some (MemOp.touch x.m x.q 2 x.asz)
  | .lds x => some (MemOp.touch x.m x.q 1 x.asz)
  | .feset x => some (MemOp.touch x.m x.q 2 .d)
  | .feclr x => some (MemOp.touch x.m x.q 2 .d)
  | .fepoll x => some (MemOp.touch x.m x.q 1 .d)
  | .amoadd x => some (MemOp.touch x.m x.q 3 x.asz)
  | .amoand x => some (MemOp.touch x.m x.q 3 x.asz)
  | .amoor x => some (MemOp.touch x.m x.q 3 x.asz)
  | .amoxor x => some (MemOp.touch x.m x.q 3 x.asz)
  | .amomin x => some (MemOp.touch x.m x.q 3 x.asz)
  | .amomax x => some (MemOp.touch x.m x.q 3 x.asz)
  | .amominn x => some (MemOp.touch x.m x.q 3 x.asz)
  | .amomaxn x => some (MemOp.touch x.m x.q 3 x.asz)
  | .amoswp x => some (MemOp.touch x.m x.q 3 x.asz)
  | .amocas x => some (MemOp.touch x.m x.q 3 x.asz)
  | .amofadd x => some (MemOp.touch x.m x.q 3 x.asz)
  | .amoinc x => some (MemOp.touch x.m x.q 3 x.asz)
  | .qpush x => some (queTouch x 2)
  | .qpop x => some (queTouch x 1)
  | .qpopw x => some (queTouch x 1)
  | .qcnt x => some (queTouch x 1)
  | .qtry x => some ⟨x.q, x.ab, 1, .plain x.ix (x.isc.factor .d) 0 8⟩
  | .vld x => some (MemOp.touch x.m x.q 1 x.asz)
  | .vst x => some (MemOp.touch x.m x.q 2 x.asz)
  | .vldk x => some (MemOp.touch x.m x.q 1 .v)
  | .vlds x => some ⟨x.q, x.m.ab, 1, .strided x.m.ix (x.m.isc.factor x.asz) x.m.off.toInt x.asz.bytes⟩
  | .vsts x => some ⟨x.q, x.m.ab, 2, .strided x.m.ix (x.m.isc.factor x.asz) x.m.off.toInt x.asz.bytes⟩
  | .vgath x => some ⟨x.q, x.m.ab, 1, .gathered x.m.ix (x.m.isc.factor x.asz) x.m.off.toInt x.asz.bytes (x.d + 1)⟩
  | .vscat x => some ⟨x.q, x.m.ab, 2, .gathered x.m.ix (x.m.isc.factor x.asz) x.m.off.toInt x.asz.bytes (x.d + 1)⟩
  | .wld x => some (MemOp.touch x.m x.q 8 x.asz)
  | .mdrain x => match x.mode with
    | .mem a g => some ⟨x.q, a, 2, .bank g (AccFmt.bytes x.fov)⟩
    | .vec _ _ _ => none
  | .mload x => some ⟨x.q, x.src, 1, .bank x.str (AccFmt.bytes x.fov)⟩
  | _ => none
/-- The first and last byte an access may reach, from its base, by the facts. -/
def Reach.span (f : Facts) : Reach → Ival
  | .plain ix k off z => ((f.rg ix).scale k).add (some (off, off + z - 1))
  | .strided ix k off z => (Ival.hull (some (0, 0)) ((f.rg ix).scale (k * (64 / z - 1)))).add (some (off, off + z - 1))
  | .gathered ix k off z _ => ((f.rg ix).scale k).add (some (off, off + 2 ^ (8 * z) * z - 1))
  | .bank str z =>
    let s : Ival := if str = 0 then some (64 * z, 64 * z) else match f.rg str with | some (a, b) => if 0 ≤ a then some (a, b) else none | none => none
    (Ival.hull (some (0, 0)) (s.scale 63)).add (some (0, 64 * z - 1))
/-- The vectors of a stream, from its base: none when nothing is known, `some none` when there are none. -/
def StreamFact.span (s : StreamFact) : Option Ival :=
  let dims := s.bounds.zip s.strides
  if dims.any (fun d => d.1.range == some (0, 0)) then some none
  else (dims.foldl (fun acc d =>
      match acc, d.1.range with
      | some x, some (a, b) => if 0 ≤ a then (Ival.hull (some (0, 0)) ((Ival.mul (some (max (a - 1) 0, max (b - 1) 0)) d.2.range))).bind (fun y =>
          (Ival.add (some x) (some y))) else none
      | _, _ => none) (some (0, 0))).bind (fun x => s.ptr.step.map (fun k => ((Ival.scale k (some x)).add (some (0, 63)))))

/-- Whether every byte of a span from a pointer lies in what its provenance allows, with the rights (R339, R340). -/
def proven (b : Bind) (p : Ptr) (x : Ival) (need : BitVec 4) : Bool :=
  match p.off.add x with
  | some (lo, hi) => match p.prov with
    | .buffer n => match b.bufs[n]? with
      | some r => decide (0 ≤ lo ∧ hi < (r.size : Int)) && r.rights.setWidth 4 &&& need == need
      | none => false
    | .stack => decide (-4096 ≤ lo ∧ hi < 0) && 3#4 &&& need == need
    | _ => false
  | none => false

/-! ## Inserted checks (R341, R342) -/

/-- An emitted instruction; for a check of a base that several extents reach, its group. -/
structure Emit where
  i : Instr
  any : Option CheckGroup
  deriving DecidableEq, Repr
def plainly (l : List Instr) : List Emit := l.map (fun i => ⟨i, none⟩)
def k20 (x : Int) : BitVec 20 := BitVec.ofInt 20 x
/-- A constant into a g register. -/
def loadConst (t : GReg) (x : Int) : List Instr :=
  let q := Guard.always
  if -2 ^ 19 ≤ x ∧ x < 2 ^ 19 then [.li ⟨q, t, k20 x⟩]
  else if -2 ^ 39 ≤ x ∧ x < 2 ^ 39 then [.li ⟨q, t, k20 (x / 2 ^ 20)⟩, .lih ⟨q, t, t, k20 (x % 2 ^ 20)⟩]
  else [.li ⟨q, t, k20 (x / 2 ^ 40)⟩, .lih ⟨q, t, t, k20 (x / 2 ^ 20 % 2 ^ 20)⟩, .lih ⟨q, t, t, k20 (x % 2 ^ 20)⟩]
/-- index × scale + displacement in a register: the index itself when that is all, else computed into the temporary. -/
def displaced (t ix : GReg) (k : Nat) (off : Int) : GReg × List Instr :=
  let q := Guard.always
  if off = 0 ∧ (ix = 0 ∨ k = 1) then (ix, [])
  else if ix = 0 then (t, [.li ⟨q, t, k20 off⟩])
  else if k = 1 then (t, [.addi ⟨q, t, ix, k20 off⟩])
  else (t, .shli ⟨q, t, ix, BitVec.ofNat 6 k.log2⟩ :: (if off = 0 then [] else [.addi ⟨q, t, t, k20 off⟩]))

/-- What is checked: the guard and base of the access, the rights it needs, and the extents its base may lie in. -/
structure Claim where
  q : Guard
  base : AReg
  need : BitVec 4
  exts : List Nat
  deriving DecidableEq, Repr
/-- One check per extent (R341); with `low`, of a footprint that begins at that displacement from the base and ends where the check's own
range ends. -/
def Claim.each (c : Claim) (low : Option GReg) (mk : BitVec 5 → Instr) : List Emit :=
  c.exts.map (fun x => ⟨mk (BitVec.ofNat 5 x), if c.exts.length ≤ 1 ∧ low = none then none else some ⟨c.exts, low⟩⟩)
/-- The checks of `n` bytes at a displacement from the base. -/
def Claim.at_ (c : Claim) (d : GReg) (n : Nat) (low : Option GReg) : List Emit :=
  c.each low (fun x => .bchki ⟨c.q, c.base, d, x, c.need, BitVec.ofNat 11 n⟩)
/-- The checks of as many bytes from the base as a register holds. -/
def Claim.len (c : Claim) (n : GReg) : List Emit := c.each none (fun x => .bchk ⟨c.q, c.base, n, x, c.need⟩)
/-- The checks of a footprint whose length is computed and whose first byte is not the base's: one that covers it from its lowest to its
highest `n` bytes. Where a single register is dead, and `high` needs no second one (`two`), a single extent is checked at both ends instead.
-/
def Claim.ends (c : Claim) (n : Nat) (two : Bool) (dead : List GReg) (low : GReg → GReg × List Instr) (high : GReg → GReg → List Instr) :
    Option (List Emit) :=
  match dead with
  | t :: u :: _ =>
    let l := low t
    some (plainly (high u t ++ l.2) ++ c.at_ u n (some l.1))
  | [t] =>
    if c.exts.length ≤ 1 ∧ !two then
      let l := low t
      some (plainly l.2 ++ c.at_ l.1 n none ++ plainly (high t t) ++ c.at_ t n none)
    else none
  | [] => none
/-- The checks of a footprint that is known, from `lo` to `hi`. -/
def Claim.span (c : Claim) (lo hi : Int) (dead : List GReg) : Option (List Emit) :=
  let n := (hi + 1 - lo).toNat
  if n ≤ 2047 ∧ lo = 0 then some (c.at_ 0 n none)
  else match dead with
    | [] => none
    | t :: _ =>
      if n ≤ 2047 then some (plainly (loadConst t lo) ++ c.at_ t n none)
      else if lo = 0 then some (plainly (loadConst t n) ++ c.len t)
      else c.ends 1 false dead (fun t => (t, loadConst t lo)) (fun t _ => loadConst t hi)

/-- Whether the check of a gather or scatter that is not elided would read a bound stream's register, from which a read takes a vector
(R209): the access then takes a dead pair of registers instead, into which the index is read once. None where no pair is dead, for which the
object is refused, or where its own vector register may be bound too, for which no check can hold the index. -/
def gatherMove (b : Bind) (w : Facts) (i : Instr) (deadV : List VReg) : Option VReg :=
  let pair (d : VReg) : Option VReg :=
    if b.bound (d + 1) && !b.bound d then deadV.find? (fun v => decide (v.toNat < 31) && deadV.contains (v + 1)) else none
  match touchOf i with
  | some x => if proven b (w.ra x.base) (x.reach.span w) x.need then none else match i with
    | .vgath y => pair y.d
    | .vscat y => pair y.d
    | _ => none
  | none => none
/-- How many instructions such an access takes. -/
def placedIn (w : Option VReg) (i : Instr) : Nat := match w, i with | some _, .vgath _ => 2 | _, _ => 1
/-- A vector register's move, under the access's guard. -/
def moveV (q : Guard) (d a : VReg) : Instr := .vmov ⟨q, d, .v a, Fmt.ofCode 8, .rne, 0⟩

/-- The largest index of the lanes into `t`, held below 2^50 so that no product wraps: by a second temporary, or of narrow lanes at once. -/
def largest (z : Nat) (v lanes : VReg) (t u : GReg) : List Instr :=
  let q := Guard.always
  let et : Fmt := Fmt.ofCode (2 * (z.log2 + 1))
  [.vrmax ⟨q, v, .v lanes, et, .rne, 0⟩, .vextr ⟨q, t, .lane (.v v) (.i 0), et, 0⟩]
    ++ (if z = 8 then [.li ⟨q, u, 1⟩, .shli ⟨q, u, u, 50⟩, .minn ⟨q, t, t, u⟩] else [])
/-- The checks of a gather or scatter. -/
def gatherCheck (c : Claim) (ix : GReg) (k : Nat) (off : Int) (z : Nat) (lanes v : VReg) (dead : List GReg) : Option (List Emit) :=
  let q := Guard.always
  let sh (n : Nat) (t : GReg) : List Instr := if n = 1 then [] else [.shli ⟨q, t, t, BitVec.ofNat 6 n.log2⟩]
  if ix = 0 ∧ off = 0 then match dead with
    | t :: r => if z = 8 ∧ r = [] then none
      else some (plainly (largest z v lanes t (r.headD 0) ++ [.addi ⟨q, t, t, 1⟩] ++ sh z t) ++ c.len t)
    | [] => none
  else c.ends z (z == 8) dead (fun t => displaced t ix k off) (fun t u => largest z v lanes t u
    ++ (if k = 1 then sh z t ++ [.add ⟨q, t, t, ix⟩] else if t = u then List.replicate (k / z) (.add ⟨q, t, t, ix⟩) ++ sh z t
      else sh z t ++ [.shli ⟨q, u, ix, BitVec.ofNat 6 k.log2⟩, .add ⟨q, t, t, u⟩]) ++ (if off = 0 then [] else [.addi ⟨q, t, t, k20 off⟩]))
/-- The checks before an access, with their temporaries from the dead registers; none when too few are dead. -/
def checkOf (b : Bind) (w : Facts) (x : Touch) (ext : List Nat) (dead : List GReg) (deadV : List VReg) (pair : Option VReg) : Option (List Emit) :=
  let q := Guard.always
  let c : Claim := ⟨x.q, x.base, x.need, ext⟩
  match x.reach with
  | .plain ix k off z =>
    match displaced (dead.headD 0) ix k off with
    | (d, l) => if l ≠ [] ∧ dead = [] then none else some (plainly l ++ c.at_ d z none)
  | .strided ix k off z =>
    let far (t : GReg) : List Instr := [.shli ⟨q, t, ix, BitVec.ofNat 6 (11 + k.log2)⟩, .shrai ⟨q, t, t, 11⟩, .muli ⟨q, t, t, BitVec.ofNat 20 (64 / z - 1)⟩]
    let moved (t : GReg) : List Instr := if off = 0 then [] else [.addi ⟨q, t, t, k20 off⟩]
    let m : Int := k * (64 / z - 1)
    (match w.rg ix with
      | some (lo, hi) =>
        if lo = hi ∧ -2 ^ 52 < m * lo ∧ m * lo < 2 ^ 52 then c.span (off + min 0 (m * lo)) (off + max 0 (m * lo) + z - 1) dead
        else if 0 ≤ lo ∧ off = 0 ∧ m * hi < 2 ^ 52 then match dead with
          | t :: _ => some (plainly (far t ++ [.addi ⟨q, t, t, BitVec.ofNat 20 z⟩]) ++ c.len t)
          | [] => none
        else c.ends z false dead (fun t => (t, far t ++ [.mini ⟨q, t, t, 0⟩] ++ moved t)) (fun t _ => far t ++ [.maxi ⟨q, t, t, 0⟩] ++ moved t)
      | none => c.ends z false dead (fun t => (t, far t ++ [.mini ⟨q, t, t, 0⟩] ++ moved t)) (fun t _ => far t ++ [.maxi ⟨q, t, t, 0⟩] ++ moved t))
  | .gathered ix k off z lanes =>
    if !b.bound lanes then match deadV with
      | v :: _ => gatherCheck c ix k off z lanes v dead
      | [] => none
    else match pair with
      | some v => (gatherCheck c ix k off z (v + 1) v dead).map (fun l => plainly [moveV x.q (v + 1) lanes] ++ l ++ plainly [moveV x.q v (lanes - 1)])
      | none =>
        if b.bound (lanes - 1) then c.ends z true dead (fun t => displaced t ix k off) (fun t u => loadConst t (off + min ((2 ^ (8 * z) - 1 : Nat) * z : Int) (2 ^ 53))
          ++ (if ix = 0 then [] else [.shli ⟨q, u, ix, BitVec.ofNat 6 k.log2⟩, .add ⟨q, t, t, u⟩]))
        else none
  | .bank str z =>
    match dead with
    | t :: _ =>
      let l : List Instr := if str = 0 then [.li ⟨q, t, BitVec.ofNat 20 (4096 * z)⟩]
        else [.muli ⟨q, t, str, 63⟩, .addi ⟨q, t, t, BitVec.ofNat 20 (64 * z)⟩]
      some (plainly l ++ c.len t)
    | [] => none

/-- One dimension's reach added into `t`, towards its low or its high end; `u` and `v` are temporaries. -/
def dimReach (t u v : GReg) (step : Nat) (high : Bool) (d : Held × Held) : Option (List Instr) :=
  let q := Guard.always
  let get (r : GReg) (h : Held) (less : Int) : Option (List Instr) :=
    match h.range.const, h.reg with
    | some c, _ => some (loadConst r (max (c - less) (if less = 0 then c else 0)))
    | none, some n => some (.addi ⟨q, r, BitVec.ofNat 5 n, k20 (-less)⟩ :: (if less = 0 then [] else [.maxi ⟨q, r, r, 0⟩]))
    | none, none => none
  match get u d.1 1, get v d.2 0 with
  | some a, some b => some (a ++ b ++ [.mul ⟨q, u, u, v⟩, .li ⟨q, v, 1⟩, .shli ⟨q, v, v, 53⟩, .minS ⟨q, u, u, v⟩, .subG ⟨q, v, 0, v⟩,
      .maxS ⟨q, u, u, v⟩, .shli ⟨q, u, u, BitVec.ofNat 6 step.log2⟩, if high then .maxi ⟨q, u, u, 0⟩ else .mini ⟨q, u, u, 0⟩, .add ⟨q, t, t, u⟩])
  | _, _ => none
/-- Whether a check can take a value from the program: a constant, or a register that holds it still. -/
def Held.ready (h : Held) : Bool := h.range.const.isSome || h.reg.isSome
/-- How far a dimension reaches down and up, in bytes from its first vector to its last, when constants say it: its own, or, where a
register no longer holds its value, the ends of what the value may be. -/
def knownReach (k : Nat) (d : Held × Held) : Option (Int × Int) :=
  match d.1.range.const, d.2.range.const with
  | some n, some s => some (min 0 (max (n - 1) 0 * s * k), max 0 (max (n - 1) 0 * s * k))
  | _, _ =>
    if d.1.ready && d.2.ready then none
    else match d.1.range, d.2.range with
      | some (a, b), s@(some _) => (Ival.mul (some (max (a - 1) 0, max (b - 1) 0)) s).map (fun p => (min 0 (p.1 * k), max 0 (p.2 * k)))
      | _, _ => none
/-- Makes a register zero where a stream has no vector: times the smaller of 1 and each bound that may be zero, by the temporary `u`. -/
def timesSome (rest : List (Held × Held)) (t u : GReg) : List Instr :=
  rest.flatMap (fun d => match d.1.range.const, d.1.reg, d.1.sure with
    | none, some n, true => [.mini ⟨Guard.always, u, BitVec.ofNat 5 n, 1⟩, .mul ⟨Guard.always, t, t, u⟩]
    | _, _, _ => [])
/-- The check before a SON covers all vectors of the stream (R342): a known footprint at once, one that reaches upwards alone by its length,
and any other from its lowest to its highest byte; a stream of no vectors has an empty one. -/
def streamCheck (b : Bind) (q : Guard) (s : StreamFact) (dead : List GReg) : Option (List Emit) :=
  let need : BitVec 4 := match s.push with | some true => 2 | some false => 1 | none => 3
  if !s.conf then some []
  else match s.span, s.reg, s.ptr.step with
  | some none, _, _ => some []
  | _, some r, some k =>
    let c : Claim := ⟨q, BitVec.ofNat 4 (r - 32), need, s.ptr.prov.extents b⟩
    let dims := s.bounds.zip s.strides
    let known := dims.filterMap (knownReach k)
    let rest := dims.filter (fun d => (knownReach k d).isNone)
    let lo : Int := (known.map Prod.fst).sum
    let hi : Int := (known.map Prod.snd).sum
    if dims = [] then none
    else if rest = [] then c.span lo (hi + 63) dead
    else
      let end_ (t u v : GReg) (high : Bool) : Option (List Instr) :=
        rest.foldl (fun (acc : Option (List Instr)) d => match acc, dimReach t u v k high d with
          | some l, some m => some (l ++ m)
          | _, _ => none) (some (loadConst t (if high then hi else lo)))
      let up := lo == 0 && rest.all (fun d => d.2.range.within 0 (2 ^ 31))
      let size (t : GReg) : Instr := .addi ⟨Guard.always, t, t, 64⟩
      (match dead with
        | t :: u :: v :: more =>
          if up then (end_ t u v true).map (fun l => plainly (l ++ size t :: timesSome rest t u) ++ c.len t)
          else match more, decide (c.exts.length ≤ 1) with
            | x :: _, _ => match end_ x u v false, end_ t u v true with
              | some l, some h => some (plainly (l ++ timesSome rest x u ++ h ++ size t :: timesSome rest t u)
                  ++ c.each (some x) (fun e => .bchk ⟨c.q, c.base, t, e, c.need⟩))
              | _, _ => none
            | [], true => match end_ t u v false, end_ t u v true with
              | some d, some a => some (plainly d ++ c.at_ t 64 none ++ plainly a ++ c.at_ t 64 none)
              | _, _ => none
            | [], false => none
        | _ => none)
  | _, _, _ => none
/-- The check that stands before an instruction, none of its words when it is elided; `none` when a register is wanting. -/
def checkFor (b : Bind) (w : Facts) (i : Instr) (dead : List GReg) (deadV : List VReg) : Option (List Emit) :=
  let reach (p : Ptr) : List Nat := if p.prov.extents b = [] then b.all.take 1 else p.prov.extents b
  match i with
  | .son x =>
    let s := w.s.getD x.slot.toNat (StreamFact.unknown b)
    let need : BitVec 4 := match s.push with | some true => 2 | some false => 1 | none => 3
    (match s.span with
      | some x' => if proven b s.ptr x' need then some [] else streamCheck b x.q s dead
      | none => streamCheck b x.q s dead)
  | _ => match touchOf i with
    | some x => if proven b (w.ra x.base) (x.reach.span w) x.need then some []
      else checkOf b w x (reach (w.ra x.base)) dead deadV (gatherMove b w i deadV)
    | none => some []

/-! ## Loops that checks make too long (R341) -/

/-- How many instructions the check before a place takes at most, whatever the number of dead registers. -/
def Fn.checkSize (f : Fn) (b : Bind) (st : List (Option Facts)) (i : Nat) : Nat :=
  match f.ins[i]? with
  | some q =>
    let w := (st.getD i none).getD (nothingKnown b)
    let sizes := ([[1], [1, 2], [1, 2, 3], [1, 2, 3, 4]] : List (List GReg)).map (fun d => (checkFor b w q.2 d [0, 1]).elim 0 List.length)
    sizes.foldl max 0 + placedIn (gatherMove b w q.2 [0, 1]) q.2 - 1
  | none => 0
/-- The places of the loops whose bodies hold a place. -/
def Fn.enclosing (f : Fn) (i : Nat) : List Nat :=
  (List.range f.ins.length).filter (fun k => match f.bodyAt k with | some x => decide (x.2.1 ≤ i ∧ i ≤ x.2.2) | none => false)
/-- Loops whose translated bodies pass 64 instructions, every loop around one, and the inner loops that a break out of one stands in. -/
def Fn.counted (f : Fn) (b : Bind) (st : List (Option Facts)) : List Nat :=
  let size (i : Nat) : Nat := 1 + f.checkSize b st i
  let proper (k : Nat) : Bool := match f.bodyAt k with | some x => x.1 == (f.enclosing k).length | none => false
  let long := (List.range f.ins.length).filter (fun k => proper k && (match f.bodyAt k with
    | some x => decide (64 < ((List.range (x.2.2 + 1 - x.2.1)).map (fun n => size (x.2.1 + n))).sum)
    | none => false))
  let around := (List.range f.ins.length).filter (fun k => long.contains k || long.any (fun j => (f.enclosing j).contains k))
  let breaks (k : Nat) : Bool := f.ins.zipIdx.any (fun q => match q.1.2 with
    | .lbrk x => (f.enclosing q.2).contains k && (f.enclosing q.2).any (fun j => around.contains j && (match f.bodyAt j with
        | some y => y.1 == x.lv.toNat | none => false) && (f.enclosing k).contains j)
    | _ => false)
  (List.range f.ins.length).filter (fun k => around.contains k || breaks k)

/-- A counter's registers: the g register that counts and the predicate that its branch tests. Where no predicate is dead, the lowest bit of
the count keeps the predicate's value, and the count stands above it. -/
structure Counter where
  loop : Nat
  g : GReg
  p : PReg
  keeps : Bool
  deriving DecidableEq, Repr
/-- A g register that is dead and unnamed from the loop to its end and serves no loop around it, and such a predicate register where there
is one. -/
def Fn.counterFor (f : Fn) (live : List Regs) (outer : List Counter) (k : Nat) : Option Counter :=
  match f.bodyAt k with
  | none => none
  | some x =>
    let used := (f.between k x.2.2).foldl (fun s q => s ||| Instr.reads q.2 ||| Instr.writes q.2) 0
    let hot := ((live.drop k).take (x.2.2 + 2 - k)).foldl (fun s r => s ||| r) used
    match ((List.range 31).map (· + 1)).find? (fun n => !Regs.has hot n && outer.all (fun c => c.g.toNat != n)),
        ((List.range 7).map (· + 1)).find? (fun n => !Regs.has hot (48 + n) && outer.all (fun c => c.p.toNat != n)) with
    | some g, some p => some ⟨k, BitVec.ofNat 5 g, BitVec.ofNat 3 p, false⟩
    | some g, none => some ⟨k, BitVec.ofNat 5 g, 1, true⟩
    | none, _ => none
/-- The counters of a function's counted loops, outermost first, or the place of the loop that finds none. -/
def Fn.counters (f : Fn) (live : List Regs) (l : List Nat) : Except Nat (List Counter) :=
  l.foldl (fun (acc : Except Nat (List Counter)) k => match acc with
    | .ok cs => match f.counterFor live (cs.filter (fun c => (f.enclosing k).contains c.loop)) k with
      | some c => .ok (cs ++ [c])
      | none => .error k
    | .error e => .error e) (.ok [])

/-! ## The plan of a function -/

/-- The plan: what stands before each place, and the counted loops. -/
structure Plan where
  before : List (List Emit)
  /-- Where a gather or scatter takes its pair of registers instead, when its index register may be a bound stream's. -/
  moved : List (Option VReg)
  counters : List Counter
  facts : List (Option Facts)
  live : List Regs
  deriving DecidableEq, Repr
/-- The check words of each place with the pair its gather takes, or the place that wants a register. -/
def Fn.checks (f : Fn) (b : Bind) (st : List (Option Facts)) (live : List Regs) (cs : List Counter) : Except Nat (List (List Emit × Option VReg)) :=
  f.ins.zipIdx.foldl (fun (acc : Except Nat (List (List Emit × Option VReg))) q => match acc with
    | .error e => .error e
    | .ok l =>
      let hot := live.getD q.2 0
      let w := (st.getD q.2 none).getD (nothingKnown b)
      let mine := cs.filter (fun c => (f.enclosing q.2).contains c.loop)
      let dead := (((List.range 31).map (· + 1)).filter (fun n => !Regs.has hot n && mine.all (fun c => c.g.toNat != n))).map (BitVec.ofNat 5)
      let deadV := (((List.range 32).filter (fun n => !Regs.has hot (64 + n))).map (BitVec.ofNat 5)).filter (fun v => !b.bound v)
      match checkFor b w q.1.2 dead deadV with
      | some e => .ok (l ++ [(e, gatherMove b w q.1.2 deadV)])
      | none => .error q.2) (.ok [])
/-- The plan of a function, or the place for which Varpen refuses the object (R341, R343). -/
def Fn.plan (f : Fn) (b : Bind) (entry : Facts) : Except Nat Plan :=
  let st := f.facts b entry
  let live := f.live
  match f.counters live (f.counted b st) with
  | .error k => .error k
  | .ok cs => match f.checks b st live cs with
    | .ok l => .ok ⟨l.map Prod.fst, l.map Prod.snd, cs, st, live⟩
    | .error k => .error k

/-! ## Emission (R341, R347) -/

/-- The counter of the loop at a place. -/
def Plan.counterOf (p : Plan) (k : Nat) : Option Counter := p.counters.find? (fun c => c.loop == k)
/-- The loop of a level around a place. -/
def Fn.levelAt (f : Fn) (i lv : Nat) : Option Nat := (f.enclosing i).find? (fun k => match f.bodyAt k with | some x => x.1 == lv | none => false)
/-- How many counted loops stand around a place: its hardware levels begin that much lower. -/
def Fn.lowered (f : Fn) (p : Plan) (i : Nat) : Nat := ((f.enclosing i).filter (fun k => (p.counterOf k).isSome)).length
def emitWords (l : List Emit) : Nat := (l.map (fun e => e.i.encode.length)).sum
/-- A branch of emitted code, `n` words on. -/
def brTo (q : Guard) (n : Int) : Instr := .br ⟨q, BitVec.ofInt 32 n⟩
/-- The loops that raise LOOPUSE with cause 3 and a level for a count register (R341). -/
def causeThree (lv : Nat) (cnt : GReg) : List Instr :=
  (List.range lv).map (fun l => (.loopi ⟨BitVec.ofNat 2 l, BitVec.ofNat 8 (lv - l + 1), 1⟩ : Instr)) ++ [.loop ⟨cnt, BitVec.ofNat 2 lv, 1⟩, .nop ⟨Guard.always⟩]
/-- Doubles a count, with the predicate's value in its lowest bit. -/
def Counter.pack (c : Counter) : List Instr := [.shli ⟨Guard.always, c.g, c.g, 1⟩, .addi ⟨⟨false, c.p⟩, c.g, c.g, 1⟩]
/-- The predicate's value back from the count's lowest bit. -/
def Counter.unpack (c : Counter) : Instr := .tbit ⟨Guard.always, c.p, c.g, 0⟩
/-- The predicate tells whether the count above its value is zero. -/
def Counter.test (c : Counter) : Instr := .cmplti ⟨Guard.always, c.p, c.g, k20 2⟩
/-- The start of a counted loop; `exit` is how many words past its last word the loop's exit lies. -/
def countedBegin (c : Counter) (i : Instr) (exit : Int) : List Instr :=
  let q := Guard.always
  match i with
  | .loopi x => if x.icnt = 0 then [brTo q (exit + 1)] else loadConst c.g (if c.keeps then 2 * x.icnt.toNat else x.icnt.toNat)
  | .loop x =>
    let err := causeThree x.lv.toNat x.cnt
    if c.keeps then
      .shri ⟨q, c.g, x.cnt, 32⟩ :: c.pack ++ [c.test, brTo ⟨false, c.p⟩ (err.length + 2), c.unpack] ++ err
        ++ [c.unpack, .addi ⟨q, c.g, x.cnt, 0⟩] ++ c.pack ++ [c.test, brTo ⟨false, c.p⟩ 4, c.unpack, .addi ⟨⟨false, c.p⟩, c.g, c.g, k20 (-1)⟩,
          brTo q 3, c.unpack, brTo q (exit + 1)]
    else [.shri ⟨q, c.g, x.cnt, 32⟩, .cmpeqi ⟨q, c.p, c.g, 0⟩, brTo ⟨false, c.p⟩ (err.length + 1)] ++ err
      ++ [.addi ⟨q, c.g, x.cnt, 0⟩, .cmpeqi ⟨q, c.p, c.g, 0⟩, brTo ⟨false, c.p⟩ (exit + 1)]
  | _ => []
/-- The end of a counted loop: count, test, and back to the start of the body, which lies `back` words before. -/
def countedEnd (c : Counter) (back : Int) : List Instr :=
  let q := Guard.always
  if c.keeps then [.addi ⟨⟨false, c.p⟩, c.g, c.g, 1⟩, .addi ⟨q, c.g, c.g, k20 (-2)⟩, c.test, brTo ⟨false, c.p⟩ 4, c.unpack,
    .addi ⟨⟨false, c.p⟩, c.g, c.g, k20 (-1)⟩, brTo q (-(back + 6)), c.unpack]
  else [.addi ⟨q, c.g, c.g, k20 (-1)⟩, .cmpeqi ⟨q, c.p, c.g, 0⟩, brTo ⟨true, c.p⟩ (-(back + 2))]
/-- The words the ends of counted loops take. -/
def endWords (l : List Counter) : Nat := (l.map (fun c => (countedEnd c 0).length)).sum
/-- The counted loops whose bodies end at a place, innermost first. -/
def Fn.endsAt (f : Fn) (p : Plan) (i : Nat) : List Counter :=
  ((p.counters.filter (fun c => match f.bodyAt c.loop with | some x => x.2.2 == i | none => false)).reverse)
/-- Words of a place: its checks, the instruction itself, the ends of counted loops. -/
def Fn.coreWords (f : Fn) (p : Plan) (i : Nat) : Nat :=
  match f.ins[i]? with
  | some q => match p.counterOf i with
    | some c => (countedBegin c q.2 0).length
    | none => if (p.moved.getD i none).isSome then placedIn (p.moved.getD i none) q.2 else q.2.encode.length
  | none => 0
def Fn.placeWords (f : Fn) (p : Plan) (i : Nat) : Nat :=
  emitWords (p.before.getD i []) + f.coreWords p i + endWords (f.endsAt p i)
/-- Where a place begins, in words from the function's first. -/
def Fn.startOf (f : Fn) (p : Plan) (i : Nat) : Nat := ((List.range i).map (f.placeWords p)).sum
def Fn.words (f : Fn) (p : Plan) : Nat := f.startOf p f.ins.length
/-- Where a counted loop's exit lies: behind its own end. -/
def Fn.exitOf (f : Fn) (p : Plan) (k : Nat) : Nat :=
  match f.bodyAt k with
  | some x =>
    let ends := f.endsAt p x.2.2
    let before := (ends.takeWhile (fun c => c.loop != k)).length
    f.startOf p x.2.2 + emitWords (p.before.getD x.2.2 []) + f.coreWords p x.2.2 + endWords (ends.take (before + 1))
  | none => 0
/-- The instruction of a place as it is emitted at word `o` of the function; `call` gives the displacement of a CALL from a word. -/
def Fn.core (f : Fn) (p : Plan) (call : Nat → Nat → Int) (i o : Nat) (q : Nat × Instr) : List Instr :=
  let local_ (d : Int) : Int := match f.callAt q.1 with
    | some n => call n o
    | none => match placeOf f.ins ((q.1 : Int) + 8 * d) with
      | some j => (f.startOf p j : Int) - o
      | none => d
  let level (lv : BitVec 2) : BitVec 2 := lv - BitVec.ofNat 2 (f.lowered p i)
  let len : BitVec 8 := match f.bodyAt i with
    | some x => BitVec.ofNat 8 (min 64 ((List.range (x.2.2 + 1 - x.2.1)).map (fun n => (p.before.getD (x.2.1 + n) []).length
        + (match f.ins[x.2.1 + n]? with | some q => placedIn (p.moved.getD (x.2.1 + n) none) q.2 | none => 1))).sum)
    | none => 1
  match p.counterOf i with
  | some c => countedBegin c q.2 ((f.exitOf p i : Int) - (o + f.coreWords p i))
  | none => match q.2 with
    | .br x => [.br { x with off := BitVec.ofInt 32 (local_ x.off.toInt) }]
    | .brl x => [.brl { x with off := BitVec.ofInt 32 (local_ x.off.toInt) }]
    | .loop x => [.loop { x with lv := level x.lv, len := len }]
    | .loopi x => [.loopi { x with lv := level x.lv, len := len }]
    | .lbrk x => match (f.levelAt i x.lv.toNat).filter (fun k => (p.counterOf k).isSome) with
      | some k => [brTo x.q ((f.exitOf p k : Int) - o)]
      | none => [.lbrk { x with lv := level x.lv }]
    | .vgath x => match p.moved.getD i none with
      | some w => [.vgath { x with d := w }, moveV x.q x.d w]
      | none => [.vgath x]
    | .vscat x => match p.moved.getD i none with
      | some w => [.vscat { x with d := w }]
      | none => [.vscat x]
    | j => [j]
/-- The emitted instructions of a place. -/
def Fn.placeCode (f : Fn) (p : Plan) (call : Nat → Nat → Int) (q : (Nat × Instr) × Nat) : List Emit :=
  let i := q.2
  let e := p.before.getD i []
  let o := f.startOf p i + emitWords e
  let l := f.endsAt p i
  let ends := l.mapIdx (fun n c =>
    countedEnd c ((o + f.coreWords p i + endWords (l.take n) : Int) - (match f.bodyAt c.loop with | some x => f.startOf p x.2.1 | none => 0)))
  e ++ plainly (f.core p call i o q.1) ++ plainly ends.flatten
/-- A function's native instructions. -/
def Fn.code (f : Fn) (p : Plan) (call : Nat → Nat → Int) : List Emit := f.ins.zipIdx.flatMap (f.placeCode p call)
/-- The native instructions with their places in words. -/
def atWords : Nat → List Emit → List (Nat × Emit)
  | _, [] => []
  | o, e :: r => (o, e) :: atWords (o + e.i.encode.length) r

/-! ## The record of live state (R49, R76, R343) -/

/-- Whether data stored by a pointer of this provenance may be a stack's. -/
def Prov.mayStack : Prov → Bool
  | .stack => true
  | .unknown _ => true
  | _ => false
/-- Whether an instruction may put live data on the stack (R76): a store, AMO or vector store by a base of Stack or Unknown provenance, a
push's store among them (R209), or a write of a15. -/
def stackWrite (b : Bind) (w : Facts) (i : Instr) : Bool :=
  Regs.has (Instr.writes i) 47
    || b.streams.any (fun k => Regs.has (Instr.writes i) (64 + 28 + k) && (match w.s[k]? with
      | some s => s.conf && s.bound && s.push != some false && s.ptr.prov.mayStack
      | none => false))
    || (match touchOf i, i with
      | _, .qpush _ => false
      | _, .feset _ => false
      | _, .feclr _ => false
      | some x, _ => x.need.getLsbD 1 && (w.ra x.base).prov.mayStack
      | none, _ => false)
/-- The places some path from the entry reaches through such an instruction. -/
def Fn.stackSweep (f : Fn) (b : Bind) (st : List (Option Facts)) (l : List Bool) : List Bool :=
  f.ins.zipIdx.foldl (fun l q =>
    if l.getD q.2 false || (match st.getD q.2 none with | some w => stackWrite b w q.1.2 | none => false)
    then (f.next q.2 q.1).foldl (fun l j => l.set j true) l else l) l
def Fn.stackLive (f : Fn) (b : Bind) (st : List (Option Facts)) : List Bool :=
  if f.called || f.handler then f.ins.map (fun _ => true)
  else untilStable (f.stackSweep b st) (f.ins.length + 1) (f.ins.map (fun _ => false))
/-- The records of a function that begins at an address: of each instruction, whether vector state or the stack is live there and which
g and a registers are. -/
def Fn.records (f : Fn) (b : Bind) (p : Plan) (a : Nat) : List LiveRec :=
  let s := f.stackLive b p.facts
  f.ins.mapIdx (fun i _ =>
    let r := p.live.getD i 0
    ⟨a + 8 * (f.startOf p i + emitWords (p.before.getD i [])), s.getD i false || r.extractLsb' 56 40 != 0, r.extractLsb' 0 48⟩)

/-! ## An object's functions (R339, R347) -/

/-- The words of a code section, and its instructions with their offsets. -/
def Obj.section (o : Obj) : Nat → List Word
  | 0 => o.text
  | 1 => o.stage
  | _ => o.coll
def Obj.code (o : Obj) (k : Nat) : List (Nat × Instr) := match decodeAll (sectColumn k) 0 (o.section k) with | .ok l => l | .error _ => []
/-- The link index of the handler procedure. -/
def Obj.handlerLink (o : Obj) : Option Nat :=
  match o.handlerOff with
  | some h => o.procs.findIdx? (fun p => p.1 == 0 && p.2.1 == h)
  | none => none
/-- The procedure of a link index. -/
def Obj.fn (o : Obj) (i : Nat) : Option Fn :=
  (o.procs[i]?).map (fun p =>
    { sect := p.1, ins := inProc (o.code p.1) p.2, calls := (o.calls.filter (fun c => c.1 == p.1)).map Prod.snd,
      handler := o.handlerLink == some i, called := o.calls.any (fun c => c.2.2 == i) })
/-- Procedures with those they reach by one more CALL. -/
def Obj.reachedFrom (o : Obj) (l : List Nat) : List Nat :=
  (List.range o.procs.length).filter (fun j => l.contains j || o.calls.any (fun c => c.2.2 == j && l.any (fun i =>
    match o.procs[i]? with | some p => p.1 == c.1 && decide (p.2.1 ≤ c.2.1 ∧ c.2.1 < p.2.1 + p.2.2) | none => false)))
/-- The handler procedure and the procedures it reaches by CALL (R392). -/
def Obj.handlerLinks (o : Obj) : List Nat := iterate o.reachedFrom o.procs.length o.handlerLink.toList
/-- The registers they may write; a14 is put back when the handler is left. -/
def Obj.handlerWrites (o : Obj) : Regs :=
  (o.handlerLinks.foldl (fun s i => match o.fn i with | some f => s ||| f.writesIn 0 f.ins.length | none => s) 0) &&& ~~~(Regs.of [46])
/-- The extent indices that AFROM, BCHK and BCHKI name. -/
def namedExtent : Instr → List Nat
  | .afrom x => [x.ext.toNat]
  | .bchk x => [x.ext.toNat]
  | .bchki x => [x.ext.toNat]
  | _ => []
def Obj.named (o : Obj) : List Nat := [0, 1, 2].flatMap (fun k => (o.code k).flatMap (fun q => namedExtent q.2))
/-- The stream slots a SON of the object names. -/
def Obj.streams (o : Obj) : List Nat :=
  [0, 1, 2].flatMap (fun k => (o.code k).filterMap (fun q => match q.2 with | .son x => some x.slot.toNat | _ => none))
/-- The slots that SCFG, SDIM, SON and SOFF of some procedures name. -/
def slotNamed : Instr → Option Nat
  | .scfg x => some x.slot.toNat
  | .sdim x => some x.slot.toNat
  | .son x => some x.slot.toNat
  | .soff x => some x.slot.toNat
  | _ => none
def Obj.slotsOf (o : Obj) (l : List Nat) : List Nat :=
  l.flatMap (fun i => match o.fn i with | some f => f.ins.filterMap (fun q => slotNamed q.2) | none => [])
/-- The procedures a CALL reaches. -/
def Obj.calledLinks (o : Obj) : List Nat := iterate o.reachedFrom o.procs.length (o.calls.map (fun c => c.2.2))
/-- What an object is translated for: the extents of its buffers, the scratch extent and that of the TCB area. -/
def Obj.bind (o : Obj) (ext : List Nat) (scrx tcbx : Nat) : Bind :=
  let l := scrx :: tcbx :: (ext ++ o.named)
  ⟨o.bufs, ext, scrx, (List.range 16).filter (fun x => l.contains x), o.handlerLink.isSome, o.handlerWrites, o.streams,
    o.slotsOf o.handlerLinks, o.slotsOf o.calledLinks⟩
/-- Whether a procedure runs as the handler alone, which no trap enters again, or on a core that has no handler (R391, R392). -/
def Obj.unhandled (o : Obj) (i : Nat) : Bool :=
  !(match o.procs[i]? with | some p => p.1 == 0 | none => false)
    || (o.handlerLinks.contains i && !(iterate o.reachedFrom o.procs.length (o.tasks.map (fun t => t.link))).contains i)
/-- What one procedure is translated for: no handler runs between the instructions of one that is `unhandled`. -/
def Obj.bindFor (o : Obj) (b : Bind) (i : Nat) : Bind :=
  if o.unhandled i then { b with handled := false, handlerWrites := 0, handlerSlots := [] } else b
/-- What the a registers hold at a procedure's entry (R75, R339): buffers and the stack at a task's entry that no CALL reaches, where the
tasks that share it agree on a buffer; a link in a14 there, in called procedures and in the handler. -/
def Obj.entry (o : Obj) (b : Bind) (i : Nat) : Facts :=
  let tasks := o.tasks.filter (fun t => t.link == i)
  match o.fn i with
  | none => nothingKnown b
  | some f =>
    let isTask := f.sect == 0 && tasks != [] && !f.called && !f.handler
    let bufOf (n : Nat) : List Nat := (tasks.map (fun t => t.bufix.getD n 0xFF)).eraseDups
    let a (n : Nat) : Ptr :=
      if !isTask then Ptr.unknown b
      else if n = 15 then ⟨.stack, some 1, some (0, 0)⟩
      else if 1 ≤ n ∧ n ≤ 6 then (match bufOf (n - 1) with
        | [k] => match o.bufs[k]? with
          | some r => ⟨.buffer k, some (Fmt.ofCode r.fmt.toNat).step, some (0, 0)⟩
          | none => Ptr.unknown b
        | _ => Ptr.unknown b)
      else Ptr.unknown b
    entryFacts (if isTask || f.called || f.handler then Ptr.link else Ptr.unknown b) a
      (if f.called || f.handler then StreamFact.unknown b else StreamFact.off)
def Obj.plan (o : Obj) (b : Bind) (i : Nat) : Option (Fn × Except Nat Plan) :=
  let b' := o.bindFor b i
  (o.fn i).map (fun f => (f, f.plan b' (o.entry b' i)))
/-- The section and offset for which Varpen refuses the object (R341, R343). -/
def Obj.refusal (o : Obj) : Option (Nat × Nat) :=
  let b := o.bind (o.bufs.map (fun _ => 0)) 0 0
  (List.range o.procs.length).findSome? (fun i => match o.plan b i with
    | some (f, .error k) => some (f.sect, (f.ins.map Prod.fst).getD k 0)
    | _ => none)
/-- A translated function: its native words, the records of its instructions, and its checks of several extents, by address. -/
structure Native where
  words : List Word
  live : List LiveRec
  any : List (Nat × CheckGroup)
  deriving DecidableEq, Repr
def nativeOf (f : Fn) (b : Bind) (p : Plan) (a : Nat) (call : Nat → Nat → Int) : Native where
  words := ((f.code p call).flatMap (fun e => e.i.encode)).map (BitVec.ofNat 64)
  live := f.records b p a
  any := (atWords 0 (f.code p call)).filterMap (fun e => e.2.any.map (fun g => (a + 8 * e.1, g)))
/-- The words a function of an object takes. -/
def Obj.nativeSize (o : Obj) (b : Bind) (i : Nat) : Nat := match o.plan b i with | some (f, .ok p) => f.words p | _ => 0
/-- A function of TEXT at an address; a CALL goes to the called function's entry of the link table, which `stub` gives. -/
def Obj.native (o : Obj) (b : Bind) (i a : Nat) (stub : Nat → Nat) : Option Native :=
  match o.plan b i with
  | some (f, .ok p) => some (nativeOf f (o.bindFor b i) p a (fun n w => ((stub n : Int) - (a + 8 * w)) / 8))
  | _ => none
/-- The procedures of a section in the order of their places. -/
def Obj.procsIn (o : Obj) (k : Nat) : List Nat :=
  sortBy (fun i j => decide (((o.procs[i]?).elim 0 (fun p => p.2.1)) < ((o.procs[j]?).elim 0 (fun p => p.2.1))))
    ((List.range o.procs.length).filter (fun i => (o.procs[i]?).any (fun p => p.1 == k)))
/-- Where a procedure of a stage program or of the collective firmware begins, in words. -/
def Obj.partStart (o : Obj) (b : Bind) (k i : Nat) : Nat := (((o.procsIn k).takeWhile (fun j => j != i)).map (o.nativeSize b)).sum
/-- The whole program of section 1 or 2, from address 0, where a CALL goes to the procedure itself. -/
def Obj.program (o : Obj) (b : Bind) (k : Nat) : Option Native :=
  (o.procsIn k).foldl (fun (acc : Option Native) i => match acc, o.plan b i with
    | some n, some (f, .ok p) =>
      let s := o.partStart b k i
      let m := nativeOf f (o.bindFor b i) p (8 * s) (fun c w => (o.partStart b k c : Int) - (s + w))
      some ⟨n.words ++ m.words, n.live ++ m.live, n.any ++ m.any⟩
    | _, _ => none) (some ⟨[], [], []⟩)

end Sys2Proof.Machine
end

