-- ==== Sys2Proof/Machine/Translator.lean ====
section
/-!
DEFINITION. The translator and the code heap (R345–R351, R363): sealed versions, publication, the stubs' HEAPFULL, retranslation, pin
counts and the unloading of objects. What Varpen emits is `Obj.native` and `Obj.program` (Varpen.lean).
-/
namespace Sys2Proof.Machine
open Sys2Proof

/-! ## The code heap -/

/-- The ranges of the heap a version occupies: header, link table and exit stub; each function with its record and the gap behind it. -/
def Sealed.ranges (v : Sealed) : List (Nat × Nat) :=
  (v.base, v.size) :: (v.handler.map (fun r => (r.1, r.2 - r.1))).toList ++ v.procs.map (fun p => (p.addr - 96, (p.size + 96 + 127) / 128 * 128))
def State.heapRanges (s : State) : List (Nat × Nat) := s.objects.flatMap (fun o => o.versions.flatMap Sealed.ranges)
/-- Whether a range of the heap is free: 16 GiB from its base (R347). -/
def State.heapFree (s : State) (a n : Nat) : Bool :=
  decide (heapBase ≤ a ∧ a + n ≤ heapBase + 2 ^ 34) && s.heapRanges.all (fun r => !overlaps a n r.1 r.2)
/-- The size of a version's fixed part: 128 B header, the link table padded to 128 B, and the exit stub in 128 B. -/
def fixedSize (linkCnt : Nat) : Nat := 256 + (8 * linkCnt + 127) / 128 * 128
/-- Where a new version goes: the implementation's place when it is free, else the lowest free one; none when the heap is full. -/
def State.heapPlace (s : State) (n : Nat) : Option Nat :=
  let a := heapBase + Config.heapPlace s.free / 128 * 128
  if s.heapFree a n then some a
  else (heapBase :: s.heapRanges.map (fun r => (r.1 + r.2 + 127) / 128 * 128)).find? (fun b => s.heapFree b n)

/-! ## Headers and function records (R348, R349) -/

def headerBody (kind objid linkOff linkCnt : Nat) (digest : List Byte) : List Byte :=
  natBytes 0x314E5056 4 ++ natBytes 1 2 ++ natBytes kind 2 ++ natBytes Config.tver 4 ++ natBytes objid 4 ++ natBytes linkOff 8
    ++ natBytes linkCnt 4 ++ zeros 4 ++ digest
/-- Bytes followed by their seal. -/
def withSeal (l : List Byte) : List Byte := l ++ Config.sealTag l
def wordBytes (l : List Word) : List Byte := l.flatMap (fun w => natBytes w.toNat 8)
def recordBody (link : Nat) (words : List Word) : List Byte :=
  natBytes link 4 ++ natBytes (8 * words.length) 4 ++ Config.sha512 (wordBytes words)
/-- The check of a function's record: its seal, and the digest of the function's words; a word that cannot be read fails it (R349). -/
def State.recordHolds (s : State) (a n : Nat) : Bool :=
  (s.badUnits (a - 96) (n + 96)).isEmpty && memBytes s.mem (a - 24) 16 == Config.sealTag (memBytes s.mem (a - 96) 0x48)
    && memBytes s.mem (a - 88) 64 == Config.sha512 (memBytes s.mem a n)
/-- The launch unit's check of a version: the header's seal, and each published function's record (R349). -/
def State.sealsHold (s : State) (v : Sealed) : Bool :=
  (s.badUnits v.base 128).isEmpty && memBytes s.mem (v.base + 0x60) 16 == Config.sealTag (memBytes s.mem v.base 0x60) && v.procs.all (fun p => s.recordHolds p.addr p.size)

/-! ## Versions -/

def Obj.findVersion (o : Obj) (base : Nat) : Option Sealed := o.versions.find? (fun v => v.base == base)
def Obj.putVersion (o : Obj) (v : Sealed) : Obj := { o with versions := o.versions.map (fun u => if u.base = v.base then v else u) }
/-- A version changes, for its object and for the teams that run it. -/
def State.putVersion (s : State) (objid : Nat) (v : Sealed) : State :=
  { s with
    objects := s.objects.map (fun o => if o.objid = objid then o.putVersion v else o)
    teams := s.teams.map (fun t => if t.objid = objid ∧ t.code.base = v.base then
      { t with code := v, stage := v.stage, stageEntry := v.stageEntry, coll := v.coll, collEntry := v.collEntry } else t) }
def tendWord : Word := (Instr.tend ⟨⟨false, 0⟩⟩).encode.headD 0
/-- A version with every link-table entry at its stub, and its exit stub (R75, R347, R363). -/
def Obj.freshVersion (o : Obj) (kind base : Nat) (binding : List Nat) (scrx tcbx : Nat) : Sealed :=
  let n := o.procs.length
  { Sealed.empty with kind := kind, base := base, size := fixedSize n, linkOff := base + 128 - heapBase, linkCnt := n,
                      exitStub := base + fixedSize n - 128, handlerLink := o.handlerLink, binding := binding, scrx := scrx, tcbx := tcbx }
/-- The canonical NOP, which fills the gaps up to the next 128 B (R124). -/
def nopWord : Nat := 0x3300400000000000
/-- NOPs from an address to the next boundary of 128 B. -/
def nopGap (a : Nat) : List Host.Cell := (List.range ((a + 127) / 128 * 16 - a / 8)).flatMap (fun i => cellsOf (a + 8 * i) nopWord 8)
/-- The bytes of such a version. -/
def Obj.freshCells (o : Obj) (v : Sealed) : List Host.Cell :=
  cellsAt v.base (withSeal (headerBody v.kind o.objid v.linkOff v.linkCnt o.digest) ++ zeros 16)
    ++ (List.range v.linkCnt).flatMap (fun i => cellsOf (v.stub i) (v.stub i) 8) ++ cellsOf v.exitStub tendWord.toNat 8
    ++ nopGap (v.exitStub + 8)
def State.addVersion (s : State) (o : Obj) (v : Sealed) : State :=
  { s.putObj { o with versions := o.versions ++ [v] } with mem := memPut s.mem (o.freshCells v) }
/-- The contexts, records and continuations of a team whose PC lies in its code. -/
def Stashed.isMigration (f : Stashed) : Bool := match f with | .migration _ _ _ => true | _ => false
def Tile.pins (k : Tile) : Nat := bit k.task.isSome + k.conts.length
def State.teamPins (s : State) (t : Team) : Nat :=
  (if t.snaps ≠ [] then (t.snaps.map (fun x => x.tile.pins)).sum
   else (t.tiles.map (fun n => if (s.getTile n).team = t.num then (s.getTile n).pins else 0)).sum)
    + (s.migrations.filter (fun m => (s.getTile m.from_).team == t.num)).length
    + (t.stash.filter Stashed.isMigration).length
/-- The pin count of a version (R350). -/
def State.versionPins (s : State) (v : Sealed) : Nat := ((s.teams.filter (fun t => t.code.base == v.base)).map s.teamPins).sum
/-- Whether a version is still wanted: it is pinned, or a team that has neither ended nor failed keeps it (R346, R350). -/
def State.versionUsed (s : State) (v : Sealed) : Bool :=
  s.versionPins v != 0 || s.teams.any (fun t => t.code.base == v.base && t.state != .ended && t.state != .failed)
/-- Versions that are no longer current are freed when nothing pins them and no team keeps them (R346, R350). -/
def State.sweepVersions (s : State) : State :=
  { s with objects := s.objects.map (fun o => { o with versions := o.versions.filter (fun v => !v.stale || s.versionUsed v) }) }

/-! ## Publication (R347) -/

/-- What a version is translated for. -/
def Obj.bindOf (o : Obj) (v : Sealed) : Bind := o.bind v.binding v.scrx v.tcbx
/-- Whether a function may be published: one of TEXT, at its stub still. -/
def Obj.mayPublish (o : Obj) (v : Sealed) (link : Nat) : Bool :=
  (v.published link).isNone && (match o.procs[link]? with | some q => q.1 == 0 | none => false)
/-- Bytes a function takes with its record, to the next 128 bytes. -/
def Obj.roomFor (o : Obj) (v : Sealed) (link : Nat) : Nat := (96 + 8 * o.nativeSize (o.bindOf v) link + 127) / 128 * 128
/-- The reservation of a function: where its record goes, and the handler region once one is placed; none when the heap is full. The handler
procedure and the procedures it reaches lie together in the handler region (R392). -/
def State.reserve (s : State) (o : Obj) (v : Sealed) (link : Nat) : Option (Nat × Option (Nat × Nat)) :=
  let hs := o.handlerLinks
  if hs.contains link then
    let before := ((hs.takeWhile (fun i => i != link)).map (o.roomFor v)).sum
    match v.handler with
    | some r => some (r.1 + before, some r)
    | none => let n := (hs.map (o.roomFor v)).sum
      (s.heapPlace n).map (fun a => (a + before, some (a, a + n)))
  else (s.heapPlace (o.roomFor v link)).map (fun a => (a, v.handler))
/-- A version with one more published function. -/
def Sealed.placed (v : Sealed) (link a : Nat) (region : Option (Nat × Nat)) (n : Native) : Sealed :=
  { v with
    procs := v.procs ++ [⟨link, a, 8 * n.words.length⟩]
    live := v.live ++ n.live
    anyOf := v.anyOf ++ n.any.map (fun x => (0, x.1, x.2))
    handler := region }
/-- The function is written and sealed. Its record is checked, and its link-table entry is switched in one store; where the check fails the
entry stays at its stub and the failure is reported (R347, R349). -/
def State.publish (s : State) (objid : Nat) (v : Sealed) (link a : Nat) (region : Option (Nat × Nat)) (n : Native) : State :=
  let s1 := { s with mem := memPut s.mem (cellsAt (a - 96) (withSeal (recordBody link n.words) ++ zeros 8) ++ cellsAt a (wordBytes n.words)
    ++ nopGap (a + 8 * n.words.length)) }
  if s1.recordHolds a (8 * n.words.length) then
    State.putVersion { s1 with mem := memPut s1.mem (cellsOf (v.stub link) a 8) } objid (v.placed link a region n)
  else { s1 with boot := { s1.boot with sealFaults := s1.boot.sealFaults + 1 } }
/-- The state a trap leaves. -/
def outState (d : State) : Out → State
  | .next s => s
  | _ => d
/-- HEAPFULL in the core in focus: at the call that reached the stub, or at the stub of a task's entry. -/
def State.heapFull (s : State) (link : Nat) : State :=
  let s1 := { s with core := { s.core with pc := if s.tile.call = 0 then s.core.pc else s.tile.call } }
  outState s1 (trapAt codeHeapfull (wNat link) 8 s1)
/-- The reservation failed: every context at the stub receives it. -/
def State.heapFullAll (s : State) (v : Sealed) (link : Nat) : State :=
  (s.teams.filter (fun t => t.code.base == v.base)).foldl (fun s t =>
    t.tiles.foldl (fun s n =>
      let c := s.getCore (.main n)
      if (s.getTile n).team = t.num ∧ c.running ∧ c.pc.toNat = v.stub link then
        ((s.focus (.main n)).heapFull link).focus s.cur
      else s) s) s
/-- A function's translation and publication, when the heap has room for it. -/
def State.publishText (s : State) (o : Obj) (v : Sealed) (link : Nat) : State :=
  if !o.mayPublish v link then s
  else match s.reserve o v link with
    | none => s.heapFullAll v link
    | some (a, region) => match o.native (o.bindOf v) link (a + 96) v.stub with
      | some n => State.publish { s with free := s.free + 1 } o.objid v link (a + 96) region n
      | none => s
/-- The whole program of a stage core or a collective engine, from its entry; a stage program must fit the private store of 2 048 words
(R18). DESIGN CHOICE (log entry 54): one that its inserted checks make longer is never published, so its stage cores do not start. -/
def State.publishPart (s : State) (o : Obj) (v : Sealed) (part : CodePart) : State :=
  let entry (k : Nat) (x : Nat) : Option Nat :=
    (o.procs.findIdx? (fun p => p.1 == k && p.2.1 == x)).map (fun i => 8 * o.partStart (o.bindOf v) k i)
  match part with
  | .text link => s.publishText o v link
  | .stage => match o.stageEntry, v.stageEntry, o.program (o.bindOf v) 1 with
    | some e, none, some n => if 2048 < n.words.length then s else s.putVersion o.objid { v with
        stage := n.words
        stageEntry := entry 1 e
        anyOf := v.anyOf ++ n.any.map (fun x => (1, x.1, x.2)) }
    | _, _, _ => s
  | .coll => match o.collEntry, v.collEntry, o.program (o.bindOf v) 2 with
    | some e, none, some n => s.putVersion o.objid { v with
        coll := n.words
        collEntry := entry 2 e
        anyOf := v.anyOf ++ n.any.map (fun x => (2, x.1, x.2)) }
    | _, _, _ => s
/-- An object by its number alone. -/
def State.objOf (s : State) (objid : Nat) : Option Obj := s.objects.find? (fun o => o.objid == objid)
/-- TRANSLATION_PUBLISH. -/
def execTranslationPublish (x : EvPublish) (s : State) : Out :=
  let s1 := s.sweepVersions
  match s1.objOf x.objid with
  | some o => match o.findVersion x.base with
    | some v => .next (s1.publishPart o v x.part)
    | none => .next s
  | none => .next s
/-- The parts of a version, published one after the other. -/
def State.publishParts (s : State) (objid base : Nat) (l : List CodePart) : State :=
  l.foldl (fun s p =>
    match s.objOf objid with
    | some o => match o.findVersion base with
      | some v => s.publishPart o v p
      | none => s
    | none => s) s
/-- Every part of an object. -/
def Obj.parts (o : Obj) : List CodePart :=
  ((List.range o.procs.length).filter (fun i => (o.procs[i]?).any (fun p => p.1 == 0))).map CodePart.text ++ [.stage, .coll]
/-- RETRANSLATION: a profile-guided version of the same binding for the teams launched afterwards; it is the current one of its binding, and
it obeys the same rules and computes the same (R346). -/
def execRetranslation (x : EvVersion) (s : State) : Out :=
  let s1 := s.sweepVersions
  match s1.objOf x.objid with
  | some o => match o.findVersion x.base, s1.heapPlace (fixedSize o.procs.length) with
    | some v, some a =>
      let same (u : Sealed) : Bool := u.binding == v.binding
      let o1 := { o with versions := o.versions.map (fun u => if same u then { u with stale := true } else u) }
      .next (State.publishParts { s1.addVersion o1 (o.freshVersion 1 a v.binding v.scrx v.tcbx) with free := s1.free + 1 } x.objid a o.parts)
    | _, _ => .next s
  | none => .next s

/-! ## Pin counts and unloading (R350, R351) -/

def State.pins (s : State) (objid : Nat) : Nat := ((s.teams.filter (fun t => t.objid == objid)).map s.teamPins).sum
/-- A version whose code is gone. -/
def Sealed.gone (v : Sealed) : Sealed := { v with size := 0, procs := [], linkCnt := 0 }
/-- The object leaves the heap. -/
def State.freeObj (s : State) (objid : Nat) : State :=
  { s with objects := s.objects.filter (fun o => o.objid != objid)
           teams := s.teams.map (fun t => if t.objid = objid then { t with code := t.code.gone } else t) }
def doUnload (x : CmdObj) (s : State) : Effect :=
  if !(byOperator x.sid || byTenant x.sid x.tag) || !s.inState x.tag anyState then (s, badState)
  else match s.findObj x.tag x.objid with
    | none => (s, refused 0x11)
    | some o =>
      let s1 := s.putObj { o with unloading := true }
      if s1.pins x.objid = 0 then ((s1.freeObj x.objid).reconfigure x.tag, ok []) else (s1, .waits (.unload x.objid))
/-- The CODEGONE mark in the records of a stopped team (R77, R351). -/
def State.markGone (s : State) (num : Nat) : State :=
  match s.findTeam num with
  | none => s
  | some t =>
    let marked := t.snaps.zipIdx.filter (fun q => q.1.tile.pins != 0)
    let cells := marked.map (fun q =>
      let a := t.recordAt q.2 + 6
      (a, memGet s.mem a ||| 2#8))
    { s.putTeam { t with snaps := t.snaps.map (fun x => if x.tile.pins ≠ 0 then { x with tile := { x.tile with codegone := true } } else x) }
      with mem := memPut s.mem cells }
/-- The forced unload: the teams that run the object stop and keep their places in the calendar; their contexts raise CODEGONE. -/
def State.forceUnload (s : State) (objid : Nat) : State :=
  let l := s.teams.filter (fun t => t.objid == objid)
  let s1 := s.haltTeams .slot l
  (l.foldl (fun s t => s.markGone t.num) s1).freeObj objid
def doUnloadForced (x : CmdObj) (s : State) : Effect :=
  if !(byOperator x.sid || byTenant x.sid x.tag) || !s.inState x.tag anyState then (s, badState)
  else match s.findObj x.tag x.objid with
    | none => (s, refused 0x11)
    | some _ => ((s.forceUnload x.objid).reconfigure x.tag, ok [])

end Sys2Proof.Machine
end

