-- ==== Sys2Proof/Machine/Tenants.lean ====
section
/-!
DEFINITION. The tenants' commands (R374–R384): registration, grants and extents, revocation and compaction, stops, reset, the
calendar, locking and attestation; and the zeroing of released granules (R400).
-/
namespace Sys2Proof

/-- The bytes in which the module keeps its journal, from the first of its region (R376, R385). -/
opaque Config.journalBytes : List Machine.Journal → List Byte

end Sys2Proof
namespace Sys2Proof.Machine
open Sys2Proof

/-! ## The journal (R376, R385) -/

/-- The first address of the journal region. -/
def State.journalBase (s : State) : Nat := s.modid.toNat * 2 ^ 46 + 0x01FFC0000000
/-- The journal's entries change, and with them the bytes of its region. -/
def State.keepJournal (s : State) (l : List Journal) : State :=
  { s with journal := l, mem := memPut s.mem (cellsAt s.journalBase (Config.journalBytes l)) }
/-- A tag's entry is closed or discarded. -/
def State.closeJournal (s : State) (tag : Nat) : State :=
  if s.journal.any (fun j => j.tag == tag) then s.keepJournal (s.journal.filter (fun j => j.tag != tag)) else s

/-! ## CREATE_TENANT (R378) -/

def newTenant (tag : Nat) (key : List Byte) : Tenant where
  tag := tag
  state := .unlocked
  key := key
  ext := Vector.replicate 16 Extent.empty
  cfgGen := 0
  tcfg := []
  mig := 0
  blob := []
  offer := []
  other := 0
  eph := []
  energy := 0
  fatal := []
  shownEnergy := 0
/-- The state that RESET_TENANT leaves. -/
def State.asReset (s : State) (x : Tenant) : Bool :=
  x.state == .unlocked && x.ext.toList.all (fun e => !e.valid) && s.granules.all (fun g => g.tag != x.tag)
    && s.host.sessions.all (fun y => y.sid != x.tag || y.phase != 2) && x.mig == 0
def State.registerTenant (s : State) (tag : Nat) (key : List Byte) : State := { s with tenants := s.tenants ++ [newTenant tag key] }
/-- A registered tag again: its objects are unloaded, its key replaced, its irreducible view discarded. -/
def State.rekeyTenant (s : State) (tag : Nat) (key : List Byte) : State :=
  ((s.objects.filter (fun o => o.tenant == tag)).foldl (fun s o => s.forceUnload o.objid) s).putTenant (newTenant tag key)
def doCreate (x : CmdCreate) (s : State) : Effect :=
  if !byOperator x.sid then (s, badState)
  else if x.tag = 0 ∨ 1023 < x.tag ∨ x.key.length ≠ 133 ∨ Config.onCurve x.key = false then (s, refused 0x11)
  else match s.findTenant x.tag with
    | none => (s.registerTenant x.tag x.key, ok [])
    | some t => if s.asReset t then (s.rekeyTenant x.tag x.key, ok []) else (s, badState)
def execCreateTenant (x : CmdCreate) (s : State) : Out := hostCommand x.sid x.tag 3 (doCreate x) s

/-! ## SET_EXTENTS (R337, R379) -/

/-- The granule or bank group of an address of this module, and the one its kind and number name. -/
def granuleOf (modid : BitVec 6) (a : Nat) : Option GranuleId :=
  match regionOf modid a with
  | .hbm => some ⟨0, 0, fld a 21 25⟩
  | .lpddr => some ⟨1, 0, fld a 21 25⟩
  | .host => some ⟨3, 0, fld a 21 25⟩
  | .weights d o => some ⟨2, d, o / 2 ^ 25⟩
  | _ => none
/-- The granules a grant entry names. -/
def GrantEntry.ids (g : Sys2Proof.GrantEntry) : List GranuleId :=
  (List.range g.count.toNat).map (fun i => ⟨g.kind.toNat, g.die.toNat, g.first.toNat + i⟩)
/-- Whether a granule index exists. -/
def GranuleId.exists (g : GranuleId) : Bool :=
  match g.kind with
  | 0 => g.die == 0 && decide (g.index < 0x60000)
  | 1 => g.die == 0 && decide (0x80000 ≤ g.index ∧ g.index < 0x100000)
  | 2 => decide (g.die < 4 ∧ g.index < 32)
  | 3 => g.die == 0 && decide (0x800000 ≤ g.index ∧ g.index < 0x1000000)
  | _ => false
/-- Granules of the module's own: the code heap and the journal (R27, R353, R376). -/
def GranuleId.ofModule (g : GranuleId) : Bool :=
  (g.kind == 0 && decide (0x5E000 ≤ g.index)) || (g.kind == 1 && decide (0xFFE00 ≤ g.index))
/-- Whether a granule may be granted to a tenant: no other owns it, it is not the module's, and it is zeroed. -/
def State.grantable (s : State) (tag : Nat) (g : GranuleId) : Bool :=
  !g.ofModule && !s.dirty.contains g && s.granules.all (fun x => x.id != g || x.tag == tag)
def State.grant (s : State) (tag : Nat) (g : GranuleId) : State :=
  if s.granules.any (fun x => x.id == g) then s else { s with granules := s.granules ++ [⟨g, tag, false⟩] }
/-- The window of an address; none for a global one (R72). -/
def windowOf (a : Nat) : Option Nat := if fld a 52 1 = 1 then some (fld a 48 4) else none
/-- R337: an extent's range reaches only what its tenant owns; a range of the scratchpad or the tile-port window needs no ownership. -/
def State.extentOwned (s : State) (tag base limit : Nat) : Bool :=
  (windowOf base == some 0 && windowOf limit == some 0) || (windowOf base == some 2 && windowOf limit == some 2) ||
  match regionOf s.modid base, regionOf s.modid limit with
  | .peer m, .peer n => m == n
  | .weights d a, .weights e b => d == e && (List.range (b / 2 ^ 25 - a / 2 ^ 25 + 1)).all (fun i => s.owned ⟨2, d, a / 2 ^ 25 + i⟩ tag)
  | p, q => p.isGlobal && q.isGlobal
      && (List.range (limit / 2 ^ 21 - base / 2 ^ 21 + 1)).all (fun i =>
        match granuleOf s.modid ((base / 2 ^ 21 + i) * 2 ^ 21) with
        | some g => s.owned g tag
        | none => false)
def ExtentEntry.wellFormed (e : Sys2Proof.ExtentEntry) : Bool :=
  decide (e.index.toNat < 16 ∧ e.rights.toNat < 16 ∧ e.base.toNat ≤ e.limit.toNat ∧ e.limit.toNat < 2 ^ 53)
def ExtentEntry.extent (e : Sys2Proof.ExtentEntry) (tag : Nat) : Extent where
  valid := true
  rd := e.rights.getLsbD 0
  wr := e.rights.getLsbD 1
  er := e.rights.getLsbD 2
  sr := e.rights.getLsbD 3
  base := e.base.setWidth 53
  limit := e.limit.setWidth 53
  tag := BitVec.ofNat 10 tag
/-- What a command names must be ready (R434): HBM needs every stack. -/
def State.hbmReady (s : State) : Bool := (s.boot.ready.toNat) % 2 ^ 12 == 2 ^ 12 - 1
def State.kindReady (s : State) (kind : Nat) : Bool := (kind != 0 || s.hbmReady) && (kind != 1 || s.boot.ready.getLsbD 12)
def State.addrReady (s : State) (a : Nat) : Bool := match granuleOf s.modid a with | some g => s.kindReady g.kind | none => true
/-- The extent entries of a command, in order. -/
def installExtents (tag : Nat) (v : Vector Extent 16) (l : List Sys2Proof.ExtentEntry) : Vector Extent 16 :=
  l.foldl (fun v e => vset v e.index.toNat (ExtentEntry.extent e tag)) v
def doSetExtents (x : CmdSetExtents) (s : State) : Effect :=
  if !byOperator x.sid || !s.inState x.tag [.unlocked] then (s, badState)
  else if 4096 < x.grants.length ∨ 16 < x.extents.length
      ∨ x.grants.any (fun g => g.count == 0 || (GrantEntry.ids g).any (fun i => !i.exists))
      ∨ x.extents.any (fun e => !ExtentEntry.wellFormed e) then (s, refused 0x11)
  else if x.grants.any (fun g => !s.kindReady g.kind.toNat) ∨ x.extents.any (fun e => !s.addrReady e.base.toNat || !s.addrReady e.limit.toNat) then
    (s, refused 0x30)
  else
    let ids := x.grants.flatMap GrantEntry.ids
    let s1 := ids.foldl (fun s g => s.grant x.tag g) s
    if ids.any (fun g => !s.grantable x.tag g) ∨ x.extents.any (fun e => !s1.extentOwned x.tag e.base.toNat e.limit.toNat) then
      (s, refused 0x12)
    else match s1.findTenant x.tag with
      | some t => (s1.putTenant { t with ext := installExtents x.tag t.ext x.extents }, ok [])
      | none => (s, badState)
def execSetExtents (x : CmdSetExtents) (s : State) : Out := hostCommand x.sid x.tag 4 (doSetExtents x) s

/-! ## Dependence on an extent (R345) -/

/-- An object's record: every extent its buffers are bound to in one of its versions, and every one its code names. -/
def Obj.dependences (o : Obj) : List Nat := o.versions.flatMap Sealed.binding ++ o.named
/-- The extents a team depends on: those of its object's record (log entry 26). -/
def State.dependences (s : State) (t : Team) : List Nat :=
  match s.objOf t.objid with
  | some o => o.dependences
  | none => t.code.binding
def Extent.meets (x : Extent) (base limit : Nat) : Bool := x.valid && decide (x.base.toNat ≤ limit ∧ base ≤ x.limit.toNat)
def State.dependsOn (s : State) (t : Team) (base limit : Nat) : Bool :=
  (s.dependences t).any (fun i => (vget t.ext i Extent.empty).meets base limit)
def State.dependents (s : State) (tag base limit : Nat) : List Team := (s.teamsOf tag).filter (fun t => s.dependsOn t base limit)
/-- Whether the running ones of some teams may all stop now, their stream pushes included (R210, R394). -/
def State.mayHalt (s : State) (l : List Team) : Bool :=
  let r := l.filter (fun t => t.state == .running)
  let u := r.foldl State.finishPushes s
  r.all (fun t => s.stoppable t && !u.pushesLeft t)
/-- Every running team of a tenant may stop now. -/
def State.tenantStoppable (s : State) (tag : Nat) : Bool := s.mayHalt (s.teamsOf tag)

/-- An extent changes in the tenant's record and in every context of the tenant. -/
def State.putExtent (s : State) (tag i : Nat) (e : Extent) : State :=
  let set (v : Vector Extent 16) := vset v i e
  { s with
    tenants := s.tenants.map (fun x => if x.tag = tag then { x with ext := set x.ext } else x)
    teams := s.teams.map (fun t => if t.tenant = tag then { t with ext := set t.ext } else t)
    tile := if s.tile.tenant = tag then { s.tile with ext := set s.tile.ext } else s.tile
    tiles := s.tiles.map (fun p => if p.2.tenant = tag then (p.1, { p.2 with ext := set p.2.ext }) else p) }

/-! ## REVOKE_EXTENT (R357) -/

/-- Whether a flit with these bytes of an access at `a` addresses a range. -/
def flitMeets (base limit a : Nat) (l : List Host.Cell) : Bool :=
  if l = [] then decide (base ≤ a ∧ a ≤ limit) else l.any (fun c => decide (base ≤ c.1 ∧ c.1 ≤ limit))
/-- Whether a stash holds an access of which nothing is left once its pieces to a range are gone. -/
def stashedWithin (l : List Stashed) (p : ProcId) (seq base limit : Nat) : Bool :=
  l.any (fun f => match f with | .access q a => q == p && a.seq == seq && a.pieces.all (flitMeets base limit a.addr) | _ => false)
/-- Whether a flit of a replay buffer is to a range: that of a stashed access, or of a unit a command writes. -/
def Flight.meets (x : Flight) (l : List Stashed) (base limit : Nat) : Bool :=
  match x.cargo with
  | .access p seq => stashedWithin l p seq base limit
  | .unit _ _ k => decide (base ≤ 64 * k + 63 ∧ 64 * k ≤ limit)
  | _ => false
/-- What is left of a stashed message once its flits to a range have left the save area. -/
def Stashed.without (stash : List Stashed) (f : Stashed) (base limit : Nat) : Option Stashed :=
  match f with
  | .flit x => if x.meets stash base limit then none else some f
  | .access p a =>
    let l := a.pieces.filter (fun q => !flitMeets base limit a.addr q)
    if l = [] then none else some (.access p { a with pieces := l })
  | .migration _ _ _ => some f
  | .read _ l => if overlaps l.addr l.size base (limit + 1 - base) then none else some f
/-- How many of a message's flits to a range have left, and the tile of its sender; an access's own flit counts with the access. -/
def Stashed.gone (f : Stashed) (base limit : Nat) : Nat × Option Nat :=
  match f with
  | .flit x => match x.cargo with | .unit p _ _ => (bit (x.meets [] base limit), homeTile p) | _ => (0, none)
  | .access p a => ((a.pieces.filter (flitMeets base limit a.addr)).length, homeTile p)
  | .migration _ _ _ => (0, none)
  | .read p l => (if overlaps l.addr l.size base (limit + 1 - base) then 1 else 0, homeTile p)
/-- Stashed flits to a range leave the save area, and each is counted in its sender's copy. -/
def Team.dropStash (t : Team) (base limit : Nat) : Team :=
  let n (l : Nat) : Nat := (t.stash.map (fun f => if (f.gone base limit).2 = some l then (f.gone base limit).1 else 0)).sum
  let more (k : Nat) (v : Vector Word 64) : Vector Word 64 := vset v 43 (satAdd (vget v 43 0) k)
  { t with stash := t.stash.filterMap (fun f => Stashed.without t.stash f base limit)
           snaps := t.snaps.map (fun x => { x with tile := { x.tile with ctrCopy := more (n x.lcid) x.tile.ctrCopy } }) }
/-- The stash part of a save area once flits are gone from it: the rest close up, and the entries they leave are zeroed. -/
def Team.closedStash (t u : Team) : List Host.Cell :=
  if t.hasSave then stashCells u.stashAt u.stash ++ cellsAt (u.stashAt + 40 * u.flitCount) (zeros (40 * (t.flitCount - u.flitCount))) else []
def State.dropStashes (s : State) (tag base limit : Nat) : State :=
  { s with teams := s.teams.map (fun t => if t.tenant = tag then t.dropStash base limit else t)
           mem := memPut s.mem ((s.teamsOf tag).flatMap (fun t => t.closedStash (t.dropStash base limit))) }
/-- First and last byte of a granule. -/
def granuleSpan (modid : BitVec 6) (g : GranuleId) : Nat × Nat :=
  if g.kind = 2 then (weightAddr g.die (g.index * 2 ^ 25), weightAddr g.die (g.index * 2 ^ 25) + 2 ^ 25 - 1)
  else (modid.toNat * 2 ^ 46 + g.index * 2 ^ 21, modid.toNat * 2 ^ 46 + g.index * 2 ^ 21 + 2 ^ 21 - 1)
/-- The bytes an extent occupies at its target: twice its size in granules that hold sealed lines (R361). -/
def State.heldLength (s : State) (e : Extent) : Nat :=
  let n := e.limit.toNat - e.base.toNat + 1
  if s.granules.any (fun g => g.prot && granuleOf s.modid e.base.toNat == some g.id) then 2 * n else n
/-- A granule or bank group lies wholly inside what a valid extent occupies. -/
def State.heldBy (s : State) (e : Extent) (g : GranuleId) : Bool :=
  let p := granuleSpan s.modid g
  e.valid && decide (e.base.toNat ≤ p.1 ∧ p.2 < e.base.toNat + s.heldLength e)
/-- Ownership is cleared on what lies wholly inside the extent and inside no other valid extent of the tenant. -/
def State.clearOwnership (s : State) (tag : Nat) (x : Extent) (ext : Vector Extent 16) : State :=
  { s with granules := s.granules.filter (fun g =>
      !(g.tag == tag && s.heldBy x g.id && ext.toList.all (fun e => !s.heldBy e g.id))) }
/-- The steps of a revocation. -/
def State.revoke (s : State) (t : Tenant) (i : Nat) : State :=
  let e := vget t.ext i Extent.empty
  let b := e.base.toNat
  let l := e.limit.toNat
  let deps := if e.valid then s.dependents t.tag b l else []
  let s1 := s.putExtent t.tag i { e with valid := false }
  let s2 := (s1.haltTeams .halt deps).dropStashes t.tag b l
  let s3 := if e.valid then s2.clearOwnership t.tag e (vset t.ext i { e with valid := false }) else s2
  let s4 := s3.reconfigure t.tag
  if t.state = .locked ∨ t.state = .run then s4.enterError t.tag else s4
def doRevoke (x : CmdExtent) (s : State) : Effect :=
  if !byOperator x.sid then (s, badState)
  else match s.findTenant x.tag with
    | none => (s, badState)
    | some t => if 15 < x.index.toNat then (s, refused 0x11) else (s.revoke t x.index.toNat, ok (natBytes s.gtime 8))
def execRevokeExtent (x : CmdExtent) (s : State) : Out :=
  if s.tenantStoppable x.tag then hostCommand x.sid x.tag 5 (doRevoke x) s else .next s

/-! ## MOVE_EXTENT (R358, R359, R365) -/

/-- The addresses of TCBs that the model keeps with ready work, tasks and continuations move with their bytes. -/
def ReadyItem.relocated (l : List (Nat × Nat × Nat)) (i : ReadyItem) : ReadyItem :=
  match i.work with
  | .task a => { i with work := .task (moved l a) }
  | .cont _ => i
def Tile.relocated (l : List (Nat × Nat × Nat)) (k : Tile) : Tile :=
  { k with localQ := k.localQ.map (ReadyItem.relocated l)
           task := k.task.map (fun t => { t with tcb := moved l t.tcb })
           conts := k.conts.map (fun c => { c with tcb := moved l c.tcb }) }
def Team.relocated (l : List (Nat × Nat × Nat)) (t : Team) : Team :=
  { t with tcbBase := moved l t.tcbBase
           bufs := t.bufs.map (fun b => if b.scratch then b else { b with addr := moved l b.addr })
           moves := if t.hasSave then t.moves ++ l else t.moves
           snaps := t.snaps.map (fun x => { x with tile := x.tile.relocated l }) }
def State.relocateTeams (s : State) (l : List (Nat × Nat × Nat)) (nums : List Nat) : State :=
  { s with
    teams := s.teams.map (fun t => if nums.contains t.num then t.relocated l else t)
    clusters := s.clusters.map (fun c =>
      (c.1, { c.2 with readyQ := c.2.readyQ.map (fun i => if nums.contains i.team then i.relocated l else i) })) }
/-- The granules of a range hold sealed lines (R361). -/
def State.markSealed (s : State) (tag base n : Nat) : State :=
  { s with granules := s.granules.map (fun g =>
      let p := granuleSpan s.modid g.id
      if g.tag = tag ∧ p.1 < base + n ∧ base ≤ p.2 then { g with prot := true } else g) }
/-- Whether a processor's requests leave a range alone: its writes and reads, and its engine's commands. -/
def State.quietAt (s : State) (base limit : Nat) (p : ProcId) : Bool :=
  let c := s.getCore p
  let meets (a n : Nat) : Bool := overlaps a n base (limit + 1 - base)
  c.pend.all (fun a => a.performed || a.pieces.all (fun q => !flitMeets base limit a.addr q))
    && c.lates.all (fun l => !meets l.addr l.size)
    && (match c.load with | some l => l.parts.all (fun q => q.bytes.isSome || !meets q.addr q.len) | none => true)
    && c.cmds.all (fun x => x.status != .pending || (x.work.srcRows ++ x.work.dstRows).all (fun q => !meets q.1 q.2))
/-- The drain of R358: no request of the tenant's teams that run on addresses the range of the extent that is to move. -/
def State.drained (s : State) (tag i : Nat) : Bool :=
  match s.findTenant tag with
  | none => true
  | some t =>
    let e := vget t.ext i Extent.empty
    !e.valid || ((s.teamsOf tag).filter (fun t => t.state == .running && !s.dependsOn t e.base.toNat e.limit.toNat)).all
      (fun t => t.procs.all (s.quietAt e.base.toNat e.limit.toNat))
/-- The steps of a compaction; sealed lines are copied as they are, to granules that hold sealed lines. -/
def State.moveExtent (s : State) (t : Team → Bool) (tag i : Nat) (e : Extent) (base : Nat) : State :=
  let old := e.base.toNat
  let lim := e.limit.toNat
  let l := [(old, lim, base)]
  let run := ((s.teamsOf tag).filter t).filter (fun t => t.state == .running || t.state == .waiting)
  let s1 := s.haltTeams .halt run
  let n := s.heldLength e
  let s2 := { s1 with mem := memPut s1.mem (cellsAt base (memBytes s1.mem old n)) }
  let s2 := if n = lim - old + 1 then s2 else s2.markSealed tag base n
  let s3 := s2.putExtent tag i { e with base := BitVec.ofNat 53 base, limit := BitVec.ofNat 53 (base + (lim - old)) }
  let s4 := s3.relocateTeams l ((s.teamsOf tag).map Team.num)
  run.foldl (fun s t => match s.findTeam t.num with
    | some u => if u.state = .halted then s.putTeam { u with state := .waiting } else s
    | none => s) s4
def doMove (x : CmdMove) (s : State) : Effect :=
  if !byOperator x.sid then (s, badState)
  else match s.findTenant x.tag with
    | none => (s, badState)
    | some t =>
      let i := x.index.toNat
      let e := vget t.ext i Extent.empty
      let b := x.base.toNat
      let lim := b + (e.limit.toNat - e.base.toNat)
      if 15 < i ∨ e.valid = false ∨ 2 ^ 53 ≤ lim then (s, refused 0x11)
      else if (List.range 16).any (fun j => j != i && (vget t.ext j Extent.empty).valid
          && (vget t.ext j Extent.empty).base.toNat == e.limit.toNat + 1) ∨ s.extentOwned x.tag b (b + s.heldLength e - 1) = false then (s, refused 0x12)
      else
        let s1 := (s.moveExtent (fun t => s.dependsOn t e.base.toNat e.limit.toNat) x.tag i e b).reconfigure x.tag
        (s1, ok (natBytes (match s1.findTenant x.tag with | some u => u.cfgGen | none => 0) 4))
def execMoveExtent (x : CmdMove) (s : State) : Out :=
  if s.tenantStoppable x.tag && s.drained x.tag x.index.toNat then hostCommand x.sid x.tag 6 (doMove x) s else .next s

/-! ## STOP_TEAM (R380) -/

/-- The stop a STOP_TEAM names. -/
def State.nameHalt (s : State) (t : Team) (at_ : Nat) : State := s.putTeam { t.commandStop at_ with byStop := true }
def doStop (x : CmdTeam) (s : State) : Effect :=
  if !(byOperator x.sid || byTenant x.sid x.tag) || !s.inState x.tag [.run] then (s, badState)
  else match s.findTeam x.team with
    | none => (s, badState)
    | some t =>
      let at_ := max x.time (s.gtime + 10000)
      if t.tenant ≠ x.tag then (s, badState)
      else if (t.state ≠ .running ∧ t.state ≠ .waiting) ∨ (t.state = .running ∧ t.stop ≠ .none ∧ t.reason = StopReason.fail) then (s, badState)
      else (s.nameHalt t at_, .waits (.stop t.num at_))
def doResume (x : CmdTeam) (s : State) : Effect :=
  if !(byOperator x.sid || byTenant x.sid x.tag) || !s.inState x.tag [.run] then (s, badState)
  else if x.time ≠ 0 then (s, refused 0x11)
  else match s.findTeam x.team with
    | none => (s, badState)
    | some t =>
      if t.tenant = x.tag ∧ t.state = .halted ∧ t.byStop ∧ (s.findTenant x.tag).all (fun y => y.mig == 0) then
        (s.putTeam { t with state := .waiting, byStop := false, haltAt := none }, ok [])
      else (s, badState)
def execStopTeamResume (x : CmdTeam) (s : State) : Out := hostCommand x.sid x.tag 8 (doResume x) s

/-! ## RESET_TENANT (R400, R416, R418) -/

/-- The energy of a tenant's teams: C4 counter 0 of their tiles, and of those they have given up, in µJ. -/
def State.teamEnergy (s : State) (t : Team) : Nat :=
  (t.kept.map (fun k => (vget k.2.1 32 0).toNat)).sum + if t.snaps ≠ [] then (t.snaps.map (fun x => (vget x.tile.ctrCopy 32 0).toNat)).sum
  else (t.tiles.map (fun n => if (s.getTile n).team = t.num then (vget (s.getTile n).ctr 32 0).toNat else 0)).sum
def fatalClasses (t : Team) : List (BitVec 8) :=
  (t.faults.filter (fun r => r.fatal)).map (fun r => BitVec.ofNat 8 (r.faultw.toNat / 2 ^ 56))
/-- A tenant's clusters run the clear sequence, frozen tiles included, at 1.1 GHz, and what was put off follows (R443). -/
def State.clearTeam (s : State) (t : Team) : State :=
  let s1 := t.clusters.foldl (fun s c =>
    if (s.getCluster c.1).holder = some t.num then
      let u := s.clearCluster c.1
      if s.boot.ready.getLsbD 20 then u.setCluster c.1 { u.getCluster c.1 with clock := 15 } else u
    else s) s
  s1.coolDown t
/-- Its teams are stopped, cleared and released; its extents and ownership are removed; it becomes UNLOCKED. -/
def State.resetTenant (s : State) (x : Tenant) (mig : Nat) : State :=
  let l := s.teamsOf x.tag
  let s1 := s.haltTeams .halt l
  let s2 := l.foldl State.clearTeam s1
  let s3 := l.foldl (fun s t => s.releaseTeam t.num) s2
  let s3 := if mig = 0 then s3.closeJournal x.tag else s3
  let mine := s.granules.filter (fun g => g.tag == x.tag)
  { s3.putTenant { x with state := .unlocked, ext := Vector.replicate 16 Extent.empty, cfgGen := 0, tcfg := [], mig := mig,
                          energy := x.energy + (l.map s.teamEnergy).sum, fatal := x.fatal ++ l.flatMap fatalClasses }
    with granules := s.granules.filter (fun g => g.tag != x.tag), dirty := s.dirty ++ mine.map Granule.id,
         host := { s3.host with sessions := s3.host.sessions.filter (fun y => y.sid != x.tag || mig != 0) } }
/-- Bytes of a granule or bank group. -/
def GranuleId.size (g : GranuleId) : Nat := if g.kind = 2 then 2 ^ 25 else 2 ^ 21
/-- The result words of R418: the end of step 4, what was released, and when it is zeroed at 100 GB/s. -/
def State.resetResult (s : State) (x : Tenant) : List Byte :=
  let mine := (s.granules.filter (fun g => g.tag == x.tag)).map Granule.id
  natBytes s.gtime 8 ++ natBytes mine.length 4 ++ natBytes (s.teamsOf x.tag).length 4
    ++ natBytes (s.gtime + ((mine.map GranuleId.size).sum + 99) / 100) 8 ++ zeros 8
/-- Whether a team of the tenant runs or waits for its slot. -/
def State.active (s : State) (tag : Nat) : Bool := (s.teamsOf tag).any (fun t => t.state == .running || t.state == .waiting)
/-- Every team of the tenant is to stop at T (R400). -/
def State.nameReset (s : State) (tag at_ : Nat) : State :=
  { s with teams := s.teams.map (fun t => if t.tenant = tag then t.commandStop at_ else t) }
/-- RESET_TENANT: at once when no team of the tenant runs or waits, else once all have stopped. -/
def doReset (x : CmdTag) (s : State) : Effect :=
  if !byOperator x.sid then (s, badState)
  else match s.findTenant x.tag with
    | none => (s, badState)
    | some t =>
      if s.active x.tag then (s.nameReset x.tag (s.gtime + 10000), .waits (.reset (s.gtime + 10000)))
      else (s.resetTenant t 0, ok (s.resetResult t))
/-! ## Commands that wait (R350, R380, R400) -/

/-- What a waiting command answers once what it waits for has come. -/
def State.waitOver (s : State) (w : Waiting) : Option Effect :=
  match w.what with
  | .unload objid => if s.pins objid = 0 then some ((s.freeObj objid).reconfigure w.tag, ok []) else none
  | .fabric => none
  | .stop team at_ => match s.findTeam team with
    | some t => if t.state = .running ∨ t.state = .waiting then none
      else if t.state = .halted then some (s, ok (natBytes at_ 8)) else some (s, badState)
    | none => some (s, badState)
  | .reset at_ =>
    if s.gtime < at_ ∨ s.active w.tag = true then none
    else match s.findTenant w.tag with
      | some t => some (s.resetTenant t 0, ok (s.resetResult t))
      | none => some (s, badState)
/-- The waiting commands that are over are answered. -/
def State.settleOne (s : State) (w : Waiting) : State :=
  match s.waitOver w with
  | some e =>
    let s1 := State.conclude w.sid w.tag w.opc w.cseq e
    { s1 with host := { s1.host with waiting := s1.host.waiting.erase w } }
  | none => s
def State.settle (s : State) : State := s.host.waiting.foldl State.settleOne s
/-- Whether a command already waits. -/
def State.waitsFor (s : State) (sid : Nat) (w : WaitFor) : Bool := s.host.waiting.any (fun x => x.sid == sid && x.what == w)

/-- UNLOAD_OBJECT: its acceptance, or, once accepted, its completion. -/
def execUnloadObject (x : CmdObj) (s : State) : Out :=
  if s.waitsFor x.sid (.unload x.objid) then .next s.settle else hostCommand x.sid x.tag 2 (doUnload x) s
/-- Every running team of an object may stop now. -/
def State.objStoppable (s : State) (objid : Nat) : Bool := s.mayHalt (s.teams.filter (fun t => t.objid == objid))
def execUnloadObjectForced (x : CmdObj) (s : State) : Out :=
  if s.objStoppable x.objid then hostCommand x.sid x.tag 2 (doUnloadForced x) s else .next s
/-- STOP_TEAM: its acceptance, or, once accepted, its completion. -/
def execStopTeam (x : CmdTeam) (s : State) : Out :=
  if s.host.waiting.any (fun w => w.sid == x.sid && (match w.what with | .stop n _ => n == x.team | _ => false)) then .next s.settle
  else hostCommand x.sid x.tag 8 (doStop x) s
/-- RESET_TENANT: its acceptance, or, once accepted, its completion. -/
def execResetTenant (x : CmdTag) (s : State) : Out :=
  if s.host.waiting.any (fun w => w.sid == x.sid && w.tag == x.tag && (match w.what with | .reset _ => true | _ => false)) then .next s.settle
  else hostCommand x.sid x.tag 9 (doReset x) s

/-! ## Zeroing (R400 step 5) -/

/-- GRANULE_ZEROED: a released granule is zeroed and may be granted. -/
def execGranuleZeroed (x : EvGranule) (s : State) : Out :=
  let g : GranuleId := ⟨x.kind, x.die, x.index⟩
  if s.dirty.contains g then
    let p := granuleSpan s.modid g
    .next { s with dirty := s.dirty.erase g, mem := dropCells s.mem p.1 g.size,
                   bad := s.bad.filter (fun u => !(decide (p.1 ≤ u ∧ u ≤ p.2))) }
  else .next s

/-! ## SET_CALENDAR (R53, R32) -/

def State.setSlots (s : State) (mask : Word) (slots : List Nat) : State :=
  (List.range 64).foldl (fun s c =>
    if mask.getLsbD c then
      s.setCluster c { s.getCluster c with slots := Vector.ofFn (fun i => if slots.getD i.val 0 = 0 then none else some (slots.getD i.val 0)) }
    else s) s
/-- The slots a team owns in a cluster, as a mask. -/
def State.ownedSlots (s : State) (num c : Nat) : Nat :=
  ((List.range 16).filter (fun i => vget (s.getCluster c).slots i none == some num)).foldl (fun n i => n + 2 ^ i) 0
/-- R53: every slot's team lies on the cluster, and owns the same slots in every cluster of its placement. -/
def State.calendarOk (s : State) : Bool :=
  (List.range 64).all (fun c => (s.getCluster c).slots.toList.all (fun x => match x with
    | none => true
    | some n => match s.findTeam n with
      | some t => t.clusters.any (fun k => k.1 == c)
      | none => false))
    && s.teams.all (fun t => match t.clusters with
      | [] => true
      | k :: r => r.all (fun c => s.ownedSlots t.num c.1 == s.ownedSlots t.num k.1))
def State.withShares (s : State) : State :=
  { s with teams := s.teams.map (fun t => { t with share := s.ownedSlots t.num ((t.clusters.headD (0, 0)).1) }) }
def doSetCalendar (x : CmdCalendar) (s : State) : Effect :=
  let m := x.msgmax.toNat
  let s1 := s.setSlots x.clmask x.slots
  if !byOperator x.sid then (s, badState)
  else if (m ≠ 0 ∧ (m < 5 ∨ 16 < m)) ∨ s1.calendarOk = false then (s, refused 0x11)
  else (({ s1 with host := { s1.host with nextMsgmax := if m = 0 then s1.host.nextMsgmax else some m } }).withShares.renameStops x.clmask, ok [])
def execSetCalendar (x : CmdCalendar) (s : State) : Out := hostCommand x.sid 0 10 (doSetCalendar x) s

/-! ## LOCK and UNLOCK (R375, R384) -/

def doLock (x : CmdTag) (s : State) : Effect :=
  if !byTenant x.sid x.tag || !s.inState x.tag [.unlocked] then (s, badState)
  else match s.findTenant x.tag with
    | some t => (s.putTenant { t with state := .locked, cfgGen := 1, tcfg := s.tcfgOf t }, ok (natBytes 1 4))
    | none => (s, badState)
def execLock (x : CmdTag) (s : State) : Out := hostCommand x.sid x.tag 13 (doLock x) s
/-- The tenant's teams are stopped and released, and it becomes UNLOCKED. -/
def State.unlockTenant (s : State) (x : Tenant) : State :=
  let l := s.teamsOf x.tag
  let s1 := s.haltTeams .halt l
  let y := { x with
    state := .unlocked
    cfgGen := 0
    tcfg := []
    energy := x.energy + (l.map s.teamEnergy).sum
    fatal := x.fatal ++ l.flatMap fatalClasses }
  (l.foldl (fun s t => s.releaseTeam t.num) s1).putTenant y
def doUnlock (x : CmdTag) (s : State) : Effect :=
  if !byTenant x.sid x.tag || !s.inState x.tag [.locked, .run, .error] then (s, badState)
  else match s.findTenant x.tag with
    | some t => (s.unlockTenant t, ok [])
    | none => (s, badState)
def execUnlock (x : CmdTag) (s : State) : Out :=
  if s.tenantStoppable x.tag then hostCommand x.sid x.tag 14 (doUnlock x) s else .next s

/-! ## ATTEST (R384) -/

def TenantState.code : TenantState → Nat
  | .unlocked => 0
  | .locked => 1
  | .run => 2
  | .error => 3
/-- Bytes 0x000–0x13F of a report: the module's alone, or with a tenant's state. -/
def State.reportBody (s : State) (t : Option Tenant) (nonce : List Byte) : List Byte :=
  let locked : Bool := match t with | some x => x.state == .locked || x.state == .run | none => false
  let (tag, st, mig, gen) := match t with | some x => (x.tag, TenantState.code x.state, x.mig, x.cfgGen) | none => (0, 0, 0, 0)
  natBytes 0x33545441 4 ++ natBytes 1 2 ++ natBytes tag 2 ++ natBytes st 1 ++ natBytes mig 1 ++ zeros 2 ++ natBytes gen 4
    ++ fixed 32 nonce ++ vget s.boot.mr 0 mrZero ++ vget s.boot.mr 1 mrZero ++ vget s.boot.mr 2 mrZero
    ++ (if locked then (match t with | some x => x.tcfg | none => []) else mrZero) ++ natBytes s.modid.toNat 8 ++ natBytes s.gtime 8
def State.report452 (s : State) (t : Option Tenant) (nonce : List Byte) : List Byte :=
  let b := s.reportBody t nonce
  b ++ fixed 132 (Config.sign b)
def doAttest (x : CmdAttest) (s : State) : Effect :=
  if byOperator x.sid && x.tag == 0 then
    if x.rlen.toNat < 476 then (s, refused 0x13) else s.writeResult x.sid x.raddr x.rlen (s.report452 none x.nonce)
  else if byTenant x.sid x.tag && s.inState x.tag anyState then
    if x.rlen.toNat < 476 then (s, refused 0x13)
    else s.writeResult x.sid x.raddr x.rlen (s.report452 (s.findTenant x.tag) x.nonce)
  else (s, badState)
def execAttest (x : CmdAttest) (s : State) : Out := hostCommand x.sid x.tag 15 (doAttest x) s

end Sys2Proof.Machine
end

