-- ==== Sys2Proof/Machine/Admit.lean ====
section
/-!
DEFINITION. The Chrofer object and its admission (R140–R151, R344): the parts of the file, the checks in their order, and the object a
file that passes them becomes.
-/
namespace Sys2Proof.Machine
open Sys2Proof

/-! ## The file (R140–R142) -/

/-- A row of the section table; `kind` is its place in the list of R141, none for a foreign name. -/
structure Sect where
  kind : Option Nat
  off : Nat
  size : Nat
  count : Nat
  deriving DecidableEq, Repr
/-- An object as received, with its section table. -/
structure ObjFile where
  b : List Byte
  sects : List Sect
  deriving DecidableEq, Repr
/-- A failing check: its code, the section index and the offset (R150). -/
structure Fail where
  code : Nat
  sect : Nat
  off : Nat
  deriving DecidableEq, Repr

/-- TEXT, STGE, COLF, CNST, DATA, BUFS, TASK, STEP, RELO, SYMS, ALMN, TOLS, LINE. -/
def sectNames : List Nat :=
  [0x54584554, 0x45475453, 0x464C4F43, 0x54534E43, 0x41544144, 0x53465542, 0x4B534154, 0x50455453, 0x4F4C4552, 0x534D5953, 0x4E4D4C41,
   0x534C4F54, 0x454E494C]
def readSect (b : List Byte) (o : Nat) : Sect :=
  ⟨sectNames.findIdx? (fun n => n == bytesNat b o 4), bytesNat b (o + 8) 8, bytesNat b (o + 16) 8, bytesNat b (o + 24) 4⟩
def sectCount (b : List Byte) : Nat := bytesNat b 0x0C 2
def sectOff (b : List Byte) : Nat := bytesNat b 0x10 8
def readFile (b : List Byte) : ObjFile := ⟨b, (List.range (sectCount b)).map (fun i => readSect b (sectOff b + 32 * i))⟩
/-- The index of a section by its kind; 0xFF when the object has none. -/
def ObjFile.idx (f : ObjFile) (k : Nat) : Nat := (f.sects.findIdx? (fun s => s.kind == some k)).getD 0xFF
def ObjFile.sect (f : ObjFile) (k : Nat) : Sect := (f.sects.find? (fun s => s.kind == some k)).getD ⟨some k, 0, 0, 0⟩
/-- Bytes of a section as a number. -/
def ObjFile.num (f : ObjFile) (k o n : Nat) : Nat := bytesNat f.b ((f.sect k).off + o) n
def ObjFile.bytes (f : ObjFile) (k o n : Nat) : List Byte := (f.b.drop ((f.sect k).off + o)).take n
def ObjFile.size (f : ObjFile) (k : Nat) : Nat := (f.sect k).size
def ObjFile.count (f : ObjFile) (k : Nat) : Nat := (f.sect k).count
/-- The words of a code section. -/
def ObjFile.words (f : ObjFile) (k : Nat) : List Word := (List.range (f.size k / 8)).map (fun i => wNat (f.num k (8 * i) 8))
def ObjFile.flags (f : ObjFile) : Nat := bytesNat f.b 8 4
def ObjFile.spsize (f : ObjFile) : Nat := bytesNat f.b 0x20 4
/-- HANDLER, STAGE and COLL: an offset, or none. -/
def optOff (x : Nat) : Option Nat := if x = 0xFFFFFFFF then none else some x
def ObjFile.handler (f : ObjFile) : Option Nat := optOff (bytesNat f.b 0x24 4)
def ObjFile.stageAt (f : ObjFile) : Option Nat := optOff (bytesNat f.b 0x28 4)
def ObjFile.collAt (f : ObjFile) : Option Nat := optOff (bytesNat f.b 0x2C 4)

/-- The first of a list of tests that fails. -/
def firstFail (code sect : Nat) (l : List (Bool × Nat)) : Option Fail := (l.find? (fun t => !t.1)).map (fun t => ⟨code, sect, t.2⟩)
/-- The first stage that fails. -/
def firstSome (l : List (Option Fail)) : Option Fail := l.findSome? id
def zeroRange (b : List Byte) (o n : Nat) : Bool := ((b.drop o).take n).all (fun x => x == 0)

/-- 0x01: the header (R140). DESIGN CHOICE (log entry 49): any SPSIZE that is a multiple of 4 KiB up to 0xFF000 is accepted here; check 0x07
holds the scratch buffers within it, and nothing holds it down to the rounded end of the last of them. -/
def ObjFile.checkHeader (f : ObjFile) : Option Fail :=
  firstFail 1 0xFF [(decide (64 ≤ f.b.length), 0), (bytesNat f.b 0 4 == 0x46524843, 0), (bytesNat f.b 4 2 == 1, 4), (bytesNat f.b 6 2 == 3, 6),
    (decide (f.flags < 4), 8), (decide (3 ≤ sectCount f.b ∧ sectCount f.b ≤ 13), 0x0C), (bytesNat f.b 0x0E 2 == 0, 0x0E),
    (sectOff f.b % 64 == 0, 0x10), (bytesNat f.b 0x18 8 == f.b.length, 0x18), (decide (f.spsize ≤ 0xFF000) && f.spsize % 4096 == 0, 0x20),
    (zeroRange f.b 0x30 16, 0x30)]

/-- How many STEP records a section of `n` bytes from `o` on holds (R147). -/
def stepCount (b : List Byte) : Nat → Nat → Nat → Nat
  | 0, _, _ => 0
  | k + 1, o, n => if n = 0 then 0 else let r := 16 + 32 * bytesNat b (o + 0xC) 4
    1 + stepCount b k (o + r) (n - r)
/-- COUNT and the limits of R141 and R142 on a section. -/
def ObjFile.limitsOk (f : ObjFile) (s : Sect) : Bool :=
  match s.kind with
  | some 0 => s.size % 8 == 0 && s.count == 0
  | some 1 | some 2 => decide (s.size ≤ 0x4000) && s.count == 0
  | some 3 => decide (s.count ≤ 64)
  | some 4 | some 10 => s.count == 0
  | some 5 => decide (s.count ≤ 16) && s.size == 32 * s.count
  | some 6 => decide (s.count ≤ 65535 ∧ 64 * s.count ≤ s.size)
  | some 7 => s.count == stepCount f.b s.size s.off s.size
  | some 8 => s.size == 24 * s.count
  | some 9 => decide (16 ≤ s.size) && s.count == bytesNat f.b s.off 4
  | some 11 => decide (s.count ≤ 8) && s.size == 16 * s.count
  | some 12 => s.size == 16 * s.count
  | _ => false
/-- The ranges of the header, the table and the sections. -/
def ObjFile.ranges (f : ObjFile) : List (Nat × Nat) := (0, 64) :: (sectOff f.b, 32 * sectCount f.b) :: f.sects.map (fun s => (s.off, s.size))
/-- 0x02: the section table (R141, R142). -/
def ObjFile.checkTable (f : ObjFile) : Option Fail :=
  let row (i : Nat) (s : Sect) : List (Bool × Nat) :=
    let o := sectOff f.b + 32 * i
    [(s.kind.isSome && (f.sects.take i).all (fun t => t.kind != s.kind), o), (bytesNat f.b (o + 4) 4 == 0, o + 4),
     (s.off % 64 == 0 && decide (s.off + s.size ≤ f.b.length), o + 8),
     (s.size == 0 || (f.ranges.take (i + 2)).all (fun r => r.2 == 0 || !overlaps r.1 r.2 s.off s.size), o + 8), (f.limitsOk s, o + 0x10), (bytesNat f.b (o + 0x1C) 4 == 0, o + 0x1C)]
  firstFail 2 0xFF ((decide (64 ≤ sectOff f.b ∧ sectOff f.b + 32 * sectCount f.b ≤ f.b.length), 0x10)
    :: (f.sects.zipIdx.flatMap (fun q => row q.2 q.1)) ++ [0, 6, 9].map (fun k => (f.idx k != 0xFF, sectOff f.b))
    ++ (List.range f.b.length).map (fun i => (f.ranges.any (fun r => decide (r.1 ≤ i ∧ i < r.1 + r.2)) || byteNat f.b i == 0, i)))

/-! ## Code (R129, R150, R151) -/

def ObjFile.code (f : ObjFile) (k : Nat) : List (Nat × Instr) :=
  match decodeAll (sectColumn k) 0 (f.words k) with | .ok l => l | .error _ => []
/-- 0x03: every code section decodes, with no partial word at its end. DESIGN CHOICE (log entry 49), here and in the other checks: of
several items that fail within one check, the one reported is the first in the order TEXT, STGE, COLF, and of the fields in the order the
check lists them. -/
def ObjFile.checkDecode (f : ObjFile) : Option Fail :=
  [0, 1, 2].findSome? (fun k => match decodeAll (sectColumn k) 0 (f.words k) with
    | .ok _ => if f.size k % 8 = 0 then none else some ⟨3, f.idx k, f.size k / 8 * 8⟩
    | .error o => some ⟨3, f.idx k, o⟩)

/-- A symbol (R149). -/
structure Sym where
  kind : Nat
  sect : Nat
  value : Nat
  size : Nat
  deriving DecidableEq, Repr
def ObjFile.symCount (f : ObjFile) : Nat := f.num 9 0 4
def ObjFile.sym (f : ObjFile) (i : Nat) : Sym :=
  let o := 16 + 24 * i
  ⟨f.num 9 (o + 4) 1, f.num 9 (o + 6) 1, f.num 9 (o + 8) 8, f.num 9 (o + 16) 8⟩
/-- The entries that fit in the section. -/
def ObjFile.syms (f : ObjFile) : List Sym := (List.range (min f.symCount (f.size 9 / 24))).map f.sym
/-- The procedures of a code section: start and length. -/
def ObjFile.procsOf (f : ObjFile) (k : Nat) : List (Nat × Nat) :=
  (f.syms.filter (fun y => y.kind == 1 && y.sect == f.idx k)).map (fun y => (y.value, y.size))
/-- Every procedure in SYMS order: section, start, length. -/
def ObjFile.procs (f : ObjFile) : List (Nat × Nat × Nat) :=
  (f.syms.filter (fun y => y.kind == 1)).map (fun y => (if y.sect = f.idx 0 then 0 else if y.sect = f.idx 1 then 1 else 2, y.value, y.size))
/-- A relocation (R148). -/
structure Reloc where
  sect : Nat
  kind : Nat
  sym : Nat
  off : Nat
  addend : Int
  deriving DecidableEq, Repr
def ObjFile.reloc (f : ObjFile) (i : Nat) : Reloc :=
  let o := 24 * i
  ⟨f.num 8 o 1, f.num 8 (o + 1) 1, f.num 8 (o + 4) 4, f.num 8 (o + 8) 8, sI (wNat (f.num 8 (o + 16) 8))⟩
def ObjFile.relocs (f : ObjFile) : List Reloc := (List.range (f.count 8)).map f.reloc
/-- The CALL sites of a section. -/
def ObjFile.calls (f : ObjFile) (k : Nat) : List Reloc := f.relocs.filter (fun r => r.kind == 1 && r.sect == f.idx k)
def procAt (l : List (Nat × Nat)) (o : Nat) : Option (Nat × Nat) := l.find? (fun p => decide (p.1 ≤ o ∧ o < p.1 + p.2))
/-- Procedures with those they reach by one more CALL. -/
def ObjFile.callees (f : ObjFile) (l : List (Nat × Nat)) : List (Nat × Nat) :=
  let ps := f.procsOf 0
  ps.filter (fun p => l.contains p || (f.calls 0).any (fun r => (f.sym r.sym).value == p.1
    && (match procAt ps r.off with | some q => l.contains q | none => false)))
/-- The handler procedure and the procedures it reaches by CALL (R151, R392). -/
def ObjFile.handlerProcs (f : ObjFile) : List (Nat × Nat) :=
  let ps := f.procsOf 0
  let h := match f.handler with | some o => ps.filter (fun p => p.1 == o) | none => []
  iterate f.callees ps.length h
/-- R151, for an instruction of section `k` at an offset. -/
def ObjFile.formOk (f : ObjFile) (k o : Nat) (i : Instr) : Bool :=
  match i with
  | .ld x => match x.d with | .a _ => false | .g _ => true
  | .jrl _ => false
  | .jr x => x.tr == 14 && x.off == 0
  | .tret _ => k == 0 && (match procAt (f.procsOf 0) o with | some p => f.handlerProcs.contains p | none => false)
  | _ => true
/-- 0x04: the forms only translated code may hold. -/
def ObjFile.checkForms (f : ObjFile) : Option Fail :=
  [0, 1, 2].findSome? (fun k => ((f.code k).find? (fun q => !f.formOk k q.1 q.2)).map (fun q => ⟨4, f.idx k, q.1⟩))

/-- Where procedures in ascending order stop tiling a section. DESIGN CHOICE (log entry 54): a procedure of length 0 tiles nothing and is
refused. -/
def tileGap (size : Nat) : Nat → List (Nat × Nat) → Option Nat
  | o, [] => if o = size then none else some o
  | o, p :: r => if p.1 = o ∧ p.2 ≠ 0 then tileGap size (o + p.2) r else some o
/-- 0x05: procedures lie in code sections and tile each; entries are procedure starts. -/
def ObjFile.checkProcs (f : ObjFile) : Option Fail :=
  let starts (k : Nat) (o : Nat) : Bool := (f.procsOf k).any (fun p => p.1 == o)
  let entry (k : Nat) (x : Option Nat) : Bool := match x with | some o => starts k o | none => true
  firstSome ([firstFail 5 (f.idx 9) (f.syms.zipIdx.map (fun q => (q.1.kind != 1 || [0, 1, 2].any (fun k => f.idx k == q.1.sect), 16 + 24 * q.2)))]
    ++ [0, 1, 2].map (fun k =>
      (tileGap (f.size k) 0 (sortBy (fun a b => decide (a.1 < b.1)) (f.procsOf k))).map (fun o => (⟨5, f.idx k, o⟩ : Fail)))
    ++ [0, 1, 2].map (fun k => firstFail 5 (f.idx k) ((f.procsOf k).map (fun p => ((f.code k).any (fun q => q.1 == p.1), p.1))))
    ++ [firstFail 5 0xFF [(entry 0 f.handler, 0x24), (entry 1 f.stageAt, 0x28), (entry 2 f.collAt, 0x2C)],
        firstFail 5 (f.idx 6) ((List.range (f.count 6)).map (fun t => (starts 0 (f.num 6 (64 * t) 4), 64 * t)))])

/-! ## Control flow (R150, R344) -/

/-- Whether the branches and bodies of a procedure stay in it; a CALL inside a body would leave it (R171, R178). -/
def flowOk (l : List (Nat × Instr)) (calls : List Nat) (i : Nat) (q : Nat × Instr) : Bool :=
  (match branchOff q.2 with
    | some d =>
      if calls.contains q.1 then (bodies l).all (fun b => !decide (b.2.1 ≤ i ∧ i ≤ b.2.2)) else (match placeOf l ((q.1 : Int) + 8 * d) with
        | some j => (bodies l).all (fun b => !(decide (b.2.1 ≤ i ∧ i ≤ b.2.2)) || decide (b.2.1 ≤ j ∧ j ≤ b.2.2))
        | none => false)
    | none => true)
    && (match bodyLen q.2 with | some n => decide (i + n < l.length) | none => true)

/-- Which of a8–a13 (bits 0–5) and a14 (bit 6) hold the entry a14 or a BRL link; in bits 7–13, which hold the entry a14 for certain, and in
bits 14–20 a BRL link. -/
abbrev Links := BitVec 21
def linkBit (r : AReg) : Option Nat := if 8 ≤ r.toNat ∧ r.toNat ≤ 14 then some (r.toNat - 8) else none
def setBit (m : Links) (k : Nat) (x : Bool) : Links := if x then m ||| BitVec.ofNat 21 (2 ^ k) else m &&& ~~~(BitVec.ofNat 21 (2 ^ k))
/-- A register holds a link, the entry's, a BRL's. -/
def setLink (m : Links) (r : AReg) (link entry brl : Bool) : Links :=
  match linkBit r with
  | some k => setBit (setBit (setBit m k link) (7 + k) entry) (14 + k) brl
  | none => m
def hasLink (m : Links) (r : AReg) (o : Nat) : Bool := match linkBit r with | some k => m.getLsbD (o + k) | none => false
/-- What an instruction does to the links; a guarded one may do nothing. -/
def linkStep (m : Links) (i : Instr) : Links :=
  match i with
  | .amov x => let n := setLink m x.d (hasLink m x.a 0) (hasLink m x.a 7) (hasLink m x.a 14); if isAlways x.q then n else m &&& n
  | .aadd x => setLink m x.d false false false
  | .aaddi x => setLink m x.d false false false
  | .afrom x => setLink m x.d false false false
  | .afmt x => setLink m x.d false false false
  | .brl x => let n := setLink m x.ln true false true; if isAlways x.q then n else m &&& n
  | _ => m
/-- Links that a handler of the object may have replaced between any two instructions; it puts a14 back (R392). -/
def Links.handledBy (h : Regs) (m : Links) : Links :=
  (List.range 6).foldl (fun m k => if Regs.has h (40 + k) then setLink m (BitVec.ofNat 4 (8 + k)) false false false else m) m
/-- Where a JR may go within the procedure: behind each BRL, unless a14 holds the entry's value for certain. -/
def localReturns (l : List (Nat × Instr)) (m : Links) : Instr → List Nat
  | .jr _ => if m.getLsbD 13 then [] else (l.zipIdx.filter (fun p => match p.1.2 with | .brl _ => true | _ => false)).map (fun p => p.2 + 1)
  | _ => []
/-- One sweep over the places of a procedure, with the registers a handler may write. -/
def linkSweep (h : Regs) (l : List (Nat × Instr)) (calls : List Nat) (st : List (Option Links)) : List (Option Links) :=
  l.zipIdx.foldl (fun st q =>
    match st.getD q.2 none with
    | none => st
    | some m =>
      let n := (linkStep m q.1.2).handledBy h
      (nextPlaces l calls q.2 q.1 ++ localReturns l m q.1.2).foldl (fun st j =>
        match st[j]? with
        | some (some k) => st.set j (some (k &&& n))
        | some none => st.set j (some n)
        | none => st) st) st
/-- Whether a JR stays inside the bodies it stands in (R178): a14 holds a BRL link for certain, and every BRL stands there too. -/
def staysInside (l : List (Nat × Instr)) (m : Links) (i : Nat) (q : Instr) : Bool :=
  (bodies l).all (fun b => !decide (b.2.1 ≤ i ∧ i ≤ b.2.2)
    || (m.getLsbD 20 && (localReturns l m q).all (fun j => decide (b.2.1 ≤ j ∧ j ≤ b.2.2))))
/-- The offset of a JR whose a14 may hold something else (R344), or which may leave a body. -/
def badReturn (h : Regs) (l : List (Nat × Instr)) (calls : List Nat) : Option Nat :=
  let st := iterate (linkSweep h l calls) (22 * l.length + 1) (l.mapIdx (fun i _ => if i = 0 then some (BitVec.ofNat 21 (2 ^ 6 + 2 ^ 13)) else none))
  (l.zip st).zipIdx.findSome? (fun q => match q.1.1.2, q.1.2 with
    | .jr _, some m => if m.getLsbD 6 && staysInside l m q.2 q.1.1.2 then none else some q.1.1.1
    | _, _ => none)
/-- The registers that the handler procedure and what it reaches by CALL may write, a14 apart. -/
def ObjFile.handlerWrites (f : ObjFile) : Regs :=
  (f.handlerProcs.foldl (fun s p => (inProc (f.code 0) p).foldl (fun s q => s ||| Instr.writes q.2) s) 0) &&& ~~~(Regs.of [46])
/-- What a handler may write between two instructions of a procedure of section `k`: nothing in one that runs as the handler alone, which no
trap enters again, or on a core without a handler (R391, R392). -/
def ObjFile.betweenWrites (f : ObjFile) (k : Nat) (p : Nat × Nat) : Regs :=
  let ps := f.procsOf 0
  let tasks := ps.filter (fun q => (List.range (f.count 6)).any (fun t => f.num 6 (64 * t) 4 == q.1))
  if k ≠ 0 || (f.handlerProcs.contains p && !(iterate f.callees ps.length tasks).contains p) then 0 else f.handlerWrites
/-- 0x06: control flow and returns. -/
def ObjFile.checkFlow (f : ObjFile) : Option Fail :=
  let per (g : Regs → List (Nat × Instr) → List Nat → Option Nat) : List (Option Fail) := [0, 1, 2].flatMap (fun k =>
    (f.procsOf k).map (fun p => (g (f.betweenWrites k p) (inProc (f.code k) p) ((f.calls k).map Reloc.off)).map (fun o => ⟨6, f.idx k, o⟩)))
  firstSome (per (fun _ l c => (l.zipIdx.find? (fun q => !flowOk l c q.2 q.1)).map (fun q => q.1.1)) ++ per badReturn)

/-! ## Buffers and tasks (R144–R146) -/

def ObjFile.buf (f : ObjFile) (i : Nat) : BufRow :=
  let o := 32 * i
  { kind := f.num 5 (o + 4) 1, rights := BitVec.ofNat 8 (f.num 5 (o + 5) 1), fmt := BitVec.ofNat 4 (f.num 5 (o + 6) 1),
    blog := BitVec.ofNat 3 (f.num 5 (o + 6) 1 / 16), size := f.num 5 (o + 8) 8, spoff := f.num 5 (o + 0x10) 8,
    image := if f.num 5 (o + 0x18) 4 = 0xFFFFFFFF then [] else f.bytes 4 (f.num 5 (o + 0x18) 4) (f.num 5 (o + 0x1C) 4) }
def ObjFile.bufs (f : ObjFile) : List BufRow := (List.range (f.count 5)).map f.buf
/-- 0x07: the buffer table. -/
def ObjFile.checkBufs (f : ObjFile) : Option Fail :=
  let row (i : Nat) (x : BufRow) : List (Bool × Nat) :=
    let o := 32 * i
    [(decide (x.kind ≤ 4), o + 4), (decide (x.rights.toNat < 16), o + 5),
     (decide (f.num 5 (o + 6) 1 < 128) && blogOk (Fmt.ofCode x.fmt.toNat) x.blog, o + 6), (f.num 5 (o + 7) 1 == 0, o + 7), (decide (1 ≤ x.size), o + 8),
     (if x.kind = 0 then x.spoff % 64 == 0 && decide (x.spoff + x.size ≤ f.spsize) else x.spoff == 0, o + 0x10),
     (x.kind != 0 || (f.bufs.take i).all (fun y => y.kind != 0 || !overlaps y.spoff y.size x.spoff x.size), o + 0x10),
     (decide (f.num 5 (o + 0x1C) 4 ≤ x.size) && (f.num 5 (o + 0x18) 4 != 0xFFFFFFFF || f.num 5 (o + 0x1C) 4 == 0), o + 0x1C)]
  firstFail 7 (f.idx 5) (f.bufs.zipIdx.flatMap (fun q => row q.2 q.1))

/-- The buffers of a task that a mask marks. -/
def ObjFile.marked (f : ObjFile) (t mask : Nat) : List Nat :=
  ((List.range 6).filter (fun i => fld (f.num 6 (64 * t + mask) 1) i 1 == 1)).map (fun i => f.num 6 (64 * t + 0x30 + i) 1)
/-- Whether task j is a successor of task i (R146). -/
def ObjFile.edge (f : ObjFile) (i j : Nat) : Bool :=
  decide (i < j) && ((f.marked i 0x37).any (fun b => (f.marked j 0x36).contains b || (f.marked j 0x37).contains b)
    || (f.marked i 0x36).any (fun b => (f.marked j 0x37).contains b))
def ObjFile.succsOf (f : ObjFile) (t : Nat) : List Nat := (List.range (f.count 6)).filter (fun j => f.edge t j)
def ObjFile.predCount (f : ObjFile) (t : Nat) : Nat := ((List.range (f.count 6)).filter (fun i => f.edge i t)).length
/-- The successors a task's entry lists. -/
def ObjFile.listed (f : ObjFile) (t : Nat) : List Nat :=
  (List.range (f.num 6 (64 * t + 7) 1)).map (fun k => f.num 6 (64 * f.count 6 + 2 * (f.num 6 (64 * t + 8) 4 + k)) 2)
/-- 0x08: the task table, equal to its derivation. DESIGN CHOICE (log entry 49): the SFIRST of a task with SCNT 0 must not lie beyond the
end of the successor array. -/
def ObjFile.checkTasks (f : ObjFile) : Option Fail :=
  let row (t : Nat) : List (Bool × Nat) :=
    let o := 64 * t
    let ix := (List.range 6).map (fun i => f.num 6 (o + 0x30 + i) 1)
    let used := (ix.takeWhile (fun b => b != 0xFF)).length
    [(f.num 6 (o + 4) 2 == f.predCount t, o + 4), (decide (f.num 6 (o + 6) 1 < 8), o + 6),
     (64 * f.count 6 + 2 * (f.num 6 (o + 8) 4 + f.num 6 (o + 7) 1) ≤ f.size 6 && f.listed t == f.succsOf t, o + 8),
     (ix.all (fun b => b == 0xFF || decide (b < f.count 5)) && (ix.drop used).all (fun b => b == 0xFF), o + 0x30),
     (decide (f.num 6 (o + 0x36) 1 < 2 ^ used), o + 0x36), (decide (f.num 6 (o + 0x37) 1 < 2 ^ used), o + 0x37),
     (f.num 6 (o + 0x38) 4 == t + 1, o + 0x38), (f.num 6 (o + 0x3C) 4 == 0, o + 0x3C)]
  firstFail 8 (f.idx 6) ((List.range (f.count 6)).flatMap row)

/-! ## Relocations (R148) -/

/-- The value a relocation of kinds 2 to 5 gives; none when its symbol is of another kind. DESIGN CHOICE (log entry 49): of the two values a
scratch buffer has, DVAL takes the scratchpad offset; of any other buffer it takes the size. -/
def ObjFile.relocValue (f : ObjFile) (r : Reloc) : Option Int :=
  let y := f.sym r.sym
  let isBuf := y.kind = 2 ∧ y.value < f.count 5
  let sp : Option Int := if isBuf ∧ (f.buf y.value).kind = 0 then some ((f.buf y.value).spoff : Int) else if y.kind = 4 then some (sI (wNat y.value)) else none
  let ix : Option Int := if y.kind = 3 ∧ y.value < f.count 6 then some (y.value : Int) else none
  let sz : Option Int := if isBuf then some ((f.buf y.value).size : Int) else none
  (match r.kind with
    | 2 => sp
    | 3 => ix
    | 4 => sz
    | 5 => if sp.isSome then sp else if ix.isSome then ix else sz
    | _ => none).map (fun v => v + r.addend)
/-- Whether a value fits a word's imm20: signed, but for LIH and BRK, and for BCHK, BCHKI (R168) and REP (R211), which divide it into
fields. -/
def immFits (w : Nat) (v : Int) : Bool :=
  if fld w 56 6 = 3 ∧ fld w 44 8 = 1 ∨ fld w 56 6 = 0x33 ∧ fld w 44 8 = 5 ∨ fld w 56 6 = 8 ∨ fld w 56 6 = 0x19 then decide (0 ≤ v ∧ v < 2 ^ 20)
  else decide (-2 ^ 19 ≤ v ∧ v < 2 ^ 19)
def ObjFile.relocOk (f : ObjFile) (r : Reloc) : Bool :=
  let k := ((f.sects[r.sect]?).bind Sect.kind).getD 13
  let w := f.num k r.off 8
  let y := f.sym r.sym
  let starts := decide (k < 3) && (f.code k).any (fun q => q.1 == r.off)
  decide (r.sym < f.symCount) && decide (r.off + 8 ≤ f.size k)
    && (match r.kind with
      | 1 => starts && fld w 56 6 == 9 && decide (fld w 44 8 ≤ 1) && fld w 0 32 == 0 && y.kind == 1
          && y.sect == r.sect && r.addend == 0
      | 2 | 3 | 4 => starts && isS w && fld w 0 20 == 0
          && (match f.relocValue r with
            | some v => immFits w v && (match decodeFor (sectColumn k) (w + (v % 2 ^ 20).toNat) 0 with | .ok _ => true | .error _ => false)
            | none => false)
      | 5 => (k == 3 || k == 4) && (match f.relocValue r with | some v => decide (-2 ^ 63 ≤ v ∧ v < 2 ^ 64) | none => false)
      | _ => false)
/-- 0x09: the relocations. -/
def ObjFile.checkRelocs (f : ObjFile) : Option Fail :=
  firstFail 9 (f.idx 8) (f.relocs.zipIdx.map (fun q => (f.relocOk q.1 && f.num 8 (24 * q.2 + 2) 2 == 0, 24 * q.2)))
def putBytes (b : List Byte) (o : Nat) (x : List Byte) : List Byte := b.take o ++ x ++ b.drop (o + x.length)
/-- The file with a relocation applied. -/
def ObjFile.relocate (f : ObjFile) (r : Reloc) : ObjFile :=
  let s := (f.sects[r.sect]?).getD ⟨none, 0, 0, 0⟩
  match f.relocValue r with
  | some v =>
    if r.kind = 5 then { f with b := putBytes f.b (s.off + r.off) (natBytes (wInt v).toNat 8) }
    else { f with b := putBytes f.b (s.off + r.off) (natBytes (bytesNat f.b (s.off + r.off) 8 + (v % 2 ^ 20).toNat) 8) }
  | none => f

/-! ## STEP records, tolerances, constants, symbols (R142, R147, R149, R306) -/

def ObjFile.xfer (f : ObjFile) (o : Nat) : StepXfer :=
  ⟨f.num 7 o 1, f.num 7 (o + 1) 1, (BitVec.ofNat 32 (f.num 7 (o + 4) 4)).toInt, f.num 7 (o + 8) 4, f.num 7 (o + 0xC) 4, f.num 7 (o + 0x10) 4⟩
/-- The records from an offset on, as many as the fuel allows. -/
def ObjFile.stepsFrom (f : ObjFile) : Nat → Nat → List (Nat × StepRec)
  | 0, _ => []
  | n + 1, o =>
    if f.size 7 ≤ o then []
    else
      let c := f.num 7 (o + 0xC) 4
      (o, ⟨f.num 7 o 1, f.num 7 (o + 4) 4, f.num 7 (o + 8) 4, (List.range c).map (fun i => f.xfer (o + 16 + 32 * i))⟩)
        :: f.stepsFrom n (o + 16 + 32 * c)
def ObjFile.steps (f : ObjFile) : List (Nat × StepRec) := f.stepsFrom (f.size 7) 0
def ObjFile.scratchRange (f : ObjFile) (b o n : Nat) : Bool :=
  decide (b < f.count 5) && (f.buf b).kind == 0 && decide (o + n ≤ (f.buf b).size)
/-- 0x0A: the STEP records. -/
def ObjFile.checkSteps (f : ObjFile) : Option Fail :=
  firstFail 10 (f.idx 7) (f.steps.map (fun q =>
    (decide (1 ≤ q.2.level ∧ q.2.level ≤ 4) && (q.2.level != 4 || fld f.flags 1 1 == 1) && f.num 7 (q.1 + 1) 3 == 0
      && decide (q.1 + 16 + 32 * q.2.xfers.length ≤ f.size 7)
      && q.2.xfers.zipIdx.all (fun x => f.num 7 (q.1 + 16 + 32 * x.2 + 2) 2 == 0 && f.num 7 (q.1 + 16 + 32 * x.2 + 0x14) 4 == 0
        && f.num 7 (q.1 + 16 + 32 * x.2 + 0x18) 8 == 0 && f.scratchRange x.1.src x.1.srcOff x.1.len && f.scratchRange x.1.dst x.1.dstOff x.1.len),
     q.1)))
def ObjFile.tols (f : ObjFile) : List (Nat × Word) := (List.range (f.count 11)).map (fun i => (f.num 11 (16 * i) 1, wNat (f.num 11 (16 * i + 8) 8)))
/-- 0x0B: tolerance words and constants. -/
def ObjFile.checkTols (f : ObjFile) : Option Fail :=
  firstSome [firstFail 11 (f.idx 11) (f.tols.zipIdx.map (fun q =>
      (decide (q.1.1 < 8 ∧ q.1.2.toNat < 2 ^ 34) && f.num 11 (16 * q.2 + 1) 7 == 0 && (f.tols.take q.2).all (fun x => x.1 != q.1.1), 16 * q.2))),
    firstFail 11 (f.idx 3) [(f.size 3 == 64 * f.count 3, 0)]]
/-- Whether a string begins inside the string area and ends there. -/
def ObjFile.stringOk (f : ObjFile) (o : Nat) : Bool :=
  let a := f.num 9 8 8
  decide (a + o < f.size 9) && (List.range (f.size 9 - (a + o))).any (fun i => f.num 9 (a + o + i) 1 == 0)
/-- 0x0C: symbols, strings, lines, images, the Almanac's size; launch notes are not read (R149). -/
def ObjFile.checkSyms (f : ObjFile) : Option Fail :=
  firstSome [
    firstFail 12 (f.idx 9) ((decide (16 + 24 * f.symCount ≤ f.num 9 8 8 ∧ f.num 9 8 8 < f.size 9) && f.num 9 4 4 == 0 && f.num 9 (f.num 9 8 8) 1 == 0, 0)
      :: (List.range f.symCount).map (fun i =>
        let o := 16 + 24 * i
        let y := f.sym i
        (y.kind == 5 || (f.stringOk (f.num 9 o 4) && decide (y.kind ≤ 4) && decide (f.num 9 (o + 5) 1 ≤ 1) && f.num 9 (o + 7) 1 == 0
          && (if y.kind ≤ 1 then decide (y.sect < f.sects.length ∧ y.value ≤ ((f.sects[y.sect]?).getD ⟨none, 0, 0, 0⟩).size) else y.sect == 0xFF)), o))),
    firstFail 12 (f.idx 5) ((List.range (f.count 5)).map (fun i =>
      (f.stringOk (f.num 5 (32 * i) 4) && (f.num 5 (32 * i + 0x18) 4 == 0xFFFFFFFF || (f.num 5 (32 * i + 0x18) 4 % 64 == 0
        && decide (f.num 5 (32 * i + 0x18) 4 + f.num 5 (32 * i + 0x1C) 4 ≤ f.size 4))), 32 * i))),
    firstFail 12 (f.idx 6) ((List.range (f.count 6)).map (fun t => (f.stringOk (f.num 6 (64 * t + 0xC) 4), 64 * t))),
    firstFail 12 (f.idx 12) ((List.range (f.count 12)).map (fun i =>
      (decide (f.num 12 (16 * i) 1 < f.sects.length) && f.num 12 (16 * i + 1) 3 == 0
        && decide (f.num 12 (16 * i + 8) 8 < ((f.sects[f.num 12 (16 * i) 1]?).getD ⟨none, 0, 0, 0⟩).size), 16 * i))),
    firstFail 12 (f.idx 10) [(decide (f.size 10 ≤ 0x10000), 0)]]

/-! ## Admission (R150) -/

def ObjFile.taskRow (f : ObjFile) (t : Nat) : TaskRow :=
  let o := 64 * t
  let e := f.num 6 o 4
  { entryOff := e, link := (f.procs.findIdx? (fun p => p.1 == 0 && p.2.1 == e)).getD 0, pcnt := f.num 6 (o + 4) 2,
    flags := BitVec.ofNat 8 (f.num 6 (o + 6) 1), args := (List.range 4).map (fun k => wNat (f.num 6 (o + 0x10 + 8 * k) 8)),
    succs := f.listed t, bufix := (List.range 6).map (fun i => f.num 6 (o + 0x30 + i) 1) }
/-- The CALL sites: section, offset, and the link index of the procedure each names. -/
def ObjFile.callList (f : ObjFile) : List (Nat × Nat × Nat) :=
  [0, 1, 2].flatMap (fun k => (f.calls k).map (fun r => (k, r.off, (f.procs.findIdx? (fun p => p.1 == k && p.2.1 == (f.sym r.sym).value)).getD 0)))
/-- The object of a file whose checks pass. -/
def ObjFile.object (f0 : ObjFile) (objid tenant : Nat) : Obj :=
  let f := f0.relocs.foldl (fun f r => if r.kind = 1 then f else f.relocate r) f0
  { objid := objid, tenant := tenant, digest := Config.sha512 f0.b, flags := BitVec.ofNat 32 f.flags, spsize := f.spsize, text := f.words 0,
    stage := f.words 1, stageEntry := f.stageAt, coll := f.words 2, collEntry := f.collAt, handlerOff := f.handler,
    consts := (List.range (f.count 3)).map (fun i => BitVec.ofNat 512 (f.num 3 (64 * i) 64)), bufs := f.bufs,
    tasks := (List.range (f.count 6)).map f.taskRow, steps := f.steps.map Prod.snd, tols := f.tols, almanac := f.bytes 10 0 (f.size 10),
    procs := f.procs, calls := f.callList, versions := [], quarantined := false, unloading := false }
/-- 0x06 again: the registers that inserted checks and counters need (R341, R343). -/
def ObjFile.checkRegisters (f : ObjFile) : Option Fail := ((f.object 0 0).refusal).map (fun x => ⟨6, f.idx x.1, x.2⟩)
def ObjFile.check (f : ObjFile) : Option Fail :=
  firstSome [f.checkHeader, f.checkTable, f.checkDecode, f.checkForms, f.checkProcs, f.checkFlow, f.checkRegisters, f.checkBufs, f.checkTasks,
    f.checkRelocs, f.checkSteps, f.checkTols, f.checkSyms]
def State.admitFile (s : State) (tag : Nat) (f : ObjFile) : State :=
  { s with objects := s.objects ++ [f.object s.nextObj tag], nextObj := s.nextObj + 1 }
def doAdmit (x : CmdAdmit) (s : State) : Effect :=
  if !byTenant x.sid x.tag || !s.inState x.tag [.unlocked, .locked, .run] then (s, badState)
  else if !s.boot.ready.getLsbD 18 then (s, refused 0x30)
  else match (readFile x.bytes).check with
    | some e => (s, .done 6 (natBytes e.code 1 ++ natBytes e.sect 1 ++ zeros 6 ++ natBytes e.off 8))
    | none => ((s.admitFile x.tag (readFile x.bytes)).reconfigure x.tag, ok (natBytes s.nextObj 4))
def execAdmitObject (x : CmdAdmit) (s : State) : Out := hostCommand x.sid x.tag 1 (doAdmit x) s

end Sys2Proof.Machine
end

