-- ==== Sys2Proof/Machine/Launch.lean ====
section
/-!
DEFINITION. Launching a team (R36, R47, R143–R145, R338, R363, R381): the Almanac's checks (R410–R412), the launch's refusals, and the
team it makes.
-/
namespace Sys2Proof.Machine
open Sys2Proof

/-! ## The Almanac (R410–R412) -/

def almEntry (b : List Byte) (i : Nat) : AlmEntry :=
  let o := 64 + 16 * i
  ⟨byteNat b o, byteNat b (o + 1), byteNat b (o + 2), byteNat b (o + 3), byteNat b (o + 4), byteNat b (o + 5), byteNat b (o + 6)⟩
def almCount (b : List Byte) : Nat := bytesNat b 0x10 2
def almEntries (b : List Byte) : List AlmEntry := (List.range (almCount b)).map (almEntry b)
def AlmEntry.ok (e : AlmEntry) : Bool :=
  decide (e.cls ≤ 7 ∧ e.gran ≤ 4 ∧ e.tbkt ≤ 20 ∧ e.vq ≤ 63 ∧ e.amask ≤ 53 ∧ e.tsamp ≤ 16)
def AlmEntry.mask (e : AlmEntry) : Nat := if e.cmask = 0 then 0xFF else e.cmask
/-- ALMSTAT: 0, or the first failing check. -/
def almStat (b : List Byte) (tag num : Nat) (key : List Byte) : Nat :=
  let n := almCount b
  let es := almEntries b
  if b.length < 64 ∨ bytesNat b 0 4 ≠ 0x4E4D4C41 ∨ bytesNat b 4 2 ≠ 1 ∨ zeroRange b 0x12 46 = false ∨ bytesNat b 0xC 4 ≠ 196 + 16 * n
      ∨ b.length ≠ 196 + 16 * n ∨ (List.range n).any (fun i => !zeroRange b (64 + 16 * i + 7) 9) then 1
  else if bytesNat b 6 2 ≠ tag ∨ (bytesNat b 8 4 ≠ 0 ∧ bytesNat b 8 4 ≠ num) then 2
  else if 64 < n ∨ es.any (fun e => !e.ok)
      ∨ (es.zipIdx.any (fun q => (es.take q.2).any (fun e => e.cls == q.1.cls && e.mask &&& q.1.mask != 0))) then 3
  else if Config.verify key (b.take (64 + 16 * n)) ((b.drop (64 + 16 * n)).take 132) = false then 4
  else 0
/-- The Almanac of a launch: the command's own, be it empty, or the object's when the command gives none; none when neither has one. -/
def launchAlmanac (o : Obj) (x : CmdLaunch) : Option (List Byte) :=
  match x.almanac with
  | some b => some b
  | none => if o.almanac = [] then none else some o.almanac
/-- ALMSTAT of a launch; with no Almanac there is nothing to check. -/
def launchStat (o : Obj) (x : CmdLaunch) (num : Nat) (key : List Byte) : Nat :=
  match launchAlmanac o x with
  | none => 0
  | some b => almStat b x.tag num key

/-! ## The placement -/

def CmdLaunch.clusterList (x : Sys2Proof.CmdLaunch) : List Nat := (List.range 64).filter (fun c => x.clusters.getLsbD c)
def CmdLaunch.group (x : Sys2Proof.CmdLaunch) (c : Nat) : Nat := (x.groups.getD c 0).toNat
def CmdLaunch.modules (x : Sys2Proof.CmdLaunch) : List Nat := (List.range 64).filter (fun m => x.mods.getLsbD m)
def CmdLaunch.fabric (x : Sys2Proof.CmdLaunch) : Bool := x.flags.getLsbD 1
def CmdLaunch.protected (x : Sys2Proof.CmdLaunch) : Bool := x.flags.getLsbD 0
/-- The team's number: the one named, or the smallest free one (R410). -/
def State.teamNumber (s : State) (x : CmdLaunch) : Nat :=
  if x.teamno ≠ 0 then x.teamno else ((List.range (s.teams.length + 1)).map (· + 1)).find? (fun n => (s.findTeam n).isNone) |>.getD 0
def CmdLaunch.tiles (x : Sys2Proof.CmdLaunch) : List Nat :=
  (List.range 1024).filter (fun n => (CmdLaunch.clusterList x).contains (clusterOf n))

/-! ## Refusals (R338, R381, R434) -/

/-- 0x11: fields in range, flags that agree with the object's, an object that may be launched, a free number. -/
def State.launchFields (s : State) (o : Obj) (x : CmdLaunch) : Bool :=
  let cl := CmdLaunch.clusterList x
  !o.unloading && !o.quarantined && decide (x.flags.toNat < 4) && (CmdLaunch.protected x || !o.flags.getLsbD 0)
    && (!CmdLaunch.fabric x || o.flags.getLsbD 1) && (x.vigil == 0 || decide (16 ≤ x.vigil.toNat ∧ x.vigil.toNat ≤ 24))
    && x.nbuf == o.bufs.length && x.bindings.length == o.bufs.length && x.bindings.all (fun b => decide (b.1.toNat < 16))
    && cl != [] && x.groups.length == 64
    && (List.range 64).all (fun c => if cl.contains c then decide (CmdLaunch.group x c < 64) else CmdLaunch.group x c == 0)
    && decide (x.tcbx.toNat < 16 ∧ x.scrx.toNat < 16) && (x.trcx == 0xFF || decide (x.trcx.toNat < 16)) && x.tcboff.toNat % 64 == 0
    && (if CmdLaunch.fabric x then (CmdLaunch.modules x).contains s.modid.toNat else x.mods == 0)
    && (x.teamno == 0 || (s.findTeam x.teamno).isNone)
/-- 0x30: the dies of the placement, HBM, and the LPDDR tier when the launch names it. -/
def State.launchReady (s : State) (t : Tenant) (x : CmdLaunch) : Bool :=
  let tcb := (vget t.ext x.tcbx.toNat Extent.empty).base.toNat
  (CmdLaunch.clusterList x).all (fun c => s.boot.ready.getLsbD (13 + c / 16)) && s.addrReady x.savebase.toNat && s.addrReady tcb
    && (x.trcx == 0xFF || s.addrReady (vget t.ext x.trcx.toNat Extent.empty).base.toNat)
    && x.bindings.all (fun b => s.addrReady (vget t.ext b.1.toNat Extent.empty).base.toNat)
/-- Whether an extent covers a range with rights and belongs to the tenant. -/
def Extent.covers (e : Extent) (tag a n : Nat) (rights : BitVec 4) : Bool :=
  e.tag.toNat == tag && e.grants rights a && decide (a + n - 1 ≤ e.limit.toNat)
/-- R338, R144: a buffer lies in its extent with its rights; a scratch buffer is bound to the scratch extent and lies in it on every placed
tile. -/
def bufferBound (t : Tenant) (tiles : List Nat) (scrx : BitVec 8) (r : BufRow) (b : BitVec 8 × Word) : Bool :=
  let e := vget t.ext b.1.toNat Extent.empty
  let need : BitVec 4 := r.rights.setWidth 4
  if r.kind = 0 then b.1 == scrx && tiles.all (fun n => e.covers t.tag (scratchAddr n r.spoff) r.size need)
  else e.covers t.tag (e.base.toNat + b.2.toNat) r.size need
def tcbStart (t : Tenant) (x : CmdLaunch) : Nat := (vget t.ext x.tcbx.toNat Extent.empty).base.toNat + x.tcboff.toNat
/-- 0x15: the scratch extent, the bindings, the TCB area's and the save area's places. -/
def State.launchBound (s : State) (t : Tenant) (o : Obj) (x : CmdLaunch) : Bool :=
  let tiles := CmdLaunch.tiles x
  let tcb := vget t.ext x.tcbx.toNat Extent.empty
  tiles.all (fun n => (vget t.ext x.scrx.toNat Extent.empty).covers t.tag (scratchAddr n 0) (2 ^ 20) 3)
    && (o.bufs.zip x.bindings).all (fun q => bufferBound t tiles x.scrx q.1 q.2)
    && tcb.valid && tcb.tag.toNat == t.tag
    && (match s.region (tcbStart t x), s.region tcb.limit.toNat with | .hbm, .hbm => true | .lpddr, .lpddr => true | _, _ => false)
    && decide (x.savebase.toNat ≤ x.savelim.toNat)
    && (match s.region x.savebase.toNat, s.region x.savelim.toNat with | .hbm, .hbm => true | _, _ => false)
/-- Bytes of a save: the records and the team-level part at its fixed size. -/
def saveNeed (sp tiles : Nat) : Nat := tiles * recordStride sp + 64 + tiles * (4128 + 128 + 128) + 8
def tcbNeed (o : Obj) : Nat := 64 * o.tasks.length + 8 * (o.tasks.map (fun t => t.succs.length)).sum
/-- 0x13: the areas are long enough, the slots are free, the clusters take placements, the interfaces have a key slot. -/
def State.launchRoom (s : State) (t : Tenant) (o : Obj) (x : CmdLaunch) : Bool :=
  let cl := CmdLaunch.clusterList x
  decide (saveNeed o.spsize (CmdLaunch.tiles x).length ≤ x.savelim.toNat + 1 - x.savebase.toNat)
    && decide (tcbStart t x + tcbNeed o ≤ (vget t.ext x.tcbx.toNat Extent.empty).limit.toNat + 1)
    && cl.all (fun c => !(s.getCluster c).noPlace && (List.range 16).all (fun i => !x.share.getLsbD i || (vget (s.getCluster c).slots i none).isNone))
    && (!CmdLaunch.protected x || cl.all (fun c => decide ((s.teams.filter (fun u => u.isProtected && u.state != .ended && u.state != .failed
        && u.clusters.any (fun k => k.1 == c))).length < 16)))
/-- The bytes a protected team's extent occupies at a target of this module: twice its size (R361); none in a tile or on another module. -/
def State.sealedSpan (s : State) (e : Extent) : Option (Nat × Nat) :=
  let b := e.base.toNat
  if e.valid && (granuleOf s.modid b).isSome then some (b, 2 * (e.limit.toNat + 1 - b)) else none
/-- The tenant owns everything its extents occupy as sealed lines (R337, R361). -/
def State.sealedOwned (s : State) (t : Tenant) : Bool :=
  t.ext.toList.all (fun e => match s.sealedSpan e with
    | some p => s.extentOwned t.tag p.1 (p.1 + p.2 - 1)
    | none => true)
/-- The first reason to refuse a launch. -/
def State.launchRefusal (s : State) (t : Tenant) (o : Obj) (x : CmdLaunch) : Option Nat :=
  if !s.launchFields o x then some 0x11
  else if !s.launchReady t x then some 0x30
  else if !s.launchBound t o x then some 0x15
  else if !s.extentOwned t.tag x.savebase.toNat x.savelim.toNat || (CmdLaunch.protected x && !s.sealedOwned t) then some 0x12
  else if !s.launchRoom t o x then some 0x13
  else none

/-! ## The launch (R47, R144, R145) -/

/-- The buffers' binding (R363). -/
def launchBinding (x : CmdLaunch) : List Nat := x.bindings.map (fun b => b.1.toNat)
/-- The version of a binding: the current one, or a new one with every entry at its stub; none when the heap is full. -/
def State.launchVersion (s : State) (o : Obj) (x : CmdLaunch) : Option (State × Sealed) :=
  match o.versions.find? (fun v => v.binding == launchBinding x && !v.stale) with
  | some v => some (s, v)
  | none => (s.heapPlace (fixedSize o.procs.length)).map (fun b =>
      let v := o.freshVersion 0 b (launchBinding x) x.scrx.toNat x.tcbx.toNat
      ({ s.addVersion o v with free := s.free + 1 }, v))
/-- A reference: extent index and offset. -/
def makeRef (x off : Nat) : Nat := x * 2 ^ 60 + off % 2 ^ 46
/-- The TCB of task t, whose successor list starts after `before` entries of the lists (R41, R145). -/
def tcbCells (o : Obj) (x off base t : Nat) (r : TaskRow) (before : Nat) : List Host.Cell :=
  let a := base + 64 * t
  let n := o.tasks.length
  cellsOf a t 4 ++ cellsOf (a + 4) r.pcnt 2 ++ cellsOf (a + 6) r.flags.toNat 1 ++ cellsOf (a + 7) r.succs.length 1
    ++ cellsOf (a + 8) (makeRef x (off + 64 * n + 8 * before)) 8 ++ cellsOf (a + 0x10) 0xFFFF 8
    ++ ((List.range 4).flatMap (fun k => cellsOf (a + 0x18 + 8 * k) (r.args.getD k 0).toNat 8)) ++ cellsOf (a + 0x38) (t + 1) 8
    ++ (r.succs.mapIdx (fun k j => cellsOf (base + 64 * n + 8 * (before + k)) (makeRef x (off + 64 * j)) 8)).flatten
/-- The TCB area: every TCB, and the successor lists behind them. -/
def tcbArea (o : Obj) (x off base : Nat) : List Host.Cell :=
  (o.tasks.zipIdx.flatMap (fun q => tcbCells o x off base q.2 q.1 (((o.tasks.take q.2).map (fun t => t.succs.length)).sum)))
/-- A buffer as the team holds it, and the cells of its image when it lies outside the scratchpads. -/
def boundBuf (t : Tenant) (r : BufRow) (b : BitVec 8 × Word) : Bound :=
  ⟨r.kind == 0, if r.kind = 0 then r.spoff else (vget t.ext b.1.toNat Extent.empty).base.toNat + b.2.toNat, r.fmt, r.blog⟩
def imageCells (t : Tenant) (o : Obj) (x : CmdLaunch) : List Host.Cell :=
  (o.bufs.zip x.bindings).flatMap (fun q => if q.1.kind = 0 then [] else cellsAt (boundBuf t q.1 q.2).addr q.1.image)
/-- The key of a protected launch, derived from the tenant's session (R361); the count of free values makes it the launch's own. -/
def State.launchKey (s : State) (t : Tenant) (num : Nat) : List Byte :=
  Config.derive ((s.findSession t.tag).elim [] Session.key) (natBytes num 4 ++ natBytes s.free 8)
/-- The team of a launch. -/
def State.launchedTeam (s : State) (t : Tenant) (o : Obj) (x : CmdLaunch) (v : Sealed) (num : Nat) : Team :=
  let mods := CmdLaunch.modules x
  let alm := launchAlmanac o x
  let good := launchStat o x num t.key = 0
  { Team.empty with
    num := num
    tenant := t.tag
    objid := o.objid
    state := .launching
    isProtected := CmdLaunch.protected x
    key := if CmdLaunch.protected x then s.launchKey t num else []
    fabric := CmdLaunch.fabric x
    fidx := if CmdLaunch.fabric x then (mods.filter (fun m => decide (m < s.modid.toNat))).length else 0
    nmod := if CmdLaunch.fabric x then mods.length else 1
    mods := mods
    clusters := (CmdLaunch.clusterList x).map (fun c => (c, CmdLaunch.group x c))
    live := o.tasks.length
    tcbBase := tcbStart t x
    tcbx := x.tcbx.toNat
    scrx := x.scrx.toNat
    trcx := x.trcx.toNat
    saveBase := x.savebase.toNat
    saveLim := x.savelim.toNat
    share := x.share.toNat
    vigil := if x.vigil = 0 then 24 else x.vigil.toNat
    jobseed := x.jobseed
    spsize := o.spsize
    code := v
    stage := v.stage
    stageEntry := v.stageEntry
    coll := v.coll
    collEntry := v.collEntry
    hasColl := o.collEntry.isSome
    tasks := o.tasks
    bufs := (o.bufs.zip x.bindings).map (fun q => boundBuf t q.1 q.2)
    steps := o.steps
    ext := t.ext
    launchAt := s.gtime
    lastTime := s.gtime
    lastCycle := s.cycle
    entryPosted := true
    almanac := if good then alm.getD [] else []
    policy := if good then (alm.map almEntries).getD [] else []
    consts := o.consts
    images := (o.bufs.filter (fun r => r.kind == 0 && r.image != [])).map (fun r => (r.spoff, r.image))
    storeImage := (imageCells t o x).filter (fun c => (s.region c.1).isWeights)
    tols := o.tols }
/-- The slots of the share become the team's in every cluster of its placement. -/
def State.claimSlots (s : State) (t : Team) : State :=
  t.clusters.foldl (fun s c =>
    let k := s.getCluster c.1
    s.setCluster c.1 { k with slots := Vector.ofFn (fun i => if t.share.testBit i.val then some t.num else vget k.slots i.val none) }) s
/-- The granules of a protected team's extents hold sealed lines (R361). -/
def State.markProt (s : State) (t : Team) : State :=
  if t.isProtected then (t.ext.toList.filterMap s.sealedSpan).foldl (fun s p => s.markSealed t.tenant p.1 p.2) s else s
/-- The launch unit's writes and the team's record; the tenant is RUN. -/
def State.launch (s : State) (t : Tenant) (o : Obj) (x : CmdLaunch) (v : Sealed) (num : Nat) : State :=
  let tm := s.launchedTeam t o x v num
  let s1 := { s with teams := s.teams ++ [tm], free := s.free + 1 }
  let s2 := s1.teamPut tm (tcbArea o x.tcbx.toNat x.tcboff.toNat tm.tcbBase ++ (imageCells t o x).filter (fun c => !(s.region c.1).isWeights))
  ((s2.claimSlots tm).markProt tm).putTenant { t with state := .run }
def doLaunch (x : CmdLaunch) (s : State) : Effect :=
  if !byOperator x.sid || !s.inState x.tag [.locked, .run] then (s, badState)
  else match s.findTenant x.tag with
    | none => (s, badState)
    | some t =>
      if t.mig ≠ 0 then (s, badState)
      else match s.findObj x.tag x.objid with
        | none => (s, refused 0x11)
        | some o =>
          match s.launchRefusal t o x with
          | some r => (s, refused r)
          | none =>
            let s0 := s.sweepVersions
            match s0.launchVersion ((s0.findObj x.tag x.objid).getD o) x with
            | none => (s, refused 0x13)
            | some (s1, v) =>
              if !s1.sealsHold v then ({ s1 with boot := { s1.boot with sealFaults := s1.boot.sealFaults + 1 } }, refused 0x14)
              else
                let num := s.teamNumber x
                ((s1.launch t o x v num).reconfigure x.tag, ok (natBytes num 4 ++ natBytes (launchStat o x num t.key) 1))
def execLaunchTeam (x : CmdLaunch) (s : State) : Out := hostCommand x.sid x.tag 7 (doLaunch x) s

end Sys2Proof.Machine
end

