-- ==== Sys2Proof/Machine/Disclosure.lean ====
section
/-!
DEFINITION. What leaves the monitor blocks (R402–R416): the copies of the counters, the releases at bucket boundaries, READ_COUNTERS and
READ_FAULTS, exact to the tenant and filtered to the operator.
-/
namespace Sys2Proof.Machine
open Sys2Proof

/-! ## COUNTER_COPY (R404) -/

/-- A tile's totals go into the trust tile's store. -/
def Tile.copied (k : Tile) (now : Nat) : Tile := { k with ctrCopy := k.ctr, copyTime := now }
/-- COUNTER_COPY: once every 1 µs of GTIME for each monitor block. -/
def execCounterCopy (x : EvTile) (s : State) : Out :=
  let k := s.getTile x.lcid
  if k.team ≠ 0 ∧ k.copyTime / 1000 < s.gtime / 1000 then .next (s.setTile x.lcid (k.copied s.gtime)) else .next s

/-! ## COUNTER_RELEASE (R406–R409, R416) -/

/-- The store of a team: its tiles with their copies and their times, and what is kept of tiles it no longer holds (R404). -/
def State.store (s : State) (t : Team) : List (Nat × Vector Word 64 × Nat) :=
  if t.snaps ≠ [] then t.snaps.map (fun x => (x.lcid, x.tile.ctrCopy, x.tile.copyTime))
  else (t.tiles.filter (fun n => (s.getTile n).team == t.num)).map (fun n => (n, (s.getTile n).ctrCopy, (s.getTile n).copyTime)) ++ t.kept
/-- A sum rounded down to a multiple of 2^k, at most 2^64 − 1. -/
def quantise (k x : Nat) : Nat := min x (2 ^ 64 - 1) / 2 ^ k * 2 ^ k
/-- The values of a counter at a granularity, with their locations (R406, R409): sums first, the quantum second. -/
def releaseVals (l : List (Nat × Vector Word 64 × Nat)) (clusters : List Nat) (gran vq n : Nat) : List (Nat × Nat) :=
  let v (p : Nat × Vector Word 64 × Nat) : Nat := (vget p.2.1 n 0).toNat
  match gran with
  | 1 => [(0xFFFF, if l.any (fun p => v p != 0) then 1 else 0)]
  | 2 => [(0xFFFF, quantise vq (l.map v).sum)]
  | 3 => clusters.map (fun c => (c, quantise vq ((l.filter (fun p => clusterOf p.1 == c)).map v).sum))
  | 4 => l.map (fun p => (p.1, quantise vq (v p)))
  | _ => []
/-- Whether the team has ended: one last release is due. -/
def Team.over (t : Team) : Bool := t.state == .ended || t.state == .failed
/-- The time at which a team ENDED or FAILED: its last retirement, the last fatal report or its stop. -/
def Team.overAt (t : Team) : Nat := ((t.faults.filter FaultRec.fatal).map FaultRec.time).foldl max (max t.lastTime t.stopTime)
/-- A reset of the team's tenant is under way, and its T falls before `b`: nothing more is released (R416). -/
def State.resetBefore (s : State) (tag b : Nat) : Bool :=
  s.host.waiting.any (fun w => w.tag == tag && (match w.what with | .reset a => decide (a < b) | _ => false))
/-- The release of a counter whose bucket has ended since its last release, or since the launch. It holds the values at the bucket's end:
none of the store's copies may be later. -/
def State.releaseCounter (s : State) (t : Team) (n : Nat) : Team :=
  match t.entryFor n with
  | none => t
  | some e =>
    let b := s.gtime / e.bucket * e.bucket
    let last := match t.released.find? (fun r => r.ctr == n) with | some r => r.time | none => t.launchAt
    if e.gran = 0 ∨ b ≤ last ∨ t.relDone.contains n ∨ s.resetBefore t.tenant b ∨ (s.store t).any (fun p => decide (b < p.2.2)) then t
    else
      let r : Release := ⟨n, e.gran, b, releaseVals (s.store t) (t.clusters.map Prod.fst) e.gran e.vq n⟩
      { t with released := t.released.filter (fun q => q.ctr != n) ++ [r]
               relDone := if t.over ∧ t.overAt ≤ b then t.relDone ++ [n] else t.relDone }
/-- The irreducible view (R413): module power in W and the highest cluster temperature once every 1 ms, each tenant's energy in whole
joules once every 2^20 µs. -/
def State.releaseView (s : State) : State :=
  let due (at_ n : Nat) : Bool := decide (at_ / n < s.gtime / n)
  let period : Nat := 2 ^ 20 * 1000
  let energy (y : Tenant) : Nat := (y.energy + ((s.teamsOf y.tag).map s.teamEnergy).sum) / 1000000
  { s with
    boot :=
      let b := if due s.boot.energyAt period then { s.boot with energyAt := s.gtime } else s.boot
      if due s.boot.shownAt 1000000 then { b with shownPower := s.boot.modulePower / 1000, shownTemp := s.boot.maxTemp, shownAt := s.gtime } else b
    tenants := if due s.boot.energyAt period then s.tenants.map (fun y => { y with shownEnergy := energy y }) else s.tenants }
/-- COUNTER_RELEASE: one step releases every counter of the team whose bucket has ended; nothing from a migration's send to the
confirmation. What is due of the irreducible view comes with it. -/
def execCounterRelease (x : EvTeam) (s : State) : Out :=
  let s1 := s.releaseView
  match s1.findTeam x.team with
  | some t =>
    if s1.tenants.any (fun y => y.tag == t.tenant && y.mig != 0) then .next s1
    else .next (s1.putTeam ((List.range 64).foldl (fun u n => s1.releaseCounter u n) t))
  | none => .next s1

/-! ## READ_COUNTERS (R405, R409) -/

/-- A value's 24 B entry. -/
def valueEntry (ctr gran loc time v : Nat) : List Byte :=
  natBytes ctr 1 ++ natBytes gran 1 ++ natBytes loc 2 ++ zeros 4 ++ natBytes time 8 ++ natBytes v 8
/-- The counters a class mask names. -/
def maskNames (mask n : Nat) : Bool := mask == 0 || mask.testBit (n / 8)
def Team.operatorValues (t : Team) (mask : Nat) : List Byte :=
  (t.released.filter (fun r => maskNames mask r.ctr)).flatMap (fun r => r.vals.flatMap (fun p => valueEntry r.ctr r.gran p.1 r.time p.2))
def State.tenantValues (s : State) (t : Team) (mask : Nat) : List Byte :=
  (s.store t).flatMap (fun p => ((List.range 64).filter (maskNames mask)).flatMap (fun n =>
    valueEntry n 4 p.1 p.2.2 (vget p.2.1 n 0).toNat))
/-- A command on a team, by the operator or by the tenant; a number that is no team of the tag is refused. -/
def onTeam (sid tag team : Nat) (s : State) (op ten : Team → Effect) : Effect :=
  if !(byOperator sid || byTenant sid tag) || !s.inState tag anyState then (s, badState)
  else match s.findTeam team with
    | none => (s, refused 0x11)
    | some t => if t.tenant ≠ tag then (s, refused 0x11) else if byOperator sid then op t else ten t
def doReadCounters (x : CmdRead) (s : State) : Effect :=
  onTeam x.sid x.tag x.team s (fun t => s.writeResult x.sid x.raddr x.rlen (t.operatorValues x.mask.toNat))
    (fun t => s.writeResult x.sid x.raddr x.rlen (s.tenantValues t x.mask.toNat))
def execReadCounters (x : CmdRead) (s : State) : Out := hostCommand x.sid x.tag 11 (doReadCounters x) s

/-! ## READ_FAULTS (R389, R414) -/

/-- A record as the trust tile keeps it. -/
def recordBytes (fw fa time lcid flags team : Nat) : List Byte :=
  natBytes fw 8 ++ natBytes fa 8 ++ natBytes time 8 ++ natBytes lcid 2 ++ natBytes flags 1 ++ zeros 1 ++ natBytes team 4
def FaultRec.bytes (r : FaultRec) : List Byte :=
  recordBytes r.faultw.toNat r.faulta.toNat r.time r.lcid (bit r.fatal + 2 * bit r.handled) r.team
/-- The address field of a detail word, first bit and width (R169, R241, R263, R322, R388): a width of 0 is none. -/
def addrField (r : FaultRec) : Nat × Nat :=
  let code : BitVec 8 := BitVec.ofNat 8 (r.faultw.toNat / 2 ^ 56)
  let src := fld r.faultw.toNat 53 2
  if src = 3 ∧ (code = codeIllegal ∨ code = codeEngext) then (if r.faulta.getLsbD 59 then (0, 53) else (0, 46))
  else if r.eng then (if code = codeEngext then (0, 46) else (0, 48))
  else if code = codeExtent then (0, 41)
  else if code = codeAnchor then (0, 53)
  else if code = codeMemerr then (0, 53)
  else if code = codeSavefail then (0, 53)
  else if code = codeFenced ∧ src = 3 then (0, 0)
  else if code = codeAlign ∨ code = codeBadaddr ∨ code = codeBackstop ∨ code = codeCodegone ∨ code = codePeerlost
      ∨ code = codeFenced ∨ code = codeWsbusy then (0, 64)
  else (0, 0)
/-- A detail word for the operator: the address field only at G1, every field above, with the address masked. -/
def shownDetail (r : FaultRec) (gran m : Nat) : Nat :=
  let f := addrField r
  let a := fld r.faulta.toNat f.1 f.2
  let masked := a / 2 ^ m * 2 ^ m
  if gran = 0 then 0 else if gran = 1 then masked * 2 ^ f.1 else r.faulta.toNat - a * 2 ^ f.1 + masked * 2 ^ f.1
/-- The class C5 entry of a team: granularity, address mask and bucket in ns; 1 024 µs where none covers the class. -/
def Team.faultPolicy (t : Team) : Nat × Nat × Nat :=
  match t.policy.find? (fun e => e.cls == 5) with
  | some e => (e.gran, e.amask, e.bucket)
  | none => (0, 0, 1024000)
/-- A record as the operator reads it, from its first release boundary on. -/
def FaultRec.shown (r : FaultRec) (p : Nat × Nat × Nat) (now : Nat) : Option (List Byte) :=
  let (g, m, b) := p
  let at_ := (r.time + b - 1) / b * b
  if now < at_ ∨ (g = 0 ∧ r.fatal = false) then none
  else
    let code := r.faultw.toNat / 2 ^ 56 * 2 ^ 56
    let mid := if g = 0 then 0 else fld r.faultw.toNat 53 3 * 2 ^ 53
    let pc := if g = 4 then r.faultw.toNat % 2 ^ 53 else 0
    let lcid := if g = 4 then r.lcid else if g = 3 ∧ r.lcid < 1024 then 0x8000 + clusterOf r.lcid else 0xFFFF
    some (recordBytes (code + mid + pc) (shownDetail r g m) (r.time / b * b) lcid (bit r.fatal) r.team)
def doReadFaults (x : CmdRead) (s : State) : Effect :=
  onTeam x.sid x.tag x.team s
    (fun t => s.writeResult x.sid x.raddr x.rlen ((t.faults.filterMap (fun r => r.shown t.faultPolicy s.gtime)).flatten))
    (fun t => s.writeResult x.sid x.raddr x.rlen (t.faults.flatMap FaultRec.bytes))
def execReadFaults (x : CmdRead) (s : State) : Out := hostCommand x.sid x.tag 12 (doReadFaults x) s

end Sys2Proof.Machine
end

