-- ==== Sys2Proof/Machine/Migrate.lean ====
section
/-!
DEFINITION. Live migration of a tenant (R383, R385, R386): the signed items, the two blobs, the state they carry and the ten commands.
The state's serialisation is the module's own (log entry 27).
-/
namespace Sys2Proof.Machine
open Sys2Proof

/-! ## The state that travels (R385) -/

/-- The tenant's extents with the bytes of those on its own module, its objects, its teams with their save areas by team number, and
what a confirmation names: the source module, the offer's nonce and the digest of the wrapped blob. -/
structure TenantImage where
  source : Nat
  nonce : List Byte
  digest : List Byte
  ext : Vector Extent 16
  bytes : List (Nat × List Byte)
  objects : List Obj
  teams : List Team
  saves : List (Nat × List Byte)
  deriving DecidableEq, Repr

end Sys2Proof.Machine
namespace Sys2Proof

/-- The module's own serialisation of a tenant's state (R383), and what reading it back gives. -/
opaque Config.packTenant : Machine.TenantImage → List Byte
opaque Config.unpackTenant : List Byte → Option Machine.TenantImage

end Sys2Proof
namespace Sys2Proof.Machine
open Sys2Proof

/-- Whether an extent's bytes lie on this module outside the tiles. -/
def State.localExtent (s : State) (e : Extent) : Bool := e.valid && (granuleOf s.modid e.base.toNat).isSome
/-- The bytes an extent occupies, sealed lines as they are. -/
def State.extentImage (s : State) (e : Extent) : List Byte := memBytes s.mem e.base.toNat (s.heldLength e)
def State.imageOf (s : State) (t : Tenant) (nonce digest : List Byte) : TenantImage where
  source := s.modid.toNat
  nonce := nonce
  digest := digest
  ext := t.ext
  bytes := ((List.range 16).filter (fun i => s.localExtent (vget t.ext i Extent.empty))).map (fun i =>
    (i, s.extentImage (vget t.ext i Extent.empty)))
  objects := s.objects.filter (fun o => o.tenant == t.tag)
  teams := s.teamsOf t.tag
  saves := (s.teamsOf t.tag).map (fun u => (u.num, memBytes s.mem u.saveBase (u.saveLim - u.saveBase + 1)))

/-! ## Signed items (R383) -/

/-- Bytes 0x000–0x0EF of an item. -/
def itemBody (kind tag signer other : Nat) (nonce key digest : List Byte) : List Byte :=
  natBytes kind 1 ++ zeros 1 ++ natBytes tag 2 ++ natBytes signer 1 ++ natBytes other 1 ++ zeros 2 ++ fixed 32 nonce ++ fixed 133 key
    ++ zeros 3 ++ fixed 64 digest
/-- An item with its signature and the signer's chain. -/
def signedItem (body : List Byte) : List Byte :=
  body ++ fixed 132 (Config.sign body) ++ natBytes Config.certChain.length 4 ++ Config.certChain
/-- `n` bytes at an offset. -/
def part (l : List Byte) (o n : Nat) : List Byte := (l.drop o).take n
/-- An item that another module signed: its chain verifies to the root, and its signature by the key of that chain. -/
def itemVerifies (l : List Byte) : Bool :=
  match Config.chainKey (part l 0x178 (bytesNat l 0x174 4)) with
  | some k => Config.verify k (part l 0 0xF0) (part l 0xF0 132)
  | none => false
/-- Whether an item has a kind and a tag and is meant for this module. -/
def State.itemFor (s : State) (l : List Byte) (kind tag : Nat) : Bool :=
  itemVerifies l && byteNat l 0 == kind && bytesNat l 2 2 == tag && byteNat l 5 == (if kind = 1 then 0xFF else s.modid.toNat)
/-- Whether it belongs to a migration with a signer, a nonce and the digest of the wrapped blob. -/
def itemMatches (l : List Byte) (signer : Nat) (nonce digest : List Byte) : Bool :=
  byteNat l 4 == signer && part l 8 32 == nonce && part l 0xB0 64 == fixed 64 digest
/-- An acceptance, receipt or confirmation of this module. -/
def State.itemOf (s : State) (kind tag other : Nat) (nonce digest : List Byte) : List Byte :=
  signedItem (itemBody kind tag s.modid.toNat other nonce [] digest)

/-! ## The blobs (R383) -/

/-- Bytes 0x00–0xBF of a blob; the tag's place is zero where the bytes are additional data. -/
def blobHead (kind tag source len : Nat) (iv gcm key : List Byte) : List Byte :=
  natBytes kind 1 ++ zeros 1 ++ natBytes tag 2 ++ natBytes source 1 ++ zeros 3 ++ natBytes len 8 ++ fixed 12 iv ++ zeros 4 ++ fixed 16 gcm
    ++ fixed 133 key ++ zeros 11
def makeBlob (kind tag source : Nat) (iv pub secret plain : List Byte) : List Byte :=
  let n := plain.length
  let c := Config.aeadSeal secret iv (blobHead kind tag source n iv [] pub) plain
  blobHead kind tag source n iv (c.drop n) pub ++ c.take n
/-- A blob's plaintext under a key; none when its tag does not verify. -/
def openBlob (l secret : List Byte) : Option (List Byte) :=
  let n := bytesNat l 8 8
  Config.aeadOpen secret (part l 0x10 12) (part l 0 0x20 ++ zeros 16 ++ part l 0x30 0x90) (part l 0xC0 n ++ part l 0x20 16)
def wrapKey (eph pub nonce : List Byte) : List Byte := Config.derive (Config.sharedSecret eph pub) nonce
def Session.escrowKey (x : Session) : List Byte :=
  Config.derive x.key (asciiBytes ['T', 'T', '3', ' ', 'e', 's', 'c', 'r', 'o', 'w'])

/-! ## The commands -/

/-- A command that returns an item in its result buffer: nothing changes when the buffer will not take it. -/
def State.withItem (s : State) (sid : Nat) (raddr rlen : Word) (item : List Byte) (f : State → State) : Effect :=
  match s.writeResult sid raddr rlen item with
  | (s1, .done 0 r) => (f s1, .done 0 r)
  | e => e
/-- The tenant a migration command of its own session names. -/
def onTenant (sid tag : Nat) (s : State) (f : Tenant → Effect) : Effect :=
  if !byTenant sid tag then (s, badState)
  else match s.findTenant tag with
    | some t => f t
    | none => (s, badState)

/-- MIGRATE_IN.offer: a fresh nonce and a fresh ephemeral key. -/
def doOffer (x : CmdMigrate) (s : State) : Effect :=
  onTenant x.sid x.tag s fun t =>
    if t.mig ≠ 0 then (s, badState)
    else
      let nonce := fixed 32 (Config.random s.free 0)
      let eph := Config.random s.free 1
      s.withItem x.sid x.raddr x.rlen (signedItem (itemBody 1 x.tag s.modid.toNat 0xFF nonce (Config.publicKey eph) []))
        (fun s1 => { s1.putTenant { t with offer := nonce, eph := eph } with free := s1.free + 1 })
def execMigrateInOffer (x : CmdMigrate) (s : State) : Out := hostCommand x.sid x.tag 0x11 (doOffer x) s

/-- MIGRATE_OUT.send: the teams stop, and both blobs go out. -/
def State.sendBlobs (s : State) (t : Tenant) (x : CmdMigrate) (secret : List Byte) : Effect :=
  let nonce := part x.item 8 32
  let eph := Config.random s.free 0
  let s1 := { s.haltTeams .halt (s.teamsOf t.tag) with free := s.free + 1 }
  let plain (d : List Byte) := Config.packTenant (s1.imageOf t nonce d)
  let wrapped := makeBlob 5 t.tag s.modid.toNat (Config.random s.free 1) (Config.publicKey eph) (wrapKey eph (part x.item 0x28 133) nonce) (plain [])
  let digest := Config.sha512 wrapped
  let escrow := makeBlob 6 t.tag s.modid.toNat (Config.random s.free 2) [] secret (plain digest)
  match s1.writeResult x.sid x.raddr x.rlen wrapped with
  | (s2, .done 0 r) => match s2.writeResult x.sid x.eaddr x.elen escrow with
    | (s3, .done 0 _) => (s3.putTenant { t with mig := 1, blob := digest, offer := nonce, other := byteNat x.item 4 }, ok r)
    | e => (s, e.2)
  | e => (s, e.2)
def doSend (x : CmdMigrate) (s : State) : Effect :=
  onTenant x.sid x.tag s fun t =>
    if !s.inState x.tag [.locked, .run] || t.mig != 0 then (s, badState)
    else if !s.itemFor x.item 1 x.tag then (s, refused 0x14)
    else match s.findSession x.sid with
      | some y => s.sendBlobs t x (Session.escrowKey y)
      | none => (s, badState)
def execMigrateOutSend (x : CmdMigrate) (s : State) : Out :=
  if s.tenantStoppable x.tag then hostCommand x.sid x.tag 0x10 (doSend x) s else .next s

/-! ### What the destination must have room for -/

/-- Every extent whose bytes travel has its counterpart here: the tenant's own extent of that index and size (log entry 27). -/
def State.imageFits (s : State) (t : Tenant) (g : TenantImage) : Bool :=
  g.bytes.all (fun p =>
      let e := vget t.ext p.1 Extent.empty
      let n := e.limit.toNat - e.base.toNat + 1
      s.localExtent e && (p.2.length == n || p.2.length == 2 * n))
    && g.teams.all (fun u => s.extentOwned t.tag (s.modid.toNat * 2 ^ 46 + u.saveBase % 2 ^ 46) (s.modid.toNat * 2 ^ 46 + u.saveLim % 2 ^ 46))
/-- Its team and object numbers are free here. -/
def State.numbersFree (s : State) (t : Tenant) (g : TenantImage) : Bool :=
  g.teams.all (fun u => s.teams.all (fun v => v.num != u.num || v.tenant == t.tag))
    && g.objects.all (fun o => s.objects.all (fun q => q.objid != o.objid || q.tenant == t.tag))

/-! ### The end of an import (R385 step 5) -/

/-- Where the extents' bytes moved, as a compaction's moves (R359). -/
def TenantImage.moves (g : TenantImage) (t : Tenant) : List (Nat × Nat × Nat) :=
  g.bytes.map (fun p =>
    let e := vget g.ext p.1 Extent.empty
    (e.base.toNat, e.limit.toNat, (vget t.ext p.1 Extent.empty).base.toNat))
/-- A team as it arrives: HALTED with its save, its code not in this module's heap, without slots. -/
def State.arrivedTeam (s : State) (t : Tenant) (g : TenantImage) (u : Team) : Team :=
  let v := u.relocated (g.moves t)
  let here (a : Nat) : Nat := s.modid.toNat * 2 ^ 46 + a % 2 ^ 46
  { v with
    ext := t.ext
    share := 0
    byStop := false
    placed := false
    saveBase := here u.saveBase
    saveLim := here u.saveLim
    code := u.code.gone
    state := if u.state = .ended ∨ u.state = .failed then u.state else .halted }
/-- The cells of the extents and of the save areas. -/
def State.arrivedCells (s : State) (t : Tenant) (g : TenantImage) : List Host.Cell :=
  g.bytes.flatMap (fun p => cellsAt (vget t.ext p.1 Extent.empty).base.toNat p.2)
    ++ g.teams.flatMap (fun u => match g.saves.find? (fun p => p.1 == u.num) with
      | some p => cellsAt (s.modid.toNat * 2 ^ 46 + u.saveBase % 2 ^ 46) p.2
      | none => [])
/-- The state comes to life: the tenant is LOCKED with MIG 0 and no journal entry. -/
def State.completeImport (s : State) (t : Tenant) (g : TenantImage) : State :=
  let s1 := s.unlockTenant t
  let s2 := { s1 with
    mem := memPut s1.mem (s.arrivedCells t g)
    objects := s1.objects.filter (fun (o : Obj) => o.tenant != t.tag) ++ g.objects.map (fun (o : Obj) => { o with tenant := t.tag, versions := [] })
    teams := s1.teams ++ g.teams.map (s.arrivedTeam t g) }.closeJournal t.tag
  let y := { t with state := .locked, mig := 0, cfgGen := 1, blob := [], offer := [], eph := [], other := 0 }
  let s3 := (g.teams.map (s.arrivedTeam t g)).foldl State.markProt s2
  s3.putTenant { y with tcfg := s3.tcfgOf y }
/-- A journalled import that a confirmation ends. -/
def State.endImport (s : State) (t : Tenant) (x : CmdMigrate) (g : TenantImage) (source : Nat) (nonce digest : List Byte) : Effect :=
  s.withItem x.sid x.raddr x.rlen (s.itemOf 4 t.tag source nonce digest) (fun s1 => s1.completeImport t g)

/-- MIGRATE_IN.import: the state and the acceptance enter the journal, while its region holds them; what the tag still runs here stops,
since a tenant whose MIG is not 0 runs no team (R386). -/
def State.importBlob (s : State) (t : Tenant) (x : CmdMigrate) (plain : List Byte) (g : TenantImage) : Effect :=
  let digest := Config.sha512 x.item
  let source := byteNat x.item 4
  let item := s.itemOf 2 t.tag source t.offer digest
  let l := s.journal ++ [⟨t.tag, source, t.offer, digest, plain, item⟩]
  if !s.imageFits t g then (s, refused 0x12)
  else if !s.numbersFree t g ∨ 2 ^ 30 < (Config.journalBytes l).length then (s, refused 0x13)
  else s.withItem x.sid x.raddr x.rlen item (fun s1 =>
    ((s1.putTenant { t with mig := 2, blob := digest, other := source }).keepJournal l).haltTeams .halt (s.teamsOf t.tag))
def doImport (x : CmdMigrate) (s : State) : Effect :=
  onTenant x.sid x.tag s fun t =>
    if t.mig ≠ 0 ∨ t.offer = [] then (s, badState)
    else if byteNat x.item 0 ≠ 5 ∨ bytesNat x.item 2 2 ≠ x.tag then (s, refused 0x11)
    else match openBlob x.item (wrapKey t.eph (part x.item 0x30 133) t.offer) with
      | none => (s, refused 0x14)
      | some plain => match Config.unpackTenant plain with
        | none => (s, refused 0x14)
        | some g => s.importBlob t x plain g
def execMigrateInImport (x : CmdMigrate) (s : State) : Out :=
  if s.tenantStoppable x.tag then hostCommand x.sid x.tag 0x11 (doImport x) s else .next s

/-- An answer that is its session's last. -/
def Reply.final : Reply → Reply
  | .done 0 r => .last 0 r
  | e => e
/-- MIGRATE_OUT.commit: the tenant is released as a reset releases it, its session's keys among what is erased, and MIG reads 3. -/
def doCommit (x : CmdMigrate) (s : State) : Effect :=
  onTenant x.sid x.tag s fun t =>
    if t.mig ≠ 1 || !s.inState x.tag [.locked, .run] then (s, badState)
    else if !s.itemFor x.item 2 x.tag || !itemMatches x.item t.other t.offer t.blob then (s, refused 0x14)
    else
      let e := s.withItem x.sid x.raddr x.rlen (s.itemOf 3 x.tag t.other t.offer t.blob) (fun s1 => s1.resetTenant t 3)
      (e.1, e.2.final)
def execMigrateOutCommit (x : CmdMigrate) (s : State) : Out :=
  if s.tenantStoppable x.tag then hostCommand x.sid x.tag 0x10 (doCommit x) s else .next s

/-- The journal entry of a tag with the state it holds. -/
def State.journalled (s : State) (tag : Nat) : Option (Journal × TenantImage) :=
  match s.journal.find? (fun j => j.tag == tag) with
  | some j => (Config.unpackTenant j.state).map (fun g => (j, g))
  | none => none
/-- MIGRATE_IN.confirm. -/
def doConfirm (x : CmdMigrate) (s : State) : Effect :=
  onTenant x.sid x.tag s fun t =>
    if t.mig ≠ 2 then (s, badState)
    else match s.journalled x.tag with
      | none => (s, badState)
      | some (j, g) =>
        if !s.itemFor x.item 3 x.tag || !itemMatches x.item j.source j.nonce j.blob then (s, refused 0x14)
        else s.endImport t x g j.source j.nonce j.blob
def execMigrateInConfirm (x : CmdMigrate) (s : State) : Out :=
  if s.tenantStoppable x.tag then hostCommand x.sid x.tag 0x11 (doConfirm x) s else .next s

/-- MIGRATE_OUT.close: the source's record of the migration is erased. A tenant that came to life from its escrow blob may do so on any
module, whose confirmation counts. -/
def doClose (x : CmdMigrate) (s : State) : Effect :=
  onTenant x.sid x.tag s fun t =>
    if t.mig ≠ 3 || !s.inState x.tag [.unlocked, .locked, .run] then (s, badState)
    else if !s.itemFor x.item 4 x.tag || !itemMatches x.item (byteNat x.item 4) t.offer t.blob then (s, refused 0x14)
    else (s.putTenant { t with mig := 0, blob := [], offer := [], eph := [], other := 0 }, ok [])
def execMigrateOutClose (x : CmdMigrate) (s : State) : Out := hostCommand x.sid x.tag 0x10 (doClose x) s

/-- The teams that the send stopped return to WAITING. -/
def State.rejoin (s : State) (tag : Nat) : State :=
  { s with teams := s.teams.map (fun t => if t.tenant = tag ∧ t.state = .halted ∧ t.byStop = false then { t with state := .waiting } else t) }
/-- MIGRATE_OUT.abort. -/
def doAbortOut (x : CmdMigrate) (s : State) : Effect :=
  onTenant x.sid x.tag s fun t =>
    if t.mig ≠ 1 || !s.inState x.tag [.locked, .run] then (s, badState)
    else ((s.putTenant { t with mig := 0, blob := [], offer := [], other := 0 }).rejoin x.tag, ok [])
def execMigrateOutAbort (x : CmdMigrate) (s : State) : Out := hostCommand x.sid x.tag 0x10 (doAbortOut x) s

/-- MIGRATE_IN.abort: the journal entry and the offer are discarded. -/
def doAbortIn (x : CmdMigrate) (s : State) : Effect :=
  onTenant x.sid x.tag s fun t =>
    if t.mig = 1 ∨ t.mig = 3 then (s, badState)
    else ((s.putTenant { t with mig := 0, blob := [], offer := [], eph := [], other := 0 }).closeJournal x.tag, ok [])
def execMigrateInAbort (x : CmdMigrate) (s : State) : Out := hostCommand x.sid x.tag 0x11 (doAbortIn x) s

/-- MIGRATE_IN.resume: from the journal, as confirm does. -/
def doResumeIn (x : CmdMigrate) (s : State) : Effect :=
  onTenant x.sid x.tag s fun t =>
    if t.mig ≠ 2 then (s, badState)
    else match s.journalled x.tag with
      | some (j, g) => s.endImport t x g j.source j.nonce j.blob
      | none => (s, badState)
def execMigrateInResume (x : CmdMigrate) (s : State) : Out :=
  if s.tenantStoppable x.tag then hostCommand x.sid x.tag 0x11 (doResumeIn x) s else .next s

/-- MIGRATE_IN.escrow: the escrow blob under a key of the tenant's session; it ends as confirm does. -/
def doEscrow (x : CmdMigrate) (s : State) : Effect :=
  onTenant x.sid x.tag s fun t =>
    if t.mig = 1 ∨ t.mig = 2 then (s, badState)
    else if byteNat x.item 0 ≠ 6 ∨ bytesNat x.item 2 2 ≠ x.tag then (s, refused 0x11)
    else match (s.findSession x.sid).bind (fun y => openBlob x.item (Session.escrowKey y)) with
      | none => (s, refused 0x14)
      | some plain => match Config.unpackTenant plain with
        | none => (s, refused 0x14)
        | some g =>
          if !s.imageFits t g then (s, refused 0x12)
          else if !s.numbersFree t g then (s, refused 0x13)
          else s.endImport t x g g.source g.nonce g.digest
def execMigrateInEscrow (x : CmdMigrate) (s : State) : Out :=
  if s.tenantStoppable x.tag then hostCommand x.sid x.tag 0x11 (doEscrow x) s else .next s

end Sys2Proof.Machine
end

