-- ==== Sys2Proof/Machine/Fabric.lean ====
section
/-!
DEFINITION. The optical fabric (R419–R432): reconfiguration with its dark interval, the lanes and handshakes, arriving flits, returned
allowances and the time bases.
-/
namespace Sys2Proof.Machine
open Sys2Proof

/-! ## FABRIC_CONFIG (R426, R427) -/

/-- The port map a command sets up: its own, or the present one under FLAGS[0]. -/
def State.newMap (s : State) (x : CmdFabric) : Vector (BitVec 32) 16 :=
  if x.flags.getLsbD 0 then s.fabric.portmap else Vector.ofFn (fun i => x.portmap.getD i.val 0)
def peerEntry (l : List (BitVec 16)) (i : Nat) : BitVec 16 := l.getD i 0
def entryValid (e : BitVec 16) : Bool := e.getLsbD 15
def entryPort (e : BitVec 16) : Nat := e.toNat / 256 % 16
/-- A table error: a pair in two ports, a valid entry that names an empty port or the module itself, a reserved bit. -/
def State.tableError (s : State) (x : CmdFabric) : Bool :=
  let m := s.newMap x
  decide (2 ≤ x.flags.toNat)
    || (List.range 32).any (fun f => decide (1 < (m.toList.filter (fun p => p.getLsbD f)).length))
    || (List.range 64).any (fun i =>
      let e := peerEntry x.peers i
      e.toNat % 256 != 0 || e.toNat / 2 ^ 12 % 8 != 0
        || (entryValid e && (vget m (entryPort e) 0 == 0 || i == s.modid.toNat)))
/-- A fabric team at work has members on a module that the new table makes invalid. -/
def State.cutsTeam (s : State) (x : CmdFabric) : Bool :=
  s.teams.any (fun t => t.fabric && (t.state == .running || t.state == .waiting)
    && t.mods.any (fun i => i != s.modid.toNat && !entryValid (peerEntry x.peers i)))

/-! ### Ports and lanes -/

/-- Every lane, by fibre pair and number. -/
def fibreLanes : List (Nat × Nat) := (List.range 32).flatMap (fun f => (List.range 8).map (fun l => (f, l)))
/-- The lanes of a port that are up. -/
def lanesUp (m : Vector (BitVec 32) 16) (down : List (Nat × Nat)) (p : Nat) : Bool :=
  (List.range 32).any (fun f => (vget m p 0).getLsbD f && (List.range 8).any (fun l => !down.contains (f, l)))
/-- The ports that have to complete a handshake: those with a lane that is not down. -/
def Dark.ports (d : Dark) : List Nat := (List.range 16).filter (fun p => lanesUp d.portmap d.down p)
/-- Whether each lane of a port has locked or is marked down, and one has locked (R427 step 3). -/
def Dark.relocked (d : Dark) (p : Nat) : Bool :=
  let mine := fibreLanes.filter (fun q => (vget d.portmap p 0).getLsbD q.1)
  mine.all (fun q => d.locked.contains q || d.down.contains q) && mine.any (fun q => d.locked.contains q)
/-- READY without its port bits. -/
def portsOff (ready : Word) : Word := wNat (ready.toNat / 2 ^ 48 * 2 ^ 48 + ready.toNat % 2 ^ 32)

/-! ### Publication (R427 steps 4 and 5, R431) -/

/-- The new entry of a module: a continuing peer keeps its allowance and its epoch, a new one has 64 units and epoch 0. -/
def newPeer (d : Dark) (own i now : Nat) (old : Peer) : Peer :=
  let e := peerEntry d.peers i
  if entryValid e && i != own && lanesUp d.portmap d.down (entryPort e) then
    if old.valid then { old with port := BitVec.ofNat 4 (entryPort e) } else ⟨true, BitVec.ofNat 4 (entryPort e), 64, some 0, 0, 0, now⟩
  else Peer.empty
/-- Bit f set when pair f has a lane down. -/
def downMask (down : List (Nat × Nat)) : Nat :=
  ((List.range 32).filter (fun f => down.any (fun p => p.1 == f))).foldl (fun n f => n + 2 ^ f) 0
/-- A message of this module itself to a peer: it leaves for a unit of the allowance, or waits behind those that wait for one (R424). -/
def State.answer (s : State) (m tag : Nat) (c : Cargo) (bytes : List Byte) : State :=
  let q := vget s.fabric.peers m Peer.empty
  if !q.valid then s
  else if s.fabric.opens q && s.fabric.held.all (fun h => h.1 != m) then s.sendTo m tag c bytes
  else { s with fabric := { s.fabric with held := s.fabric.held ++ [(m, tag, c, bytes)] } }
/-- The messages that wait leave, as far as they may. -/
def State.flushHeld (s : State) : State :=
  s.fabric.held.foldl (fun s h => s.answer h.1 h.2.1 h.2.2.1 h.2.2.2) { s with fabric := { s.fabric with held := [] } }
/-- A flit that could not be delivered is dropped, and a negative acknowledgement returns to its sender (R422). -/
def State.nackTo (s : State) (src tag : Nat) : State :=
  State.answer { s with fabric := { s.fabric with nacks := s.fabric.nacks + 1 } } src tag .nack []
/-- A write of a processor that has not performed and has left is gone: PEERLOST enters the record of its sender (R423, R427). -/
def State.lostWrite (s : State) (p : ProcId) (i : Nat) : State :=
  let a := (s.getCore p).pend.getD i noAccess
  (s.setPend p i { a with pieces := [], performed := true }).dropped p codePeerlost a.addr
/-- A flit of a replay buffer that has no way is dropped, as R423 has it for what it carries. -/
def State.loseFlight (s : State) (x : Flight) : State :=
  match x.cargo with
  | .access p seq => match (s.getCore p).pend.findIdx? (fun a => a.seq == seq && !a.performed) with
    | some i => s.lostWrite p i
    | none => s
  | .unit p h k => match s.findCmd p h with
    | some c => s.unitsLost p c k (match s.unitsOut p c k with | v :: _ => v.1.addr | [] => 64 * k)
    | none => s
  | .forward src => s.nackTo src x.tag
  | _ => s
/-- The new table and GEN + 1 take effect in one step, and the dark interval ends. The flits in the replay buffers go again to continuing
peers, and are dropped towards the others. DESIGN CHOICE (log entry 37): the ports number their flits from 0 again. -/
def State.publishFabric (s : State) (d : Dark) : State :=
  let f := s.fabric
  let peers := Vector.ofFn (fun (i : Fin 64) => newPeer d s.modid.toNat i.val s.gtime (vget f.peers i.val Peer.empty))
  let goes (x : Flight) : Bool := (vget f.peers x.peer Peer.empty).valid && (vget peers x.peer Peer.empty).valid
  let s1 := (f.flights.filter (fun x => !goes x)).foldl State.loseFlight s
  let f1 : Fabric := { s1.fabric with
    flights := []
    seqs := Vector.replicate 16 0
    expect := Vector.replicate 16 0
    portmap := d.portmap
    peers := peers
    gen := f.gen + 1
    dark := none
    down := d.down
    agree := d.ports }
  let again (f : Fabric) (x : Flight) : Fabric := f.send (vget peers x.peer Peer.empty).port.toNat x.peer x.tag x.cargo x.bytes (x.sends + 1)
  State.flushHeld { s1 with fabric := (f.flights.filter goes).foldl again f1 }
/-- The answer of a FABRIC_CONFIG. -/
def State.fabricResult (s : State) (d : Dark) : List Byte :=
  natBytes s.fabric.gen.toNat 8 ++ natBytes d.longest 8 ++ natBytes (downMask s.fabric.down) 4
/-- The commands that wait for a publication are answered. -/
def State.answerFabric (s : State) (d : Dark) : State :=
  let l := s.host.waiting.filter (fun w => w.what == .fabric)
  let s1 := l.foldl (fun s w => State.conclude w.sid w.tag w.opc w.cseq (s, ok (s.fabricResult d))) s
  { s1 with host := { s1.host with waiting := s1.host.waiting.filter (fun w => w.what != .fabric) } }
/-- Publication, once every port has completed its handshake; none after a thermal trip (R445). -/
def State.tryPublish (s : State) : State :=
  match s.fabric.dark with
  | some d => if !s.boot.tripped && d.ports.all (fun p => d.shaken.contains p) then (s.publishFabric d).answerFabric d else s
  | none => s
/-- Step 1 of an accepted reconfiguration: the dark interval begins, and every port's bit clears. A lane that the circuit switch does not
move keeps its lock, or stays down (R432). -/
def State.goDark (s : State) (x : CmdFabric) : State :=
  let still := fibreLanes.filter (fun q => !x.moved.contains q)
  let d : Dark :=
    { portmap := s.newMap x, peers := (List.range 64).map (peerEntry x.peers), moved := x.moved,
      locked := still.filter (fun q => !s.fabric.down.contains q), down := still.filter (fun q => s.fabric.down.contains q), shaken := [],
      longest := 0 }
  { s with fabric := { s.fabric with dark := some d, agree := [] }, boot := { s.boot with ready := portsOff s.boot.ready } }
def doFabric (x : CmdFabric) (s : State) : Effect :=
  if !byOperator x.sid then (s, badState)
  else if s.tableError x then (s, refused 0x20)
  else if s.cutsTeam x then (s, refused 0x21)
  else (s.goDark x, .waits .fabric)
/-- FABRIC_CONFIG; a table without a port to shake hands on is published at once. -/
def execFabricConfig (x : CmdFabric) (s : State) : Out :=
  if s.fabric.dark.isSome then .next s
  else match hostCommand x.sid 0 0x12 (doFabric x) s with
    | .next s1 => .next s1.tryPublish
    | o => o

/-! ## The steps of a dark interval -/

/-- Whether a lane that the switch has moved belongs to a port that has not completed its handshake, and has not been marked down. -/
def Dark.relocks (d : Dark) (fibre lane : Nat) : Bool :=
  decide (fibre < 32 ∧ lane < 8) && d.moved.contains (fibre, lane) && !d.down.contains (fibre, lane) && (List.range 16).any (fun p => (vget d.portmap p 0).getLsbD fibre && !d.shaken.contains p)
def State.setDark (s : State) (d : Dark) : State := { s with fabric := { s.fabric with dark := some d } }
/-- LANE_LOCK: a lane locks within 40 µs of its light. -/
def execLaneLock (x : EvLane) (s : State) : Out :=
  match s.fabric.dark with
  | some d =>
    if d.relocks x.fibre x.lane ∧ x.ns ≤ 40000 then
      .next (s.setDark { d with locked := (x.fibre, x.lane) :: d.locked.filter (fun p => p != (x.fibre, x.lane)),
                                longest := max d.longest x.ns })
    else .next s
  | none => .next s
/-- The bits of the ports that have lost their last lane clear (R434). -/
def State.clearPorts (s : State) : State :=
  { s with boot := (List.range 16).foldl (fun b p => if lanesUp s.fabric.portmap s.fabric.down p then b else
      { b with ready := b.ready &&& ~~~(wNat (2 ^ (32 + p))) }) s.boot }
/-- LANE_LOCK_TIMEOUT: a lane that has not locked is marked down; its port runs on the others. Outside a dark interval a lane has lost its
lock for good, and a port without a lane loses its bit. -/
def execLaneLockTimeout (x : EvLane) (s : State) : Out :=
  match s.fabric.dark with
  | some d =>
    if d.relocks x.fibre x.lane ∧ !d.locked.contains (x.fibre, x.lane) then
      .next (s.setDark { d with down := (x.fibre, x.lane) :: d.down.filter (fun p => p != (x.fibre, x.lane)) }).tryPublish
    else .next s
  | none =>
    if x.fibre < 32 ∧ x.lane < 8 ∧ !s.fabric.down.contains (x.fibre, x.lane) then
      .next (State.clearPorts { s with fabric := { s.fabric with down := (x.fibre, x.lane) :: s.fabric.down } })
    else .next s
/-- PORT_HANDSHAKE: a port that has relocked has exchanged the tables with its far end. -/
def execPortHandshake (x : EvPort) (s : State) : Out :=
  match s.fabric.dark with
  | some d =>
    if d.ports.contains x.port ∧ d.relocked x.port ∧ !d.shaken.contains x.port then .next (s.setDark { d with shaken := d.shaken ++ [x.port] }).tryPublish
    else .next s
  | none => .next s

/-! ## Arriving flits (R422, R423, R354) -/

/-- Bytes that a peer's request writes here: dropped where the backstop, a fence or missing training refuses them. A mailbox log names the
module alone, whose tile the flit does not name (R396, log entry 23). -/
def State.landHere (s : State) (src tag a : Nat) (l : List Byte) : State :=
  if (s.wayFault a).isSome || !s.admitsTag tag a a || s.unready a l.length then s
  else s.landBy (0xFFFF + src * 2 ^ 16) a l (fun s => s.mendCells a (cellsAt a l))
/-- The same, but for a latch word or mailbox of a tile whose stopped team is away: it is held for that team (R396). -/
def State.landFlit (s : State) (src tag a : Nat) (l : List Byte) : State :=
  match s.region a with
  | .port n o =>
    (match s.awayTeam n (fun t => t.tenant == tag && (s.getTile n).tenant != tag) with
      | some t => s.logFor t (if 0x1000 ≤ o then .sev n false (0xFFFF + src * 2 ^ 16) else .mailbox n a l (0xFFFF + src * 2 ^ 16))
      | none => s.landHere src tag a l)
  | _ => s.landHere src tag a l
/-- An atomic by its function code (R248). -/
def amoOf (n : Nat) : AmoOp :=
  match n with
  | 0 => .add | 1 => .and | 2 => .or | 3 => .xor | 4 => .min | 5 => .max | 6 => .minn | 7 => .maxn | 8 => .swp | 9 => .cas | 10 => .fadd
  | _ => .inc
/-- The `i`-th write of a processor is refused by another module: dropped and recorded, or, by the mark of its backstop, acknowledged with
the mark and reported (R354, R364, R423). -/
def State.refusedWrite (s : State) (p : ProcId) (i : Nat) (code : BitVec 8) : State :=
  let a := (s.getCore p).pend.getD i noAccess
  let s1 := s.accepted p a
  if code = codeBackstop then (s1.setPend p i { a with pieces := [], performed := true, marked := true }).backstop p (some a.pc) a.addr
  else s1.lostWrite p i
/-- The slot of a pop stream that may have fetched at an address among its next vectors (R209). -/
def State.streamAt (s : State) (p : ProcId) (a : Nat) : Option (Nat × Nat) :=
  match p with
  | .main l => (List.range 4).findSome? (fun n =>
      let x := vget (s.getTile l).streams n Stream.empty
      if x.isBound && !x.push && (List.range 64).any (fun k => (x.nexts k).addr == a && (x.held k).all (fun q => q.bytes.isNone)) then some (l, n) else none)
  | _ => none
/-- A refusal answers a message that a processor has sent to an address of another module (R423): a write that has left; a pending load,
atomic or fetch of a stream, whose message left with it; an engine's read or write. -/
def State.refusedFlit (s : State) (p : ProcId) (a : Nat) (code : BitVec 8) : State :=
  let c := s.getCore p
  match s.region a with
  | .peer m =>
    let asked (l : Load) : Bool := l.parts.any (fun q => q.base == a && (q.bytes.isNone || q.bytes == some []))
    let sent (paid : Bool) : State := if paid then s else s.spendTo m
    (match c.pend.findIdx? (fun e => e.paid && !e.performed && e.addr == a), c.load.filter asked, c.lates.findIdx? (fun e => e.addr == a), s.streamAt p a with
    | some i, _, _, _ => s.refusedWrite p i code
    | none, some l, _, _ =>
      let paid := l.parts.any (fun q => q.base == a && q.bytes.isSome)
      if s.messageOpen paid a then (sent paid).setCore p { c with load := some { l with fault := some (l.fault.getD (code, a)) } } else s
    | none, none, some j, _ => if s.messageOpen false a then (sent false).lateRefused p j code else s
    | none, none, none, some (l, n) =>
      if s.messageOpen false a then
        let t := s.getTile l
        let x := vget t.streams n Stream.empty
        (sent false).setTile l { t with streams := vset t.streams n { x with lost := x.lost ++ [(a, code)] } }
      else s
    | none, none, none, none => s.engineRefused p a code)
  | _ => s
/-- What an arriving request reads here; zeros where it is refused. -/
def State.answerBytes (s : State) (tag a n : Nat) : List Byte :=
  if (s.wayFault a).isSome || !s.admitsTag tag a a || s.unready a n then zeros n else memBytes s.mem a n
/-- A flit for this module is delivered; a read and an atomic are answered. An acknowledgement of a write needs no flit of its own (log
entry 37). -/
def State.deliver (s : State) (x : EvFlit) : State :=
  match x.body with
  | .store a l => s.landFlit x.src x.tag a (l.take 64)
  | .amo op n a v new =>
    let old := s.answerBytes x.tag a n
    let s1 := match amoNew (amoOf op) n (leNat old) v new with
      | some r => if s.badUnits a n = [] then s.landFlit x.src x.tag a (natBytes r n) else s
      | none => s
    s1.answer x.src x.tag .answer old
  | .read a n => s.answer x.src x.tag .answer (s.answerBytes x.tag a (min n 64))
  | .marker e => s.recordEpoch x.src e
  | .key l op bin v =>
    let a := scratchAddr l 0
    if (s.wayFault a).isSome || !s.admitsTag x.tag a a then s else s.keyStep l op bin v.toNat (fun s a cells => s.mendCells a cells)
  | .nack p a => s.refusedFlit p a codePeerlost
  | .mark p a => s.refusedFlit p a codeBackstop
/-- The payload of a flit. -/
def FlitKind.bytes : FlitKind → List Byte
  | .store _ l => l
  | .amo _ n _ v _ => natBytes v n
  | .key _ _ _ v => natBytes v.toNat 4
  | _ => []
/-- Whether a flit is itself a refusal, which none answers. -/
def FlitKind.refuses : FlitKind → Bool
  | .nack _ _ => true
  | .mark _ _ => true
  | _ => false
/-- A flit for another module leaves on that module's port, spending no allowance here; without a valid entry it is dropped, and a negative
acknowledgement returns to its sender (R422, R424). -/
def State.forward (s : State) (x : EvFlit) : State :=
  let q := vget s.fabric.peers x.dst Peer.empty
  if q.valid then { s with fabric := s.fabric.send q.port.toNat x.dst x.tag (.forward x.src) (FlitKind.bytes x.body) 1 }
  else if FlitKind.refuses x.body then s
  else s.nackTo x.src x.tag
/-- FABRIC_FLIT_RECEIVE: the next flit in the order of its port is accepted, and delivered or forwarded; any other is one that a replay
repeats or runs ahead of (R420). In a dark interval none is accepted (log entry 37). -/
def execFabricFlitReceive (x : EvFlit) (s : State) : Out :=
  if 16 ≤ x.port ∨ s.fabric.dark.isSome ∨ vget s.fabric.expect x.port 0 ≠ x.seq then .next s
  else
    let s1 : State := { s with fabric := { s.fabric with expect := vset s.fabric.expect x.port (x.seq + 1) } }
    if x.dst = s.modid.toNat then .next ((s1.owe x.src).deliver x) else .next (s1.forward x)
/-- FEC_REPLAY: the flits of the port's replay buffer go again with their sequence numbers and in their order (R420). -/
def execFecReplay (x : EvPort) (s : State) : Out :=
  .next { s with fabric := { s.fabric with
    flights := s.fabric.flights.map (fun y => if y.port = x.port then { y with sends := y.sends + 1 } else y)
    replays := s.fabric.replays + 1 } }

/-! ## Allowances and time (R424, R425) -/

/-- Of the flits of the replay buffers, newest first, those that a module has not accepted: the `n` newest of this module's own to it. -/
def keepNewest (m : Nat) : Nat → List Flight → List Flight
  | _, [] => []
  | n, x :: r =>
    if x.own && x.peer == m then (match n with | 0 => keepNewest m 0 r | k + 1 => x :: keepNewest m k r) else x :: keepNewest m n r
/-- ALLOWANCE_RETURN: units come back, 64 at most, and what waits for one leaves; frozen in a dark interval. With no unit, it is this
module's own return flit, after 256 ns without traffic to a peer that is owed (R424), which spends none (log entry 37). -/
def execAllowanceReturn (x : EvPeer) (s : State) : Out :=
  let q := vget s.fabric.peers x.peer Peer.empty
  if !q.valid ∨ s.fabric.dark.isSome then .next s
  else if x.n = 0 then
    if q.owed ≠ 0 ∧ q.sentAt + 256 ≤ s.gtime then
      .next { s with fabric := { s.fabric with peers := vset s.fabric.peers x.peer { q with owed := 0, sentAt := s.gtime } } }
    else .next s
  else
    let allow := min 64 (q.allow + x.n)
    .next (State.flushHeld { s with fabric := { s.fabric with
      peers := vset s.fabric.peers x.peer { q with allow := allow }
      flights := (keepNewest x.peer (64 - allow) s.fabric.flights.reverse).reverse } })
/-- The slew at an exchange: at most 1 ns per µs and once in 10 µs, forwards only (GTIME never decreases); none on the lowest module. A base
that is ahead runs slower, which is in the free length of a step (log entry 8). -/
def State.slew (s : State) (offset : Int) : Nat :=
  if s.fabric.slewAt + 10000 ≤ s.gtime ∧ (List.range s.modid.toNat).any (fun m => (vget s.fabric.peers m Peer.empty).valid) then min offset.toNat 10 else 0
/-- TIMESTAMP_EXCHANGE: the base slews, and a port in agreement after a publication sets its bit (R434). -/
def execTimestampExchange (x : EvTime) (s : State) : Out :=
  if s.boot.tripped ∨ s.fabric.dark.isSome ∨ !lanesUp s.fabric.portmap s.fabric.down x.port then .next s
  else
    let s1 := { s with gtime := s.gtime + s.slew x.offset,
                       fabric := { s.fabric with slewAt := if s.slew x.offset = 0 then s.fabric.slewAt else s.gtime + s.slew x.offset } }
    if s.fabric.agree.contains x.port ∧ x.far.natAbs ≤ 50 then
      .next { s1 with fabric := { s1.fabric with agree := s1.fabric.agree.filter (fun p => p != x.port) },
                      boot := { s1.boot with ready := s1.boot.ready ||| wNat (2 ^ (32 + x.port)) } }
    else .next s1

end Sys2Proof.Machine
end

