-- ==== Sys2Proof/Machine/Spdm.lean ====
section
/-!
DEFINITION. The sessions (R369, R370, R373): the SPDM messages the module implements, by their request codes, and what each does to a
session. The messages' own layout is DSP0274's, which `Config.spdmRequest` and `Config.spdmReply` stand for (log entry 28).
-/
namespace Sys2Proof.Machine
open Sys2Proof

/-! ## Request codes of DSP0274 -/

def spdmGetDigests : Nat := 0x81
def spdmGetCertificate : Nat := 0x82
def spdmChallenge : Nat := 0x83
def spdmGetVersion : Nat := 0x84
def spdmGetMeasurements : Nat := 0xE0
def spdmGetCapabilities : Nat := 0xE1
def spdmNegotiate : Nat := 0xE3
def spdmKeyExchange : Nat := 0xE4
def spdmFinish : Nat := 0xE5
def spdmHeartbeat : Nat := 0xE8
def spdmKeyUpdate : Nat := 0xE9
def spdmEndSession : Nat := 0xEC
/-- A request the responder answers with an error message. -/
def spdmError : Nat := 0x7F

/-! ## Answers -/

/-- A plaintext SPDM answer. -/
def State.plainAnswer (s : State) (cseq : Nat) (m : List Byte) : State :=
  { s with host := { s.host with held := s.host.held ++ [⟨noSession, true, 0, 0, cseq, 0, m, []⟩] } }
/-- An SPDM answer: in the session when it is open, in plaintext otherwise. -/
def State.spdmAnswer (s : State) (sid cseq : Nat) (m : List Byte) : State :=
  match s.findSession sid with
  | some x =>
    if x.phase = 2 then
      let s1 := s.putSession { x with sent := x.sent + 1 }
      { s1 with host := { s1.host with held := s1.host.held ++ [⟨sid, true, 0, 0, cseq, x.sent, m, x.key⟩] } }
    else s.plainAnswer cseq m
  | none => s.plainAnswer cseq m

/-- An open session. -/
def State.open (s : State) (sid : Nat) : Bool := (s.findSession sid).any (fun x => x.phase == 2)

/-! ## Opening, renewing and ending a session -/

/-- The tenant tag a session id names must be registered with the requester's key; the operator's key is the first one's. -/
def State.mayOpen (s : State) (sid : Nat) (key : List Byte) : Bool :=
  (s.findSession sid).all (fun x => x.phase != 2)
    && (if sid = 0 then (match s.host.operator with | some k => k == key | none => true)
        else (match s.findTenant sid with | some t => t.key == key | none => false)
          && decide ((s.host.sessions.filter (fun x => x.sid != 0 && x.sid != sid && x.phase == 2)).length < 256))
/-- MR ← SHA-512(MR ‖ digest) (R384). -/
def extendMr (mr digest : List Byte) : List Byte := Config.sha512 (mr ++ digest)
def Boot.extend (b : Boot) (i : Nat) (digest : List Byte) : Boot := { b with mr := vset b.mr i (extendMr (vget b.mr i mrZero) digest) }
/-- The first operator session after a cold start: its key is recorded and extended into MR2. -/
def State.recordOperator (s : State) (key : List Byte) : State :=
  match s.host.operator with
  | some _ => s
  | none => { s with host := { s.host with operator := some key }, boot := s.boot.extend 2 (Config.sha512 key) }
def State.beginSession (s : State) (sid : Nat) (key secret : List Byte) : State :=
  { s with free := s.free + 1,
           host := { s.host with sessions := s.host.sessions.filter (fun x => x.sid != sid) ++ [⟨sid, secret, 0, 0, false, 1, key⟩] } }
/-- UpdateAllKeys: new keys, both numbers 0, no resync. -/
def Session.renewed (x : Session) : Session :=
  { x with key := Config.derive x.key (asciiBytes ['u', 'p', 'd', 'a', 't', 'e']), expected := 0, sent := 0, resync := false }
/-- What the answer to a request depends on besides the request. -/
def State.spdmContext (s : State) (code : Nat) : List Byte :=
  if code = spdmGetMeasurements ∨ code = spdmChallenge then s.boot.mr.toList.flatten
  else if code = spdmGetDigests then Config.sha512 Config.certChain
  else if code = spdmGetCertificate then Config.certChain
  else []
/-- KEY_EXCHANGE. -/
def State.keyExchange (s : State) (sid : Nat) (key nonce : List Byte) : State × Nat :=
  if s.mayOpen sid key then (s.beginSession sid key (Config.derive (key ++ nonce) (Config.random s.free 0)), spdmKeyExchange)
  else (s, spdmError)
/-- FINISH, which carries the requester's signature of the exchange: the session opens when the signature verifies. -/
def State.finishExchange (s : State) (sid : Nat) (signature : List Byte) : State × Nat :=
  match s.findSession sid with
  | some x =>
    if x.phase = 1 ∧ Config.verify x.peer (Config.transcript x.key) signature = true ∧ s.mayOpen sid x.peer = true then
      ((if sid = 0 then s.recordOperator x.peer else s).putSession { x with phase := 2 }, spdmFinish)
    else (s, spdmError)
  | none => (s, spdmError)
/-- What a request does before it is answered, and the code of the answer. -/
def State.spdmEffect (s : State) (code sid : Nat) (key nonce : List Byte) : State × Nat :=
  if code = spdmKeyExchange then s.keyExchange sid key nonce
  else if code = spdmFinish then s.finishExchange sid nonce
  else if code = spdmKeyUpdate then match s.findSession sid with
    | some x => if x.phase = 2 then (s.putSession x.renewed, code) else (s, spdmError)
    | none => (s, spdmError)
  else (s, code)
/-- An SPDM request, executed and answered; END_SESSION's answer is the session's last. -/
def State.spdmServe (s : State) (code sid cseq : Nat) (key nonce : List Byte) : State :=
  let r := s.spdmEffect code sid key nonce
  let s1 := r.1.spdmAnswer sid cseq (Config.spdmReply r.2 (s.spdmContext code ++ nonce))
  if code = spdmEndSession then s1.endSession sid else s1

/-- A request in plaintext: KEY_EXCHANGE and FINISH open a session that is not open, what would act on an open one is answered with an error
(R370), and the others name no session. -/
def State.spdmPlain (s : State) (code sid cseq : Nat) (key nonce : List Byte) : State :=
  if code = spdmKeyUpdate ∨ code = spdmHeartbeat ∨ code = spdmEndSession then s.plainAnswer cseq (Config.spdmReply spdmError nonce)
  else if code = spdmKeyExchange ∨ code = spdmFinish then
    if s.open sid then s.plainAnswer cseq (Config.spdmReply spdmError nonce) else s.spdmServe code sid cseq key nonce
  else s.plainAnswer cseq (Config.spdmReply code (s.spdmContext code ++ nonce))

/-! ## The messages as steps -/

/-- Whether the command unit runs and has room for an answer. -/
def State.serves (s : State) : Bool := s.hostUp && s.hasRoom
/-- A message in plaintext, or in an open session that accepts it. -/
def spdmMessage (code : Nat) (x : EvSpdm) (s : State) : Out :=
  if !s.serves then .next s
  else if s.open x.sid then
    if s.mayAccept x.sid 0x10000 then .next ((s.accept x.sid).spdmServe code x.sid (s.expected x.sid) x.key x.nonce) else .next s
  else .next (s.spdmServe code x.sid 0 x.key x.nonce)
/-- A message that opens a session: always in plaintext. -/
def spdmOpening (code : Nat) (x : EvSpdm) (s : State) : Out :=
  if s.serves then .next (s.spdmPlain code x.sid 0 x.key x.nonce) else .next s
/-- A message that only an open session carries. -/
def spdmInSession (code : Nat) (x : EvSpdm) (s : State) : Out :=
  if s.serves && s.mayAccept x.sid 0x10000 then .next ((s.accept x.sid).spdmServe code x.sid (s.expected x.sid) x.key x.nonce)
  else .next s

def execGetVersion (x : EvSpdm) (s : State) : Out := spdmMessage spdmGetVersion x s
def execGetCapabilities (x : EvSpdm) (s : State) : Out := spdmMessage spdmGetCapabilities x s
def execNegotiateAlgorithms (x : EvSpdm) (s : State) : Out := spdmMessage spdmNegotiate x s
def execGetDigests (x : EvSpdm) (s : State) : Out := spdmMessage spdmGetDigests x s
def execGetCertificate (x : EvSpdm) (s : State) : Out := spdmMessage spdmGetCertificate x s
def execChallenge (x : EvSpdm) (s : State) : Out := spdmMessage spdmChallenge x s
def execGetMeasurements (x : EvSpdm) (s : State) : Out := spdmMessage spdmGetMeasurements x s
/-- KEY_EXCHANGE: with the requester's key, it begins the session that `sid` names. -/
def execKeyExchange (x : EvSpdm) (s : State) : Out := spdmOpening spdmKeyExchange x s
/-- FINISH: with the requester's signature for its nonce, it opens the session. -/
def execFinish (x : EvSpdm) (s : State) : Out := spdmOpening spdmFinish x s
/-- KEY_UPDATE: accepted in resync-required and at the end of the numbers too. -/
def execKeyUpdate (x : EvSpdm) (s : State) : Out :=
  if s.serves && s.open x.sid && s.host.waiting.all (fun w => w.sid != x.sid) then
    .next (s.spdmServe spdmKeyUpdate x.sid (s.expected x.sid) x.key x.nonce)
  else .next s
def execHeartbeat (x : EvSpdm) (s : State) : Out := spdmInSession spdmHeartbeat x s
def execEndSession (x : EvSpdm) (s : State) : Out := spdmInSession spdmEndSession x s

end Sys2Proof.Machine
end

