-- ==== Sys2Proof/Machine/Link.lean ====
section
/-!
DEFINITION. The rings (R367–R372): the doorbell, the ring descriptor, the checks of a command entry in their order, the plaintext of
each command, and the posting of responses.
-/
namespace Sys2Proof.Machine
open Sys2Proof

/-! ## The plaintext of a command (R371, R377–R383) -/

/-- Whether bytes are zero. -/
def allZero (l : List Byte) : Bool := l.all (fun b => b == 0)
/-- The 16 B head's fields, and a word of the body. -/
def cmdOpc (p : List Byte) : Nat := bytesNat p 0 2
def cmdSub (p : List Byte) : Nat := bytesNat p 2 2
def cmdTag (p : List Byte) : Nat := bytesNat p 4 2
def word64 (p : List Byte) (o : Nat) : Word := wNat (bytesNat p o 8)
/-- The plaintext is zero from an offset on. -/
def zeroFrom (p : List Byte) (o : Nat) : Bool := allZero (p.drop o)
/-- A command whose reserved bytes must be zero. -/
def whole (good : Bool) (s : State) (e : Effect) : Effect := if good then e else (s, refused 0x11)
/-- A referenced payload: the copy, when it matches its digest. -/
def byRef (p : List Byte) (s : State) (f : List Byte → Effect) : Effect :=
  let a := bytesNat p 0x10 8
  let n := bytesNat p 0x18 8
  if 2 ^ 44 < a + n then (s, refused 0x11)
  else
    let copy := s.getHost a n
    if Config.sha512 copy = part p 0x20 64 then f copy else (s, refused 0x10)

def parseGrant (b : List Byte) (o : Nat) : Sys2Proof.GrantEntry :=
  ⟨BitVec.ofNat 8 (bytesNat b o 1), BitVec.ofNat 8 (bytesNat b (o + 1) 1), BitVec.ofNat 32 (bytesNat b (o + 8) 4),
   BitVec.ofNat 32 (bytesNat b (o + 12) 4)⟩
def parseExtent (b : List Byte) (o : Nat) : Sys2Proof.ExtentEntry :=
  ⟨BitVec.ofNat 8 (bytesNat b o 1), BitVec.ofNat 8 (bytesNat b (o + 1) 1), word64 b (o + 8), word64 b (o + 16)⟩
/-- SET_EXTENTS (R379). -/
def cmdSetExtents (sid tag : Nat) (b : List Byte) (s : State) : Effect :=
  let n := bytesNat b 0 2
  let m := bytesNat b 2 2
  let go := (List.range n).map (fun i => 16 + 16 * i)
  let xo := (List.range m).map (fun i => 16 + 16 * n + 32 * i)
  whole (b.length == 16 + 16 * n + 32 * m && allZero (part b 4 12) && go.all (fun o => allZero (part b (o + 2) 6))
      && xo.all (fun o => allZero (part b (o + 2) 6) && allZero (part b (o + 24) 8))) s
    (doSetExtents ⟨sid, tag, go.map (parseGrant b), xo.map (parseExtent b)⟩ s)
/-- LAUNCH_TEAM (R381). -/
def cmdLaunch (sid tag : Nat) (b : List Byte) (s : State) : Effect :=
  let nbuf := byteNat b 0x15
  let almoff := bytesNat b 0x88 4
  let almlen := bytesNat b 0x8C 4
  let bo := (List.range nbuf).map (fun i => 0xC0 + 16 * i)
  let x : Sys2Proof.CmdLaunch := { sid := sid, tag := tag, objid := bytesNat b 0 4, teamno := bytesNat b 4 4, jobseed := word64 b 8, flags := BitVec.ofNat 32 (bytesNat b 0x10 4), vigil := BitVec.ofNat 8 (byteNat b 0x14), nbuf := nbuf, share := BitVec.ofNat 16 (bytesNat b 0x16 2), clusters := word64 b 0x18, groups := fixed 64 (part b 0x20 64), tcbx := BitVec.ofNat 8 (byteNat b 0x60), scrx := BitVec.ofNat 8 (byteNat b 0x61), trcx := BitVec.ofNat 8 (byteNat b 0x62), tcboff := word64 b 0x68, savebase := word64 b 0x70, savelim := word64 b 0x78, mods := word64 b 0x80, almanac := if almoff = 0 then none else some (part b almoff almlen), bindings := bo.map (fun o => (BitVec.ofNat 8 (byteNat b o), word64 b (o + 8))) }
  whole (decide (0xC0 + 16 * nbuf ≤ b.length) && allZero (part b 0x63 5) && allZero (part b 0x90 48)
      && bo.all (fun o => allZero (part b (o + 1) 7)) && (almoff == 0 || decide (almoff + almlen ≤ b.length))) s (doLaunch x s)
/-- FABRIC_CONFIG (R426): a reserved bit is a table error. -/
def cmdFabric (sid : Nat) (b : List Byte) (s : State) : Effect :=
  if b.length ≠ 0xC8 then (s, refused 0x11)
  else if !allZero (part b 4 4) then (s, refused 0x20)
  else doFabric ⟨sid, BitVec.ofNat 32 (bytesNat b 0 4), (List.range 16).map (fun i => BitVec.ofNat 32 (bytesNat b (8 + 4 * i) 4)),
    (List.range 64).map (fun i => BitVec.ofNat 16 (bytesNat b (0x48 + 2 * i) 2)), fibreLanes.filter (fun q => Config.laneMoved s.free q.1 q.2)⟩
    { s with free := s.free + 1 }
/-- The result buffers of a migration command by reference. -/
def migrateRef (sid tag : Nat) (p b : List Byte) : CmdMigrate := ⟨sid, tag, word64 p 0x60, word64 p 0x68, word64 p 0x70, word64 p 0x78, b⟩
def cmdMigrateOut (sid tag sub : Nat) (p : List Byte) (s : State) : Effect :=
  match sub with
  | 1 => whole (zeroFrom p 0x80) s (byRef p s fun b => doSend (migrateRef sid tag p b) s)
  | 2 => whole (zeroFrom p 0x70) s (byRef p s fun b => doCommit (migrateRef sid tag p b) s)
  | 3 => whole (zeroFrom p 0x60) s (byRef p s fun b => doClose (migrateRef sid tag p b) s)
  | 4 => whole (zeroFrom p 0x10) s (doAbortOut (migrateRef sid tag p []) s)
  | _ => (s, refused 0x11)
/-- A migration command with its result buffer inline. -/
def migrateInline (sid tag : Nat) (p : List Byte) : CmdMigrate := ⟨sid, tag, word64 p 0x10, word64 p 0x18, 0, 0, []⟩
def cmdMigrateIn (sid tag sub : Nat) (p : List Byte) (s : State) : Effect :=
  match sub with
  | 1 => whole (zeroFrom p 0x20) s (doOffer (migrateInline sid tag p) s)
  | 2 => whole (zeroFrom p 0x70) s (byRef p s fun b => doImport (migrateRef sid tag p b) s)
  | 3 => whole (zeroFrom p 0x70) s (byRef p s fun b => doConfirm (migrateRef sid tag p b) s)
  | 4 => whole (zeroFrom p 0x10) s (doAbortIn (migrateRef sid tag p []) s)
  | 5 => whole (zeroFrom p 0x20) s (doResumeIn (migrateInline sid tag p) s)
  | 6 => whole (zeroFrom p 0x70) s (byRef p s fun b => doEscrow (migrateRef sid tag p b) s)
  | _ => (s, refused 0x11)
/-- READ_COUNTERS and READ_FAULTS; the latter has no class mask. -/
def parseRead (sid tag : Nat) (p : List Byte) : CmdRead :=
  ⟨sid, tag, bytesNat p 0x10 4, BitVec.ofNat 8 (byteNat p 0x14), word64 p 0x18, word64 p 0x20⟩
/-- A command by its OPC and SUB, with SUB 0 where a command names none (R374, R382). -/
def runCommand (sid : Nat) (p : List Byte) (s : State) : Effect :=
  let tag := cmdTag p
  let sub := cmdSub p
  let plain (n : Nat) (e : Effect) : Effect := whole (sub == 0 && zeroFrom p n) s e
  if !allZero (part p 6 10) then (s, refused 0x11)
  else match cmdOpc p with
    | 0x01 => plain 0x60 (byRef p s fun b => doAdmit ⟨sid, tag, b⟩ s)
    | 0x02 =>
      let x : CmdObj := ⟨sid, tag, bytesNat p 0x10 4⟩
      whole (decide (sub < 2) && zeroFrom p 0x14) s (if sub = 0 then doUnload x s else doUnloadForced x s)
    | 0x03 => plain 0x95 (doCreate ⟨sid, tag, part p 0x10 133⟩ s)
    | 0x04 => plain 0x60 (byRef p s fun b => cmdSetExtents sid tag b s)
    | 0x05 => plain 0x11 (doRevoke ⟨sid, tag, BitVec.ofNat 8 (byteNat p 0x10)⟩ s)
    | 0x06 => whole (sub == 0 && allZero (part p 0x11 7) && zeroFrom p 0x20) s
        (doMove ⟨sid, tag, BitVec.ofNat 8 (byteNat p 0x10), word64 p 0x18⟩ s)
    | 0x07 => plain 0x60 (byRef p s fun b => cmdLaunch sid tag b s)
    | 0x08 =>
      let x : CmdTeam := ⟨sid, tag, bytesNat p 0x10 4, bytesNat p 0x18 8⟩
      whole (decide (sub < 2) && allZero (part p 0x14 4) && zeroFrom p 0x20) s (if sub = 0 then doStop x s else doResume x s)
    | 0x09 => plain 0x10 (doReset ⟨sid, tag⟩ s)
    | 0x0A => plain 0x59 (doSetCalendar ⟨sid, word64 p 0x10, (List.range 16).map (fun i => bytesNat p (0x18 + 4 * i) 4),
        BitVec.ofNat 8 (byteNat p 0x58)⟩ s)
    | 0x0B => whole (sub == 0 && allZero (part p 0x15 3) && zeroFrom p 0x28) s (doReadCounters (parseRead sid tag p) s)
    | 0x0C => whole (sub == 0 && allZero (part p 0x14 4) && zeroFrom p 0x28) s (doReadFaults (parseRead sid tag p) s)
    | 0x0D => plain 0x10 (doLock ⟨sid, tag⟩ s)
    | 0x0E => plain 0x10 (doUnlock ⟨sid, tag⟩ s)
    | 0x0F => plain 0x40 (doAttest ⟨sid, tag, part p 0x10 32, word64 p 0x30, word64 p 0x38⟩ s)
    | 0x10 => cmdMigrateOut sid tag sub p s
    | 0x11 => cmdMigrateIn sid tag sub p s
    | 0x12 => plain 0x60 (byRef p s fun b => cmdFabric sid b s)
    | _ => (s, badState)
/-- Whether a command can take effect now: no earlier command of its session or tenant is at work, the tenant's running teams may stop when
it stops them at once (STOP_TEAM and RESET_TENANT name a later time), the range of a MOVE_EXTENT is drained, and no reconfiguration of the
fabric is under way when it asks for one. -/
def State.commandReady (s : State) (sid : Nat) (p : List Byte) : Bool :=
  s.host.waiting.all (fun w => w.sid != sid && w.tag != cmdTag p) && (cmdOpc p == 8 || cmdOpc p == 9 || s.tenantStoppable (cmdTag p))
    && (cmdOpc p != 6 || s.drained (cmdTag p) (byteNat p 0x10))
    && (cmdOpc p != 0x12 || s.fabric.dark.isNone)

/-! ## A command entry (R369, R370) -/

/-- The fields of an entry. -/
structure Entry where
  sid : Nat
  kind : Nat
  len : Nat
  seq : Nat
  ct : List Byte
  tag : List Byte
  deriving DecidableEq, Repr
def readEntry (e : List Byte) : Entry := ⟨bytesNat e 0 2, byteNat e 2, bytesNat e 4 4, bytesNat e 8 8, part e 0x10 208, part e 0xF0 16⟩
/-- Step 2: lengths, reserved bytes and kinds; plaintext entries are SPDM and have no tag. -/
def entryFormed (e : List Byte) : Bool :=
  let x := readEntry e
  decide (x.len ≤ 208) && byteNat e 3 == 0 && decide (x.kind < 2) && zeroFrom x.ct x.len && allZero (part e 0xE0 16)
    && (x.sid != noSession || (x.kind == 1 && allZero x.tag))
/-- What the checks decide: a rejection and where it is answered, a session that has to resynchronise, or acceptance with the
plaintext. -/
inductive Verdict370 where
  | plain (status : Nat)
  | inSession (status opc : Nat)
  | skip (opc : Nat)
  | replay (opc : Nat)
  | take (plaintext : List Byte)
  deriving DecidableEq, Repr
/-- Whether a plaintext asks for KEY_UPDATE. -/
def asksUpdate (kind : Nat) (p : List Byte) : Bool :=
  kind == 1 && (match Config.spdmRequest p with | some r => r.1 == spdmKeyUpdate | none => false)
/-- Steps 4 to 7. A rejection names the command's OPC; an SPDM message has none. -/
def judgeOpen (y : Session) (x : Entry) (p : List Byte) : Verdict370 :=
  let up := asksUpdate x.kind p
  let opc := if x.kind = 0 then cmdOpc p else 0
  if y.resync && !up then .inSession 3 opc
  else if x.seq < y.expected then .replay opc
  else if y.expected < x.seq then .skip opc
  else if 2 ^ 64 - 2 ^ 16 ≤ y.expected ∧ up = false then .inSession 4 opc
  else .take p
/-- The checks of R370 in their order. -/
def State.judge (s : State) (e : List Byte) : Verdict370 :=
  let x := readEntry e
  if x.sid = noSession then (if entryFormed e then .take (x.ct.take x.len) else .plain 9)
  else match s.findSession x.sid with
    | none => .plain 8
    | some y =>
      if y.phase ≠ 2 then .plain 8
      else if !entryFormed e then .plain 9
      else match Config.aeadOpen (hostKey y.key) (nonceOf (hostIv y.key) x.seq) (e.take 16) (x.ct.take x.len ++ x.tag) with
        | none => .plain 7
        | some p => judgeOpen y x (fixed 208 p)
/-- A rejection answered in plaintext. -/
def State.rejectPlain (s : State) (cseq status : Nat) : State :=
  { s with host := { s.host with held := s.host.held ++ [⟨noSession, false, 0, status, cseq, 0, [], []⟩] } }
def State.setResync (s : State) (sid : Nat) : State :=
  match s.findSession sid with
  | some y => s.putSession { y with resync := true }
  | none => s
/-- An accepted SPDM message. -/
def State.takeSpdm (s : State) (x : Entry) (p : List Byte) : State :=
  match Config.spdmRequest p with
  | some (code, sid, key, nonce) => if x.sid = noSession then s.spdmPlain code sid x.seq key nonce else s.spdmServe code x.sid x.seq key nonce
  | none => s.spdmAnswer x.sid x.seq (Config.spdmReply spdmError p)
/-- An entry, once it can be acted on; none while an accepted command must wait. -/
def State.takeEntry (s : State) (e : List Byte) : Option State :=
  let x := readEntry e
  match s.judge e with
  | .plain st => some (s.rejectPlain x.seq st)
  | .inSession st opc => some (s.respond x.sid opc x.seq st [])
  | .replay opc => some ({ s with host := { s.host with replays := s.host.replays + 1 } }.respond x.sid opc x.seq 1 [])
  | .skip opc => some ((s.setResync x.sid).respond x.sid opc x.seq 2 [])
  | .take p =>
    if x.kind = 1 then
      if x.sid = noSession || s.host.waiting.all (fun w => w.sid != x.sid) then some ((if x.sid = noSession then s else s.accept x.sid).takeSpdm x p) else none
    else if s.commandReady x.sid p then
      some (State.conclude x.sid (cmdTag p) (cmdOpc p) x.seq (runCommand x.sid p (s.accept x.sid))).tryPublish
    else none

/-! ## The rings (R367, R368) -/

/-- Whether a count is a power of two from 16 to 4 096. -/
def countOk (n : Nat) : Bool := [16, 32, 64, 128, 256, 512, 1024, 2048, 4096].contains n
/-- The descriptor at a host address, within its limits. DESIGN CHOICE (log entry 54): the indices CHEAD and RTAIL start where the
descriptor has them, and an index that does not lie within its ring breaks the limits too. -/
def State.readRings (s : State) (d : Nat) : Option Rings :=
  let n (o k : Nat) : Nat := leNat (s.getHost (d + o) k)
  let r : Rings := { desc := d, cbase := n 0 8, ccount := n 8 4, rcount := n 12 4, rbase := n 16 8, chead := n 24 4, rtail := n 28 4, ctail := n 24 4 }
  if d % 64 = 0 ∧ r.cbase % 256 = 0 ∧ r.rbase % 256 = 0 ∧ countOk r.ccount = true ∧ countOk r.rcount = true
      ∧ r.cbase + 256 * r.ccount ≤ 2 ^ 44 ∧ r.rbase + 256 * r.rcount ≤ 2 ^ 44 ∧ r.chead < r.ccount ∧ r.rtail < r.rcount
      ∧ n 32 4 < r.rcount ∧ allZero (s.getHost (d + 0x24) 28) = true then some r
  else none
def setReady (b : Boot) (i : Nat) (x : Bool) : Boot :=
  { b with ready := if x then b.ready ||| wNat (2 ^ i) else b.ready &&& ~~~(wNat (2 ^ i)) }
def State.setRings (s : State) (r : Rings) : State := { s with host := { s.host with rings := some r } }
/-- Every accepted doorbell write sets the event latch of the four translator cores. -/
def State.wakeTranslators (s : State) : State :=
  (List.range 4).foldl (fun s n => s.setCore (.trust n) ((s.getCore (.trust n)).latched s.cycle)) s
/-- The next pending entry, if one is read now: fewer than 64 responses are held. -/
def State.readOne (s : State) : State :=
  match s.host.rings with
  | some r =>
    if r.chead = r.ctail ∨ s.hasRoom = false ∨ s.hostUp = false then s
    else
      let r1 := { r with chead := (r.chead + 1) % r.ccount }
      match (s.setRings r1).takeEntry (s.getHost (r.cbase + 256 * r.chead) 256) with
      | some s1 => s1.putHost (r.desc + 0x18) (natBytes r1.chead 4)
      | none => s
  | none => s
/-- The pending entries, as far as they can be read. -/
def State.readPending (s : State) : State :=
  match s.host.rings with
  | some r => (List.range r.ccount).foldl (fun s _ => s.readOne) s
  | none => s
def State.ignoreWrite (s : State) : State := { s with host := { s.host with ignored := s.host.ignored + 1 } }
/-- A new descriptor: every session ends and both rings start afresh. -/
def State.initRings (s : State) (value : Word) : State :=
  let s1 := s.host.sessions.foldl (fun s x => s.endSession x.sid) s
  let r := s.readRings (value.toNat % 2 ^ 44)
  { s1 with host := { s1.host with doorbell := value, rings := r, held := [] },
            boot := setReady s1.boot 19 r.isSome }.wakeTranslators
/-- The host port is trained: in a start its step is done, and in recovery it is up (R436, R437). Before, no doorbell write arrives (R435).
-/
def State.portUp (s : State) : Bool := s.boot.doneSteps.contains 2 || (s.boot.recovery && s.boot.ready.getLsbD 19)
/-- DOORBELL_INIT. -/
def execDoorbellInit (x : EvDoorbell) (s : State) : Out :=
  if !x.value.getLsbD 63 ∨ s.portUp = false then .next s
  else if fld x.value.toNat 44 19 ≠ 0 then .next s.ignoreWrite
  else .next (s.initRings x.value)
/-- A new tail. -/
def State.moveTail (s : State) (r : Rings) (value : Word) : State :=
  { s with host := { s.host with doorbell := value, rings := some { r with ctail := value.toNat } } }.wakeTranslators.readPending
/-- DOORBELL_TAIL. -/
def execDoorbellTail (x : EvDoorbell) (s : State) : Out :=
  if x.value.getLsbD 63 ∨ s.portUp = false then .next s
  else match s.host.rings with
    | some r => if x.value.toNat < 2 ^ 16 ∧ x.value.toNat < r.ccount then .next (s.moveTail r x.value) else .next s.ignoreWrite
    | none => .next s.ignoreWrite

/-! ## Responses (R368, R371) -/

/-- The plaintext of a device response. -/
def responsePlain (x : Response) : List Byte :=
  natBytes x.opc 2 ++ natBytes x.status 2 ++ zeros 4 ++ natBytes x.cseq 8 ++ x.result
/-- The entry of a response: SPDM bytes or a device response, sealed in its session. -/
def responseEntry (x : Response) : List Byte :=
  let p := if x.spdm then x.result.take 208 else fixed 208 (responsePlain x)
  let head := entryHead x.sid (bit x.spdm) p.length x.seq
  if x.sid = noSession then head ++ fixed 208 p ++ zeros 32
  else
    let c := Config.aeadSeal (devKey x.secret) (nonceOf (devIv x.secret) x.seq) head p
    head ++ fixed 208 (c.take p.length) ++ zeros 16 ++ fixed 16 (c.drop p.length)
/-- A held response goes into the ring's next entry. -/
def State.post (s : State) (r : Rings) (x : Response) : State :=
  let t := (r.rtail + 1) % r.rcount
  let s1 := (s.putHost (r.rbase + 256 * r.rtail) (responseEntry x)).putHost (r.desc + 0x1C) (natBytes t 4)
  { s1 with host := { s1.host with held := s1.host.held.drop 1, rings := some { r with rtail := t } } }
/-- RESPONSE_POST: the oldest held response is written when the ring has room; reading goes on. -/
def execResponsePost (_ : EvNone) (s : State) : Out :=
  let s1 := s.settle
  match s1.host.rings, s1.host.held with
  | some r, x :: _ =>
    if (r.rtail + 1) % r.rcount ≠ leNat (s1.getHost (r.desc + 0x20) 4) then .next (s1.post r x).readPending else .next s1.readPending
  | _, _ => .next s1.readPending

end Sys2Proof.Machine
end

