-- ==== Sys2Proof/Machine/Boot.lean ====
section
/-!
DEFINITION. Bring-up, power and monitors (R433–R445): starts and the firmware image, the training steps with their attempts, rails and
clocks, droops and temperatures.
-/
namespace Sys2Proof.Machine
open Sys2Proof

/-! ## The firmware image (R436) -/

/-- The boot ROM's check of an image: its key's hash, the magic and the reserved bytes, the length, the signature over bytes 0x000–0x08F and
the digest of the body. -/
def imageGood (b : List Byte) : Bool :=
  let body := b.drop 512
  Config.sha512 Config.firmwareKey == Config.firmwareKeyHash && bytesNat b 0 4 == 0x57465454 && zeroRange b 0x114 236
    && decide (512 ≤ b.length) && bytesNat b 8 8 == body.length && Config.verify Config.firmwareKey (part b 0 0x90) (part b 0x90 132)
    && part b 0x50 64 == Config.sha512 body
def imageDigest (b : List Byte) : List Byte := part b 0x50 64
def State.slotGood (s : State) : Bool := imageGood s.boot.slot
def State.slotDigest (s : State) : List Byte := imageDigest s.boot.slot

/-! ## Starts (R435, R437, R440) -/

/-- What no start keeps: the contents of the tiles and of the weight stores. -/
def State.offDie (s : State) : List Host.Cell :=
  s.mem.filter (fun c => match s.region c.1 with | .scratch _ _ => false | .port _ _ => false | .weights _ _ => false | _ => true)
/-- The module after the loss of a journal (R386): a tag with an import under way reports MIG 3. -/
def orphaned (l : List Tenant) : List Tenant :=
  (l.filter (fun t => t.mig == 2)).map (fun t => { newTenant t.tag t.key with mig := 3 })
/-- READY at the beginning of a start: WARM tells of the last completed one. -/
def State.readyOff (s : State) : Word := wNat (bit (s.boot.ready.getLsbD 63) * 2 ^ 63)
/-- A cold start keeps the image and the training set. A start whose image fails its check is in recovery. -/
def State.coldStart (s : State) : State :=
  let good := s.slotGood
  let b : Boot := { Boot.empty with
    ready := s.readyOff
    slot := s.boot.slot
    training := s.boot.training
    trainDigest := s.boot.trainDigest
    lastDigest := if good then s.slotDigest else []
    recovery := !good
    starting := true
    selfTest := true
    doneSteps := if good then [1] else [] }
  { State.reset with
    mem := s.offDie
    bad := s.bad
    tenants := orphaned s.tenants
    boot := if good then b.extend 0 s.slotDigest else b
    modid := s.modid
    cycle := s.cycle
    gtime := s.gtime
    firmware := s.firmware
    free := s.free
    agenda := s.agenda
    eager := s.eager }
/-- A tile of the kept tile tables, cleared. -/
def Tile.kept (k : Tile) : Tile := { Tile.empty with fenced := k.fenced }
/-- The cluster with nothing of a team. -/
def Cluster.kept (k : Cluster) : Cluster := { Cluster.empty with noPlace := k.noPlace, droops := k.droops, temp := k.temp, tempHigh := k.tempHigh }
/-- A tenant after a warm start: its teams are gone, and RUN or ERROR becomes LOCKED. -/
def Tenant.kept (t : Tenant) : Tenant := if t.state = .run ∨ t.state = .error then { t with state := .locked } else t
/-- The fabric after a warm start: no peer, and GEN as it was. -/
def Fabric.kept (f : Fabric) : Fabric := { Fabric.empty with portmap := f.portmap, gen := f.gen, down := f.down, nacks := f.nacks, replays := f.replays }
/-- A warm start with an image that passed. -/
def State.warmStart (s : State) (selfTest : Bool) : State :=
  let b : Boot := { s.boot with
    ready := s.readyOff
    recovery := false
    starting := true
    warm := true
    selfTest := selfTest
    doneSteps := [1]
    attempts := []
    failedSteps := [] }
  let s1 : State := { State.reset with
    tile := s.tile.kept
    here := s.here
    tiles := s.tiles.map (fun p => (p.1, p.2.kept))
    clusters := s.clusters.map (fun p => (p.1, p.2.kept))
    mem := s.offDie
    bad := s.bad
    objects := s.objects
    tenants := s.tenants.map Tenant.kept
    granules := s.granules
    dirty := s.dirty
    host := { HostIf.empty with operator := s.host.operator, ignored := s.host.ignored, replays := s.host.replays,
                                quarantines := s.host.quarantines }
    journal := s.journal
    fabric := s.fabric.kept
    boot := b
    modid := s.modid
    cycle := s.cycle
    gtime := s.gtime
    firmware := s.firmware
    nextTeam := s.nextTeam
    nextObj := s.nextObj
    free := s.free
    agenda := s.agenda
    eager := s.eager }
  (s.tenants.filter (fun t => s.teams.any (fun u => u.tenant == t.tag))).foldl (fun s t => s.reconfigure t.tag) s1
/-- The image a start message names: IMGLEN bytes from IMGADDR in host memory, 4 KiB aligned; none that leaves the host window. -/
def State.hostImage (s : State) (x : EvStart) : List Byte :=
  let a := x.imgaddr.toNat
  let n := x.imglen.toNat
  if a % 4096 = 0 ∧ a + n ≤ 2 ^ 44 then s.getHost a n else []
/-- A reload (R436): an image that passes goes into the slot, in this one step; one that fails leaves the slot, and the module is in
recovery. -/
def State.reload (s : State) (i : List Byte) : State :=
  if imageGood i then ({ s with boot := { s.boot with slot := i } }).coldStart
  else
    let s1 := s.coldStart
    { s1 with boot := { s1.boot with recovery := true, doneSteps := [], mr := Vector.replicate 8 mrZero, lastDigest := [] } }
/-- POWER_ON: a cold start with every flag 0. -/
def execPowerOn (_ : EvNone) (s : State) : Out := .next s.coldStart
/-- START_COLD; a module in recovery waits for a reload. -/
def execStartCold (x : EvStart) (s : State) : Out :=
  if x.flags.getLsbD 1 then .next (s.reload (s.hostImage x))
  else if s.boot.recovery then .next s
  else .next s.coldStart
/-- Whether a warm start stays warm: the same image, no trip, and no cold start under way. -/
def State.staysWarm (s : State) : Bool :=
  s.slotGood && s.slotDigest == s.boot.lastDigest && !s.boot.tripped && !(s.boot.starting && !s.boot.warm)
/-- START_WARM. -/
def execStartWarm (x : EvStart) (s : State) : Out :=
  if x.flags.getLsbD 1 then .next (s.reload (s.hostImage x))
  else if s.boot.recovery then .next s
  else if s.staysWarm then .next (s.warmStart (x.flags.getLsbD 0))
  else .next s.coldStart

/-! ## Steps and attempts (R437, R438) -/

/-- The steps of a start: 2 host port, 3 power, 4 trust tile, 8 Varpen, 16 + s stacks, 32 LPDDR, 48 + d dies. -/
def allSteps : List Nat := [2, 3, 4, 8, 32, 48, 49, 50, 51] ++ (List.range 12).map (· + 16)
def Boot.tries (b : Boot) (n : Nat) : Nat := assoc b.attempts n 0
/-- Whether a step may run now: its start is under way, the steps before it are done, and attempts are left. -/
def Boot.may (b : Boot) (n : Nat) (after : List Nat) : Bool :=
  b.starting && !b.tripped && !b.recovery && !b.doneSteps.contains n && after.all (fun k => b.doneSteps.contains k) && decide (b.tries n < 3)
/-- A start is over once every step is done, has failed three times or waits for one that has. -/
def Boot.over (b : Boot) : Bool :=
  let gone (n : Nat) : Bool := b.doneSteps.contains n || decide (3 ≤ b.tries n)
  allSteps.all (fun n => gone n || (n == 8 && allSteps.any (fun k => decide (16 ≤ k ∧ k < 28) && decide (3 ≤ b.tries k))))
def Boot.settle (b : Boot) : Boot :=
  if b.starting && b.over then { setReady b 63 b.warm with starting := false } else b
/-- A step is done, and its bit is set. -/
def Boot.finish (b : Boot) (n bitNo : Nat) (on : Bool) : Boot :=
  Boot.settle (setReady { b with doneSteps := b.doneSteps ++ [n] } bitNo on)
/-- An attempt fails; the third leaves the function failed. -/
def Boot.failStep (b : Boot) (n : Nat) : Boot :=
  let k := b.tries n + 1
  Boot.settle { b with attempts := assocSet b.attempts n k, failedSteps := if 3 ≤ k then b.failedSteps ++ [n] else b.failedSteps }

/-- HOST_PORT_TRAINING: HOST with a valid descriptor; in recovery HOST alone is set (R436). -/
def execHostPortTraining (x : EvAttempt) (s : State) : Out :=
  if s.boot.recovery then .next { s with boot := setReady s.boot 19 x.ok }
  else if s.boot.may 2 [1] then
    .next { s with boot := if x.ok then s.boot.finish 2 19 s.host.rings.isSome else s.boot.failStep 2 }
  else .next s
/-- POWER_MANAGER_START: each die's rail for the nominal clock, from 450 to 550 mV; every cluster at 1.1 GHz. -/
def State.nominal (s : State) : State :=
  (List.range 64).foldl (fun s c => s.setCluster c { s.getCluster c with clock := 15 }) s
def execPowerManagerStart (x : EvPower) (s : State) : Out :=
  if s.boot.may 3 [1] = false then .next s
  else if x.ok then
    .next { s.nominal with boot := { s.boot.finish 3 20 true with railMv := x.mv.map (fun v => max 450 (min 550 v)), railsOff := false } }
  else .next { s with boot := s.boot.failStep 3 }
/-- A step that fails restarts its own function cold (R438). -/
def Boot.again (b : Boot) (n : Nat) : Bool := b.tries n != 0
/-- A failed attempt clears the key store: the registers but MR0, and the operator's key (log entry 56). -/
def State.clearKeys (s : State) : State :=
  { s with boot := { s.boot with mr := Vector.ofFn (fun i => if i.val = 0 then vget s.boot.mr 0 mrZero else mrZero) }
           host := { s.host with operator := none, sessions := [] } }
/-- TRUST_TILE_START: MR1 takes Varpen's digest in a cold start and after a failed attempt; a warm start keeps the registers. -/
def execTrustTileStart (x : EvDigest) (s : State) : Out :=
  if s.boot.may 4 [1] = false then .next s
  else if x.ok then
    let b := s.boot.finish 4 17 true
    .next { s with boot := if s.boot.warm && !s.boot.again 4 then b else { b.extend 1 x.digest with varpenDigest := x.digest } }
  else .next { s.clearKeys with boot := s.clearKeys.boot.failStep 4 }

/-! ### Memory (R438, R439) -/

/-- Whether an address lies in stack `u`, or, for 12, in the LPDDR tier. -/
def State.inUnit (s : State) (u a : Nat) : Bool :=
  match s.region a with
  | .hbm => decide (u < 12) && fld a 0 46 / 2 ^ 12 % 12 == u
  | .lpddr => u == 12
  | _ => false
/-- A memory's contents are zeroed; with the LPDDR tier the journal goes (R376). -/
def State.zeroUnit (s : State) (u : Nat) : State :=
  let s1 := { s with mem := s.mem.filter (fun c => !s.inUnit u c.1), bad := s.bad.filter (fun a => !s.inUnit u a) }
  if u = 12 then { s1 with journal := [], tenants := s1.tenants.map (fun t => if t.mig = 2 then { t with mig := 3 } else t) } else s1
/-- Within 10 °C of the recorded temperature. -/
def near (a b : BitVec 16) : Bool := decide ((a.toInt - b.toInt).natAbs ≤ 80)
/-- The bytes of the training set behind its digest, and whether they pass the check (R438). -/
def trainBytes (v : Vector TrainRec 13) : List Byte := v.toList.flatMap (fun r => r.params ++ natBytes r.temp.toNat 2)
def Boot.trainOk (b : Boot) : Bool := b.trainDigest == Config.sha512 (trainBytes b.training)
/-- A warm start skips the training of a memory when the stored set passes its check and every sensor next to the memory reads near the
recorded temperature. -/
def Boot.skips (b : Boot) (n u : Nat) (sensors : List (BitVec 16)) : Bool :=
  let r := vget b.training u TrainRec.empty
  b.warm && b.tries n == 0 && r.valid && b.trainOk && sensors.all (fun t => near r.temp t)
/-- Whether an attempt passes: a stack swaps one data lane without an eye to its repair lane, and the LPDDR tier has none (R439). -/
def EvTrain.passes (x : Sys2Proof.EvTrain) (u : Nat) : Bool := x.ok && decide (x.dead.length ≤ if u < 12 then 1 else 0)
/-- The training set with the record of an attempt, and its new digest. -/
def Boot.record (b : Boot) (u : Nat) (x : Sys2Proof.EvTrain) : Boot :=
  let v := vset b.training u ⟨true, x.params, x.dead.head?, x.temp⟩
  { b with training := v, trainDigest := Config.sha512 (trainBytes v) }
/-- One attempt at a memory: skipped, trained with its record written, or failed with the function's state cleared. -/
def State.trainUnit (s : State) (n u : Nat) (x : Sys2Proof.EvTrain) : State :=
  let b := s.boot
  if b.skips n u x.sensors then { s with boot := b.finish n u true }
  else if EvTrain.passes x u then
    let s1 := if b.warm && b.tries n == 0 then s else s.zeroUnit u
    { s1 with boot := (b.finish n u true).record u x }
  else { s.zeroUnit u with boot := b.failStep n }
/-- HBM_STACK_TRAINING. -/
def execHbmStackTraining (x : EvTrain) (s : State) : Out :=
  if x.unit < 12 ∧ s.boot.may (16 + x.unit) [3] then .next (s.trainUnit (16 + x.unit) x.unit x) else .next s
/-- LPDDR_TRAINING. -/
def execLpddrTraining (x : EvTrain) (s : State) : Out :=
  if s.boot.may 32 [3] then .next (s.trainUnit 32 12 x) else .next s

/-! ### Dies and Varpen -/

/-- A tile that failed its self-test is fenced and remapped; without a free spare it stays fenced (R17, R438). -/
def State.mapOut (s : State) (lcid : Nat) : State :=
  match s.spareFor lcid with
  | some r => { s with boot := { s.boot with spares := s.boot.spares ++ [(lcid, r)] } }
  | none => (s.setTile lcid { s.getTile lcid with fenced := true }).setCluster (clusterOf lcid)
      { s.getCluster (clusterOf lcid) with noPlace := true }
/-- The failing tiles a die's training finds: none where no self-test runs; one runs after a failed attempt (R438). -/
def State.failing (s : State) (x : EvDie) : List Nat :=
  if s.boot.selfTest || s.boot.again (48 + x.die) then x.bad.filter (fun n => decide (n < 1024) && n / 256 == x.die && !(s.getTile n).fenced) else []
/-- A die whose bridges are trained: usable unless a failing tile found no spare. -/
def State.dieUp (s : State) (x : EvDie) : State :=
  let l := s.failing x
  let s1 := l.foldl State.mapOut s
  { s1 with boot := s1.boot.finish (48 + x.die) (13 + x.die) (l.all (fun n => !(s1.getTile n).fenced)) }
/-- DIE_TRAINING. -/
def execDieTraining (x : EvDie) (s : State) : Out :=
  if x.die < 4 ∧ s.boot.may (48 + x.die) [3] then
    if x.ok then .next (s.dieUp x) else .next { s with boot := s.boot.failStep (48 + x.die) }
  else .next s
/-- The code heap's granules belong to tag 0 (R353). -/
def heapGranules : List Granule := (List.range 0x2000).map (fun i => ⟨⟨0, 0, 0x5E000 + i⟩, 0, false⟩)
def State.ownHeap (s : State) : State :=
  { s with granules := s.granules.filter (fun g => !(g.tag == 0 && decide (0x5E000 ≤ g.id.index) && g.id.kind == 0)) ++ heapGranules }
/-- VARPEN_START. -/
def execVarpenStart (x : EvAttempt) (s : State) : Out :=
  if s.boot.may 8 (4 :: (List.range 12).map (· + 16)) then
    .next (if x.ok then { s.ownHeap with boot := s.boot.finish 8 18 true } else { s with boot := s.boot.failStep 8 })
  else .next s

/-! ## Power (R441–R443) -/

/-- A cluster whose team is stopping or restoring keeps its clock (R443). -/
def State.clockHeld (s : State) (c : Nat) : Bool :=
  match (s.getCluster c).holder.bind s.findTeam with
  | some t => (match t.stop with
    | .stopped => true
    | .named at_ => t.state == .running && (decide (at_ ≤ s.gtime) || t.restorePending)
    | .none => t.state == .running && t.restorePending
    | .saved => false)
  | none => false
def State.setClock (s : State) (c n : Nat) : State := s.setCluster c { s.getCluster c with clock := n }
/-- One step lower, to 0.55 GHz at the lowest. -/
def State.lower (s : State) (c : Nat) : State := s.setClock c (max 7 ((s.getCluster c).clock - 1))
/-- The clusters that may be lowered, in their order: those without a team, then by descending attributed power. -/
def State.lowerOrder (s : State) : List Nat :=
  let l := (List.range 64).filter (fun c => !s.clockHeld c && decide (7 < (s.getCluster c).clock))
  let idle := l.filter (fun c => !s.heldNow c)
  idle ++ sortBy (fun a b => decide ((s.getCluster b).power < (s.getCluster a).power)) (l.filter s.heldNow)
/-- Whether a measurement is beyond a limit of R441. -/
def overLimit (x : EvRail) : Bool := decide (3000000 < x.module ∨ 3000000 < x.core ∨ 6000000 < x.current)
/-- Within the limits a cluster's clock may rise, by what the implementation chooses; a hot one stays. -/
def State.raise (s : State) (c : Nat) : State :=
  let k := s.getCluster c
  if k.tempHigh then s else s.setClock c (min 15 (max k.clock (Config.clockRaise s.free c)))
/-- What the power manager does after a measurement: beyond a limit it lowers one or more clusters, as many as it finds needed. -/
def State.govern (s : State) (x : EvRail) : State :=
  let s1 := if overLimit x then (s.lowerOrder.take (1 + Config.clocksLowered s.free)).foldl State.lower s
    else (List.range 64).foldl State.raise s
  { s1 with free := s.free + 1 }
def State.attribute (s : State) (l : List Nat) : State :=
  (List.range 64).foldl (fun s c => s.setCluster c { s.getCluster c with power := l.getD c 0 }) s
/-- RAIL_MEASUREMENT. -/
def execRailMeasurement (x : EvRail) (s : State) : Out :=
  if s.boot.ready.getLsbD 20 then
    .next (({ s.attribute x.power with boot := { s.boot with modulePower := x.module, corePower := x.core, current := x.current } }).govern x)
  else .next s

/-! ## Monitors (R444, R445) -/

/-- DROOP: the clock is stretched for 64 cycles, which changes no result; the event is counted. -/
def execDroop (x : EvCluster) (s : State) : Out :=
  let k := s.getCluster x.cl
  let s1 := s.setCluster x.cl { k with droops := min 0xFFFF (k.droops + 1) }
  if s.heldNow x.cl then .next (s1.countAt (tileOfCluster x.cl 0) 4 5 1) else .next s1
/-- The larger of two temperatures. -/
def hotter (a b : BitVec 16) : BitVec 16 := if a.toInt < b.toInt then b else a
/-- C4 counter 4 keeps the highest temperature of the team's clusters. -/
def State.noteHeat (s : State) (c : Nat) (temp : BitVec 16) : State :=
  let n := tileOfCluster c 0
  let k := s.getTile n
  s.setTile n { k with ctr := vset k.ctr 36 (wNat (max (vget k.ctr 36 0).toNat temp.toInt.toNat)) }
/-- A reading of a cluster's sensor: 95 °C begins the throttling, below 93 °C ends it, 105 °C holds 0.55 GHz. -/
def State.heat (s : State) (c : Nat) (temp : BitVec 16) : State :=
  let k := s.getCluster c
  let high := if 760 ≤ temp.toInt then true else if temp.toInt < 744 then false else k.tempHigh
  let clock := if 840 ≤ temp.toInt ∧ s.clockHeld c = false then 7 else k.clock
  let since := if 880 ≤ temp.toInt then (match k.tripSince with | some a => some a | none => some s.gtime) else none
  let s1 := s.setCluster c { k with temp := temp, tempHigh := high, clock := clock, tripSince := since }
  { s1 with boot := { s1.boot with maxTemp := hotter s1.boot.maxTemp temp } }
/-- TEMP_THRESHOLD. -/
def execTempThreshold (x : EvTemp) (s : State) : Out :=
  let s1 := s.heat x.cl x.temp
  if s.heldNow x.cl then .next (s1.noteHeat x.cl x.temp) else .next s1
/-- THERMAL_STEP: one clock step lower while the cluster is hot; put off during a stop and its save. -/
def execThermalStep (x : EvCluster) (s : State) : Out :=
  if (s.getCluster x.cl).tempHigh ∧ s.clockHeld x.cl = false ∧ 7 < (s.getCluster x.cl).clock then .next (s.lower x.cl) else .next s
/-- Whether a cluster has been at or above 110 °C for 1 ms. -/
def State.tripping (s : State) : Bool :=
  (List.range 64).any (fun c => (s.getCluster c).tripSince.any (fun a => decide (a + 1000000 ≤ s.gtime)))
/-- The trip begins: the stop of every team is named for 10 µs later. -/
def State.nameTrip (s : State) : State :=
  { s with teams := s.teams.map (fun t => { t.commandStop (s.gtime + 10000) with byStop := false })
           boot := { s.boot with tripAt := some (s.gtime + 10000) } }
/-- The trip ends, once every team has stopped and its save is complete: a team that waits or is still being launched is left HALTED as
well, the rails go off and READY keeps only HOST. -/
def State.trip (s : State) : State :=
  { s with teams := s.teams.map (fun t => if t.state = .launching ∨ t.state = .waiting then { t with state := .halted } else t)
           boot := { s.boot with tripped := true, railsOff := true, tripAt := none, ready := s.boot.ready &&& wNat (2 ^ 19) } }
/-- THERMAL_TRIP. -/
def execThermalTrip (_ : EvNone) (s : State) : Out :=
  match s.boot.tripAt with
  | none => if s.tripping ∧ s.boot.tripped = false then .next s.nameTrip else .next s
  | some a => if a ≤ s.gtime ∧ s.teams.all (fun t => t.state != .running) then .next s.trip else .next s

end Sys2Proof.Machine
end

