-- ==== Sys2Proof/Machine/Scalar.lean ====
section
/-!
DEFINITION. Majors 0x01 to 0x06: integers, constants, comparisons, predicates, bit fields (R153–R163), and NOP (R297).
-/
namespace Sys2Proof.Machine
open Sys2Proof

/-! ## Shapes of effect -/

/-- g[d] from two g registers (R154: the sources are read before the destination is written). -/
def intBin (f : Word → Word → Word) (x : OpGGG) (s : State) : Out :=
  guarded x.q 8 s fun s => complete 8 (s.wrG x.d (f (s.rdG x.a) (s.rdG x.b)))
/-- g[d] from one. -/
def intUn (f : Word → Word) (x : OpGG) (s : State) : Out :=
  guarded x.q 8 s fun s => complete 8 (s.wrG x.d (f (s.rdG x.a)))
/-- g[d] from a g register and an i20 immediate (R158). -/
def intImm (f : Word → Word → Word) (x : OpGGI) (s : State) : Out :=
  guarded x.q 8 s fun s => complete 8 (s.wrG x.d (f (s.rdG x.a) (sext64 x.imm)))
/-- g[d] from a g register and a shift amount. -/
def shiftImm (f : Word → Nat → Word) (x : OpGGSh) (s : State) : Out :=
  guarded x.q 8 s fun s => complete 8 (s.wrG x.d (f (s.rdG x.a) x.n.toNat))
/-- p[d] from two g registers (R160). -/
def cmpBin (f : Word → Word → Bool) (x : OpPGG) (s : State) : Out :=
  guarded x.q 8 s fun s => complete 8 (s.wrP x.d (f (s.rdG x.a) (s.rdG x.b)))
/-- p[d] from a g register and an i20 immediate. -/
def cmpImm (f : Word → Word → Bool) (x : OpPGI) (s : State) : Out :=
  guarded x.q 8 s fun s => complete 8 (s.wrP x.d (f (s.rdG x.a) (sext64 x.imm)))
/-- p[d] from two predicates (R161). -/
def predBin (f : Bool → Bool → Bool) (x : OpPPP) (s : State) : Out :=
  guarded x.q 8 s fun s => complete 8 (s.wrP x.d (f (s.rdP x.a) (s.rdP x.b)))

/-! ## The functions of R156 and R157 -/

/-- Shift amounts use y[5:0]. -/
def amount (y : Word) : Nat := y.toNat % 64
def opMulhi (x y : Word) : Word := wInt (sI x * sI y / 2 ^ 64)
def opMulhn (x y : Word) : Word := wNat (x.toNat * y.toNat / 2 ^ 64)
/-- DIV: towards zero; all ones for a zero divisor (R157). -/
def opDiv (x y : Word) : Word := if y = 0 then BitVec.allOnes 64 else wInt (Int.tdiv (sI x) (sI y))
def opDivn (x y : Word) : Word := if y = 0 then BitVec.allOnes 64 else wNat (x.toNat / y.toNat)
/-- REM: x − y × q with q the DIV result; x for a zero divisor. -/
def opRem (x y : Word) : Word := if y = 0 then x else wInt (Int.tmod (sI x) (sI y))
def opRemn (x y : Word) : Word := if y = 0 then x else wNat (x.toNat % y.toNat)
def opShl (x : Word) (n : Nat) : Word := x <<< n
def opShr (x : Word) (n : Nat) : Word := x >>> n
def opShra (x : Word) (n : Nat) : Word := x.sshiftRight n
def opRotl (x : Word) (n : Nat) : Word := x.rotateLeft n
def opRotr (x : Word) (n : Nat) : Word := x.rotateRight n
def opMin (x y : Word) : Word := if sI x ≤ sI y then x else y
def opMinn (x y : Word) : Word := if x.toNat ≤ y.toNat then x else y
def opMax (x y : Word) : Word := if sI x ≤ sI y then y else x
def opMaxn (x y : Word) : Word := if x.toNat ≤ y.toNat then y else x
/-- Number of zero bits above the highest set bit of the low `n` bits. -/
def leadingZeros (x : Word) : Nat → Nat
  | 0 => 0
  | n + 1 => if x.getLsbD n then 0 else leadingZeros x n + 1
def opClz (x : Word) : Word := wNat (leadingZeros x 64)
/-- Number of zero bits below the lowest set bit, from bit `64 − n` on. -/
def trailingZeros (x : Word) : Nat → Nat
  | 0 => 0
  | n + 1 => if x.getLsbD (63 - n) then 0 else trailingZeros x n + 1
def opCtz (x : Word) : Word := wNat (trailingZeros x 64)
/-- Number of set bits among the low `n`. -/
def setBits {w : Nat} (x : BitVec w) : Nat → Nat
  | 0 => 0
  | n + 1 => (if x.getLsbD n then 1 else 0) + setBits x n
def opPopc (x : Word) : Word := wNat (setBits x 64)
/-- Bit i moved to bit 63 − i. -/
def revBits (x : Word) : Nat → Nat
  | 0 => 0
  | n + 1 => (if x.getLsbD (63 - n) then 2 ^ n else 0) + revBits x n
def opBrev (x : Word) : Word := wNat (revBits x 64)
/-- Byte i moved to byte 7 − i. -/
def revBytes (x : Nat) : Nat → Nat
  | 0 => 0
  | n + 1 => x / 2 ^ (8 * (7 - n)) % 256 * 2 ^ (8 * n) + revBytes x n
def opBswap (x : Word) : Word := wNat (revBytes x.toNat 8)

/-! ## INT (R156, R157) -/

def execAdd (x : OpGGG) (s : State) : Out := intBin (fun a b => a + b) x s
def execSubG (x : OpGGG) (s : State) : Out := intBin (fun a b => a - b) x s
def execMul (x : OpGGG) (s : State) : Out := intBin (fun a b => a * b) x s
def execMulhi (x : OpGGG) (s : State) : Out := intBin opMulhi x s
def execMulhn (x : OpGGG) (s : State) : Out := intBin opMulhn x s
def execDiv (x : OpGGG) (s : State) : Out := intBin opDiv x s
def execDivn (x : OpGGG) (s : State) : Out := intBin opDivn x s
def execRemS (x : OpGGG) (s : State) : Out := intBin opRem x s
def execRemn (x : OpGGG) (s : State) : Out := intBin opRemn x s
def execAndG (x : OpGGG) (s : State) : Out := intBin (fun a b => a &&& b) x s
def execOrG (x : OpGGG) (s : State) : Out := intBin (fun a b => a ||| b) x s
def execXorG (x : OpGGG) (s : State) : Out := intBin (fun a b => a ^^^ b) x s
def execAndn (x : OpGGG) (s : State) : Out := intBin (fun a b => a &&& ~~~b) x s
def execOrn (x : OpGGG) (s : State) : Out := intBin (fun a b => a ||| ~~~b) x s
def execShl (x : OpGGG) (s : State) : Out := intBin (fun a b => opShl a (amount b)) x s
def execShr (x : OpGGG) (s : State) : Out := intBin (fun a b => opShr a (amount b)) x s
def execShra (x : OpGGG) (s : State) : Out := intBin (fun a b => opShra a (amount b)) x s
def execRotl (x : OpGGG) (s : State) : Out := intBin (fun a b => opRotl a (amount b)) x s
def execRotr (x : OpGGG) (s : State) : Out := intBin (fun a b => opRotr a (amount b)) x s
def execMinS (x : OpGGG) (s : State) : Out := intBin opMin x s
def execMinn (x : OpGGG) (s : State) : Out := intBin opMinn x s
def execMaxS (x : OpGGG) (s : State) : Out := intBin opMax x s
def execMaxn (x : OpGGG) (s : State) : Out := intBin opMaxn x s
def execClz (x : OpGG) (s : State) : Out := intUn opClz x s
def execCtz (x : OpGG) (s : State) : Out := intUn opCtz x s
def execPopc (x : OpGG) (s : State) : Out := intUn opPopc x s
def execBrev (x : OpGG) (s : State) : Out := intUn opBrev x s
def execBswap (x : OpGG) (s : State) : Out := intUn opBswap x s

/-! ## INTI (R158) -/

def execAddi (x : OpGGI) (s : State) : Out := intImm (fun a b => a + b) x s
def execMuli (x : OpGGI) (s : State) : Out := intImm (fun a b => a * b) x s
def execAndi (x : OpGGI) (s : State) : Out := intImm (fun a b => a &&& b) x s
def execOri (x : OpGGI) (s : State) : Out := intImm (fun a b => a ||| b) x s
def execXori (x : OpGGI) (s : State) : Out := intImm (fun a b => a ^^^ b) x s
def execShli (x : OpGGSh) (s : State) : Out := shiftImm opShl x s
def execShri (x : OpGGSh) (s : State) : Out := shiftImm opShr x s
def execShrai (x : OpGGSh) (s : State) : Out := shiftImm opShra x s
def execRotli (x : OpGGSh) (s : State) : Out := shiftImm opRotl x s
def execMini (x : OpGGI) (s : State) : Out := intImm opMin x s
def execMaxi (x : OpGGI) (s : State) : Out := intImm opMax x s

/-! ## LIMM (R159) -/

def execLi (x : OpGI) (s : State) : Out := guarded x.q 8 s fun s => complete 8 (s.wrG x.d (sext64 x.imm))
def execLih (x : OpGGI) (s : State) : Out :=
  guarded x.q 8 s fun s => complete 8 (s.wrG x.d ((s.rdG x.a <<< 20) ||| zext64 x.imm))

/-! ## CMP (R160) -/

def execCmpeq (x : OpPGG) (s : State) : Out := cmpBin (fun a b => a == b) x s
def execCmpne (x : OpPGG) (s : State) : Out := cmpBin (fun a b => a != b) x s
def execCmplt (x : OpPGG) (s : State) : Out := cmpBin (fun a b => decide (sI a < sI b)) x s
def execCmple (x : OpPGG) (s : State) : Out := cmpBin (fun a b => decide (sI a ≤ sI b)) x s
def execCmpltn (x : OpPGG) (s : State) : Out := cmpBin (fun a b => decide (a.toNat < b.toNat)) x s
def execCmplen (x : OpPGG) (s : State) : Out := cmpBin (fun a b => decide (a.toNat ≤ b.toNat)) x s
def execCmpeqi (x : OpPGI) (s : State) : Out := cmpImm (fun a b => a == b) x s
def execCmplti (x : OpPGI) (s : State) : Out := cmpImm (fun a b => decide (sI a < sI b)) x s
def execTbit (x : OpPGBit) (s : State) : Out :=
  guarded x.q 8 s fun s => complete 8 (s.wrP x.d ((s.rdG x.a).getLsbD x.bit.toNat))

/-! ## PRED (R161) -/

def execPand (x : OpPPP) (s : State) : Out := predBin (fun a b => a && b) x s
def execPor (x : OpPPP) (s : State) : Out := predBin (fun a b => a || b) x s
def execPxor (x : OpPPP) (s : State) : Out := predBin (fun a b => a != b) x s
def execPandn (x : OpPPP) (s : State) : Out := predBin (fun a b => a && !b) x s
def execPmov (x : OpPP) (s : State) : Out := guarded x.q 8 s fun s => complete 8 (s.wrP x.d (s.rdP x.a))

/-! ## BITS (R162, R163) -/

/-- Bits [pos + len − 1 : pos] of a word, as a number. -/
def fieldOf (w : Word) (pos len : Nat) : Nat := fld w.toNat pos len
/-- A `len`-bit number widened with copies of its top bit. -/
def signed (len x : Nat) : Int := if 2 * x < 2 ^ len then x else (x : Int) - 2 ^ len
def execExtS (x : OpField) (s : State) : Out :=
  guarded x.q 8 s fun s =>
    complete 8 (s.wrG x.d (wInt (signed x.len.toNat (fieldOf (s.rdG x.a) x.pos.toNat x.len.toNat))))
def execExtn (x : OpField) (s : State) : Out :=
  guarded x.q 8 s fun s => complete 8 (s.wrG x.d (wNat (fieldOf (s.rdG x.a) x.pos.toNat x.len.toNat)))
/-- The old word with bits [pos + len − 1 : pos] replaced by the low bits of another. -/
def insertField (old src : Word) (pos len : Nat) : Word :=
  wNat (old.toNat - fieldOf old pos len * 2 ^ pos + src.toNat % 2 ^ len * 2 ^ pos)
def execIns (x : OpField) (s : State) : Out :=
  guarded x.q 8 s fun s => complete 8 (s.wrG x.d (insertField (s.rdG x.d) (s.rdG x.a) x.pos.toNat x.len.toNat))
def execSel (x : OpSel) (s : State) : Out :=
  guarded x.q 8 s fun s => complete 8 (s.wrG x.d (if s.rdP x.p then s.rdG x.a else s.rdG x.b))
def execPtog (x : OpGP) (s : State) : Out := guarded x.q 8 s fun s => complete 8 (s.wrG x.d (wNat (bit (s.rdP x.p))))
def execGtop (x : OpPG) (s : State) : Out := guarded x.q 8 s fun s => complete 8 (s.wrP x.d (s.rdG x.a != 0))

/-! ## NOP (R297) -/

def execNop (x : OpN) (s : State) : Out := guarded x.q 8 s fun s => complete 8 s

end Sys2Proof.Machine
end

