-- ==== Sys2Proof/Machine/Control.lean ====
section
/-!
DEFINITION. Majors 0x07 to 0x0A: fat pointers, extent checks, branches and hardware loops (R164–R178).
-/
namespace Sys2Proof.Machine
open Sys2Proof

/-! ## ADDR (R164–R167) -/

/-- A pointer moved by a number of steps of its own format. -/
def moveBy (w : Word) (n : Int) : Word := withAddr w (addr53 ((ptrAddr w : Int) + n * ((ptrFmt w).step : Int)))
def execAadd (x : OpAAG) (s : State) : Out :=
  guarded x.q 8 s fun s => complete 8 (s.wrA x.d (moveBy (s.rdA x.a) (sI (s.rdG x.b))))
def execAaddi (x : OpAAI) (s : State) : Out :=
  guarded x.q 8 s fun s => complete 8 (s.wrA x.d (moveBy (s.rdA x.a) x.imm.toInt))
def execAmov (x : OpAA) (s : State) : Out := guarded x.q 8 s fun s => complete 8 (s.wrA x.d (s.rdA x.a))

/-- The imm20 field of AFROM and AFMT, the detail of their BADADDR (R165–R167). -/
def OpAFrom.imm20 (x : OpAFrom) : Nat := x.ext.toNat + x.fmt.code * 2 ^ 5 + x.blog.toNat * 2 ^ 9
def OpAFmt.imm20 (x : OpAFmt) : Nat := x.fmt.code + x.blog.toNat * 2 ^ 5
/-- Bytes of an extent: L − B + 1. -/
def Extent.size (x : Extent) : Nat := x.limit.toNat + 1 - x.base.toNat

def execAfrom (x : OpAFrom) (s : State) : Out :=
  guarded x.q 8 s fun s =>
    let e := s.extent x.ext.toNat
    let o := (s.rdG x.a).toNat
    if !e.valid || decide (e.size < o) then trapAt codeExtent (extentDetail x.ext.toNat 2 0 0 o) 8 s
    else if !blogOk x.fmt x.blog then trapAt codeBadaddr (wNat (OpAFrom.imm20 x)) 8 s
    else complete 8 (s.wrA x.d (mkPtr x.fmt x.blog (e.base.toNat + o)))

def execAtog (x : OpAToG) (s : State) : Out :=
  guarded x.q 8 s fun s =>
    let e := s.extent x.ext.toNat
    let w := s.rdA x.a
    let t : Int := (ptrAddr w : Int) - (e.base.toNat : Int)
    if ptrReserved w ≠ 0 then trapAt codeBadaddr w 8 s
    else if !e.valid || decide (t < 0) || decide ((e.size : Int) < t) then
      trapAt codeExtent (extentDetail x.ext.toNat 3 0 0 t) 8 s
    else complete 8 (s.wrG x.d (wInt t))

def execAfmt (x : OpAFmt) (s : State) : Out :=
  guarded x.q 8 s fun s =>
    let w := s.rdA x.a
    if !blogOk x.fmt x.blog || ptrReserved w ≠ 0 then trapAt codeBadaddr (wNat (OpAFmt.imm20 x)) 8 s
    else complete 8 (s.wrA x.d (mkPtr x.fmt x.blog (ptrAddr w)))

def execAdiff (x : OpGAA) (s : State) : Out :=
  guarded x.q 8 s fun s =>
    let d : Int := (ptrAddr (s.rdA x.a) : Int) - (ptrAddr (s.rdA x.b) : Int)
    complete 8 (s.wrG x.d (wInt (Int.tdiv d ((ptrFmt (s.rdA x.a)).step : Int))))
def execAcmplt (x : OpPAA) (s : State) : Out :=
  guarded x.q 8 s fun s => complete 8 (s.wrP x.d (decide (ptrAddr (s.rdA x.a) < ptrAddr (s.rdA x.b))))

/-! ## CHK (R168, R169) -/

/-- A range lies within an extent that gives the rights needed (R169). -/
def Extent.allows (e : Extent) (need : BitVec 4) (first : Int) (n : Nat) : Bool :=
  n == 0 || (e.valid && decide ((e.base.toNat : Int) ≤ first ∧ first + n - 1 ≤ (e.limit.toNat : Int)) && e.rights &&& need == need)
/-- The group of a check that Varpen inserted for a base several extents reach, by the code it stands in and its place there; none for any
other (R341; DESIGN CHOICE: log entry 25). -/
def State.checkGroup (s : State) : Option CheckGroup :=
  let part := match s.cur with | .stage _ => 1 | .coll _ => 2 | _ => 0
  s.team.bind (fun t => (t.code.anyOf.find? (fun q => q.1 == part && q.2.1 == s.core.pc.toNat)).map (fun q => q.2.2))
/-- Whether a check passes: against its one extent (R168), or, in a group of one check per extent, when some extent of the group holds the
footprint (R341). -/
def State.checkPasses (s : State) (x : Nat) (need : BitVec 4) (base first : Int) (n : Nat) : Bool :=
  match s.checkGroup with
  | none => (s.extent x).allows need first n
  | some g =>
    let lo := match g.low with | some r => base + sI (s.rdG r) | none => first
    g.exts.any (fun y => (s.extent y).allows need lo (first + n - lo).toNat)
/-- The extent a failed check names: its own, or the lowest of its group (R341). -/
def State.checkNames (s : State) (x : Nat) : Nat := match s.checkGroup with | some g => g.exts.headD x | none => x
/-- The check of a range at `first` from a base; `src` is 0 for BCHK and 1 for BCHKI. -/
def checkExtent (x src : Nat) (need : BitVec 4) (base first : Int) (n : Nat) (s : State) : Out :=
  if s.checkPasses x need base first n then complete 8 s
  else trapAt codeExtent (extentDetail (s.checkNames x) src need n (first - ((s.extent (s.checkNames x)).base.toNat : Int))) 8 s

def execBchk (x : OpChk) (s : State) : Out :=
  guarded x.q 8 s fun s =>
    if ptrReserved (s.rdA x.a) ≠ 0 then trapAt codeBadaddr (s.rdA x.a) 8 s
    else checkExtent x.ext.toNat 0 x.need (ptrAddr (s.rdA x.a)) (ptrAddr (s.rdA x.a)) (s.rdG x.b).toNat s
def execBchki (x : OpChkI) (s : State) : Out :=
  guarded x.q 8 s fun s =>
    if ptrReserved (s.rdA x.a) ≠ 0 then trapAt codeBadaddr (s.rdA x.a) 8 s
    else checkExtent x.ext.toNat 1 x.need (ptrAddr (s.rdA x.a)) ((ptrAddr (s.rdA x.a) : Int) + sI (s.rdG x.b)) x.len.toNat s

/-! ## BR (R170–R172) -/

/-- Whether a target lies in the body of the innermost active level: the addresses of its instructions run from ls to le. -/
def LoopState.inBody (l : LoopState) (t : Word) : Bool :=
  let k := l.active - 1
  decide ((vget l.ls k 0).toNat ≤ t.toNat ∧ t.toNat ≤ (vget l.le k 0).toNat)

/-- The handler region of the sealed version the team runs (R392). -/
def State.inHandler (s : State) (t : Nat) : Bool :=
  match s.team with
  | some tm => match tm.code.handler with
    | some (lo, hi) => decide (lo ≤ t ∧ t < hi)
    | none => false
  | none => false

/-- Whether a branch of the collective engine is the firmware's return (R266). DESIGN CHOICE (log entry 21): the firmware's a14 points one
word past its last, and any taken branch to that address, of any form and by any register, is the return; it is tested before BADADDR. -/
def State.returns (s : State) (t : Nat) : Bool :=
  match s.cur, s.team with
  | .coll _, some tm => t == tm.collExit
  | _, _ => false
/-- A call that reaches a stub is the one HEAPFULL names (R347, R388). -/
def State.called (s : State) (t : Nat) : State :=
  if s.onMain && (s.team.bind (fun tm => tm.code.linkOf t)).isSome then { s with tile := { s.tile with call := s.core.pc } } else s
/-- A taken branch to a target, with a link written when the branch has one (R171); leaving the handler region leaves the
handler (R392). -/
def branchTo (link : Option AReg) (t : Nat) (s : State) : Out :=
  if s.returns t then .next (s.retire.firmwareReturn s.cluster)
  else if t % 8 ≠ 0 then trapAt codeAlign (wNat t) 8 s
  else if !s.inCode t then trapAt codeBadaddr (wNat t) 8 s
  else if s.loopTests && !LoopState.inBody s.tile.loop (wNat t) then
    trapAt codeLoopuse (wNat (5 + 256 * (s.tile.loop.active - 1))) 8 s
  else
    let s0 := s.called t
    let s1 := match link with
      | some r => s0.wrA r (wNat ((s.core.pc.toNat + 8) % 2 ^ 53))
      | none => s0
    let s2 := if s.onMain && s.tile.handler.hin && !s.inHandler t then s1.leaveHandler else s1
    completeAt (wNat t) s2

/-- The target of BR and BRL. -/
def State.relTarget (s : State) (off : BitVec 32) : Nat := addr53 ((s.core.pc.toNat : Int) + 8 * off.toInt)
/-- The target of JR and JRL. -/
def State.regTarget (s : State) (tr : AReg) (off : BitVec 32) : Nat := addr53 ((ptrAddr (s.rdA tr) : Int) + 8 * off.toInt)

def execBr (x : OpBr) (s : State) : Out := guarded x.q 8 s fun s => branchTo none (s.relTarget x.off) s
def execBrl (x : OpBrl) (s : State) : Out := guarded x.q 8 s fun s => branchTo (some x.ln) (s.relTarget x.off) s
def execJr (x : OpJr) (s : State) : Out :=
  guarded x.q 8 s fun s =>
    if ptrReserved (s.rdA x.tr) ≠ 0 then trapAt codeBadaddr (s.rdA x.tr) 8 s
    else branchTo none (s.regTarget x.tr x.off) s
def execJrl (x : OpJrl) (s : State) : Out :=
  guarded x.q 8 s fun s =>
    if ptrReserved (s.rdA x.tr) ≠ 0 then trapAt codeBadaddr (s.rdA x.tr) 8 s
    else branchTo (some x.ln) (s.regTarget x.tr x.off) s

/-! ## LOOP (R173–R178) -/

/-- The bytes of the instruction at an address of the code, by its size field (R109). -/
def State.lenAt (s : State) (a : Nat) : Nat := if fld (s.codeWord a).toNat 62 2 = 1 then 16 else 8
/-- The address of the instruction `n` instructions after the one at `a`. -/
def State.skipCode (s : State) (a : Nat) : Nat → Nat
  | 0 => a
  | n + 1 => s.skipCode (a + s.lenAt a) n

/-- LOOPUSE with its cause and level (R177). -/
def loopUse (cause lv : Nat) (s : State) : Out := trapAt codeLoopuse (wNat (cause + 256 * lv)) 8 s

/-- Execution continues after a body whose last instruction is at `last`, the end-of-body step applied to the enclosing levels that end
there (R174 step 5, R176 steps 3 and 4). -/
def continueAfter (last : Nat) (s : State) : Out :=
  let r := s.endOfBody (wNat last)
  completeAt (r.2.getD (wNat (last + s.lenAt last))) r.1

/-- LOOP and LOOPI with their count read (R174). DESIGN CHOICE (log entry 49): step 1 tests whether the handler was entered from inside a
body, so a LOOP nested in a loop that the handler itself began is no cause 6. -/
def enterLoop (lv len n : Nat) (s : State) : Out :=
  let l := s.tile.loop
  let first := s.core.pc.toNat + 8
  let last := s.skipCode first (len - 1)
  if s.tile.handler.inBody && l.active != 0 then loopUse 6 lv s
  else if l.active ≠ lv then loopUse 1 lv s
  else if 2 ^ 32 ≤ n then loopUse 3 lv s
  else if 0 < lv ∧ (vget l.le (lv - 1) 0).toNat < last then loopUse 2 lv s
  else if n = 0 then continueAfter last s
  else
    completeAt (wNat first) { s with tile := { s.tile with loop :=
      { lc := vset l.lc lv (BitVec.ofNat 32 n), ls := vset l.ls lv (wNat first), le := vset l.le lv (wNat last), active := lv + 1 } } }

def execLoop (x : OpLoop) (s : State) : Out := enterLoop x.lv.toNat x.len.toNat (s.rdG x.cnt).toNat s
def execLoopi (x : OpLoopI) (s : State) : Out := enterLoop x.lv.toNat x.len.toNat x.icnt.toNat s

/-- The counters of levels `lv` up to the active count, cleared. -/
def clearLevels (lc : Vector (BitVec 32) 4) (lv : Nat) : Nat → Vector (BitVec 32) 4
  | 0 => lc
  | k + 1 => clearLevels (if lv ≤ k then vset lc k 0 else lc) lv k

def execLbrk (x : OpLbrk) (s : State) : Out :=
  guarded x.q 8 s fun s =>
    let l := s.tile.loop
    let lv := x.lv.toNat
    if l.active ≤ lv then loopUse 4 lv s
    else
      let last := (vget l.le lv 0).toNat
      continueAfter last { s with tile := { s.tile with loop := { l with lc := clearLevels l.lc lv l.active, active := lv } } }

end Sys2Proof.Machine
end

