-- ==== Sys2Proof/Machine/Dispatch.lean ====
section
/-!
DEFINITION. One arm per constructor of `Instr`: its meaning.
-/
namespace Sys2Proof.Machine
open Sys2Proof

def exec (i : Instr) (s : State) : Host.Outcome State Fault Refusal :=
  match i with
  | .add x => Sys2Proof.Machine.execAdd x s
  | .subG x => Sys2Proof.Machine.execSubG x s
  | .mul x => Sys2Proof.Machine.execMul x s
  | .mulhi x => Sys2Proof.Machine.execMulhi x s
  | .mulhn x => Sys2Proof.Machine.execMulhn x s
  | .div x => Sys2Proof.Machine.execDiv x s
  | .divn x => Sys2Proof.Machine.execDivn x s
  | .remS x => Sys2Proof.Machine.execRemS x s
  | .remn x => Sys2Proof.Machine.execRemn x s
  | .andG x => Sys2Proof.Machine.execAndG x s
  | .orG x => Sys2Proof.Machine.execOrG x s
  | .xorG x => Sys2Proof.Machine.execXorG x s
  | .andn x => Sys2Proof.Machine.execAndn x s
  | .orn x => Sys2Proof.Machine.execOrn x s
  | .shl x => Sys2Proof.Machine.execShl x s
  | .shr x => Sys2Proof.Machine.execShr x s
  | .shra x => Sys2Proof.Machine.execShra x s
  | .rotl x => Sys2Proof.Machine.execRotl x s
  | .rotr x => Sys2Proof.Machine.execRotr x s
  | .minS x => Sys2Proof.Machine.execMinS x s
  | .minn x => Sys2Proof.Machine.execMinn x s
  | .maxS x => Sys2Proof.Machine.execMaxS x s
  | .maxn x => Sys2Proof.Machine.execMaxn x s
  | .clz x => Sys2Proof.Machine.execClz x s
  | .ctz x => Sys2Proof.Machine.execCtz x s
  | .popc x => Sys2Proof.Machine.execPopc x s
  | .brev x => Sys2Proof.Machine.execBrev x s
  | .bswap x => Sys2Proof.Machine.execBswap x s
  | .addi x => Sys2Proof.Machine.execAddi x s
  | .muli x => Sys2Proof.Machine.execMuli x s
  | .andi x => Sys2Proof.Machine.execAndi x s
  | .ori x => Sys2Proof.Machine.execOri x s
  | .xori x => Sys2Proof.Machine.execXori x s
  | .shli x => Sys2Proof.Machine.execShli x s
  | .shri x => Sys2Proof.Machine.execShri x s
  | .shrai x => Sys2Proof.Machine.execShrai x s
  | .rotli x => Sys2Proof.Machine.execRotli x s
  | .mini x => Sys2Proof.Machine.execMini x s
  | .maxi x => Sys2Proof.Machine.execMaxi x s
  | .li x => Sys2Proof.Machine.execLi x s
  | .lih x => Sys2Proof.Machine.execLih x s
  | .cmpeq x => Sys2Proof.Machine.execCmpeq x s
  | .cmpne x => Sys2Proof.Machine.execCmpne x s
  | .cmplt x => Sys2Proof.Machine.execCmplt x s
  | .cmple x => Sys2Proof.Machine.execCmple x s
  | .cmpltn x => Sys2Proof.Machine.execCmpltn x s
  | .cmplen x => Sys2Proof.Machine.execCmplen x s
  | .cmpeqi x => Sys2Proof.Machine.execCmpeqi x s
  | .cmplti x => Sys2Proof.Machine.execCmplti x s
  | .tbit x => Sys2Proof.Machine.execTbit x s
  | .pand x => Sys2Proof.Machine.execPand x s
  | .por x => Sys2Proof.Machine.execPor x s
  | .pxor x => Sys2Proof.Machine.execPxor x s
  | .pandn x => Sys2Proof.Machine.execPandn x s
  | .pmov x => Sys2Proof.Machine.execPmov x s
  | .extS x => Sys2Proof.Machine.execExtS x s
  | .extn x => Sys2Proof.Machine.execExtn x s
  | .ins x => Sys2Proof.Machine.execIns x s
  | .sel x => Sys2Proof.Machine.execSel x s
  | .ptog x => Sys2Proof.Machine.execPtog x s
  | .gtop x => Sys2Proof.Machine.execGtop x s
  | .aadd x => Sys2Proof.Machine.execAadd x s
  | .aaddi x => Sys2Proof.Machine.execAaddi x s
  | .amov x => Sys2Proof.Machine.execAmov x s
  | .afrom x => Sys2Proof.Machine.execAfrom x s
  | .atog x => Sys2Proof.Machine.execAtog x s
  | .afmt x => Sys2Proof.Machine.execAfmt x s
  | .adiff x => Sys2Proof.Machine.execAdiff x s
  | .acmplt x => Sys2Proof.Machine.execAcmplt x s
  | .bchk x => Sys2Proof.Machine.execBchk x s
  | .bchki x => Sys2Proof.Machine.execBchki x s
  | .br x => Sys2Proof.Machine.execBr x s
  | .brl x => Sys2Proof.Machine.execBrl x s
  | .jr x => Sys2Proof.Machine.execJr x s
  | .jrl x => Sys2Proof.Machine.execJrl x s
  | .loop x => Sys2Proof.Machine.execLoop x s
  | .loopi x => Sys2Proof.Machine.execLoopi x s
  | .lbrk x => Sys2Proof.Machine.execLbrk x s
  | .vadd x => Sys2Proof.Machine.execVadd x s
  | .vsub x => Sys2Proof.Machine.execVsub x s
  | .vmul x => Sys2Proof.Machine.execVmul x s
  | .vfma x => Sys2Proof.Machine.execVfma x s
  | .vfms x => Sys2Proof.Machine.execVfms x s
  | .vfnma x => Sys2Proof.Machine.execVfnma x s
  | .vmin x => Sys2Proof.Machine.execVmin x s
  | .vmax x => Sys2Proof.Machine.execVmax x s
  | .vabs x => Sys2Proof.Machine.execVabs x s
  | .vneg x => Sys2Proof.Machine.execVneg x s
  | .vdiv x => Sys2Proof.Machine.execVdiv x s
  | .vsqrt x => Sys2Proof.Machine.execVsqrt x s
  | .vscl x => Sys2Proof.Machine.execVscl x s
  | .viadd x => Sys2Proof.Machine.execViadd x s
  | .visub x => Sys2Proof.Machine.execVisub x s
  | .vimul x => Sys2Proof.Machine.execVimul x s
  | .vimulhi x => Sys2Proof.Machine.execVimulhi x s
  | .vimin x => Sys2Proof.Machine.execVimin x s
  | .vimax x => Sys2Proof.Machine.execVimax x s
  | .vand x => Sys2Proof.Machine.execVand x s
  | .vor x => Sys2Proof.Machine.execVor x s
  | .vxor x => Sys2Proof.Machine.execVxor x s
  | .vshl x => Sys2Proof.Machine.execVshl x s
  | .vshr x => Sys2Proof.Machine.execVshr x s
  | .vshra x => Sys2Proof.Machine.execVshra x s
  | .vpopc x => Sys2Proof.Machine.execVpopc x s
  | .viadds x => Sys2Proof.Machine.execViadds x s
  | .vcmpeq x => Sys2Proof.Machine.execVcmpeq x s
  | .vcmplt x => Sys2Proof.Machine.execVcmplt x s
  | .vcmple x => Sys2Proof.Machine.execVcmple x s
  | .vclass x => Sys2Proof.Machine.execVclass x s
  | .vsel x => Sys2Proof.Machine.execVsel x s
  | .wand x => Sys2Proof.Machine.execWand x s
  | .wor x => Sys2Proof.Machine.execWor x s
  | .wnot x => Sys2Proof.Machine.execWnot x s
  | .vexp2 x => Sys2Proof.Machine.execVexp2 x s
  | .vlog2 x => Sys2Proof.Machine.execVlog2 x s
  | .vrcp x => Sys2Proof.Machine.execVrcp x s
  | .vrsq x => Sys2Proof.Machine.execVrsq x s
  | .vtanh x => Sys2Proof.Machine.execVtanh x s
  | .vsigm x => Sys2Proof.Machine.execVsigm x s
  | .vrsum x => Sys2Proof.Machine.execVrsum x s
  | .vrmax x => Sys2Proof.Machine.execVrmax x s
  | .vrmin x => Sys2Proof.Machine.execVrmin x s
  | .vrdot x => Sys2Proof.Machine.execVrdot x s
  | .vscan x => Sys2Proof.Machine.execVscan x s
  | .vmov x => Sys2Proof.Machine.execVmov x s
  | .vbcast x => Sys2Proof.Machine.execVbcast x s
  | .vshuf x => Sys2Proof.Machine.execVshuf x s
  | .vrot x => Sys2Proof.Machine.execVrot x s
  | .vextr x => Sys2Proof.Machine.execVextr x s
  | .vinsr x => Sys2Proof.Machine.execVinsr x s
  | .vcompress x => Sys2Proof.Machine.execVcompress x s
  | .vexpand x => Sys2Proof.Machine.execVexpand x s
  | .vcswap x => Sys2Proof.Machine.execVcswap x s
  | .vmatch x => Sys2Proof.Machine.execVmatch x s
  | .vcvt x => Sys2Proof.Machine.execVcvt x s
  | .vquant x => Sys2Proof.Machine.execVquant x s
  | .vdeq x => Sys2Proof.Machine.execVdeq x s
  | .vpack x => Sys2Proof.Machine.execVpack x s
  | .vunpack x => Sys2Proof.Machine.execVunpack x s
  | .vld x => Sys2Proof.Machine.execVld x s
  | .vst x => Sys2Proof.Machine.execVst x s
  | .vlds x => Sys2Proof.Machine.execVlds x s
  | .vsts x => Sys2Proof.Machine.execVsts x s
  | .vgath x => Sys2Proof.Machine.execVgath x s
  | .vscat x => Sys2Proof.Machine.execVscat x s
  | .vldk x => Sys2Proof.Machine.execVldk x s
  | .scfg x => Sys2Proof.Machine.execScfg x s
  | .sdim x => Sys2Proof.Machine.execSdim x s
  | .son x => Sys2Proof.Machine.execSon x s
  | .soff x => Sys2Proof.Machine.execSoff x s
  | .swait x => Sys2Proof.Machine.execSwait x s
  | .rep x => Sys2Proof.Machine.execRep x s
  | .repw x => Sys2Proof.Machine.execRepw x s
  | .repeatPassIssue x => Sys2Proof.Machine.execRepeatPassIssue x s
  | .ld x => Sys2Proof.Machine.execLd x s
  | .st x => Sys2Proof.Machine.execSt x s
  | .lds x => Sys2Proof.Machine.execLds x s
  | .feset x => Sys2Proof.Machine.execFeset x s
  | .feclr x => Sys2Proof.Machine.execFeclr x s
  | .fepoll x => Sys2Proof.Machine.execFepoll x s
  | .amoadd x => Sys2Proof.Machine.execAmoadd x s
  | .amoand x => Sys2Proof.Machine.execAmoand x s
  | .amoor x => Sys2Proof.Machine.execAmoor x s
  | .amoxor x => Sys2Proof.Machine.execAmoxor x s
  | .amomin x => Sys2Proof.Machine.execAmomin x s
  | .amomax x => Sys2Proof.Machine.execAmomax x s
  | .amominn x => Sys2Proof.Machine.execAmominn x s
  | .amomaxn x => Sys2Proof.Machine.execAmomaxn x s
  | .amoswp x => Sys2Proof.Machine.execAmoswp x s
  | .amocas x => Sys2Proof.Machine.execAmocas x s
  | .amofadd x => Sys2Proof.Machine.execAmofadd x s
  | .amoinc x => Sys2Proof.Machine.execAmoinc x s
  | .fence x => Sys2Proof.Machine.execFence x s
  | .fencee x => Sys2Proof.Machine.execFencee x s
  | .qpush x => Sys2Proof.Machine.execQpush x s
  | .qpop x => Sys2Proof.Machine.execQpop x s
  | .qpopw x => Sys2Proof.Machine.execQpopw x s
  | .qtry x => Sys2Proof.Machine.execQtry x s
  | .qcnt x => Sys2Proof.Machine.execQcnt x s
  | .ksend x => Sys2Proof.Machine.execKsend x s
  | .kcfg x => Sys2Proof.Machine.execKcfg x s
  | .kflush x => Sys2Proof.Machine.execKflush x s
  | .cpy x => Sys2Proof.Machine.execCpy x s
  | .cpy2 x => Sys2Proof.Machine.execCpy2 x s
  | .cpyw x => Sys2Proof.Machine.execCpyw x s
  | .estat x => Sys2Proof.Machine.execEstat x s
  | .ewait x => Sys2Proof.Machine.execEwait x s
  | .coll x => Sys2Proof.Machine.execColl x s
  | .cstat x => Sys2Proof.Machine.execCstat x s
  | .cwait x => Sys2Proof.Machine.execCwait x s
  | .wld x => Sys2Proof.Machine.execWld x s
  | .iwin x => Sys2Proof.Machine.execIwin x s
  | .xmark x => Sys2Proof.Machine.execXmark x s
  | .xwait x => Sys2Proof.Machine.execXwait x s
  | .xpeer x => Sys2Proof.Machine.execXpeer x s
  | .tspawn x => Sys2Proof.Machine.execTspawn x s
  | .tdec x => Sys2Proof.Machine.execTdec x s
  | .tend x => Sys2Proof.Machine.execTend x s
  | .stageTend x => Sys2Proof.Machine.execStageTend x s
  | .tyield x => Sys2Proof.Machine.execTyield x s
  | .thint x => Sys2Proof.Machine.execThint x s
  | .bar x => Sys2Proof.Machine.execBar x s
  | .barw x => Sys2Proof.Machine.execBarw x s
  | .sstep x => Sys2Proof.Machine.execSstep x s
  | .wfe x => Sys2Proof.Machine.execWfe x s
  | .wfed x => Sys2Proof.Machine.execWfed x s
  | .sev x => Sys2Proof.Machine.execSev x s
  | .gtime x => Sys2Proof.Machine.execGtime x s
  | .srr x => Sys2Proof.Machine.execSrr x s
  | .srw x => Sys2Proof.Machine.execSrw x s
  | .trapI x => Sys2Proof.Machine.execTrapI x s
  | .tret x => Sys2Proof.Machine.execTret x s
  | .nop x => Sys2Proof.Machine.execNop x s
  | .brk x => Sys2Proof.Machine.execBrk x s
  | .rcfg x => Sys2Proof.Machine.execRcfg x s
  | .rtol x => Sys2Proof.Machine.execRtol x s
  | .rget x => Sys2Proof.Machine.execRget x s
  | .radv x => Sys2Proof.Machine.execRadv x s
  | .rwait x => Sys2Proof.Machine.execRwait x s
  | .rquant x => Sys2Proof.Machine.execRquant x s
  | .rfill x => Sys2Proof.Machine.execRfill x s
  | .rfillw x => Sys2Proof.Machine.execRfillw x s
  | .fillPublish x => Sys2Proof.Machine.execFillPublish x s
  | .mma x => Sys2Proof.Machine.execMma x s
  | .mmaf x => Sys2Proof.Machine.execMmaf x s
  | .msr x => Sys2Proof.Machine.execMsr x s
  | .mzero x => Sys2Proof.Machine.execMzero x s
  | .mverd x => Sys2Proof.Machine.execMverd x s
  | .mstat x => Sys2Proof.Machine.execMstat x s
  | .mdrain x => Sys2Proof.Machine.execMdrain x s
  | .mload x => Sys2Proof.Machine.execMload x s
  | .anchorRefetch x => Sys2Proof.Machine.execAnchorRefetch x s
  | .mmaCommit x => Sys2Proof.Machine.execMmaCommit x s
  | .loadStep x => Sys2Proof.Machine.execLoadStep x s
  | .storeStep x => Sys2Proof.Machine.execStoreStep x s
  | .ackStep x => Sys2Proof.Machine.execAckStep x s
  | .queuePushStep x => Sys2Proof.Machine.execQueuePushStep x s
  | .qpushResend x => Sys2Proof.Machine.execQpushResend x s
  | .queuePopStep x => Sys2Proof.Machine.execQueuePopStep x s
  | .sevSet x => Sys2Proof.Machine.execSevSet x s
  | .ksendDelivery x => Sys2Proof.Machine.execKsendDelivery x s
  | .engineRead x => Sys2Proof.Machine.execEngineRead x s
  | .engineWrite x => Sys2Proof.Machine.execEngineWrite x s
  | .engineDone x => Sys2Proof.Machine.execEngineDone x s
  | .engineFault x => Sys2Proof.Machine.execEngineFault x s
  | .gateArrive x => Sys2Proof.Machine.execGateArrive x s
  | .gateDepart x => Sys2Proof.Machine.execGateDepart x s
  | .barrierComplete x => Sys2Proof.Machine.execBarrierComplete x s
  | .barwTimeout x => Sys2Proof.Machine.execBarwTimeout x s
  | .wfedTimeout x => Sys2Proof.Machine.execWfedTimeout x s
  | .xwaitTimeout x => Sys2Proof.Machine.execXwaitTimeout x s
  | .drainMarker x => Sys2Proof.Machine.execDrainMarker x s
  | .yieldTimeout x => Sys2Proof.Machine.execYieldTimeout x s
  | .continuationReady x => Sys2Proof.Machine.execContinuationReady x s
  | .dispatch x => Sys2Proof.Machine.execDispatch x s
  | .continuationMigrate x => Sys2Proof.Machine.execContinuationMigrate x s
  | .migrationReturn x => Sys2Proof.Machine.execMigrationReturn x s
  | .pcntDecrement x => Sys2Proof.Machine.execPcntDecrement x s
  | .launchEntryArrival x => Sys2Proof.Machine.execLaunchEntryArrival x s
  | .stageStart x => Sys2Proof.Machine.execStageStart x s
  | .cloadRefresh x => Sys2Proof.Machine.execCloadRefresh x s
  | .sliceBoundary x => Sys2Proof.Machine.execSliceBoundary x s
  | .solsticeStop x => Sys2Proof.Machine.execSolsticeStop x s
  | .contextSave x => Sys2Proof.Machine.execContextSave x s
  | .restore x => Sys2Proof.Machine.execRestore x s
  | .vigilExpiry x => Sys2Proof.Machine.execVigilExpiry x s
  | .intercalaryWindowEnd x => Sys2Proof.Machine.execIntercalaryWindowEnd x s
  | .translationPublish x => Sys2Proof.Machine.execTranslationPublish x s
  | .retranslation x => Sys2Proof.Machine.execRetranslation x s
  | .counterCopy x => Sys2Proof.Machine.execCounterCopy x s
  | .counterRelease x => Sys2Proof.Machine.execCounterRelease x s
  | .doorbellInit x => Sys2Proof.Machine.execDoorbellInit x s
  | .doorbellTail x => Sys2Proof.Machine.execDoorbellTail x s
  | .responsePost x => Sys2Proof.Machine.execResponsePost x s
  | .getVersion x => Sys2Proof.Machine.execGetVersion x s
  | .getCapabilities x => Sys2Proof.Machine.execGetCapabilities x s
  | .negotiateAlgorithms x => Sys2Proof.Machine.execNegotiateAlgorithms x s
  | .getDigests x => Sys2Proof.Machine.execGetDigests x s
  | .getCertificate x => Sys2Proof.Machine.execGetCertificate x s
  | .challenge x => Sys2Proof.Machine.execChallenge x s
  | .getMeasurements x => Sys2Proof.Machine.execGetMeasurements x s
  | .keyExchange x => Sys2Proof.Machine.execKeyExchange x s
  | .finish x => Sys2Proof.Machine.execFinish x s
  | .keyUpdate x => Sys2Proof.Machine.execKeyUpdate x s
  | .heartbeat x => Sys2Proof.Machine.execHeartbeat x s
  | .endSession x => Sys2Proof.Machine.execEndSession x s
  | .admitObject x => Sys2Proof.Machine.execAdmitObject x s
  | .unloadObject x => Sys2Proof.Machine.execUnloadObject x s
  | .unloadObjectForced x => Sys2Proof.Machine.execUnloadObjectForced x s
  | .createTenant x => Sys2Proof.Machine.execCreateTenant x s
  | .setExtents x => Sys2Proof.Machine.execSetExtents x s
  | .revokeExtent x => Sys2Proof.Machine.execRevokeExtent x s
  | .moveExtent x => Sys2Proof.Machine.execMoveExtent x s
  | .launchTeam x => Sys2Proof.Machine.execLaunchTeam x s
  | .stopTeam x => Sys2Proof.Machine.execStopTeam x s
  | .stopTeamResume x => Sys2Proof.Machine.execStopTeamResume x s
  | .resetTenant x => Sys2Proof.Machine.execResetTenant x s
  | .granuleZeroed x => Sys2Proof.Machine.execGranuleZeroed x s
  | .setCalendar x => Sys2Proof.Machine.execSetCalendar x s
  | .readCounters x => Sys2Proof.Machine.execReadCounters x s
  | .readFaults x => Sys2Proof.Machine.execReadFaults x s
  | .lock x => Sys2Proof.Machine.execLock x s
  | .unlock x => Sys2Proof.Machine.execUnlock x s
  | .attest x => Sys2Proof.Machine.execAttest x s
  | .migrateInOffer x => Sys2Proof.Machine.execMigrateInOffer x s
  | .migrateOutSend x => Sys2Proof.Machine.execMigrateOutSend x s
  | .migrateInImport x => Sys2Proof.Machine.execMigrateInImport x s
  | .migrateOutCommit x => Sys2Proof.Machine.execMigrateOutCommit x s
  | .migrateInConfirm x => Sys2Proof.Machine.execMigrateInConfirm x s
  | .migrateOutClose x => Sys2Proof.Machine.execMigrateOutClose x s
  | .migrateOutAbort x => Sys2Proof.Machine.execMigrateOutAbort x s
  | .migrateInAbort x => Sys2Proof.Machine.execMigrateInAbort x s
  | .migrateInResume x => Sys2Proof.Machine.execMigrateInResume x s
  | .migrateInEscrow x => Sys2Proof.Machine.execMigrateInEscrow x s
  | .fabricConfig x => Sys2Proof.Machine.execFabricConfig x s
  | .laneLock x => Sys2Proof.Machine.execLaneLock x s
  | .laneLockTimeout x => Sys2Proof.Machine.execLaneLockTimeout x s
  | .portHandshake x => Sys2Proof.Machine.execPortHandshake x s
  | .fabricFlitReceive x => Sys2Proof.Machine.execFabricFlitReceive x s
  | .fecReplay x => Sys2Proof.Machine.execFecReplay x s
  | .allowanceReturn x => Sys2Proof.Machine.execAllowanceReturn x s
  | .timestampExchange x => Sys2Proof.Machine.execTimestampExchange x s
  | .powerOn x => Sys2Proof.Machine.execPowerOn x s
  | .startCold x => Sys2Proof.Machine.execStartCold x s
  | .startWarm x => Sys2Proof.Machine.execStartWarm x s
  | .hostPortTraining x => Sys2Proof.Machine.execHostPortTraining x s
  | .powerManagerStart x => Sys2Proof.Machine.execPowerManagerStart x s
  | .trustTileStart x => Sys2Proof.Machine.execTrustTileStart x s
  | .hbmStackTraining x => Sys2Proof.Machine.execHbmStackTraining x s
  | .lpddrTraining x => Sys2Proof.Machine.execLpddrTraining x s
  | .dieTraining x => Sys2Proof.Machine.execDieTraining x s
  | .varpenStart x => Sys2Proof.Machine.execVarpenStart x s
  | .railMeasurement x => Sys2Proof.Machine.execRailMeasurement x s
  | .droop x => Sys2Proof.Machine.execDroop x s
  | .tempThreshold x => Sys2Proof.Machine.execTempThreshold x s
  | .thermalStep x => Sys2Proof.Machine.execThermalStep x s
  | .thermalTrip x => Sys2Proof.Machine.execThermalTrip x s
  | .migrationArrival x => Sys2Proof.Machine.execMigrationArrival x s

end Sys2Proof.Machine
end

