-- ==== Sys2Proof/Machine/Step.lean ====
section
/-!
DEFINITION. One step of the machine (R220): the next move of the agenda, or the processor in focus issues its next instruction.
-/
namespace Sys2Proof.Machine
open Sys2Proof

/-- The processor in focus issues (R126): it fetches, decodes for its column, and executes; ILLEGAL when the word is none of its
instructions. A processor that does not run issues nothing, nor does one whose team's stop time has come (R394). A core that waits to enter
its handler lets its sequencer run (R390); an instruction that waits for the sequencer (R214), or that names a register an issued read still
writes (R224), does not issue. A team's processor whose PC has left its code is stuck, and no other team observes it (R2, log entry 40). -/
def issue (s : State) : Out :=
  if !s.core.running then .next s
  else if s.onMain && s.tile.handler.entering then enterStep s
  else if !s.issueOpen then .next s
  else if s.stubAt.isSome then atStub (s.stubAt.getD 0) s
  else match s.fetch with
    | .outside => if (s.teamOf s.cur).isSome then .next s else .fault .fetchOutsideCode
    | .memerr => fetchFails s
    | .words w e =>
      match decodeFor (columnOf s.cur) w.toNat e.toNat with
      | .error _ => trapAt codeIllegal w (if fld w.toNat 62 2 = 1 then 16 else 8) s
      | .ok i =>
        if s.held i w.toNat then waitSequencer (if fld w.toNat 62 2 = 1 then 16 else 8) s
        else if s.awaits i then .next s
        else exec i s

/-- The move a state takes, before time passes. -/
def move (s : State) : Out :=
  match s.agenda with
  | [] => issue s
  | .issue p :: r => issue (({ s with agenda := r }).focus p)
  | .event i :: r => if i.encode = [] then exec i { s with agenda := r } else .next { s with agenda := r }

/-- One step. -/
def step (s : State) : Host.Outcome State Fault Refusal :=
  match move s with
  | .next s' => .next s'.tick
  | .fault r => .fault r
  | .refused r => .refused r

/-- The state with an instruction stored where the next step fetches it. -/
def State.withFetchWord (s : State) (_nbits w : Nat) : State := s.withWord (fld w 0 64) (fld w 64 64)

end Sys2Proof.Machine
end

