-- ==== Sys2Proof/Safety.lean ====
section
/-!
DEFINITION. What counts as a safe run, in the terms the statements use: the invariant of the machine, the state an instruction that
completes leaves, and what a frame keeps.
-/
namespace Sys2Proof.Machine
open Sys2Proof

/-- The invariant of the machine: memory is canonical (R70–R72). -/
def State.memOk (s : State) : Bool := Memory.wf s.mem

/-- The state once the instruction at the PC, of `len` bytes, has completed and the next in order follows (R109, R175, R402). -/
def State.done (len : Nat) (s : State) : State := s.retire.advance len
/-- The state once a branch has completed at a target (R171). -/
def State.doneAt (t : Nat) (s : State) : State := { s.retire with core := { s.retire.core with pc := wNat t } }

/-- The registers an instruction's description lets it write; `fl` is FPFLAGS. -/
structure Dests where
  g : List GReg := []
  a : List AReg := []
  p : List PReg := []
  v : List VReg := []
  w : List WReg := []
  fl : Bool := false

/-- What an instruction that only writes registers keeps: every register but its destinations, every special register but FPFLAGS where
it may set it, every byte of memory and every other part of the machine. What may change beside its destinations: the PC, the loop
state that leads it, the wait that ends, the monitor counters, and the times of progress. -/
structure Keeps (s t : State) (d : Dests) : Prop where
  g : ∀ r, r ∉ d.g → t.rdG r = s.rdG r
  a : ∀ r, r ∉ d.a → t.rdA r = s.rdA r
  p : ∀ r, r ∉ d.p → t.rdP r = s.rdP r
  v : ∀ r, r ∉ d.v → t.rdV r = s.rdV r
  w : ∀ r, r ∉ d.w → t.rdW r = s.rdW r
  flags : d.fl = false → t.core.fpflags = s.core.fpflags
  bytes : ∀ x, memGet t.mem x = memGet s.mem x
  teams : t.teams.map (fun u => { u with lastTime := 0, lastCycle := 0 }) =
    s.teams.map (fun u => { u with lastTime := 0, lastCycle := 0 })
  rest : t = { s with
    core := { s.core with g := t.core.g, a := t.core.a, p := t.core.p, fpflags := t.core.fpflags, pc := t.core.pc, wait := none }
    tile := { s.tile with v := t.tile.v, w := t.tile.w, loop := t.tile.loop, ctr := t.tile.ctr, progress := t.tile.progress }
    teams := t.teams }

/-- The processor in focus issues an instruction: it runs, no handler entry is pending, and its team's stop time has not come (R394). -/
def State.issuing (s : State) : Bool := s.core.running && !(s.onMain && s.tile.handler.entering) && s.issueOpen

/-! ## Vector instructions -/

/-- No stream slot is bound, so a vector register is read and written as itself (R209). -/
def State.noStreams (s : State) : Bool := s.tile.streams.all (fun c => !c.isBound)

/-- Lane `k` of a vector register in a format (R80). -/
def vlane (et : Fmt) (v : Vec) (k : Nat) : Nat := v.toNat / 2 ^ (et.width * k) % 2 ^ et.width
/-- Lane `k` of a source of a V-format instruction (R112). -/
def State.srcLane (s : State) (et : Fmt) (x : Src) (k : Nat) : Nat :=
  match x with
  | .v r => vlane et (s.rdV r) k
  | .g r => (s.rdG r).toNat % 2 ^ et.width
  | .k n => vlane et (vget s.tile.kbank n.toNat 0) k
  | .i n => literalCode et n.toInt
/-- A lane as an integer of its format. -/
def laneInt (et : Fmt) (x : Nat) : Int := if et.isSigned ∧ 2 ^ et.width ≤ 2 * x then (x : Int) - 2 ^ et.width else x
/-- Whether the mask lets lane `k` act; b1 has no mask (R112, R179). -/
def State.actLane (s : State) (et : Fmt) (wm : WReg) (k : Nat) : Bool := et == .raw || (s.rdW wm).getLsbD k
/-- The state once a vector instruction has written `v`, its flags and the stream it draws on, and completed (R67, R96, R402). -/
def State.vecDone (s : State) (d : VReg) (v : Vec) (fl : FlagSet) (rm : Rm) (n : Nat) : State :=
  ((((s.wrV d v).addFlags fl).draw rm n).count 0 7 1).done 8
/-- R179 for an instruction `i` whose lane `k` computes `op k`: active lanes take the operation, the others keep the destination's old
value, and the flags are those of the active lanes. -/
def LaneRule (s : State) (i : Instr) (d : VReg) (et : Fmt) (rm : Rm) (wm : WReg) (n : Nat) (op : Nat → Nat × FlagSet) : Prop :=
  ∃ v fl, exec i s = .next (s.vecDone d v fl rm n) ∧
    (∀ k, k < et.lanes → vlane et v k = if s.actLane et wm k = true then (op k).1 % 2 ^ et.width else vlane et (s.rdV d) k) ∧
    (∀ b, b < 5 → (fl.getLsbD b = true ↔ ∃ k, k < et.lanes ∧ s.actLane et wm k = true ∧ (op k).2.getLsbD b = true))
/-- An instruction that writes every lane and sets no flag: lane `k` receives `f k`. -/
def EveryLane (s : State) (i : Instr) (d : VReg) (et : Fmt) (f : Nat → Nat) : Prop :=
  ∃ v, exec i s = .next (s.vecDone d v 0 .rne 0) ∧ ∀ k, k < et.lanes → vlane et v k = f k
/-- An instruction that writes a mask register: bit `k` below the lane count is `f k`, the others are zero, and no flag is set. -/
def MaskRule (s : State) (i : Instr) (d : WReg) (n : Nat) (f : Nat → Prop) (fl : FlagSet) : Prop :=
  ∃ m : MaskWord, exec i s = .next ((((s.wrW d m).addFlags fl).count 0 7 1).done 8) ∧
    ∀ k, k < 128 → (m.getLsbD k = true ↔ k < n ∧ f k)

/-! ## Memory -/

/-- The base of an access is a pointer R81 allows, and its first and last byte lie in the regions the instruction reaches (R240). -/
def State.reaches (s : State) (m : MemOp) (asz : Asz) (ok : Region → Bool) : Prop :=
  ptrOk (s.rdA m.ab) = true ∧ ok (s.region (s.ea m asz)) = true ∧ ok (s.region (s.ea m asz + asz.bytes - 1)) = true
/-- Reading accesses of `n` bytes that read their bytes at once: an eager processor, nothing that holds them back, no fault at their
homes or on the way there (R222, R241). -/
def State.readsNow (s : State) (as_ : List Nat) (n : Nat) (ord : Ord) (sco : Scope) : Prop :=
  s.eager = true ∧ s.mustWait as_ n ord sco = false ∧ s.firstFault (allPieces as_ n) = none
/-- A number of `n` bytes as a register receives it: sign-extended, or zero-extended (R244). -/
def loadedAs (sign : Bool) (n x : Nat) : Word :=
  if sign = true ∧ 2 ^ (8 * n) ≤ 2 * x then BitVec.ofInt 64 ((x : Int) - 2 ^ (8 * n)) else BitVec.ofNat 64 x
/-- Where execution stays: the instruction at the PC waits, with nothing else changed but the record of the wait, which begins now or turns
to what the instruction waits for (R48, R214, R220). -/
def State.waits (s : State) (k : WaitKind) (limit : Nat) : State :=
  match s.core.wait with
  | some w => { s with core := { s.core with wait := some (w.turned k limit s.cycle) } }
  | none => { s with core := { s.core with wait := some ⟨k, s.cycle, limit⟩ } }

/-! ## Host commands -/

/-- A command of an open session completes with an effect and an answer: the next state is the effect's, with the response behind those
held, or with the command among those that wait (R370–R372). -/
def Answers (s : State) (i : Instr) (sid tag opc : Nat) (e : Effect) : Prop :=
  exec i s = .next (State.conclude sid tag opc (s.expected sid) e)
/-- A tenant's or the operator's session. -/
def ofEither (sid tag : Nat) : Prop := sid = 0 ∨ sid = tag
/-- Every record of a tenant satisfies a property. -/
def State.tenantAll (s : State) (tag : Nat) (p : Tenant → Prop) : Prop := ∀ y ∈ s.tenants, y.tag = tag → p y
/-- Every record of a team satisfies a property. -/
def State.teamAll (s : State) (num : Nat) (p : Team → Prop) : Prop := ∀ y ∈ s.teams, y.num = num → p y

end Sys2Proof.Machine
end

