-- ==== Sys2Proof/Certificates/Slice0/Obligations.lean ====
section
/-!
DEFINITION. The statements for the provers, from the numbered rules of spec/. A statement of what an instruction does concludes that
`exec` answers a next state and names it; what the operations in that name keep is stated by `FrameOfRegisterWrites`.
-/
open Sys2Proof Sys2Proof.Machine

/-! ## Decoding, the step and the state at reset -/

/-- R109–R123, R126: the words of a well-formed instruction decode to it, whatever word stands above a one-word instruction, and a word
that decodes is the word of its instruction, which is well formed. -/
def Obligations.DecodeEncode : Prop :=
  (∀ (i : Instr) (w : Nat) (r : List Nat) (e : Nat), i.wf = true → i.encode = w :: r → fld w 52 4 ≠ 8 →
    ((∀ x, i ≠ .stageTend x) → decode w (r.headD e) = .ok i) ∧ (∀ x, i = .stageTend x → decodeFor .stage w (r.headD e) = .ok i)) ∧
  (∀ (w e : Nat) (i : Instr), decode w e = .ok i → i.wf = true ∧ fld w 52 4 ≠ 8 ∧ (i.encode = [w] ∨ i.encode = [w, e]))

/-- Words that the spec writes out with the instruction each stands for, and words that R126 refuses, by the test that fails. -/
def Obligations.DecodeWords : Prop :=
  decode 0x02A001C7000FFFFF 0 = .ok (.addi ⟨⟨true, 2⟩, 7, 7, -1⟩) ∧
  decode 0x1000304090C13000 0 = .ok (.vfma ⟨.always, 1, .v 2, .g 3, .v 4, .bf16, .rne, 0⟩) ∧
  decode 0x2000016219236010 0 = .ok (.ld ⟨.always, .g 5, ⟨2, 6, .elem, 16⟩, .w, .acq, .die, true⟩) ∧
  decode 0x2110026300329FF8 0 = .ok (.st ⟨⟨false, 1⟩, 9, ⟨3, 0, .one, -8⟩, .d, .rel, .cluster⟩) ∧
  decode 0x670001E284500000 0 = .ok (.cpy ⟨.always, 7, 2, 1, 5⟩) ∧
  decode 0x31001C8500000003 0 = .ok (.barw ⟨.always, 2, 5, 3⟩) ∧
  decode 0x3A0014E140000000 0 = .ok (.mmaf ⟨.always, true, 2, 3, .e4m3⟩) ∧
  decode 0x330000C000000009 0 = .ok (.srr ⟨.always, 3, 9⟩) ∧
  decode 0x42A001C7000FFFFF 0 = .error .format ∧ decode 0x0BA001C7000FFFFF 0 = .error .major ∧
  decode 0x02A0B1C7000FFFFF 0 = .error .function ∧ decode 0x028001C7000FFFFF 0 = .error .guard

/-- R126, R220: a step of a processor that issues is its decoded instruction, and ILLEGAL with the word as detail when its column decodes
none; a step that the agenda names is that step. Time then passes: nothing but the clocks, the monitor counters of tiles that a team holds,
and the index of free values changes with it. The model's choices: that a step is one move of the agenda (log entry 1) and takes a free time
(8), the free values' index (3), what a processor does whose PC has left its code (40), and which registers an instruction waits for (42).
-/
def Obligations.StepRunsDecoded : Prop :=
  (∀ (s : State) (w e : Word), s.agenda = [] → s.issuing = true → s.stubAt = none → s.fetch = .words w e →
    (∀ i, decodeFor (columnOf s.cur) w.toNat e.toNat = .ok i → s.held i w.toNat = false →
      (s.awaits i = false → ∀ t, exec i s = .next t → step s = .next t.tick) ∧
      (s.awaits i = true → step s = .next s.tick)) ∧
    (∀ r t, decodeFor (columnOf s.cur) w.toNat e.toNat = .error r → trapAt codeIllegal w (if fld w.toNat 62 2 = 1 then 16 else 8) s = .next t →
      step s = .next t.tick)) ∧
  (∀ s : State, s.agenda = [] → s.issuing = true → s.stubAt = none → s.inCode s.core.pc.toNat = false →
    (s.teamOf s.cur = none → step s = .fault .fetchOutsideCode) ∧ (s.teamOf s.cur ≠ none → step s = .next s.tick)) ∧
  (∀ (s : State) (n : Nat), s.cur = .main n → s.inCode s.core.pc.toNat = true → s.trained s.core.pc.toNat = true →
    s.bad.contains (s.core.pc.toNat / 32 * 32) = false →
    (fld (memNat s.mem s.core.pc.toNat 8) 62 2 = 1 → s.badCode (s.core.pc.toNat + 8) = false) →
    s.fetch = .words (BitVec.ofNat 64 (memNat s.mem s.core.pc.toNat 8)) (BitVec.ofNat 64 (memNat s.mem (s.core.pc.toNat + 8) 8))) ∧
  (∀ (s t : State) (i : Instr) (r : List Move), s.agenda = .event i :: r → i.encode = [] → exec i { s with agenda := r } = .next t →
    step s = .next t.tick) ∧
  (∀ (s : State) (p : ProcId) (r : List Move), s.agenda = .issue p :: r →
    step s = (match issue (({ s with agenda := r } : State).focus p) with
      | .next t => .next t.tick | .fault f => .fault f | .refused f => .refused f)) ∧
  (∀ s : State, s.tick = { s with cycle := s.tick.cycle, gtime := s.tick.gtime, free := s.free + 1, tiles := s.tick.tiles,
                                  tile := { s.tile with ctr := s.tick.tile.ctr } } ∧
    s.cycle ≤ s.tick.cycle ∧ s.gtime ≤ s.tick.gtime ∧ s.tick.tiles.length = s.tiles.length ∧ (s.tile.team = 0 → s.tick.tile = s.tile) ∧
    (∀ (i : Nat) (q : Nat × Tile), s.tiles[i]? = some q → ∃ c, s.tick.tiles[i]? = some (q.1, { q.2 with ctr := c }) ∧ (q.2.team = 0 → c = q.2.ctr)))

/-- R110: when the guard does not pass, the instruction has no effect, and the PC advances past its words. -/
def Obligations.GuardFails : Prop :=
  ∀ (i : Instr) (s : State) (w : Nat) (r : List Nat), i.encode = w :: r → s.guard ⟨w.testBit 55, BitVec.ofNat 3 (w / 2 ^ 52)⟩ = false →
    exec i s = .next (s.done (8 * (r.length + 1)))

/-- R58, R67, R96, R402: the frame of an instruction that only writes registers. Together with the statements of results, whose next
states are written with these operations, it says what those instructions leave unchanged. -/
def Obligations.FrameOfRegisterWrites : Prop :=
  ∀ (s : State) (n : Nat),
    Keeps s (s.done n) {} ∧ (∀ t, Keeps s (s.doneAt t) {}) ∧
    (∀ d x, Keeps s ((s.wrG d x).done n) { g := [d] } ∧ (s.wrG d x).rdG d = if d = 0 then 0 else x) ∧
    (∀ d x, Keeps s ((s.wrA d x).done n) { a := [d] } ∧ (s.wrA d x).rdA d = x) ∧
    (∀ d x, Keeps s ((s.wrP d x).done n) { p := [d] } ∧ (s.wrP d x).rdP d = if d = 0 then true else x) ∧
    (∀ d e x y t, Keeps s (((s.wrA d x).wrA e y).doneAt t) { a := [d, e] }) ∧
    (∀ d m fl, Keeps s ((((s.wrW d m).addFlags fl).count 0 7 1).done n) { w := [d], fl := true } ∧
      (s.wrW d m).rdW d = if d = 0 then BitVec.allOnes 128 else m) ∧
    (∀ d v fl rm k, Keeps (s.draw rm k) (s.vecDone d v fl rm k) { v := [d], fl := true } ∧ (s.vecDone d v fl rm k).rdV d = v ∧
      (s.vecDone d v fl rm k).core.fpflags = s.core.fpflags ||| fl) ∧
    (∀ rm k, s.draw rm k = { s with core := { s.core with seed := (s.draw rm k).core.seed } } ∧ (rm ≠ .rsr → s.draw rm k = s))

/-- R222, R226 and the model's canonical form of memory: every step keeps memory canonical, so that equal memories are equal data. -/
def Obligations.StepKeepsMemory : Prop :=
  ∀ s t : State, s.memOk = true → step s = .next t → t.memOk = true

/-- R64, R439: the memory at reset, whose contents the spec gives as zeros where it gives them, satisfies the invariant that every step
keeps. The canonical form, with nothing listed, is the model's own, and so is that a byte which nothing has written reads 0 everywhere (log
entry 5). -/
def Obligations.ResetInvariant : Prop :=
  State.reset.memOk = true ∧ ∀ a, memGet State.reset.mem a = 0

/-- R58, R64, R433: READY is all zero at reset; what a tile and its cores hold at placement: the constants, and a scratchpad of zeros but
for the images of its buffers. -/
def Obligations.ResetValues : Prop :=
  (∀ i, i < 64 → State.reset.boot.ready.getLsbD i = false) ∧ State.reset.teams = [] ∧ State.reset.tenants = [] ∧
  (∀ (s : State) (t : Team) (lcid o : Nat), s.memOk = true → o < 2 ^ 20 → lcid < 1024 →
    (∀ x ∈ t.images, x.1 + x.2.length ≤ 2 ^ 20) → t.images.Pairwise (fun x y => x.1 + x.2.length ≤ y.1 ∨ y.1 + y.2.length ≤ x.1) →
    let u := s.placeTile t lcid
    let c := u.getCore (.main lcid)
    let k := u.getTile lcid
    (∀ i, i < 32 → vget c.g i 0 = 0 ∧ vget k.v i 0 = 0) ∧ (∀ i, i < 16 → vget c.a i 0 = 0) ∧
    (∀ i, i < 8 → vget c.p i false = false ∧ (i ≠ 0 → vget k.w i 0 = 0)) ∧
    c.fpctl = 0 ∧ c.fpflags = 0 ∧ c.evmask = 1 ∧ c.latch = false ∧ c.pc = 0 ∧
    k.loop.active = 0 ∧ k.streams = Vector.replicate 4 Stream.empty ∧ k.rep = Repeat.empty ∧ k.acc = Vector.replicate 2 AccSet.empty ∧
    (u.getCore (.stage lcid)).seed = seedStart t.jobseed (lcid + 1024) ∧ k.task = none ∧ k.conts = [] ∧
    (∀ i, i < 64 → vget k.kbank i 0 = t.consts.getD i 0) ∧ (scratchAddr lcid o) / 8 ∉ u.full ∧
    ((∀ x ∈ t.images, ¬(x.1 ≤ o ∧ o < x.1 + x.2.length)) → memGet u.mem (scratchAddr lcid o) = 0) ∧
    (∀ x ∈ t.images, ∀ j b, x.2[j]? = some b → x.1 + j = o → memGet u.mem (scratchAddr lcid o) = b))

/-! ## Majors 0x01 to 0x06 -/

/-- R156: the two-source functions of INT. R157: division, with its zero divisor and its overflow. R156: the unary functions of INT, each
by what its result counts or moves. -/
def Obligations.ScalarArithmetic : Prop :=
  (∀ (x : OpGGG) (s : State), s.guard x.q = true →
     let a := s.rdG x.a
     let b := s.rdG x.b
     let n := b.toNat % 64
     let is := fun (i : Instr) (v : Word) => exec i s = .next ((s.wrG x.d v).done 8)
     is (.add x) (BitVec.ofNat 64 (a.toNat + b.toNat)) ∧
     is (.subG x) (BitVec.ofInt 64 ((a.toNat : Int) - b.toNat)) ∧
     is (.mul x) (BitVec.ofNat 64 (a.toNat * b.toNat)) ∧
     is (.mulhi x) (BitVec.ofInt 64 (a.toInt * b.toInt / 2 ^ 64)) ∧
     is (.mulhn x) (BitVec.ofNat 64 (a.toNat * b.toNat / 2 ^ 64)) ∧
     is (.andG x) (a &&& b) ∧ is (.orG x) (a ||| b) ∧ is (.xorG x) (a ^^^ b) ∧
     is (.andn x) (a &&& ~~~b) ∧ is (.orn x) (a ||| ~~~b) ∧
     is (.shl x) (BitVec.ofNat 64 (a.toNat * 2 ^ n)) ∧
     is (.shr x) (BitVec.ofNat 64 (a.toNat / 2 ^ n)) ∧
     is (.shra x) (BitVec.ofInt 64 (a.toInt / 2 ^ n)) ∧
     is (.rotl x) ((a <<< n) ||| (a >>> (64 - n))) ∧
     is (.rotr x) ((a >>> n) ||| (a <<< (64 - n))) ∧
     is (.minS x) (if a.toInt < b.toInt then a else b) ∧
     is (.minn x) (if a.toNat < b.toNat then a else b) ∧
     is (.maxS x) (if a.toInt < b.toInt then b else a) ∧
     is (.maxn x) (if a.toNat < b.toNat then b else a)) ∧
  (∀ (x : OpGGG) (s : State), s.guard x.q = true →
     let a := s.rdG x.a
     let b := s.rdG x.b
     let is := fun (i : Instr) (v : Word) => exec i s = .next ((s.wrG x.d v).done 8)
     (b = 0 → is (.div x) 0xFFFFFFFFFFFFFFFF#64 ∧ is (.divn x) 0xFFFFFFFFFFFFFFFF#64 ∧ is (.remS x) a ∧ is (.remn x) a) ∧
     (a = 0x8000000000000000#64 ∧ b = 0xFFFFFFFFFFFFFFFF#64 → is (.div x) 0x8000000000000000#64 ∧ is (.remS x) 0) ∧
     (b ≠ 0 → is (.divn x) (a / b) ∧ is (.remn x) (a - b * (a / b))) ∧
     (b ≠ 0 → ¬(a = 0x8000000000000000#64 ∧ b = 0xFFFFFFFFFFFFFFFF#64) →
       ∃ q r : Word, is (.div x) q ∧ is (.remS x) r ∧ a.toInt = b.toInt * q.toInt + r.toInt ∧
         r.toInt.natAbs < b.toInt.natAbs ∧ (r.toInt ≠ 0 → (0 < r.toInt ↔ 0 < a.toInt)))) ∧
  (∀ (x : OpGG) (s : State), s.guard x.q = true →
     let a := s.rdG x.a
     let is := fun (i : Instr) (v : Word) => exec i s = .next ((s.wrG x.d v).done 8)
     (∃ n, is (.clz x) (BitVec.ofNat 64 n) ∧ n ≤ 64 ∧ (∀ i, i < n → a.getMsbD i = false) ∧ (n < 64 → a.getMsbD n = true)) ∧
     (∃ n, is (.ctz x) (BitVec.ofNat 64 n) ∧ n ≤ 64 ∧ (∀ i, i < n → a.getLsbD i = false) ∧ (n < 64 → a.getLsbD n = true)) ∧
     is (.popc x) (BitVec.ofNat 64 ((List.range 64).countP (fun i => a.getLsbD i))) ∧
     (∃ v : Word, is (.brev x) v ∧ ∀ i, i < 64 → v.getLsbD (63 - i) = a.getLsbD i) ∧
     (∃ v : Word, is (.bswap x) v ∧ ∀ i j, i < 8 → j < 8 → v.getLsbD (8 * (7 - i) + j) = a.getLsbD (8 * i + j)))

/-- R158, R159: the immediate forms, and LI and LIH. R160, R161, R163: comparisons, predicates and moves to a predicate. R162, R163: bit
fields by their bits, SEL and PTOG; R297: NOP. -/
def Obligations.ScalarForms : Prop :=
  ((∀ (x : OpGGI) (s : State), s.guard x.q = true →
     let a := s.rdG x.a
     let c := x.imm.signExtend 64
     let is := fun (i : Instr) (v : Word) => exec i s = .next ((s.wrG x.d v).done 8)
     is (.addi x) (a + c) ∧ is (.muli x) (a * c) ∧ is (.andi x) (a &&& c) ∧ is (.ori x) (a ||| c) ∧ is (.xori x) (a ^^^ c) ∧
     is (.mini x) (if a.toInt < c.toInt then a else c) ∧ is (.maxi x) (if a.toInt < c.toInt then c else a) ∧
     is (.lih x) (BitVec.ofNat 64 (a.toNat * 2 ^ 20) ||| BitVec.ofNat 64 x.imm.toNat)) ∧
   (∀ (x : OpGGSh) (s : State), s.guard x.q = true →
     let a := s.rdG x.a
     let n := x.n.toNat
     let is := fun (i : Instr) (v : Word) => exec i s = .next ((s.wrG x.d v).done 8)
     is (.shli x) (BitVec.ofNat 64 (a.toNat * 2 ^ n)) ∧ is (.shri x) (BitVec.ofNat 64 (a.toNat / 2 ^ n)) ∧
     is (.shrai x) (BitVec.ofInt 64 (a.toInt / 2 ^ n)) ∧ is (.rotli x) ((a <<< n) ||| (a >>> (64 - n)))) ∧
   (∀ (x : OpGI) (s : State), s.guard x.q = true →
     exec (.li x) s = .next ((s.wrG x.d (x.imm.signExtend 64)).done 8))) ∧
  ((∀ (x : OpPGG) (s : State), s.guard x.q = true →
     let a := s.rdG x.a
     let b := s.rdG x.b
     let is := fun (i : Instr) (v : Bool) => exec i s = .next ((s.wrP x.d v).done 8)
     is (.cmpeq x) (decide (a = b)) ∧ is (.cmpne x) (decide (a ≠ b)) ∧
     is (.cmplt x) (decide (a.toInt < b.toInt)) ∧ is (.cmple x) (decide (a.toInt ≤ b.toInt)) ∧
     is (.cmpltn x) (decide (a.toNat < b.toNat)) ∧ is (.cmplen x) (decide (a.toNat ≤ b.toNat))) ∧
   (∀ (x : OpPGI) (s : State), s.guard x.q = true →
     let a := s.rdG x.a
     let is := fun (i : Instr) (v : Bool) => exec i s = .next ((s.wrP x.d v).done 8)
     is (.cmpeqi x) (decide (a.toInt = x.imm.toInt)) ∧ is (.cmplti x) (decide (a.toInt < x.imm.toInt))) ∧
   (∀ (x : OpPGBit) (s : State), s.guard x.q = true →
     exec (.tbit x) s = .next ((s.wrP x.d (decide ((s.rdG x.a).toNat / 2 ^ x.bit.toNat % 2 = 1))).done 8)) ∧
   (∀ (x : OpPPP) (s : State), s.guard x.q = true →
     let a := s.rdP x.a
     let b := s.rdP x.b
     let is := fun (i : Instr) (v : Bool) => exec i s = .next ((s.wrP x.d v).done 8)
     is (.pand x) (a && b) ∧ is (.por x) (a || b) ∧ is (.pxor x) (a ^^ b) ∧ is (.pandn x) (a && !b)) ∧
   (∀ (x : OpPP) (s : State), s.guard x.q = true → exec (.pmov x) s = .next ((s.wrP x.d (s.rdP x.a)).done 8)) ∧
   (∀ (x : OpPG) (s : State), s.guard x.q = true → exec (.gtop x) s = .next ((s.wrP x.d (decide (s.rdG x.a ≠ 0))).done 8))) ∧
  ((∀ (x : OpField) (s : State), s.guard x.q = true → (Instr.ins x).wf = true →
     let a := s.rdG x.a
     let p := x.pos.toNat
     let n := x.len.toNat
     let is := fun (i : Instr) (v : Word) => exec i s = .next ((s.wrG x.d v).done 8)
     (∃ v : Word, is (.extS x) v ∧ ∀ i, i < 64 → v.getLsbD i = a.getLsbD (p + min i (n - 1))) ∧
     (∃ v : Word, is (.extn x) v ∧ ∀ i, i < 64 → v.getLsbD i = (decide (i < n) && a.getLsbD (p + i))) ∧
     (∃ v : Word, is (.ins x) v ∧ ∀ i, i < 64 →
       v.getLsbD i = if p ≤ i ∧ i < p + n then a.getLsbD (i - p) else (s.rdG x.d).getLsbD i)) ∧
   (∀ (x : OpSel) (s : State), s.guard x.q = true →
     exec (.sel x) s = .next ((s.wrG x.d (if s.rdP x.p = true then s.rdG x.a else s.rdG x.b)).done 8)) ∧
   (∀ (x : OpGP) (s : State), s.guard x.q = true →
     exec (.ptog x) s = .next ((s.wrG x.d (if s.rdP x.p = true then 1 else 0)).done 8)) ∧
   (∀ (x : OpN) (s : State), exec (.nop x) s = .next (s.done 8)))

/-! ## Majors 0x07 to 0x0A -/

/-- R164: pointer arithmetic by the pointer's own step; nothing but the address changes. R166, R167: between an address and an integer,
through an extent; AFMT. R168: BCHK and BCHKI pass exactly when the range is empty, or the extent is valid, holds it and grants the rights
required; a check that Varpen inserted as one of a group, for an access through several extents, passes when some extent of the group holds
the whole footprint, and names the lowest: the model's choice (log entry 25). -/
def Obligations.AddressInstructions : Prop :=
  ((∀ (x : OpAAG) (s : State), s.guard x.q = true →
     let w := s.rdA x.a
     ∃ v : Word, exec (.aadd x) s = .next ((s.wrA x.d v).done 8) ∧ v.toNat / 2 ^ 53 = w.toNat / 2 ^ 53 ∧
       ((v.toNat % 2 ^ 53 : Nat) : Int) = ((w.toNat % 2 ^ 53 : Nat) + (s.rdG x.b).toInt * (Fmt.ofCode (w.toNat / 2 ^ 60)).step) % 2 ^ 53) ∧
   (∀ (x : OpAAI) (s : State), s.guard x.q = true →
     let w := s.rdA x.a
     ∃ v : Word, exec (.aaddi x) s = .next ((s.wrA x.d v).done 8) ∧ v.toNat / 2 ^ 53 = w.toNat / 2 ^ 53 ∧
       ((v.toNat % 2 ^ 53 : Nat) : Int) = ((w.toNat % 2 ^ 53 : Nat) + x.imm.toInt * (Fmt.ofCode (w.toNat / 2 ^ 60)).step) % 2 ^ 53) ∧
   (∀ (x : OpAA) (s : State), s.guard x.q = true → exec (.amov x) s = .next ((s.wrA x.d (s.rdA x.a)).done 8)) ∧
   (∀ (x : OpGAA) (s : State), s.guard x.q = true →
     let u := s.rdA x.a
     let d : Int := (u.toNat % 2 ^ 53 : Nat) - ((s.rdA x.b).toNat % 2 ^ 53 : Nat)
     exec (.adiff x) s =
       .next ((s.wrG x.d (BitVec.ofInt 64 (d.tdiv (Fmt.ofCode (u.toNat / 2 ^ 60)).step))).done 8)) ∧
   (∀ (x : OpPAA) (s : State), s.guard x.q = true →
     exec (.acmplt x) s =
       .next ((s.wrP x.d (decide ((s.rdA x.a).toNat % 2 ^ 53 < (s.rdA x.b).toNat % 2 ^ 53))).done 8))) ∧
  ((∀ (x : OpAFrom) (s : State), s.guard x.q = true →
     let e := s.extent x.ext.toNat
     let o := (s.rdG x.a).toNat
     let b := e.base.toNat
     let size := e.limit.toNat + 1 - b
     (e.valid = true → o ≤ size → blogOk x.fmt x.blog = true →
       exec (.afrom x) s = .next ((s.wrA x.d
         (BitVec.ofNat 64 (x.fmt.code * 2 ^ 60 + x.blog.toNat * 2 ^ 57 + (b + o) % 2 ^ 53))).done 8)) ∧
     (e.valid = true → o ≤ size → blogOk x.fmt x.blog = false →
       exec (.afrom x) s = trapAt codeBadaddr (BitVec.ofNat 64 (x.ext.toNat + x.fmt.code * 2 ^ 5 + x.blog.toNat * 2 ^ 9)) 8 s) ∧
     (e.valid = false ∨ size < o → exec (.afrom x) s = trapAt codeExtent (extentDetail x.ext.toNat 2 0 0 o) 8 s)) ∧
   (∀ (x : OpAToG) (s : State), s.guard x.q = true →
     let e := s.extent x.ext.toNat
     let w := (s.rdA x.a).toNat
     let b := e.base.toNat
     let t : Int := (w % 2 ^ 53 : Nat) - (b : Int)
     let inside := 0 ≤ t ∧ t ≤ ((e.limit.toNat + 1 - b : Nat) : Int)
     (w / 2 ^ 53 % 16 = 0 → e.valid = true → inside →
       exec (.atog x) s = .next ((s.wrG x.d (BitVec.ofInt 64 t)).done 8)) ∧
     (w / 2 ^ 53 % 16 ≠ 0 → exec (.atog x) s = trapAt codeBadaddr (s.rdA x.a) 8 s) ∧
     (w / 2 ^ 53 % 16 = 0 → e.valid = false ∨ ¬ inside →
       exec (.atog x) s = trapAt codeExtent (extentDetail x.ext.toNat 3 0 0 t) 8 s)) ∧
   (∀ (x : OpAFmt) (s : State), s.guard x.q = true →
     let w := (s.rdA x.a).toNat
     (blogOk x.fmt x.blog = true → w / 2 ^ 53 % 16 = 0 →
       exec (.afmt x) s = .next ((s.wrA x.d
         (BitVec.ofNat 64 (x.fmt.code * 2 ^ 60 + x.blog.toNat * 2 ^ 57 + w % 2 ^ 53))).done 8)) ∧
     (blogOk x.fmt x.blog = false ∨ w / 2 ^ 53 % 16 ≠ 0 →
       exec (.afmt x) s = trapAt codeBadaddr (BitVec.ofNat 64 (x.fmt.code + x.blog.toNat * 2 ^ 5)) 8 s))) ∧
  ((∀ (x : OpChk) (s : State), s.guard x.q = true →
     let e := s.extent x.ext.toNat
     let w := (s.rdA x.a).toNat
     let n := (s.rdG x.b).toNat
     let first : Int := (w % 2 ^ 53 : Nat)
     let inside := fun (y : Extent) (lo : Int) (n : Nat) =>
       n = 0 ∨ (y.valid = true ∧ (y.base.toNat : Int) ≤ lo ∧ lo + n ≤ y.limit.toNat + 1 ∧ y.rights &&& x.need = x.need)
     (w / 2 ^ 53 % 16 ≠ 0 → exec (.bchk x) s = trapAt codeBadaddr (s.rdA x.a) 8 s) ∧
     (w / 2 ^ 53 % 16 = 0 → s.checkGroup = none →
       (inside e first n → exec (.bchk x) s = .next (s.done 8)) ∧
       (¬ inside e first n → exec (.bchk x) s =
         trapAt codeExtent (extentDetail x.ext.toNat 0 x.need n (first - (e.base.toNat : Int))) 8 s)) ∧
     (∀ g, w / 2 ^ 53 % 16 = 0 → s.checkGroup = some g →
       let lo := match g.low with | some r => first + (s.rdG r).toInt | none => first
       let pass := ∃ y ∈ g.exts, inside (s.extent y) lo (first + n - lo).toNat
       let named := g.exts.headD x.ext.toNat
       (pass → exec (.bchk x) s = .next (s.done 8)) ∧
       (¬ pass → exec (.bchk x) s =
         trapAt codeExtent (extentDetail named 0 x.need n (first - ((s.extent named).base.toNat : Int))) 8 s))) ∧
   (∀ (x : OpChkI) (s : State), s.guard x.q = true →
     let e := s.extent x.ext.toNat
     let w := (s.rdA x.a).toNat
     let n := x.len.toNat
     let first : Int := (w % 2 ^ 53 : Nat) + (s.rdG x.b).toInt
     let inside := fun (y : Extent) (lo : Int) (n : Nat) =>
       n = 0 ∨ (y.valid = true ∧ (y.base.toNat : Int) ≤ lo ∧ lo + n ≤ y.limit.toNat + 1 ∧ y.rights &&& x.need = x.need)
     (w / 2 ^ 53 % 16 ≠ 0 → exec (.bchki x) s = trapAt codeBadaddr (s.rdA x.a) 8 s) ∧
     (w / 2 ^ 53 % 16 = 0 → s.checkGroup = none →
       (inside e first n → exec (.bchki x) s = .next (s.done 8)) ∧
       (¬ inside e first n → exec (.bchki x) s =
         trapAt codeExtent (extentDetail x.ext.toNat 1 x.need n (first - (e.base.toNat : Int))) 8 s)) ∧
     (∀ g, w / 2 ^ 53 % 16 = 0 → s.checkGroup = some g →
       let lo := match g.low with | some r => (w % 2 ^ 53 : Nat) + (s.rdG r).toInt | none => first
       let pass := ∃ y ∈ g.exts, inside (s.extent y) lo (first + n - lo).toNat
       let named := g.exts.headD x.ext.toNat
       (pass → exec (.bchki x) s = .next (s.done 8)) ∧
       (¬ pass → exec (.bchki x) s =
         trapAt codeExtent (extentDetail named 1 x.need n (first - ((s.extent named).base.toNat : Int))) 8 s))))

/-- R170, R171: a taken branch goes to its target and writes its link with the address after it. The premises are R171's: the target is
aligned, lies in the code the processor runs and in the body of an active loop; it does not leave the processor's trap handler and is not
the return of collective firmware (R266, R392). R392: a branch that leaves the handler region restores a14 and clears the handler state.
-/
def Obligations.Branches : Prop :=
  (∀ (s : State) (t : Nat), t % 8 = 0 → s.inCode t = true → s.returns t = false →
     (s.loopTests = true → LoopState.inBody s.tile.loop (BitVec.ofNat 64 t) = true) →
     (s.onMain = true → s.tile.handler.hin = true → s.inHandler t = true) →
     let after := BitVec.ofNat 64 ((s.core.pc.toNat + 8) % 2 ^ 53)
     let rel := fun (off : BitVec 32) => (t : Int) = ((s.core.pc.toNat : Int) + 8 * off.toInt) % 2 ^ 53
     let reg := fun (r : AReg) (off : BitVec 32) =>
       (s.rdA r).toNat / 2 ^ 53 % 16 = 0 ∧ (t : Int) = (((s.rdA r).toNat % 2 ^ 53 : Nat) + 8 * off.toInt) % 2 ^ 53
     let u := s.called t
     (∀ x : OpBr, s.guard x.q = true → rel x.off → exec (.br x) s = .next (u.doneAt t)) ∧
     (∀ x : OpBrl, s.guard x.q = true → rel x.off → exec (.brl x) s = .next ((u.wrA x.ln after).doneAt t)) ∧
     (∀ x : OpJr, s.guard x.q = true → reg x.tr x.off → exec (.jr x) s = .next (u.doneAt t)) ∧
     (∀ x : OpJrl, s.guard x.q = true → reg x.tr x.off → exec (.jrl x) s = .next ((u.wrA x.ln after).doneAt t))) ∧
  (∀ (s : State) (t : Nat), s.called t = { s with tile := { s.tile with call := (s.called t).tile.call } } ∧
     (s.onMain = false → s.called t = s)) ∧
  (∀ (s : State) (x : OpBr) (t : Nat), s.guard x.q = true → s.onMain = true → s.tile.handler.hin = true → s.inHandler t = false →
     (t : Int) = ((s.core.pc.toNat : Int) + 8 * x.off.toInt) % 2 ^ 53 → t % 8 = 0 → s.inCode t = true →
     (s.loopTests = true → LoopState.inBody s.tile.loop (BitVec.ofNat 64 t) = true) →
     ∃ u, exec (.br x) s = .next u ∧ u.core.pc = BitVec.ofNat 64 t ∧ u.rdA 14 = s.tile.handler.xl ∧ u.tile.handler = Handler.empty)

/-- R174: LOOP and LOOPI begin a level whose body is the `len` instructions that follow, or raise LOOPUSE with the cause of R177. R176:
LBRK ends its level and those inside it; of a level-0 loop, execution continues after the body. That cause 6 is raised when the handler was
entered from inside a body is the model's choice (log entry 49), as is the suspension that entry keeps (14). -/
def Obligations.Loops : Prop :=
  (∀ (s : State) (lv : BitVec 2) (len : BitVec 8) (n : Nat),
     let l := s.tile.loop
     let L := lv.toNat
     let first := s.core.pc.toNat + 8
     let last := s.skipCode first (len.toNat - 1)
     let enters := fun (i : Instr) =>
       (s.tile.handler.inBody = true ∧ l.active ≠ 0 → exec i s = trapAt codeLoopuse (BitVec.ofNat 64 (6 + 256 * L)) 8 s) ∧
       (¬(s.tile.handler.inBody = true ∧ l.active ≠ 0) →
         (l.active ≠ L → exec i s = trapAt codeLoopuse (BitVec.ofNat 64 (1 + 256 * L)) 8 s) ∧
         (l.active = L → 2 ^ 32 ≤ n → exec i s = trapAt codeLoopuse (BitVec.ofNat 64 (3 + 256 * L)) 8 s) ∧
         (l.active = L → n < 2 ^ 32 → 0 < L ∧ (vget l.le (L - 1) 0).toNat < last →
           exec i s = trapAt codeLoopuse (BitVec.ofNat 64 (2 + 256 * L)) 8 s) ∧
         (l.active = L → n < 2 ^ 32 → ¬(0 < L ∧ (vget l.le (L - 1) 0).toNat < last) →
           (0 < n → exec i s = .next (State.doneAt first { s with tile := { s.tile with loop :=
             { lc := vset l.lc L (BitVec.ofNat 32 n), ls := vset l.ls L (BitVec.ofNat 64 first),
               le := vset l.le L (BitVec.ofNat 64 last), active := L + 1 } } })) ∧
           (n = 0 → ∃ t, exec i s = .next t ∧ t.tile.loop.active ≤ L ∧
             (L = 0 → t.tile.loop = l ∧ t.core.pc = BitVec.ofNat 64 (last + s.lenAt last)))))
     (∀ cnt : GReg, n = (s.rdG cnt).toNat → enters (.loop ⟨cnt, lv, len⟩)) ∧
     (∀ icnt : BitVec 28, n = icnt.toNat → enters (.loopi ⟨lv, len, icnt⟩))) ∧
  (∀ (s : State) (x : OpLbrk), s.guard x.q = true →
     let l := s.tile.loop
     let L := x.lv.toNat
     (l.active ≤ L → exec (.lbrk x) s = trapAt codeLoopuse (BitVec.ofNat 64 (4 + 256 * L)) 8 s) ∧
     (L < l.active → L = 0 → ∃ t, exec (.lbrk x) s = .next t ∧ t.tile.loop.active = 0 ∧
       (∀ k, k < l.active → k < 4 → vget t.tile.loop.lc k 0 = 0) ∧
       t.core.pc = BitVec.ofNat 64 ((vget l.le 0 0).toNat + s.lenAt (vget l.le 0 0).toNat)) ∧
     (L < l.active → ∃ t, exec (.lbrk x) s = .next t ∧ t.tile.loop.active ≤ L))

/-- R175: the end-of-body step of one active level: the last instruction of a body with passes left loops back and counts; the last pass
ends the level; another instruction goes on in order. -/
def Obligations.EndOfBody : Prop :=
  ∀ (s : State) (n : Nat), s.loopTests = true → s.tile.loop.active = 1 →
    let l := s.tile.loop
    let t := s.done n
    (s.core.pc = vget l.le 0 0 → 1 < (vget l.lc 0 0).toNat →
      t.core.pc = vget l.ls 0 0 ∧ vget t.tile.loop.lc 0 0 = vget l.lc 0 0 - 1 ∧ t.tile.loop.active = 1) ∧
    (s.core.pc = vget l.le 0 0 → (vget l.lc 0 0).toNat ≤ 1 →
      t.core.pc = s.core.pc + BitVec.ofNat 64 n ∧ vget t.tile.loop.lc 0 0 = 0 ∧ t.tile.loop.active = 0) ∧
    (s.core.pc ≠ vget l.le 0 0 → t.core.pc = s.core.pc + BitVec.ofNat 64 n ∧ t.tile.loop = l)

/-! ## Majors 0x10 to 0x16 -/

/-- R184: integers in lanes. -/
def Obligations.VectorIntegers : Prop :=
  (∀ (x : OpV2) (s : State), s.guard x.q = true → s.noStreams = true → x.et.isI = true →
    let w := x.et.width
    let a := fun k => laneInt x.et (s.srcLane x.et x.a k)
    let b := fun k => laneInt x.et (s.srcLane x.et x.b k)
    let y := fun k => s.srcLane x.et x.b k % w
    let lo : Int := if x.et.isSigned then -2 ^ (w - 1) else 0
    let hi : Int := if x.et.isSigned then 2 ^ (w - 1) - 1 else 2 ^ w - 1
    let is := fun (i : Instr) (f : Nat → Int) => LaneRule s i x.d x.et x.rm x.wm 0 (fun k => ((f k % 2 ^ w).toNat, 0))
    is (.viadd x) (fun k => a k + b k) ∧ is (.visub x) (fun k => a k - b k) ∧ is (.vimul x) (fun k => a k * b k) ∧
    is (.vimulhi x) (fun k => a k * b k / 2 ^ w) ∧
    is (.vimin x) (fun k => if a k ≤ b k then a k else b k) ∧ is (.vimax x) (fun k => if a k ≤ b k then b k else a k) ∧
    is (.vshl x) (fun k => (s.srcLane x.et x.a k * 2 ^ y k : Nat)) ∧
    is (.vshr x) (fun k => (s.srcLane x.et x.a k / 2 ^ y k : Nat)) ∧
    is (.viadds x) (fun k => if a k + b k < lo then lo else if hi < a k + b k then hi else a k + b k)) ∧
  (∀ (x : OpV2) (s : State), s.guard x.q = true → s.noStreams = true → x.et.isI = true →
    LaneRule s (.vshra x) x.d x.et x.rm x.wm 0 (fun k =>
      let a := s.srcLane x.et x.a k
      let top : Int := if 2 ^ x.et.width ≤ 2 * a then (a : Int) - 2 ^ x.et.width else a
      ((top / 2 ^ (s.srcLane x.et x.b k % x.et.width) % 2 ^ x.et.width).toNat, 0))) ∧
  (∀ (x : OpV2) (s : State), s.guard x.q = true → s.noStreams = true → (x.et.isI = true ∨ x.et = .raw) →
    let is := fun (i : Instr) (f : Nat → Nat → Nat) =>
      LaneRule s i x.d x.et x.rm x.wm 0 (fun k => (f (s.srcLane x.et x.a k) (s.srcLane x.et x.b k), 0))
    is (.vand x) (fun a b => a &&& b) ∧ is (.vor x) (fun a b => a ||| b) ∧ is (.vxor x) (fun a b => a ^^^ b)) ∧
  (∀ (x : OpV1) (s : State), s.guard x.q = true → s.noStreams = true → x.et.isI = true →
    LaneRule s (.vpopc x) x.d x.et x.rm x.wm 0 (fun k =>
      ((List.range x.et.width).countP (fun b => s.srcLane x.et x.a k / 2 ^ b % 2 = 1), 0)))

/-- R183, R189: floating-point lanes take their operation under the resolved rounding mode, FTZ and DAZ; the rounding operations of VFP
draw on the random stream for every lane (R96). -/
def Obligations.VectorFloats : Prop :=
  (∀ (x : OpV2) (s : State), s.guard x.q = true → s.noStreams = true → x.et.isF = true →
    let c := s.ctl x.et x.rm x.wm
    let is := fun (i : Instr) (n : Nat) (op : LaneOp) =>
      LaneRule s i x.d x.et c.rm x.wm n (fun k => op k (s.srcLane x.et x.a k) (s.srcLane x.et x.b k) 0)
    is (.vadd x) x.et.lanes (opVadd c) ∧ is (.vsub x) x.et.lanes (opVsub c) ∧ is (.vmul x) x.et.lanes (opVmul c) ∧
    is (.vdiv x) x.et.lanes (opVdiv c) ∧ is (.vscl x) x.et.lanes (opVscl c) ∧
    is (.vmin x) 0 (opVmin c) ∧ is (.vmax x) 0 (opVmax c)) ∧
  (∀ (x : OpV3) (s : State), s.guard x.q = true → s.noStreams = true → x.et.isF = true →
    let c := s.ctl x.et x.rm x.wm
    let is := fun (i : Instr) (op : LaneOp) => LaneRule s i x.d x.et c.rm x.wm x.et.lanes
      (fun k => op k (s.srcLane x.et x.a k) (s.srcLane x.et x.b k) (s.srcLane x.et x.c k))
    is (.vfma x) (opFused false false c) ∧ is (.vfms x) (opFused false true c) ∧ is (.vfnma x) (opFused true false c)) ∧
  (∀ (x : OpV1) (s : State), s.guard x.q = true → s.noStreams = true → x.et.isF = true →
    let c := s.ctl x.et x.rm x.wm
    let top := 2 ^ (x.et.width - 1)
    let is := fun (i : Instr) (n : Nat) (op : LaneOp) =>
      LaneRule s i x.d x.et c.rm x.wm n (fun k => op k (s.srcLane x.et x.a k) 0 0)
    is (.vsqrt x) x.et.lanes (opVsqrt c) ∧
    is (.vabs x) 0 (fun _ a _ _ => (a % top, 0)) ∧
    is (.vneg x) 0 (fun _ a _ _ => (if a < top then a + top else a - top, 0)) ∧
    is (.vclass x) 0 (classOfLane c) ∧
    (x.et ≠ .fp64 →
      is (.vexp2 x) 0 (opSpecial c 0) ∧ is (.vlog2 x) 0 (opSpecial c 1) ∧ is (.vrcp x) 0 (opSpecial c 2) ∧
      is (.vrsq x) 0 (opSpecial c 3) ∧ is (.vtanh x) 0 (opSpecial c 4) ∧ is (.vsigm x) 0 (opSpecial c 5)))

/-- R84: a NaN that the arithmetic of VFP or a special function produces is the canonical NaN of its format. R91, R92, R97: in every
rounding mode a value that the format represents rounds to itself and sets no flag; without DAZ and FTZ a lane of VADD gives back any value
but −0 to which it adds +0. -/
def Obligations.RoundedValues : Prop :=
  (∀ (c : Ctl) (i x y z : Nat), c.et.isF = true →
     let nan := fun code => c.fp.infCode < code % c.fp.signBit
     let canonical := match c.et with | .bf16 => 0x7FC0 | .fp16 => 0x7E00 | .fp32 => 0x7FC00000 | _ => 0x7FF8000000000000
     ∀ op : LaneOp, op ∈ [opVadd c, opVsub c, opVmul c, opFused false false c, opFused false true c, opFused true false c, opVdiv c,
         opVsqrt c, opVscl c, opVmin c, opVmax c, opSpecial c 0, opSpecial c 1, opSpecial c 2, opSpecial c 3, opSpecial c 4,
         opSpecial c 5] →
       nan (op i x y z).1 → (op i x y z).1 = canonical) ∧
  (∀ (f : FP) (md : Rounding) (code : Nat), f = fpBf16 ∨ f = fpFp16 ∨ f = fpFp32 ∨ f = fpFp64 →
     code < 2 * f.signBit → code % f.signBit ≤ f.infCode → f.conv false md (f.val false code) = (code, 0)) ∧
  (∀ (c : Ctl) (k z code : Nat), c.et.isF = true → c.daz = false → c.ftz = false → code < 2 * c.fp.signBit →
     code % c.fp.signBit ≤ c.fp.infCode → code ≠ c.fp.signBit → opVadd c k code 0 z = (code, 0))

/-- R185, R188, R197: masks from lanes and from masks. That VCMP reads its inputs under DAZ is the model's reading (log entry 16). -/
def Obligations.VectorMasks : Prop :=
  (∀ (x : OpWV2) (s : State), s.guard x.q = true → s.noStreams = true → x.et.isX = true →
    let a := fun k => s.srcLane x.et x.a k
    let b := fun k => s.srcLane x.et x.b k
    let act := fun k => (s.rdW x.wm).getLsbD k = true
    let c := s.ctl x.et .rne x.wm
    (x.et.isI = true →
      MaskRule s (.vcmpeq x) x.d x.et.lanes (fun k => act k ∧ a k = b k) 0 ∧
      MaskRule s (.vcmplt x) x.d x.et.lanes (fun k => act k ∧ laneInt x.et (a k) < laneInt x.et (b k)) 0 ∧
      MaskRule s (.vcmple x) x.d x.et.lanes (fun k => act k ∧ laneInt x.et (a k) ≤ laneInt x.et (b k)) 0) ∧
    (x.et.isI = false →
      ∃ fl, (fl = 0 ∨ fl = fNV) ∧
        (fl = fNV ↔ ∃ k, k < x.et.lanes ∧ act k ∧ (c.val (a k) = .nan true ∨ c.val (b k) = .nan true)) ∧
        let ordered := fun k => (c.val (a k)).isNan = false ∧ (c.val (b k)).isNan = false
        MaskRule s (.vcmpeq x) x.d x.et.lanes (fun k => act k ∧ ordered k ∧ (c.val (a k)).cmp (c.val (b k)) = 0) fl ∧
        MaskRule s (.vcmplt x) x.d x.et.lanes (fun k => act k ∧ ordered k ∧ (c.val (a k)).cmp (c.val (b k)) < 0) fl ∧
        MaskRule s (.vcmple x) x.d x.et.lanes (fun k => act k ∧ ordered k ∧ (c.val (a k)).cmp (c.val (b k)) ≤ 0) fl) ∧
    MaskRule s (.vmatch x) x.d x.et.lanes (fun k => act k ∧ ∃ j, j < x.et.lanes ∧ b j = a k) 0) ∧
  (∀ (x : OpWWW) (s : State), s.guard x.q = true →
    exec (.wand x) s = .next (((s.wrW x.d (s.rdW x.a &&& s.rdW x.b)).count 0 7 1).done 8) ∧
    exec (.wor x) s = .next (((s.wrW x.d (s.rdW x.a ||| s.rdW x.b)).count 0 7 1).done 8)) ∧
  (∀ (x : OpWW) (s : State), s.guard x.q = true →
    exec (.wnot x) s = .next (((s.wrW x.d (~~~ s.rdW x.a)).count 0 7 1).done 8))

/-- R187, R193, R195, R196: selections and permutations of whole lanes. -/
def Obligations.VectorPermutes : Prop :=
  (∀ (x : OpV2) (s : State), s.guard x.q = true → s.noStreams = true → x.et ≠ .raw →
    let L := x.et.lanes
    let a := fun k => s.srcLane x.et x.a k
    let b := fun k => s.srcLane x.et x.b k
    EveryLane s (.vsel x) x.d x.et (fun k => if (s.rdW x.wm).getLsbD k then a k else b k) ∧
    LaneRule s (.vshuf x) x.d x.et x.rm x.wm 0 (fun k => (if b k < L then a (b k) else 0, 0)) ∧
    (∀ n : Nat, (match x.b with | .g r => n = (s.rdG r).toNat | .i m => n = (m.signExtend 64).toNat | _ => False) →
      LaneRule s (.vbcast x) x.d x.et x.rm x.wm 0 (fun _ => (a (n % L), 0)) ∧
      LaneRule s (.vrot x) x.d x.et x.rm x.wm 0 (fun k => (a ((k + n) % L), 0)))) ∧
  (∀ (x : OpV1) (s : State), s.guard x.q = true → s.noStreams = true →
    LaneRule s (.vmov x) x.d x.et x.rm x.wm 0 (fun k => (s.srcLane x.et x.a k, 0))) ∧
  (∀ (x : OpV1) (s : State), s.guard x.q = true → s.noStreams = true → x.et ≠ .raw →
    let act := fun k => (s.rdW x.wm).getLsbD k
    let below := fun k => (List.range k).countP act
    let total := below x.et.lanes
    (∃ v, exec (.vcompress x) s = .next (s.vecDone x.d v 0 .rne 0) ∧
      (∀ k, k < x.et.lanes → act k = true → vlane x.et v (below k) = s.srcLane x.et x.a k) ∧
      (∀ j, j < x.et.lanes → total ≤ j → vlane x.et v j = 0)) ∧
    EveryLane s (.vexpand x) x.d x.et (fun k => if act k then s.srcLane x.et x.a (below k) else 0)) ∧
  (∀ (x : OpV3) (s : State) (d b : Nat), s.guard x.q = true → s.noStreams = true → x.et.isI = true →
    (match x.b with | .g r => d = (s.rdG r).toNat | .i m => d = (m.signExtend 64).toNat | _ => False) →
    (match x.c with | .g r => b = (s.rdG r).toNat | .i m => b = (m.signExtend 64).toNat | _ => False) →
    let a := fun k => laneInt x.et (s.srcLane x.et x.a k)
    let valid := (∃ n, d = 2 ^ n) ∧ d < x.et.lanes ∧ (b = 0 ∨ ((∃ n, b = 2 ^ n) ∧ b ≤ x.et.lanes))
    (valid → ∃ v, exec (.vcswap x) s = .next (s.vecDone x.d v 0 .rne 0) ∧
      ∀ i, i < x.et.lanes → i / d % 2 = 0 →
        let up := decide (b = 0) || i / b % 2 == 0
        let swap := (s.rdW x.wm).getLsbD i && (if up then decide (a (i + d) < a i) else decide (a i < a (i + d)))
        laneInt x.et (vlane x.et v i) = (if swap then a (i + d) else a i) ∧
        laneInt x.et (vlane x.et v (i + d)) = (if swap then a i else a (i + d))) ∧
    (¬ valid → ∃ w, exec (.vcswap x) s = trapAt codeIllegal w 8 s))

/-- R191, R192: reductions and scans; masked-off lanes give the identity, and lane 0 has the result: of integers the sum, the greatest and
the least, of floating-point values what the fixed pairwise tree combines, each sum rounded, with its flags. R194, R193: between a lane or a
mask and a general register. -/
def Obligations.VectorReductions : Prop :=
  ((∀ (x : OpV1) (s : State), s.guard x.q = true → s.noStreams = true → x.et.isI = true →
     let act := fun k => (s.rdW x.wm).getLsbD k
     let a := fun k => s.srcLane x.et x.a k
     let L := x.et.lanes
     (∃ v, exec (.vrsum x) s = .next (s.vecDone x.d v 0 .rne 0) ∧ (∀ k, 0 < k → k < L → vlane x.et v k = 0) ∧
       vlane x.et v 0 = ((List.range L).map (fun k => if act k then a k else 0)).sum % 2 ^ x.et.width) ∧
     (∃ v, exec (.vrmax x) s = .next (s.vecDone x.d v 0 .rne 0) ∧ (∀ k, 0 < k → k < L → vlane x.et v k = 0) ∧
       (∀ k, k < L → act k = true → laneInt x.et (a k) ≤ laneInt x.et (vlane x.et v 0)) ∧
       ((∃ k, k < L ∧ act k = true) → ∃ k, k < L ∧ act k = true ∧ a k = vlane x.et v 0) ∧
       ((∀ k, k < L → act k = false) → vlane x.et v 0 = if x.et.isSigned then 2 ^ (x.et.width - 1) else 0)) ∧
     (∃ v, exec (.vrmin x) s = .next (s.vecDone x.d v 0 .rne 0) ∧ (∀ k, 0 < k → k < L → vlane x.et v k = 0) ∧
       (∀ k, k < L → act k = true → laneInt x.et (vlane x.et v 0) ≤ laneInt x.et (a k)) ∧
       ((∃ k, k < L ∧ act k = true) → ∃ k, k < L ∧ act k = true ∧ a k = vlane x.et v 0) ∧
       ((∀ k, k < L → act k = false) → vlane x.et v 0 = (if x.et.isSigned then 2 ^ (x.et.width - 1) else 2 ^ x.et.width) - 1))) ∧
   (∀ (x : OpV2) (s : State), s.guard x.q = true → s.noStreams = true → x.et.isI = true →
     ∃ v, exec (.vrdot x) s = .next (s.vecDone x.d v 0 .rne 0) ∧ (∀ k, 0 < k → k < x.et.lanes → vlane x.et v k = 0) ∧
       vlane x.et v 0 = ((List.range x.et.lanes).map (fun k =>
         if (s.rdW x.wm).getLsbD k then s.srcLane x.et x.a k * s.srcLane x.et x.b k else 0)).sum % 2 ^ x.et.width) ∧
   (∀ (x : OpScan) (s : State), s.guard x.q = true → s.noStreams = true → x.et.isI = true →
     let w := x.et.width
     let top := 2 ^ (w - 1)
     let join := fun (a b : Nat) => match x.op.toNat with
       | 0 => (a + b) % 2 ^ w
       | 1 => if laneInt x.et a < laneInt x.et b then b else a
       | 2 => if laneInt x.et b < laneInt x.et a then b else a
       | _ => a ||| b
     let unit := match x.op.toNat with
       | 1 => if x.et.isSigned then top else 0
       | 2 => (if x.et.isSigned then top else 2 ^ w) - 1
       | _ => 0
     let u := fun j => if (s.rdW x.wm).getLsbD j then s.srcLane x.et x.a j else unit
     EveryLane s (.vscan x) x.d x.et (fun k => ((List.range k).map (fun j => u (j + 1))).foldl join (u 0))) ∧
   (∀ (x : OpV1) (s : State), s.guard x.q = true → s.noStreams = true → x.et.isF = true →
     let c := s.ctl x.et x.rm x.wm
     ∀ o i, (o, i) ∈ [(RedOp.add, Instr.vrsum x), (RedOp.max, .vrmax x), (RedOp.min, .vrmin x)] →
       let us := (List.range x.et.lanes).map (fun k => if (s.rdW x.wm).getLsbD k then c.val (s.srcLane x.et x.a k) else redIdF o)
       let t := treeFold (redF c o) 6 0 us 0
       ∃ v, exec i s = .next (s.vecDone x.d v t.2 c.rm (x.et.lanes - 1)) ∧ (∀ k, 0 < k → k < x.et.lanes → vlane x.et v k = 0) ∧
         vlane x.et v 0 = c.fp.code (t.1.headD (redIdF o)) % 2 ^ x.et.width) ∧
   (∀ (x : OpV2) (s : State), s.guard x.q = true → s.noStreams = true → x.et.isF = true →
     let c := s.ctl x.et x.rm x.wm
     let p := products c 0 ((List.range x.et.lanes).map (s.srcLane x.et x.a)) ((List.range x.et.lanes).map (s.srcLane x.et x.b))
     let t := treeFold (redF c .add) 6 0 p.1 p.2
     ∃ v, exec (.vrdot x) s = .next (s.vecDone x.d v t.2 c.rm (x.et.lanes - 1)) ∧ (∀ k, 0 < k → k < x.et.lanes → vlane x.et v k = 0) ∧
       vlane x.et v 0 = c.fp.code (t.1.headD (redIdF .add)) % 2 ^ x.et.width) ∧
   (∀ (x : OpScan) (s : State), s.guard x.q = true → s.noStreams = true → x.et.isF = true → x.op ≠ 3 →
     let c := s.ctl x.et x.rm x.wm
     let o := scanOp x.op
     let a := s.srcLane x.et x.a
     let u := fun k => if (s.rdW x.wm).getLsbD k then c.val (a k) else redIdF o
     let t := scanF c o 0 (u 0) ((List.range (x.et.lanes - 1)).map (fun j => u (j + 1)))
     ∃ v, exec (.vscan x) s = .next (s.vecDone x.d v t.2 c.rm (x.et.lanes - 1)) ∧
       vlane x.et v 0 = (if (s.rdW x.wm).getLsbD 0 then a 0 else c.fp.code (redIdF o) % 2 ^ x.et.width) ∧
       ∀ k, k + 1 < x.et.lanes → vlane x.et v (k + 1) = t.1.getD k 0 % 2 ^ x.et.width)) ∧
  ((∀ (x : OpExtr) (s : State), s.guard x.q = true → s.noStreams = true → x.et.isX = true →
     let is := fun (v : Word) => exec (.vextr x) s = .next (((s.wrG x.d v).count 0 7 1).done 8)
     let act := fun k => (s.rdW x.wm).getLsbD k
     match x.mode with
     | .lane a (.g r) => is (BitVec.ofInt 64 (laneInt x.et (s.srcLane x.et a ((s.rdG r).toNat % x.et.lanes))))
     | .lane a (.i m) => is (BitVec.ofInt 64 (laneInt x.et (s.srcLane x.et a ((m.signExtend 64).toNat % x.et.lanes))))
     | .lane _ _ => True
     | .count => is (BitVec.ofNat 64 ((List.range x.et.lanes).countP act))
     | .first => ∃ n, is (BitVec.ofNat 64 n) ∧ n ≤ x.et.lanes ∧ (∀ k, k < n → act k = false) ∧ (n < x.et.lanes → act n = true)) ∧
   (∀ (x : OpInsr) (s : State) (n : Nat), s.guard x.q = true → s.noStreams = true → x.et.isX = true →
     (match x.b with | .g r => n = (s.rdG r).toNat | .i m => n = (m.signExtend 64).toNat | _ => False) →
     EveryLane s (.vinsr x) x.d x.et (fun k =>
       if k = n % x.et.lanes then (s.rdG x.a).toNat % 2 ^ x.et.width else vlane x.et (s.rdV x.d) k)))

/-- R201: VPACK and VUNPACK by their lanes. R198: VCVT by its lanes: the part its selector names, converted element by element; lanes that
the part leaves out or the mask turns off keep their value, and the flags are those of the lanes converted. R199, R200: VQUANT and VDEQ
write the lanes that `quantRes` and `deqRes` compute from 32 bf16 lanes and from 64 bytes, with their flags; DAZ and the band in them are
the model's reading (log entry 16). -/
def Obligations.VectorConversions : Prop :=
  (∀ (x : OpPack) (s : State), s.guard x.q = true → s.noStreams = true → (Instr.vpack x).wf = true →
    let w := x.et.width
    let h := x.et.lanes / 2
    let wide := x.et.wider
    let lo : Int := if x.et.isSigned then -2 ^ (w - 1) else 0
    let hi : Int := if x.et.isSigned then 2 ^ (w - 1) - 1 else 2 ^ w - 1
    EveryLane s (.vpack x) x.d x.et (fun k =>
      let v := if k < h then s.srcLane wide x.a k else s.srcLane wide x.b (k - h)
      if x.sat then ((if laneInt wide v < lo then lo else if hi < laneInt wide v then hi else laneInt wide v) % 2 ^ w).toNat
      else v % 2 ^ w)) ∧
  (∀ (x : OpUnpack) (s : State), s.guard x.q = true → s.noStreams = true → (Instr.vunpack x).wf = true →
    let L := x.et.lanes
    EveryLane s (.vunpack x) x.d x.et (fun k =>
      (laneInt x.et.narrower (s.srcLane x.et.narrower x.a (if x.half then L + k else k)) % 2 ^ x.et.width).toNat)) ∧
  (∀ (x : OpCvt) (s : State), s.guard x.q = true → s.noStreams = true → (Instr.vcvt x).wf = true →
    let c := s.ctl x.et x.rm x.wm
    let n := min x.et.lanes x.src.lanes
    let p := x.part.toNat
    let from_ := fun (i : Nat) => if x.src.lanes < x.et.lanes then (if p * n ≤ i ∧ i < p * n + n then some (i - p * n, i - p * n) else none)
      else some (i, p * n + i)
    let act := fun i => (s.rdW x.wm).getLsbD i
    ∃ v fl, exec (.vcvt x) s =
        .next (s.vecDone x.d v fl c.rm (if x.et.isI && x.src.isI then 0 else n)) ∧
      (∀ i, i < x.et.lanes → (act i = false ∨ from_ i = none) → vlane x.et v i = vlane x.et (s.rdV x.d) i) ∧
      (∀ i k j, i < x.et.lanes → act i = true → from_ i = some (k, j) →
        vlane x.et v i = (convLane c x.src k (s.srcLane x.src x.a j)).1 % 2 ^ x.et.width) ∧
      (∀ b, b < 5 → (fl.getLsbD b = true ↔ ∃ i k j, i < x.et.lanes ∧ act i = true ∧ from_ i = some (k, j) ∧
        (convLane c x.src k (s.srcLane x.src x.a j)).2.getLsbD b = true))) ∧
  (∀ (x : OpQuant) (s : State), s.guard x.q = true → s.noStreams = true →
    let bits := packLanes 16 ((List.range 32).map (s.srcLane .bf16 x.a))
    let q := quantRes (s.ctl .n8 x.rm 0) (s.bandScale x.fmt) bits
    let d := deqRes (s.ctl .bf16 x.rm 0) (s.bandScale x.fmt) bits
    (∃ v, exec (.vquant x) s = .next (s.vecDone x.d v q.flags (s.ctl .n8 x.rm 0).rm 32) ∧
      ∀ k, k < 64 → vlane .n8 v k = q.lanes.getD k 0 % 2 ^ 8) ∧
    (∃ v, exec (.vdeq x) s = .next (s.vecDone x.d v d.flags (s.ctl .bf16 x.rm 0).rm 32) ∧
      ∀ k, k < 32 → vlane .bf16 v k = d.lanes.getD k 0 % 2 ^ 16))

/-- R179, R180, R183, R184, R187–R196: with no stream bound, each of these vector forms of majors 0x10 to 0x16, in every element type
and rounding mode, answers a next state: v[d] written, the flags it raises added, the random stream advanced where the mode draws on it,
and the PC at the next instruction; VCSWAP so where its distance and its block are ones the rule admits. What v[d] holds the other
statements of these majors say. -/
def Obligations.VectorFormsComplete : Prop :=
  (∀ (x : OpV2) (s : State), s.guard x.q = true → s.noStreams = true →
    ∀ i ∈ [Instr.vadd x, .vsub x, .vmul x, .vmin x, .vmax x, .vdiv x, .vscl x, .viadd x, .visub x, .vimul x, .vimulhi x, .vimin x, .vimax x,
        .vand x, .vor x, .vxor x, .vshl x, .vshr x, .vshra x, .viadds x, .vsel x, .vrdot x, .vbcast x, .vshuf x, .vrot x],
      ∃ v fl n, exec i s = .next (s.vecDone x.d v fl (resolveRm s.core.fpctl x.rm) n)) ∧
  (∀ (x : OpV3) (s : State), s.guard x.q = true → s.noStreams = true →
    ∀ i ∈ [Instr.vfma x, .vfms x, .vfnma x], ∃ v fl n, exec i s = .next (s.vecDone x.d v fl (resolveRm s.core.fpctl x.rm) n)) ∧
  (∀ (x : OpV1) (s : State), s.guard x.q = true → s.noStreams = true →
    ∀ i ∈ [Instr.vabs x, .vneg x, .vsqrt x, .vpopc x, .vclass x, .vexp2 x, .vlog2 x, .vrcp x, .vrsq x, .vtanh x, .vsigm x, .vrsum x, .vrmax x,
        .vrmin x, .vmov x, .vcompress x, .vexpand x],
      ∃ v fl n, exec i s = .next (s.vecDone x.d v fl (resolveRm s.core.fpctl x.rm) n)) ∧
  (∀ (x : OpV3) (s : State), s.guard x.q = true → s.noStreams = true →
    cswapOk (s.ctl x.et x.rm x.wm) (s.srcNum x.b) (s.srcNum x.c) = true →
    ∃ v fl n, exec (.vcswap x) s = .next (s.vecDone x.d v fl (resolveRm s.core.fpctl x.rm) n)) ∧
  (∀ (x : OpScan) (s : State), s.guard x.q = true → s.noStreams = true →
    ∃ v fl n, exec (.vscan x) s = .next (s.vecDone x.d v fl (resolveRm s.core.fpctl x.rm) n))

/-! ## Majors 0x17 to 0x19 -/

/-- R203–R205: vector loads: lane `i` of the register receives the bytes at the `i`-th element address, and the bytes above are zero.
R203–R205: vector stores issue one access for each element address, in lane order, that holds the lane's bytes; memory changes only when
those accesses perform. A vector store waits for the repeat sequencer to empty (R214): the premise of the second part. -/
def Obligations.VectorMemory : Prop :=
  ((∀ (x : OpVmem) (s : State) (as_ : List Nat), s.guard x.q = true → s.noStreams = true → ptrOk (s.rdA x.m.ab) = true →
     let z := x.asz.bytes
     let base := (ptrAddr (s.rdA x.m.ab) : Int) + x.m.off.toInt
     let idx := (s.rdG x.m.ix).toInt * (x.m.isc.factor x.asz : Int)
     let u := (s.rdV (x.d + 1)).toNat
     s.readsNow as_ z x.ord x.sco → as_.all (fun a => s.vecOk a z) = true →
     let loads := fun (i : Instr) => ∃ v : Vec,
       exec i s = .next ((((((s.atIssue .load (fun t => t.countReads z as_)).spendAll as_).wrV x.d v)).count 0 7 1).done 8) ∧
       (∀ k a, as_[k]? = some a → v.toNat / 2 ^ (8 * z * k) % 2 ^ (8 * z) = s.readNat a z) ∧ v.toNat < 2 ^ (8 * z * as_.length)
     (as_ = [((base + idx) % 2 ^ 53).toNat] → loads (.vld x)) ∧
     (as_.all (fun a => a % z == 0) = true →
       (as_ = (List.range (64 / z)).map (fun i => ((base + i * idx) % 2 ^ 53).toNat) → loads (.vlds x)) ∧
       (as_ = (List.range (64 / z)).map (fun i =>
           (((((base + idx) % 2 ^ 53).toNat : Int) + ((u / 2 ^ (8 * z * i) % 2 ^ (8 * z) * z : Nat) : Int)) % 2 ^ 53).toNat) →
         loads (.vgath x)))) ∧
   (∀ (x : OpVldk) (s : State), s.guard x.q = true → ptrOk (s.rdA x.m.ab) = true → s.vecOk (s.ea x.m .v) 64 = true →
     s.readsNow [s.ea x.m .v] 64 .rlx .self →
     ∃ t, exec (.vldk x) s = .next t ∧ t.mem = s.mem ∧
       t.tile.kbank = vset s.tile.kbank x.n.toNat (BitVec.ofNat 512 (s.readNat (s.ea x.m .v) 64)))) ∧
  (∀ (x : OpVmem) (s : State) (as_ : List Nat), s.guard x.q = true → s.noStreams = true → s.tile.rep.count = 0 →
     ptrOk (s.rdA x.m.ab) = true →
     let z := x.asz.bytes
     let base := (ptrAddr (s.rdA x.m.ab) : Int) + x.m.off.toInt
     let idx := (s.rdG x.m.ix).toInt * (x.m.isc.factor x.asz : Int)
     let u := (s.rdV (x.d + 1)).toNat
     as_.all (fun a => s.vecOk a z) = true →
     let stores := fun (i : Instr) => ∃ t accs, exec i s = .next t ∧ t.mem = s.mem ∧ t.full = s.full ∧
       t.core.pend = s.core.pend ++ accs ∧ accs.map Access.addr = as_ ∧
       (∀ k a, as_[k]? = some a → ∃ c, accs[k]? = some c ∧ c.kind = .store ∧ c.ord = x.ord ∧ c.sco = x.sco ∧
         c.pieces.flatten = cellsOf a ((s.rdV x.d).toNat / 2 ^ (8 * z * k) % 2 ^ (8 * z)) z)
     (as_ = [((base + idx) % 2 ^ 53).toNat] → stores (.vst x)) ∧
     (as_.all (fun a => a % z == 0) = true →
       (as_ = (List.range (64 / z)).map (fun i => ((base + i * idx) % 2 ^ 53).toNat) → stores (.vsts x)) ∧
       (as_ = (List.range (64 / z)).map (fun i =>
           (((((base + idx) % 2 ^ 53).toNat : Int) + ((u / 2 ^ (8 * z * i) % 2 ^ (8 * z) * z : Nat) : Int)) % 2 ^ 53).toNat) →
         stores (.vscat x))))

/-- R206, R207: configuring and binding a stream slot, and the waits for its pushes. R209: a source that names a bound pop stream reads
the 64 B at the stream's position, once however often the instruction names it, and the position moves on; a destination that names a
bound push stream stores there. R208: the address of the vector at a position, and how the position moves through its dimensions, the
innermost first, to the end. R206, R207, R209: each cause of the STREAM trap, with the slot in its detail: 1 a pop and 2 a push beyond the
last vector, 3 a slot of the other direction or a bound register in the d field of a vector load or store, 4 SON of a slot that is not
configured, 5 SCFG or SDIM of a bound slot, 6 a bound or stride out of range; and BADADDR for a position that no vector access reaches. -/
def Obligations.Streams : Prop :=
  ((∀ (x : OpScfg) (s : State), s.guard x.q = true →
     (ptrOk (s.rdA x.a) = false → exec (.scfg x) s = trapAt codeBadaddr (s.rdA x.a) 8 s) ∧
     (ptrOk (s.rdA x.a) = true → (s.slot x.slot.toNat).isBound = true →
       exec (.scfg x) s = trapAt codeStream (BitVec.ofNat 64 (5 + x.slot.toNat * 2 ^ 8)) 8 s) ∧
     (ptrOk (s.rdA x.a) = true → (s.slot x.slot.toNat).isBound = false → exec (.scfg x) s = .next (((s.setSlot x.slot.toNat
       { base := s.rdA x.a, bound := #v[1, 1, 1, 1], stride := #v[0, 0, 0, 0], index := #v[0, 0, 0, 0], configured := true,
         isBound := false, push := x.push, ahead := [], lost := [] }).count 0 7 1).done 8))) ∧
   (∀ (x : OpSdim) (s : State), s.guard x.q = true →
     let y := s.slot x.slot.toNat
     let b := s.rdG x.bound
     let t := (s.rdG x.stride).toInt
     (y.isBound = true → exec (.sdim x) s = trapAt codeStream (BitVec.ofNat 64 (5 + x.slot.toNat * 2 ^ 8)) 8 s) ∧
     (y.isBound = false → b.toNat < 2 ^ 32 → -2 ^ 31 ≤ t → t < 2 ^ 31 → exec (.sdim x) s = .next (((s.setSlot x.slot.toNat
       { y with bound := vset y.bound x.dim.toNat (BitVec.ofNat 32 b.toNat),
                stride := vset y.stride x.dim.toNat (BitVec.ofInt 32 t) }).count 0 7 1).done 8)) ∧
     (y.isBound = false → ¬ (b.toNat < 2 ^ 32 ∧ -2 ^ 31 ≤ t ∧ t < 2 ^ 31) →
       exec (.sdim x) s = trapAt codeStream (BitVec.ofNat 64 (6 + x.slot.toNat * 2 ^ 8)) 8 s)) ∧
   (∀ (x : OpSlot) (s : State), s.guard x.q = true →
     let y := s.slot x.slot.toNat
     (y.configured = true → exec (.son x) s = .next (((s.setSlot x.slot.toNat { y with isBound := true }).count 0 7 1).done 8)) ∧
     (y.configured = false → exec (.son x) s = trapAt codeStream (BitVec.ofNat 64 (4 + x.slot.toNat * 2 ^ 8)) 8 s) ∧
     exec (.soff x) s = .next (((s.setSlot x.slot.toNat { y with isBound := false, ahead := [], lost := [] }).count 0 7 1).done 8) ∧
     (s.eager = false → (∀ a ∈ (s.getCore s.cur).pend, a.slot ≠ some x.slot) → exec (.swait x) s = .next ((s.count 0 7 1).done 8)) ∧
     (s.eager = false → (∃ a ∈ (s.getCore s.cur).pend, a.slot = some x.slot) → exec (.swait x) s = .next (s.waits .other 0)))) ∧
  ((∀ (x : OpV2) (s : State) (n : Nat), s.guard x.q = true → x.et.isI = true → x.wm = 0 → n < 4 →
     x.a = .v (BitVec.ofNat 5 (28 + n)) → x.b = .v (BitVec.ofNat 5 (28 + n)) → x.d.toNat < 28 →
     let c := s.slot n
     let a := c.addr
     c.isBound = true → c.push = false → c.done = false → s.vecOk a 64 = true → c.ahead = [] → c.lost = [] →
     s.readsNow [a] 64 .rlx .self →
     ∃ t, exec (.vand x) s = .next t ∧ (t.rdV x.d).toNat = s.readNat a 64 ∧ t.slot n = c.next) ∧
   (∀ (x : OpV1) (s : State) (n : Nat) (r : VReg), s.guard x.q = true → s.tile.rep.count = 0 → x.et.isI = true → x.wm = 0 → n < 4 →
     x.d = BitVec.ofNat 5 (28 + n) → x.a = .v r → r.toNat < 28 →
     let c := s.slot n
     let a := c.addr
     c.isBound = true → c.push = true → c.done = false → s.vecOk a 64 = true →
     ∃ t acc, exec (.vmov x) s = .next t ∧ t.mem = s.mem ∧ t.slot n = c.next ∧ t.core.pend = s.core.pend ++ [acc] ∧
       acc.slot = some (BitVec.ofNat 2 n) ∧ acc.pieces.flatten = cellsOf a (s.rdV r).toNat 64) ∧
   (∀ (x : OpV1) (s : State) (n : Nat), s.guard x.q = true → x.et.isI = true → n < 4 → (s.slot n).isBound = true →
     let c := s.slot n
     let a := c.addr
     let detail := fun (k : Nat) => BitVec.ofNat 64 (k + n * 2 ^ 8)
     (x.a = .v (BitVec.ofNat 5 (28 + n)) →
       (c.push = true → exec (.vmov x) s = trapAt codeStream (detail 3) 8 s) ∧
       (c.push = false → c.done = true → exec (.vmov x) s = trapAt codeStream (detail 1) 8 s) ∧
       (c.push = false → c.done = false → s.vecOk a 64 = false → exec (.vmov x) s = trapAt codeBadaddr (BitVec.ofNat 64 a) 8 s)) ∧
     (x.d = BitVec.ofNat 5 (28 + n) → (∀ r, x.a = .v r → r.toNat < 28) →
       (c.push = false → exec (.vmov x) s = trapAt codeStream (detail 3) 8 s) ∧
       (c.push = true → c.done = true → exec (.vmov x) s = trapAt codeStream (detail 2) 8 s) ∧
       (c.push = true → c.done = false → s.vecOk a 64 = false → exec (.vmov x) s = trapAt codeBadaddr (BitVec.ofNat 64 a) 8 s))) ∧
   (∀ (x : OpVmem) (s : State) (n : Nat), s.guard x.q = true → n < 4 → x.d = BitVec.ofNat 5 (28 + n) → (s.slot n).isBound = true →
     ∀ i ∈ [Instr.vld x, .vst x, .vlds x, .vsts x, .vgath x, .vscat x],
       exec i s = trapAt codeStream (BitVec.ofNat 64 (3 + n * 2 ^ 8)) 8 s)) ∧
  (∀ c : Stream, (∀ k, k < 4 → c.ix k < c.bd k) →
     (c.addr : Int) = ((c.base.toNat % 2 ^ 53 : Nat) + ((Fmt.ofCode (c.base.toNat / 2 ^ 60)).step : Int) *
       (c.ix 0 * (vget c.stride 0 0).toInt + c.ix 1 * (vget c.stride 1 0).toInt + c.ix 2 * (vget c.stride 2 0).toInt
         + c.ix 3 * (vget c.stride 3 0).toInt)) % 2 ^ 53 ∧
     c.next.number = c.number + 1 ∧ c.next.bound = c.bound ∧
     (c.next.done = true ↔ c.number + 1 = c.length) ∧ (c.next.done = false → ∀ k, k < 4 → c.next.ix k < c.next.bd k))

/-- R212: REP captures the first words of the instructions that follow it, a two-word instruction counted once (R109), and continues after
them; a count of zero captures nothing, and the first instruction outside majors 0x10 to 0x16 is REPUSE with its index. R211: REPW goes on
when the sequencer is empty, and waits otherwise. R213: an issue of the sequencer runs the captured instruction, its staggered register
fields moved by the pass, and goes on to the next of the pass, the next pass, or the end. -/
def Obligations.Repeats : Prop :=
  ((∀ (x : OpRep) (s : State),
     let len := x.lenM1.toNat + 1
     let pc := s.core.pc.toNat
     let count := if x.cnt = 0 then x.icnt.toNat else (s.rdG x.cnt).toNat
     let block := s.captured (pc + 8) len
     let ws := block.map Prod.fst
     let vector := fun (w : Word) => 0x10 ≤ w.toNat / 2 ^ 56 % 64 ∧ w.toNat / 2 ^ 56 % 64 ≤ 0x16
     s.tile.rep.count = 0 →
     (2 ^ 32 ≤ count → exec (.rep x) s = trapAt codeRepuse (BitVec.ofNat 64 3) 8 s) ∧
     (count < 2 ^ 32 → firstBad block = none → (∀ w ∈ ws, vector w) → s.loopTests = false →
       exec (.rep x) s = .next (({ s with core := { s.core with behind := none }, tile := { s.tile with rep :=
         if count = 0 then Repeat.empty else
           { words := ws, count := count, pass := 0, next := 0, stag := x.stag, at_ := BitVec.ofNat 64 (pc + 8), fault := none } } }.count
             0 7 1).done (8 + 8 * len))) ∧
     (∀ k w, count < 2 ^ 32 → firstBad block = none → ws[k]? = some w → ¬ vector w → (∀ v ∈ ws.take k, vector v) →
       exec (.rep x) s = trapAt codeRepuse (BitVec.ofNat 64 (1 + k * 2 ^ 8)) 8 s)) ∧
   (∀ (x : OpN) (s : State), s.guard x.q = true →
     (s.tile.rep.count = 0 → exec (.repw x) s = .next ((s.count 0 7 1).done 8)) ∧
     (s.tile.rep.count ≠ 0 → exec (.repw x) s = .next (s.waits .sequencer 0)))) ∧
  (∀ (s : State) (lcid : Nat) (w : Word) (i : Instr) (q : Guard) (f : State → Res Unit) (t : State),
     let p := ProcId.main lcid
     let u := s.focus p
     let r := u.tile.rep
     (s.getCore p).running = true → (s.pastStop p = false ∨ (s.getTile lcid).handler.entering = true) → r.count ≠ 0 → r.words[r.next]? = some w →
     decodeFor .main (staggered r.stag r.pass w.toNat) 0 = .ok i → passOf i = some (q, f) →
     (u.guard q = true → f u = .ok () t →
       exec (.repeatPassIssue ⟨lcid⟩) s = .next (((((t.setRep t.tile.rep.advance).count 0 0 1).count 0 7 1).progress).focus s.cur)) ∧
     (u.guard q = false → exec (.repeatPassIssue ⟨lcid⟩) s = .next ((((u.setRep r.advance).count 0 0 1).progress).focus s.cur)))

/-! ## Majors 0x20 to 0x2A -/

/-- R245: LD reads the bytes at its address and extends them. R220: a processor that does not wait for its reads goes on, with the read
among its pending accesses. -/
def Obligations.LoadResult : Prop :=
  ∀ (x : OpLd) (s : State), s.guard x.q = true → s.reaches x.m x.asz Region.ldOk →
    let a := s.ea x.m x.asz
    let n := x.asz.bytes
    let u := (s.atIssue .load (fun t => t.countReads n [a])).spendAll [a]
    (s.readsNow [a] n x.ord x.sco → exec (.ld x) s = .next (State.done 8 (match x.d with
      | .g r => u.wrG r (loadedAs x.ext n (s.readNat a n))
      | .a r => u.wrA r (BitVec.ofNat 64 (s.readNat a n))))) ∧
    (s.goesOn = true →
      exec (.ld x) s = .next (((s.countBytes s.cur 0 a n).issueLate (.ld x.d x.ext none) a n x.ord x.sco).done 8))

/-- R245, R220: ST issues one store of the low bytes of its register, at the address R118 gives; no byte of memory changes before the
store performs. R220: a STORE step writes the bytes of its piece and no others; FESET and FECLR set and clear the full bit of their unit.
R361, R362: in a protected team's sealed line the step seals the line anew with the bytes merged in; how its interface numbers its messages,
and how many it has sent before, is the model's choice (log entry 45).
The premises: nothing holds the step back, its message towards another module has left, and its home answers (R222, R241, R423). R247:
of one cycle the steps on a unit come in an order, so one that would follow a later step waits. -/
def Obligations.Stores : Prop :=
  (∀ (x : OpSt) (s : State), s.guard x.q = true → s.reaches x.m x.asz Region.stOk →
     let a := s.ea x.m x.asz
     let n := x.asz.bytes
     let passes := s.onMain && s.tile.rep.count != 0
     ∃ t acc, exec (.st x) s = .next t ∧ t = ((({ s with core := { s.core with
         pend := s.core.pend ++ [acc], seq := s.core.seq + 1
         behind := if passes then some (s.core.behind.getD s.core.seq) else s.core.behind } } : State).countBytes s.cur 1 a n).done 8) ∧
       acc.kind = .store ∧ acc.addr = a ∧ acc.size = n ∧ acc.performed = false ∧ acc.ord = x.ord ∧ acc.sco = x.sco ∧
       acc.pieces.flatten = cellsOf a (s.rdG x.d).toNat n ∧
       (∀ b, memGet t.mem b = memGet s.mem b)) ∧
  (∀ (s : State) (p : ProcId) (i k : Nat) (a : Access) (cells : List Host.Cell) (b : Nat),
     s.memOk = true → (s.getCore p).pend[i]? = some a → a.performed = false → s.mayPerform p i = true → a.pieces[k]? = some cells →
     b = (match cells with | [] => a.addr | c :: _ => c.1) → s.mustSend a = none → s.outOfTurn p a = false → s.wayFault b = none →
     s.admits p b = true →
     (a.kind = .store → ((s.region b).isGlobal = true ∨ (s.region b).isScratch = true) → s.linesAt p b cells.length = [] →
       s.unready b cells.length = false → s.keptOut b cells.length = [] → (cells.map Prod.fst).Nodup →
       ∃ t, exec (.storeStep ⟨p, i, k⟩) s = .next t ∧ (∀ c ∈ cells, memGet t.mem c.1 = c.2) ∧
         (∀ d, d ∉ cells.map Prod.fst → memGet t.mem d = memGet s.mem d) ∧ t.full = s.full ∧
         (t.getCore p).pend.length = (s.getCore p).pend.length ∧
         ((t.getCore p).pend.getD i noAccess).pieces = dropAt a.pieces k) ∧
     (∀ (tm : Team) (l : Nat), a.kind = .store → (s.region b).isGlobal = true → s.teamOf p = some tm → s.findTeam tm.num = some tm →
       s.linesAt p b cells.length = [l] → s.unready l 64 = false → s.badUnits l 64 = [] →
       (s.coversLine tm l cells = true ∨ (s.openLine tm l).isSome = true) →
       ∃ t, exec (.storeStep ⟨p, i, k⟩) s = .next t ∧
         t.mem = memPut s.mem ((s.sentBy tm ((homeTile p).getD 1024)).sealedCells ((homeTile p).getD 1024) l (s.merged tm l cells ((s.openLine tm l).getD [])))) ∧
     (a.kind = .feset → ∃ t, exec (.storeStep ⟨p, i, k⟩) s = .next t ∧ t.mem = s.mem ∧ ∀ u, u ∈ t.full ↔ u = b / 8 ∨ u ∈ s.full) ∧
     (a.kind = .feclr → ∃ t, exec (.storeStep ⟨p, i, k⟩) s = .next t ∧ t.mem = s.mem ∧ ∀ u, u ∈ t.full ↔ u ≠ b / 8 ∧ u ∈ s.full)) ∧
  (∀ (s : State) (p : ProcId) (i k : Nat) (a : Access), (s.getCore p).pend[i]? = some a → (a.kind = .feset ∨ a.kind = .feclr) →
     (s.outOfTurn p a = true ↔ ∃ n, (Home.unit (a.addr / 8), s.cycle, n) ∈ s.homeAt ∧ (if a.kind = .feset then 2 else 1) < n) ∧
     (s.outOfTurn p a = true → exec (.storeStep ⟨p, i, k⟩) s = .next s))

/-- R220: a LOAD step reads a piece of the pending read at its home; an ACK step takes an access that has performed out of U; one with a
mark stops the context that issued it instead (R364). -/
def Obligations.LoadAndAckSteps : Prop :=
  (∀ (s : State) (p : ProcId) (k : Nat) (l : Load) (q : LoadPart), (s.getCore p).load = some l → l.parts[k]? = some q →
    q.bytes = none → s.partHeld p l k q = false → s.messageOpen (paidPiece l.parts q) q.addr = true → s.inWindow q.addr = false →
    s.readFault p q.addr q.len = none →
    ∃ t, exec (.loadStep ⟨p, .piece k⟩) s = .next t ∧ t.mem = s.mem ∧
      (t.getCore p).load = some { l with parts := setAt l.parts k { q with bytes := some (s.bytesFor p q.addr q.len) } }) ∧
  (∀ (s : State) (p : ProcId) (i : Nat) (a : Access), (s.getCore p).pend[i]? = some a → a.performed = true → a.marked = false →
    exec (.ackStep ⟨p, i⟩) s = .next ((s.setCore p { s.getCore p with pend := dropAt (s.getCore p).pend i }).progressOf p)) ∧
  (∀ (s : State) (p : ProcId) (i : Nat) (a : Access), (s.getCore p).pend[i]? = some a → a.performed = true → a.marked = true →
    ∃ t, exec (.ackStep ⟨p, i⟩) s = .next t ∧ (t.getCore p).running = false ∧ (t.getCore p).pend = (s.getCore p).pend ∧ t.mem = s.mem ∧
      ∀ n, p = .main n ∨ p = .stage n → (t.getCore (.main n)).running = false ∧ (t.getCore (.stage n)).running = false)

/-- R246, R247: LDS waits for the full bit and leaves it set; FESET and FECLR issue their step; FEPOLL reads the bit. -/
def Obligations.FullBits : Prop :=
  (∀ (x : OpMemG) (s : State), s.guard x.q = true → s.reaches x.m x.asz Region.isScratch →
    let a := s.ea x.m x.asz
    let n := x.asz.bytes
    a % n = 0 → s.wayBlocked a n = none → s.heldBack s.cur a n x.ord x.sco = false →
    let u := s.atIssue .lds (fun t => t.countBytes s.cur 0 a n)
    (a / 8 ∈ s.full → s.readFault s.cur a n = none →
      exec (.lds x) s = .next (((u.readUnit a).wrG x.d (loadedAs x.ext n (s.readNat a n))).done 8)) ∧
    (a / 8 ∉ s.full → exec (.lds x) s = .next (u.waits .lds 0))) ∧
  (∀ (x : OpFe) (s : State), s.guard x.q = true → s.reaches x.m .d Region.isScratch → s.ea x.m .d % 8 = 0 →
    let issued := fun (k : AccKind) => (s.issueAccess (oneStep k (s.ea x.m .d) 8 x.ord x.sco)).countRequest s.cur (s.ea x.m .d) 8
    exec (.feset x) s = .next ((issued .feset).done 8) ∧ exec (.feclr x) s = .next ((issued .feclr).done 8)) ∧
  (∀ (x : OpFepoll) (s : State), s.guard x.q = true → s.reaches x.m .d Region.isScratch → s.ea x.m .d % 8 = 0 →
    let u := s.atIssue .load (fun t => t.countRequest s.cur (s.ea x.m .d) 8)
    (s.goesOn = false → s.readFault s.cur (s.ea x.m .d) 8 = none → s.heldBack s.cur (s.ea x.m .d) 8 x.ord x.sco = false →
      exec (.fepoll x) s = .next (((u.readUnit (s.ea x.m .d)).wrP x.d (decide (s.ea x.m .d / 8 ∈ s.full))).done 8)) ∧
    (s.goesOn = true → exec (.fepoll x) s = .next ((u.issueLate (.fepoll x.d) (s.ea x.m .d) 8 x.ord x.sco).done 8)))

/-- R248, R249: an atomic reads the old value into g[d] and writes the new one in the same step, at its own bytes only.
R362: on a sealed line it changes that line only. R423: towards another module its message leaves first. -/
def Obligations.AtomicResults : Prop :=
  ∀ (x : OpMemG) (s : State), s.guard x.q = true → s.reaches x.m x.asz Region.amoOk →
    let a := s.ea x.m x.asz
    let n := x.asz.bytes
    let w := 8 * n
    let u := s.atIssue .load (fun t => t.countAmo s.cur a n)
    let amos := [Instr.amoadd x, .amoand x, .amoor x, .amoxor x, .amomin x, .amomax x, .amominn x, .amomaxn x, .amoswp x, .amocas x,
      .amofadd x, .amoinc x]
    s.memOk = true → a % n = 0 → s.goesOn = false → s.core.load = none → s.core.lates = [] → s.mustWait [a] n x.ord x.sco = false →
    (s.eager = false → s.peerAt a ≠ none → ∀ i ∈ amos, exec i s = .next (State.waits
      { u.spend a with core := { (u.spend a).core with load := some (amoSent a n x.ord x.sco) } } .load 0)) ∧
    (s.eager = true ∨ s.peerAt a = none → s.readFault s.cur a n = none →
    let m := s.readNat a n
    let v := (s.rdG x.d).toNat % 2 ^ w
    let int := fun (y : Nat) => if 2 ^ w ≤ 2 * y then (y : Int) - 2 ^ w else y
    let is := fun (i : Instr) (r : Nat) => ∃ t, exec i s = .next t ∧
      t = ((({ u.spend a with mem := t.mem } : State).wrG x.d (loadedAs x.ext n m)).done 8) ∧
      memNat t.mem a n = r ∧ (∀ b, b < a ∨ a + n ≤ b → memGet t.mem b = memGet s.mem b)
    (∀ l, s.linesAt s.cur a n = [l] → ∀ i ∈ amos,
      ∃ t, exec i s = .next t ∧ t.rdG x.d = (if x.d = 0 then 0 else loadedAs x.ext n m) ∧
        (∀ b, b < l ∨ l + 64 ≤ b → memGet t.mem b = memGet s.mem b)) ∧
    (s.linesAt s.cur a n = [] →
    is (.amoadd x) ((m + v) % 2 ^ w) ∧ is (.amoand x) (m &&& v) ∧ is (.amoor x) (m ||| v) ∧ is (.amoxor x) (m ^^^ v) ∧
    is (.amomin x) (if int m ≤ int v then m else v) ∧ is (.amomax x) (if int m ≤ int v then v else m) ∧
    is (.amominn x) (if m ≤ v then m else v) ∧ is (.amomaxn x) (if m ≤ v then v else m) ∧
    is (.amoswp x) v ∧ is (.amocas x) (if m = v then (s.rdG (x.d + 1)).toNat % 2 ^ w else m) ∧
    is (.amofadd x) (amoFadd (amoFp x.asz) m v % 2 ^ w) ∧ is (.amoinc x) ((if v ≤ m then 0 else m + 1) % 2 ^ w)))

/-- R252, R253, R447: pushing and popping a tile queue. R253, R447: at a queue's home a push is appended, or refused when the queue holds 32
entries; the NI re-sends a refused one; of one cycle pushes come by their LCID and before pops (R233, R253). A pop that waits takes the head
when there is one. -/
def Obligations.Queues : Prop :=
  ((∀ (x : OpQue) (s : State) (l n : Nat) (w : Word), s.guard x.q = true → ptrOk (s.rdA x.ab) = true →
     (s.region (s.queueEa x.ab x.ix x.isc)).queue = some (l, n) → s.eager = true → s.core.wait = none → s.core.pend = [] →
     s.core.lates = [] → s.tile.rep.count = 0 → w = s.rdG x.d →
     let a := s.queueEa x.ab x.ix x.isc
     s.wayOpen a = true → s.wayFault a = none → s.admits s.cur a = true → s.keptOut a 8 = [] →
     s.afterHome (.queue (8 * l + n)) (pushPlace s.cur) = false → (s.queue (8 * l + n)).length < 32 → s.tileStopped l = false →
     ∃ t, exec (.qpush x) s = .next t ∧ t.queue (8 * l + n) = s.queue (8 * l + n) ++ [w] ∧ t.mem = s.mem ∧
       (∀ k, k ≠ 8 * l + n → t.queue k = s.queue k) ∧ (s.loopTests = false → t.core.pc = s.core.pc + 8)) ∧
   (∀ (x : OpQue) (s : State) (l n : Nat), s.guard x.q = true → ptrOk (s.rdA x.ab) = true →
     (s.region (s.queueEa x.ab x.ix x.isc)).queue = some (l, n) → homeTile s.cur = some l →
     let a := s.queueEa x.ab x.ix x.isc
     let q := 8 * l + n
     (s.wayBlocked a 8 = none → s.heldWriting a 8 .acq x.sco = false →
       (∀ e r, s.queue q = e :: r → s.readFault s.cur a 8 = none →
         exec (.qpop x) s = .next (((s.queuePop q r).wrG x.d e).done 8) ∧
         exec (.qpopw x) s = .next (((s.queuePop q r).wrG x.d e).done 8)) ∧
       (s.queue q = [] → exec (.qpop x) s = .next (s.waits .pop 0) ∧ exec (.qpopw x) s = .next (s.waits .popYield 0))) ∧
     (s.goesOn = true → exec (.qcnt x) s = .next ((s.issueLate (.qcnt x.d) a 8 .rlx .self).done 8)) ∧
     (s.goesOn = false → s.readFault s.cur a 8 = none → s.heldBack s.cur a 8 .rlx .self = false →
       exec (.qcnt x) s = .next ((s.wrG x.d (BitVec.ofNat 64 (s.queue q).length)).done 8))) ∧
   (∀ (x : OpQtry) (s : State) (l n : Nat), s.guard x.q = true → ptrOk (s.rdA x.ab) = true →
     (s.region (s.queueEa x.ab x.ix x.isc)).queue = some (l, n) → homeTile s.cur = some l →
     let a := s.queueEa x.ab x.ix x.isc
     let q := 8 * l + n
     (s.goesOn = true → exec (.qtry x) s = .next ((s.issueLate (.qtry x.d x.pn) a 8 .acq x.sco).done 8)) ∧
     (s.goesOn = false → s.wayBlocked a 8 = none → s.heldWriting a 8 .acq x.sco = false →
       (∀ e r, s.queue q = e :: r → s.readFault s.cur a 8 = none →
         exec (.qtry x) s = .next ((((s.queuePop q r).wrG x.d e).wrP x.pn true).done 8)) ∧
       (s.queue q = [] → exec (.qtry x) s = .next (((s.queuePop q []).wrP x.pn false).done 8)))) ∧
   (∀ (s : State) (q : Nat) (r : List Word), (s.queuePop q r).queue q = r ∧ (∀ k, k ≠ q → (s.queuePop q r).queue k = s.queue k) ∧
     s.queuePop q r = { s with queues := (s.queuePop q r).queues, homeAt := (s.queuePop q r).homeAt })) ∧
  ((∀ (s : State) (p : ProcId) (i : Nat) (a : Access) (e : Word) (l n : Nat), (s.getCore p).pend[i]? = some a → a.kind = .qpush e →
     a.performed = false → a.pieces = [[]] → s.mayPerform p i = true → s.wayFault a.addr = none → s.admits p a.addr = true →
     s.keptOut a.addr 8 = [] → (s.region a.addr).queue = some (l, n) → s.tileStopped l = false →
     let q := 8 * l + n
     let pushes := fun (j : Instr) =>
       ((s.queue q).length < 32 → ∃ t, exec j s = .next t ∧ t.queue q = s.queue q ++ [e] ∧ t.mem = s.mem ∧
         ((t.getCore p).pend.getD i noAccess).performed = true) ∧
       (32 ≤ (s.queue q).length → ∃ t, exec j s = .next t ∧ t.queues = s.queues ∧ t.mem = s.mem ∧
         ((t.getCore p).pend.getD i noAccess).performed = false ∧ ((t.getCore p).pend.getD i noAccess).refused = true)
     (s.afterHome (.queue q) (pushPlace p) = true → exec (.queuePushStep ⟨p, i⟩) s = .next s) ∧
     (s.afterHome (.queue q) (pushPlace p) = false → pushes (.queuePushStep ⟨p, i⟩) ∧ (a.refused = true → pushes (.qpushResend ⟨p, i⟩)))) ∧
   (∀ (s : State) (p : ProcId) (x : OpQue) (w v : Word) (wt : Wait) (l n : Nat) (e : Word) (r : List Word), (s.getCore p).wait = some wt →
     (s.getCore p).running = true → s.pastStop p = false →
     let u := s.focus p
     let a := u.queueEa x.ab x.ix x.isc
     u.fetch = .words w v → u.guard x.q = true → ptrOk (u.rdA x.ab) = true →
     (u.region a).queue = some (l, n) → homeTile p = some l → u.readFault p a 8 = none → u.heldWriting a 8 .acq x.sco = false →
     u.queue (8 * l + n) = e :: r →
     (wt.kind = .pop → decodeFor (columnOf p) w.toNat v.toNat = .ok (.qpop x) →
       exec (.queuePopStep ⟨p⟩) s = .next (((u.queuePop (8 * l + n) r).wrG x.d e).done 8)) ∧
     (wt.kind = .popYield → decodeFor (columnOf p) w.toNat v.toNat = .ok (.qpopw x) →
       exec (.queuePopStep ⟨p⟩) s = .next (((u.queuePop (8 * l + n) r).wrG x.d e).done 8))))

/-- R225, R229, R250, R257: a fence completes when nothing it waits for is left and no record of R251 is to be reported; it reports the
engine record first. KFLUSH completes when no key-routed update is left. -/
def Obligations.Fences : Prop :=
  (∀ (x : OpFence) (s : State), s.guard x.q = true →
    (s.fenceDone x.sco = true → s.report x.sco (x.sco == .fabric || x.sco == .system) = none → exec (.fence x) s = .next (s.done 8)) ∧
    (s.eager = false → s.fenceDone x.sco = false → exec (.fence x) s = .next (s.waits .other 0)) ∧
    (s.cmdsDone x.sco = true → s.report x.sco false = none → exec (.fencee x) s = .next (s.done 8)) ∧
    (s.eager = false → s.cmdsDone x.sco = false → exec (.fencee x) s = .next (s.waits .other 0)) ∧
    (s.fenceDone x.sco = true → ∀ r, s.core.engRec = some r →
      exec (.fence x) s = trapAfter r.code r.detail true true 8 { s with core := { s.core with engRec := none } })) ∧
  (∀ (x : OpN) (s : State), s.guard x.q = true →
    (s.allAcked s.cur Access.isKsend = true → exec (.kflush x) s = .next (s.done 8)) ∧
    (s.eager = false → s.allAcked s.cur Access.isKsend = false → exec (.kflush x) s = .next (s.waits .kflush 0)))

/-- R255, R256: the key configuration; KSEND sends an update of every active lane to the tile and bin that its key hashes to; a delivery
combines it with the bin. R291, R233: SEV's set reaches the latch of its target tile when the event mask has SEV's bit; a set of the cycle
in which the latch was consumed came first (R63). R44: a decrement lowers the counter of its TCB by one, and readies the task that reaches
zero; one that finds the counter at 0 changes nothing and is counted. -/
def Obligations.Keys : Prop :=
  ((∀ (x : OpG) (s : State), s.guard x.q = true →
     (s.keyOk (s.rdG x.a) = true → s.procs.any (fun p => (s.getCore p).pend.any (s.keyTo s.here)) = false →
       exec (.kcfg x) s = .next (State.done 8 { s with tile := { s.tile with keycfg := s.rdG x.a } })) ∧
     (s.keyOk (s.rdG x.a) = false → ∃ w, exec (.kcfg x) s = trapAt codeIllegal w 8 s)) ∧
   (∀ (x : OpKsend) (s : State), s.guard x.q = true → s.noStreams = true →
     let k := s.tile.keycfg.toNat
     let nb := k / 2 ^ 20 % 2 ^ 18
     let op := k / 2 ^ 38 % 8
     let level := k / 2 ^ 41 % 8
     nb ≠ 0 → keyPair x.et op = true →
     ∃ t accs, exec (.ksend x) s = .next t ∧ t.mem = s.mem ∧ t.core.pend = s.core.pend ++ accs ∧
       accs.map Access.kind = ((List.range 16).filter (fun i => (s.rdW x.wm).getLsbD i)).map (fun i =>
         .ksend op (vlane .n32 (s.rdV x.keys) i % nb) (BitVec.ofNat 32 (s.srcLane x.et x.b i))) ∧
       accs.map Access.addr = ((List.range 16).filter (fun i => (s.rdW x.wm).getLsbD i)).map (fun i =>
         s.keyTarget level (vlane .n32 (s.rdV x.keys) i / nb * 0x9E3779B1 % 2 ^ 32 * s.domainSize s.cur level / 2 ^ 32)
           (vlane .n32 (s.rdV x.keys) i % nb))) ∧
   (∀ (s : State) (p : ProcId) (i : Nat) (a : Access) (op bin : Nat) (v : BitVec 32) (l o : Nat), (s.getCore p).pend[i]? = some a →
     a.kind = .ksend op bin v → a.performed = false → a.pieces = [[]] → s.mayPerform p i = true → s.wayFault a.addr = none →
     s.admits p a.addr = true → s.region a.addr = .scratch l o →
     let k := (s.getTile l).keycfg
     let b := scratchAddr l (k.toNat % 2 ^ 20 + 4 * bin)
     s.memOk = true → keyOp k = op → bin < keyNb k → l < 1024 → k.toNat % 2 ^ 20 + 4 * bin + 4 ≤ 2 ^ 20 → s.keptOut b 4 = [] →
     ∃ t, exec (.ksendDelivery ⟨p, i⟩) s = .next t ∧ memNat t.mem b 4 = keyUpdate op (memNat s.mem b 4) v.toNat % 2 ^ 32 ∧
       (∀ d, d < b ∨ b + 4 ≤ d → memGet t.mem d = memGet s.mem d))) ∧
  ((∀ (s : State) (p : ProcId) (i : Nat) (a : Access) (stage : Bool) (l o : Nat), (s.getCore p).pend[i]? = some a → a.kind = .sev stage →
     a.performed = false → a.pieces = [[]] → s.mayPerform p i = true → s.wayFault a.addr = none → s.admits p a.addr = true →
     s.region a.addr = .port l o → s.tileStopped l = false →
     let q : ProcId := if stage then .stage l else .main l
     ∃ t, exec (.sevSet ⟨p, i⟩) s = .next t ∧ t.mem = s.mem ∧
       (t.getCore q).latch = ((s.getCore q).latch || ((s.getCore q).evmask.getLsbD 0 && (s.getCore q).tookAt != some s.cycle))) ∧
   (∀ (s : State) (p : ProcId) (i l : Nat) (a : Access) (tm : Team), (s.getCore p).pend[i]? = some a → a.kind = .pcnt →
     a.performed = false → a.pieces = [[]] → s.mayPerform p i = true → s.wayFault a.addr = none → s.admits p a.addr = true →
     s.region a.addr = .hbm → homeTile p = some l → s.teamOf p = some tm → s.findTeam tm.num = some tm → 4 ≤ a.addr →
     s.memOk = true → tcbFault s tm (a.addr - 4) = none → s.badHeld p a.addr 2 = false →
     let readied := fun (t : State) => tcbPcnt s tm (a.addr - 4) = 1 → ∃ r : ReadyItem, r.work = .task (a.addr - 4) ∧ r.team = tm.num ∧
       ((∃ n, r ∈ (t.getTile n).localQ) ∨ (∃ c, r ∈ (t.getCluster c).readyQ))
     (0 < tcbPcnt s tm (a.addr - 4) → s.linesOf tm a.addr 2 = [] →
       ∃ t, exec (.pcntDecrement ⟨p, i⟩) s = .next t ∧ tcbPcnt t tm (a.addr - 4) = tcbPcnt s tm (a.addr - 4) - 1 ∧ readied t ∧
         (∀ d, d < a.addr ∨ a.addr + 2 ≤ d → memGet t.mem d = memGet s.mem d)) ∧
     (0 < tcbPcnt s tm (a.addr - 4) → ∀ l, s.linesOf tm a.addr 2 = [l] → ∃ t, exec (.pcntDecrement ⟨p, i⟩) s = .next t ∧ readied t ∧
       (∀ d, d < l ∨ l + 64 ≤ d → memGet t.mem d = memGet s.mem d)) ∧
     (tcbPcnt s tm (a.addr - 4) = 0 → l < 1024 → ∃ t, exec (.pcntDecrement ⟨p, i⟩) s = .next t ∧ t.mem = s.mem ∧
       vget (t.getTile l).ctr 5 0 = satAdd (vget (s.getTile l).ctr 5 0) 1 ∧
       (∀ n, (t.getTile n).localQ = (s.getTile n).localQ) ∧ ∀ c, t.getCluster c = s.getCluster c)))

/-- R268–R271: WLD reads the weight store, or clears its guard with `.nowait` while a window holds a piece back; IWIN gives the window's
timing. R272–R275: the fabric drain. -/
def Obligations.WeightsAndFabric : Prop :=
  ((∀ (x : OpWld) (s : State), s.guard x.q = true → s.reaches x.m x.asz Region.isWeights → s.core.load = none →
     let a := s.ea x.m x.asz
     let n := x.asz.bytes
     let window := (pieces a n).any (fun q => s.inWindow q.1)
     let u := (s.atIssue .load (fun t => t.countReads n [a])).spendAll [a]
     (window = false → s.readsNow [a] n .rlx .self →
       (∀ r ext, x.d = .g r ext →
         exec (.wld x) s = .next ((u.wrG r (loadedAs ext n (s.readNat a n))).done 8)) ∧
       (∀ r, x.d = .v r → s.onMain = true → s.noStreams = true →
         exec (.wld x) s = .next ((u.wrV r (BitVec.ofNat 512 (s.readNat a n))).done 8))) ∧
     (s.goesOn = true → (x.nowait = true → window = false) → ∀ r ext, x.d = .g r ext →
       exec (.wld x) s = .next (((s.countBytes s.cur 0 a n).issueLate (.ld (.g r) ext (if x.nowait then some x.q.gp else none)) a n .rlx .self).done 8)) ∧
     (x.nowait = true → window = true → exec (.wld x) s = .next ((s.wrP x.q.gp false).done 8))) ∧
   (∀ (x : OpIwin) (s : State), s.guard x.q = true → s.reaches x.m .b Region.isWeights →
     let t := s.gtime % 32000
     let a := 1000 * (s.ea x.m .b / 2 ^ 25 % 32)
     exec (.iwin x) s = .next ((s.wrG x.d (BitVec.ofNat 64
       (if a ≤ t ∧ t < a + 1000 then 2 ^ 63 + (a + 1000 - t) else (a + 32000 - t) % 32000))).done 8)) ∧
   (∀ (s : State) (b : EvBank), s.gtime % 32000 / 1000 = b.grp →
     ∃ t, exec (.intercalaryWindowEnd b) s = .next t ∧ s.gtime < t.gtime ∧ t.gtime % 1000 = 0 ∧ t.gtime ≤ s.gtime + 1000)) ∧
  ((∀ (x : OpEpoch) (s : State), s.guard x.q = true → s.fabricSent = true → s.fabric.dark = none →
     (∀ m, m < 64 → (vget s.fabric.peers m Peer.empty).valid = true → (vget s.fabric.peers m Peer.empty).allow ≠ 0 ∧
       s.fabric.room (vget s.fabric.peers m Peer.empty).port.toNat = true) →
     ∃ t, exec (.xmark x) s = .next t ∧ t.mem = s.mem ∧
       ∀ m, m < 64 → (vget s.fabric.peers m Peer.empty).valid = true →
         (∃ f ∈ t.fabric.flights, f.peer = m ∧ f.cargo = .marker s.cur x.e) ∧
         (vget t.fabric.peers m Peer.empty).allow = (vget s.fabric.peers m Peer.empty).allow - 1) ∧
   (∀ (x : OpXwait) (s : State), s.guard x.q = true →
     (s.epochsInTime x.e = true → exec (.xwait x) s = .next ((s.endSingle.wrP x.d true).done 8)) ∧
     (s.epochsInTime x.e = false → s.timedOut = true → exec (.xwait x) s = .next ((s.endSingle.wrP x.d false).done 8)) ∧
     (s.epochsInTime x.e = false → s.timedOut = false → (s.onMain && s.singleTest) = false →
       exec (.xwait x) s = .next (s.waits (.xwait x.d x.e) (s.rdG x.a).toNat))) ∧
   (∀ (x : OpGG) (s : State), s.guard x.q = true →
     let i := (s.rdG x.a).toNat
     let q := vget s.fabric.peers i Peer.empty
     exec (.xpeer x) s = .next ((s.wrG x.d (BitVec.ofNat 64 (if 64 ≤ i then s.fabric.gen.toNat * 2 ^ 48 else
       (if q.valid then 2 ^ 63 else 0) + s.fabric.gen.toNat * 2 ^ 48 + q.allow * 2 ^ 32 + q.port.toNat * 2 ^ 8 + i))).done 8)) ∧
   (∀ (s : State) (p : ProcId) (d : PReg) (e : BitVec 8) (since limit : Nat), (s.getCore p).wait = some ⟨.xwait d e, since, limit⟩ →
     (s.getCore p).running = true → s.pastStop p = false → limit ≠ 0 → since + limit < s.cycle → (s.focus p).epochsInTime e = false →
     exec (.xwaitTimeout ⟨p⟩) s = .next (((s.focus p).wrP d false).done 8)) ∧
   (∀ (s : State) (m : EvMarker), m.peer < 64 → (vget s.fabric.peers m.peer Peer.empty).valid = true →
     ∃ t, exec (.drainMarker m) s = .next t ∧ (vget t.fabric.peers m.peer Peer.empty).epoch = some m.epoch ∧ t.mem = s.mem))

/-! ## Engines -/

/-- R258–R261, R264–R266: a command that passes the checks at issue takes the next handle and is pending; one whose rows an extent does
not grant is faulted at once, with its record; an empty copy is done at once. -/
def Obligations.CommandIssue : Prop :=
  (∀ (s : State) (q : Guard) (d : GReg) (dst src : AReg) (len rows sstr dstr : GReg), s.guard q = true → s.core.pending < 16 →
    ptrOk (s.rdA dst) = true → ptrOk (s.rdA src) = true →
    let n := (s.rdG len).toNat
    let h := BitVec.ofNat 16 s.core.issued
    let issues := fun (i : Instr) (k : Nat) (ss ds : Int) (toStore : Bool) =>
      let w := CmdWork.copy (ptrAddr (s.rdA src)) (ptrAddr (s.rdA dst)) n k ss ds
      k < 2 ^ 32 → (toStore = true → s.storeOpen (ptrAddr (s.rdA dst)) = false) →
      s.rowOutside Region.engSrc (ptrAddr (s.rdA src)) ss n 0 k = none →
      s.rowOutside (if toStore then Region.isWeights else Region.engDst) (ptrAddr (s.rdA dst)) ds n 0 k = none →
      ∃ t c, exec i s = .next t ∧ t.mem = s.mem ∧ t.rdG d = (if d = 0 then 0 else h.setWidth 64) ∧ t.core.issued = s.core.issued + 1 ∧
        t.core.cmds.getLast? = some c ∧ c.handle = h ∧ c.work = w ∧
        (n = 0 ∨ k = 0 → c.status = .done) ∧
        (n ≠ 0 → k ≠ 0 → s.firstUngranted 5 0 w.srcRows = none → s.firstUngranted (if toStore then 14 else 6) 0 w.dstRows = none →
          c.status = .pending) ∧
        (n ≠ 0 → k ≠ 0 → ∀ o, s.firstUngranted 5 0 w.srcRows = some o → s.core.engRec = none →
          c.status = .faulted codeEngext (BitVec.ofNat 64 (h.toNat * 2 ^ 48 + o % 2 ^ 46)) ∧
          (t.core.engRec.map EngRec.handle = some h))
    issues (.cpy ⟨q, d, dst, src, len⟩) 1 0 0 false ∧ issues (.cpyw ⟨q, d, dst, src, len⟩) 1 0 0 true ∧
    issues (.cpy2 ⟨q, d, dst, src, len, rows, sstr, dstr⟩) (s.rdG rows).toNat (s.rdG sstr).toInt (s.rdG dstr).toInt false) ∧
  (∀ (x : OpColl) (s : State), s.guard x.q = true → s.core.pending < 16 → ptrOk (s.rdA x.dst) = true → ptrOk (s.rdA x.src) = true →
    let n := (s.rdG x.cnt).toNat
    let lv := x.level.toNat
    let h := BitVec.ofNat 16 s.core.issued
    let w := CmdWork.coll x.kind x.op lv x.root.toNat (ptrAddr (s.rdA x.src)) (ptrAddr (s.rdA x.dst)) n (ptrFmt (s.rdA x.src))
      (vget s.core.colls lv 0) (s.domainSize s.cur lv) (s.rankOf s.cur lv) ((Instr.coll x).encode.getD 1 0)
    let reached := fun (ok : Region → Bool) (l : List (Nat × Nat)) => ∀ a m, l.head? = some (a, m) → m ≠ 0 → s.rowOutside ok a 0 m 0 1 = none
    (s.collIllegal x (s.rdA x.dst) (s.rdA x.src) n = false → reached Region.engSrc w.srcChecked → reached Region.engDst w.dstChecked →
      s.firstUngranted 5 0 w.srcChecked = none → s.firstUngranted 6 0 w.dstChecked = none →
      ∃ t c, exec (.coll x) s = .next t ∧ t.mem = s.mem ∧ t.rdG x.d = (if x.d = 0 then 0 else h.setWidth 64) ∧
        t.core.cmds.getLast? = some c ∧ c.handle = h ∧ c.work = w ∧ c.status = .pending) ∧
    (s.collIllegal x (s.rdA x.dst) (s.rdA x.src) n = true → ∃ v, exec (.coll x) s = trapAt codeIllegal v 16 s))

/-- R262, R267: status reads. ESTAT and CSTAT give the command's word and clear the engine record that holds a faulted one; EWAIT and CWAIT
wait while it is pending, give the word of one that is done or not known, and report a faulted one as a trap after the instruction, with the
record cleared where it holds the command. -/
def Obligations.CommandStatus : Prop :=
  ∀ (x : OpGG) (s : State), s.guard x.q = true → s.heldBack s.cur 0 0 .acq .self = false →
    let c := s.core.known (s.rdG x.a)
    let word : Word := match c with
      | none => 3
      | some k => match k.status with
        | .pending => 0
        | .done => BitVec.ofNat 64 (1 + k.csat * 2 ^ 16)
        | .faulted code _ => BitVec.ofNat 64 (2 + code.toNat * 2 ^ 8 + k.csat * 2 ^ 16)
    let done := fun (i : Instr) => exec i s = .next ((s.wrG x.d word).done 16)
    let told : State := { s with core := { s.core with engRec := none } }
    let holds := fun (k : Cmd) => ∃ r, s.core.engRec = some r ∧ r.handle = k.handle
    ((∀ k code w, c = some k → k.status = .faulted code w → ¬ holds k) → done (.estat x) ∧ done (.cstat x)) ∧
    (∀ k code w, c = some k → k.status = .faulted code w → holds k →
      exec (.estat x) s = .next ((told.wrG x.d word).done 16) ∧ exec (.cstat x) s = .next ((told.wrG x.d word).done 16)) ∧
    ((c = none ∨ ∃ k, c = some k ∧ k.status = .done) → done (.ewait x) ∧ done (.cwait x)) ∧
    (∀ k, c = some k → k.status = .pending → s.eager = false →
      exec (.ewait x) s = .next (s.waits (.engine k.handle) 0) ∧ exec (.cwait x) s = .next (s.waits (.engine k.handle) 0)) ∧
    (∀ k code w, c = some k → k.status = .faulted code w →
      (holds k → exec (.ewait x) s = trapAfter code w true true 16 told ∧ exec (.cwait x) s = trapAfter code w true true 16 told) ∧
      (¬ holds k → exec (.ewait x) s = trapAfter code w false true 16 s ∧ exec (.cwait x) s = trapAfter code w false true 16 s))

/-- R230, R231: an engine reads the pieces of a pending command, writes in one step all its bytes of a unit, some row's where its rows
overlap (R261), or seals their line anew (R361, R362), and ends it when every unit is acknowledged; a unit towards a lost peer, or over part
of a failing ECC unit, is dropped and recorded (R393, R423). -/
def Obligations.EngineSteps : Prop :=
  ∀ (s : State) (p : ProcId) (h : BitVec 16) (k : Nat) (c : Cmd), s.findCmd p h = some c → c.status = .pending → s.engineOpen p = true →
    (∀ src dst len rows ss ds, c.work = .copy src dst len rows ss ds →
      (∀ q, c.pieces[k]? = some q → k ∉ c.reads → s.cmdHeld p c = false → s.messageOpen (Cmd.paid c.reads c.pieces q) q.addr = true →
        s.inWindow q.addr = false → s.readFault p q.addr q.len = none →
        ∃ t d, exec (.engineRead ⟨p, h, k⟩) s = .next t ∧ t.mem = s.mem ∧ t.findCmd p h = some d ∧ d.reads = k :: c.reads ∧
          d.buf = memPut c.buf (cellsAt q.off (s.bytesFor p q.addr q.len))) ∧
      (∀ u, s.memOk = true → c.units[k]? = some u → s.unitOpen p c u k = true → s.writeFault p u.addr = none →
        let sent := s.unitSent p c u
        let cells := s.unitCells p c u
        let a := match cells with | [] => u.addr | x :: _ => x.1
        let cls := (s.classOf p (a % 2 ^ 53)).index
        let writes := fun (t : State) => ∃ d, t.findCmd p h = some d ∧ d.writes = (c.group u).map Prod.snd ++ c.writes
        (∀ m, sent = false → s.peerAt u.addr = some m → ∃ t, exec (.engineWrite ⟨p, h, k⟩) s = .next t ∧ t.mem = s.mem ∧
          t.findCmd p h = some c ∧ ∃ f ∈ t.fabric.flights, f.peer = m ∧ f.cargo = c.cargo p u) ∧
        (sent = false → s.wayFault u.addr = some codePeerlost → (s.getCore p).peerRec = none →
          ∃ t, exec (.engineWrite ⟨p, h, k⟩) s = .next t ∧ writes t ∧ t.mem = s.mem ∧ (t.getCore p).peerRec = some u.addr) ∧
        (sent = true ∨ (s.wayFault u.addr = none ∧ s.peerAt u.addr = none) →
          (s.linesAt p a cells.length = [] → s.unready a cells.length = true ∨ s.keptOut a cells.length ≠ [] →
            ∃ t, exec (.engineWrite ⟨p, h, k⟩) s = .next t ∧ writes t ∧ t.mem = s.mem ∧
              (vget (s.getCore p).memerrRec cls none = none → vget (t.getCore p).memerrRec cls none = some a)) ∧
          (∀ l, s.linesAt p a cells.length = [l] → ∃ t, exec (.engineWrite ⟨p, h, k⟩) s = .next t ∧ writes t ∧
            (∀ b, b < l ∨ l + 64 ≤ b → memGet t.mem b = memGet s.mem b)) ∧
          (s.linesAt p a cells.length = [] → s.unready a cells.length = false → s.keptOut a cells.length = [] →
            ∃ t, exec (.engineWrite ⟨p, h, k⟩) s = .next t ∧ writes t ∧
              (∀ b, (∀ v ∈ c.group u, ¬ (v.1.addr ≤ b ∧ b < v.1.addr + v.1.len)) → memGet t.mem b = memGet s.mem b) ∧
              (∀ b, (∃ v ∈ c.group u, v.1.addr ≤ b ∧ b < v.1.addr + v.1.len) → ∃ v ∈ c.group u, v.1.addr ≤ b ∧ b < v.1.addr + v.1.len ∧
                memGet t.mem b = memGet c.buf (v.1.off + (b - v.1.addr))) ∧
              ((s.region u.addr).isScratch = true → u.addr / 8 ∈ t.full)))) ∧
      (c.allWritten = true → c.allRead = true → s.unitsAcked p h = true →
        ∃ t d, exec (.engineDone ⟨p, h⟩) s = .next t ∧ t.mem = s.mem ∧ t.findCmd p h = some d ∧ d.status = .done)) ∧
    (∀ src dst len rows ss ds code a, c.work = .copy src dst len rows ss ds → (s.cmdFaults p c).contains (code, a) = true →
      code ≠ codeBackstop → code ≠ codeEngext → (s.getCore p).engRec = none →
      let w : Word := BitVec.ofNat 64 (h.toNat * 2 ^ 48 + a % 2 ^ 48) ||| (if 2 ^ 63 ≤ a then 0x8000000000000000 else 0)
      ∃ t d, exec (.engineFault ⟨p, h, code, a⟩) s = .next t ∧ t.mem = s.mem ∧ t.findCmd p h = some d ∧
        d.status = .faulted code w ∧ (t.getCore p).engRec = some ⟨h, code, w⟩)

/-! ## Majors 0x30 to 0x33 -/

/-- R278, R279, R281–R284: spawning, decrementing, retiring, yielding and hinting. -/
def Obligations.TaskInstructions : Prop :=
  (∀ (x : OpA) (s : State), s.guard x.q = true →
    let a := (s.rdA x.a).toNat % 2 ^ 53
    ptrOk (s.rdA x.a) = true → ((s.region a).isGlobal || (s.region a).isScratch) = true → a % 64 = 0 →
    (exec (.tdec x) s = .next (((s.issueAccess (oneStep .pcnt (a + 4) 2 .rel .domain)).countRequest s.cur (a + 4) 2).done 8)) ∧
    (∀ t, s.fenceDone .domain = true → s.team = some t → s.heldBack s.cur a 64 .rlx .self = false → t.mayUse a 64 = true → s.wayFault a = none → s.admits s.cur a = true →
      tcbFault ((s.done 8).addTask t.num) t a = none →
      exec (.tspawn x) s = .next (if tcbPcnt s t a = 0 then ((s.done 8).addTask t.num).makeReady t (clusterOf s.here) a
        else (s.done 8).addTask t.num))) ∧
  (∀ (x : OpN) (s : State), s.guard x.q = true → s.eager = false →
    (s.allAcked s.cur Access.ofStream = true → s.core.idleEngines = true → s.core.quiet = true → s.unbind.report .system true = none →
      ∃ t, exec (.tend x) s = .next t ∧ t = s.unbind.retireRunning ∧ t.core.running = false ∧ t.tile.task = none ∧
        t.tile.loop.active = 0) ∧
    (s.core.idleEngines = true → s.core.quiet = true → s.report .system true = none →
      exec (.stageTend x) s = .next { s.retire with core := { s.retire.core with running := false } }) ∧
    (s.keepsCore = true → exec (.tyield x) s = .next (s.done 8)) ∧
    (s.keepsCore = false → s.core.parkable .ready = true →
      ∃ t, exec (.tyield x) s = .next t ∧ t.core.running = false ∧ t.tile.task = none ∧
        t.tile.conts.length = s.tile.conts.length + 1 ∧
        ∃ c, t.tile.conts.getLast? = some c ∧ c.pc = s.core.pc + 8 ∧ c.isReady = true ∧ contItem s.teamNum c ∈ t.tile.localQ)) ∧
  (∀ (x : OpHint) (s : State), s.guard x.q = true →
    exec (.thint x) s = .next (State.done 8 { s with tile := { s.tile with task := s.tile.task.map (fun t => { t with hint := x.h }) } }))

/-- R46, R47, R75: a dispatch starts a ready task with its arguments in g1 to g4, its TCB and its buffers in a0 to a6, and the rest of R75's
entry state: the other registers, the loops, the streams and the repeat unit; the launch entry readies the TCBs whose counters are zero; a
stage core starts at the STAGE entry (R334). -/
def Obligations.TaskStart : Prop :=
  (∀ (s : State) (lcid tcb : Nat) (tm : Team) (i : ReadyItem) (r : TaskRow), s.mayDispatch lcid = some tm → s.choose lcid = some i →
    i.work = .task tcb → tcbFault (s.take lcid i) tm tcb = none → tm.tasks[tcbEntry s tm tcb]? = some r →
    tm.code.holds (tm.code.entry r.link) = true →
    ∃ t, exec (.dispatch ⟨lcid⟩) s = .next t ∧
      let c := t.getCore (.main lcid)
      c.running = true ∧ c.pc = BitVec.ofNat 64 (tm.code.entry r.link) ∧
      (∀ k, k < 4 → vget c.g (k + 1) 0 = BitVec.ofNat 64 (s.teamNat tm (tcb + 0x18 + 8 * k) 8)) ∧
      (∀ k, 4 < k → k < 32 → vget c.g k 0 = 0) ∧ vget c.a 0 0 = BitVec.ofNat 64 tcb ∧
      (∀ k, k < 6 → vget c.a (k + 1) 0 = match r.bufix[k]? with
        | some b => (match tm.bufs[b]? with
          | some x => if b = 0xFF then 0 else mkPtr (Fmt.ofCode x.fmt.toNat) x.blog (if x.scratch then scratchAddr lcid x.addr else x.addr)
          | none => 0)
        | none => 0) ∧
      (∀ k, 6 < k → k < 14 → vget c.a k 0 = 0) ∧
      vget c.a 14 0 = BitVec.ofNat 64 tm.code.exitStub ∧ vget c.a 15 0 = BitVec.ofNat 64 (scratchAddr lcid 0x100000) ∧
      (∀ k, k < 8 → vget c.p k false = false) ∧ c.fpctl = 0 ∧ c.fpflags = 0 ∧ c.seed = seedStart tm.jobseed (i.home.getD lcid) ∧
      ((t.getTile lcid).task.map Task.tcb = some tcb) ∧
      let k := t.getTile lcid
      (∀ j, j < 32 → vget k.v j 0 = 0) ∧ (∀ j, j < 8 → vget k.w j 0 = 0) ∧ k.loop.active = 0 ∧
      (∀ j, j < 4 → vget k.loop.lc j 0 = 0 ∧ vget k.loop.ls j 0 = 0 ∧ vget k.loop.le j 0 = 0) ∧
      k.streams = Vector.replicate 4 Stream.empty ∧ k.rep = Repeat.empty) ∧
  (∀ (s : State) (lcid id : Nat) (tm : Team) (i : ReadyItem) (c : Cont), s.mayDispatch lcid = some tm → s.choose lcid = some i →
    i.work = .cont id → ((s.take lcid i).getTile lcid).conts.find? (fun c => c.id == id) = some c → tm.code.holds c.pc.toNat = true →
    ∃ t, exec (.dispatch ⟨lcid⟩) s = .next t ∧
      let k := t.getCore (.main lcid)
      k.running = true ∧ k.pc = c.pc ∧ k.seed = c.seed ∧ k.fpctl = c.fpctl ∧ k.fpflags = c.fpflags ∧
      (∀ n, n < 8 → vget k.p n false = c.preds.getLsbD n) ∧ ((t.getTile lcid).conts.all (fun d => d.id != id)) = true) ∧
  (∀ (s : State) (n : Nat) (tm : Team), s.findTeam n = some tm → tm.entryPosted = true → tm.state ≠ .launching →
    tm.state ≠ .failed → (∀ k, k < tm.tasks.length → tcbFault s tm (tm.tcbBase + 64 * k) = none) →
    ∃ t, exec (.launchEntryArrival ⟨n⟩) s = .next t ∧ t.mem = s.mem ∧ (∀ u, t.findTeam n = some u → u.entryPosted = false) ∧
      ∀ k, k < tm.tasks.length → tcbPcnt s tm (tm.tcbBase + 64 * k) = 0 →
        ∃ i : ReadyItem, i.work = .task (tm.tcbBase + 64 * k) ∧ i.team = tm.num ∧
          ((∃ l, i ∈ (t.getTile l).localQ) ∨ (∃ c, i ∈ (t.getCluster c).readyQ))) ∧
  (∀ (s : State) (lcid e : Nat) (tm : Team), s.findTeam (s.getTile lcid).team = some tm → tm.stageEntry = some e → tm.state = .running →
    tm.beforeStop s.gtime = true → tm.restorePending = false → (s.getTile lcid).stageOn = false → (s.getTile lcid).fenced = false →
    (s.getTile lcid).frozen = false →
    ∃ t, exec (.stageStart ⟨lcid⟩) s = .next t ∧ (t.getCore (.stage lcid)).running = true ∧
      (t.getCore (.stage lcid)).pc = BitVec.ofNat 64 e ∧ (t.getTile lcid).stageOn = true)

/-- R48–R51, R448: a wait that has lasted 64 cycles parks its task, until the time of its team's stop (R394); a continuation whose condition
holds becomes ready; continuations move between the tiles of a cluster, and a refused one returns. R24: CLOAD holds the ready depths. -/
def Obligations.Continuations : Prop :=
  (∀ (s : State) (lcid : Nat) (w : Wait) (a b : Word) (i : Instr) (c : ContWait) (pc : Word), (s.getCore (.main lcid)).wait = some w →
    (s.getCore (.main lcid)).running = true → s.pastStop (.main lcid) = false → w.since + 64 ≤ s.cycle → s.eager = false →
    let u := s.focus (.main lcid)
    (u.keepsCore = true → exec (.yieldTimeout ⟨lcid⟩) s = .next (u.focus s.cur)) ∧
    (u.keepsCore = false → u.fetch = .words a b → decodeFor .main a.toNat b.toNat = .ok i →
      u.contWait w i (if fld a.toNat 62 2 = 1 then 16 else 8) = some (c, pc) → u.core.parkable c = true →
      exec (.yieldTimeout ⟨lcid⟩) s = .next ((u.park pc c).focus s.cur))) ∧
  (∀ (s : State) (lcid i : Nat) (c : Cont), (s.getTile lcid).conts[i]? = some c → c.isReady = false → s.tileRuns lcid = true → s.contHolds lcid c = true →
    ∃ t d, exec (.continuationReady ⟨lcid, i⟩) s = .next t ∧ (t.getTile lcid).conts[i]? = some d ∧ d = { c with isReady := true, time := s.cycle } ∧
      contItem (s.getTile lcid).team d ∈ (t.getTile lcid).localQ) ∧
  (∀ (s : State) (lcid f n : Nat) (c : Cont) (tm : Team), migrant (s.getTile lcid).offers = some c → s.leastLoaded lcid = some (f, n) →
    s.findTeam (s.getTile lcid).team = some tm → (s.getTile lcid).migrating = false → f + 2 ≤ (s.getTile lcid).depth →
    tm.state = .running → tm.beforeStop s.gtime = true → tm.restorePending = false →
    ∃ t, exec (.continuationMigrate ⟨lcid⟩) s = .next t ∧
      t.migrations = s.migrations ++ [⟨lcid, tileOfCluster (clusterOf lcid) n, c, false⟩] ∧ (t.getTile lcid).migrating = true) ∧
  (∀ (s : State) (i : Nat) (m : Migration), s.migrations[i]? = some m → s.tileRuns m.from_ = true →
    (m.back = false → (s.getTile m.to_).fenced = false → (s.getTile m.to_).storeFull = false → m.to_ ≠ m.from_ →
      ∃ t, exec (.migrationArrival ⟨i⟩) s = .next t ∧ t.migrations = dropAt s.migrations i ∧
        (t.getTile m.to_).conts.length = (s.getTile m.to_).conts.length + 1 ∧ (t.getTile m.from_).migrating = false) ∧
    (m.back = false → (s.getTile m.to_).storeFull = true →
      exec (.migrationArrival ⟨i⟩) s = .next { s with migrations := setAt s.migrations i { m with back := true } }) ∧
    (m.back = true → (s.getTile m.from_).fenced = false → ∃ t, exec (.migrationReturn ⟨i⟩) s = .next t ∧ t.migrations = dropAt s.migrations i ∧
      (t.getTile m.from_).conts.length = (s.getTile m.from_).conts.length + 1 ∧ (t.getTile m.from_).migrating = false)) ∧
  (∀ (s : State) (c : Nat), ∃ t, exec (.cloadRefresh ⟨c⟩) s = .next t ∧ t.mem = s.mem ∧
    ∀ n, n < 16 → (t.getCluster c).cload.toNat / 2 ^ (4 * n) % 16 =
      (if (s.getTile (tileOfCluster c n)).fenced then 15 else min (s.getTile (tileOfCluster c n)).depth 14))

/-- R285, R286: an arrival waits for the episode; a completed episode ends the wait; a timeout takes the arrival back. R235, R287: a member
arrives at the gate when its work of the phase is done, departs into the next phase when every member has arrived, and SSTEP then returns
the phase. The model's choices: that a BARW ended by its timeout reports no fault record (log entry 18), that an event stands for the
members of other modules (21), and the fields that the state of a level keeps (23). -/
def Obligations.Barriers : Prop :=
  ((∀ (s : State) (q : Guard) (d : PReg) (a : GReg) (lv : BitVec 3), s.guard q = true → s.hasLevel lv.toNat = true →
     let l := lv.toNat
     let b := s.myBar l
     let put := fun (c : BarLevel) => ({ s with tile := s.tile.setBar l c } : State)
     (b.done = true → s.report (levelScope l) false = none →
       exec (.bar ⟨q, lv⟩) s = .next ((put { b with done := false }).done 8) ∧
       exec (.barw ⟨q, d, a, lv⟩) s = .next (((put { b with done := false }).wrP d true).done 8)) ∧
     (b.done = false → b.arrived = false → s.timedOut = false → s.fenceDone (levelScope l) = true → s.eager = false → l < 5 →
       exec (.bar ⟨q, lv⟩) s = .next ((put { b with arrived := true }).waits .bar 0) ∧
       exec (.barw ⟨q, d, a, lv⟩) s = .next ((put { b with arrived := true }).waits (.barw d lv) (s.rdG a).toNat)) ∧
     (b.done = false → b.arrived = true → s.timedOut = true →
       exec (.barw ⟨q, d, a, lv⟩) s = .next (((put { b with arrived := false }).wrP d false).done 8))) ∧
   (∀ (s : State) (lcid lv : Nat), s.allArrived lcid lv = true → s.tileStopped lcid = false → (s.domain lcid lv).Nodup → lv < 5 →
     ∃ t, exec (.barrierComplete ⟨lcid, lv⟩) s = .next t ∧
       ∀ m, m ∈ s.domain lcid lv → (t.getTile m).bar lv = { (s.getTile m).bar lv with
         arrived := false, done := true, episodes := ((s.getTile m).bar lv).episodes + 1 }) ∧
   (∀ (s : State) (p : ProcId) (d : PReg) (lv : BitVec 3) (since limit : Nat), (s.getCore p).wait = some ⟨.barw d lv, since, limit⟩ →
     (s.getCore p).running = true → limit ≠ 0 → since + limit < s.cycle → s.pastStop p = false → ((s.focus p).myBar lv.toNat).done = false →
     let u := s.focus p
     exec (.barwTimeout ⟨p⟩) s = .next ((({ u with tile := u.tile.setBar lv.toNat { u.myBar lv.toNat with arrived := false } } :
       State).wrP d false).done 8))) ∧
  ((∀ (x : OpSstep) (s : State), s.guard x.q = true → s.hasLevel x.lv.toNat = true → x.lv.toNat < 5 →
     let l := x.lv.toNat
     let b := s.myBar l
     let put := fun (c : BarLevel) => ({ s with tile := s.tile.setBar l c } : State)
     let left := ((put { b with gateDone := false }).wrG x.d (b.phase.setWidth 64)).trace 5
     (b.gateDone = true → left.report (levelScope l) false = none → exec (.sstep x) s = .next (left.done 8)) ∧
     (b.gateDone = false → b.gateArrived = false → b.sent = false → s.eager = false → b.phase.toNat % 2 = 1 →
       exec (.sstep x) s = .next ((put { b with sent := true }).waits (.sstep x.lv) 0))) ∧
   (∀ (s : State) (lcid lv : Nat) (l : BitVec 3) (since limit : Nat), (s.getCore (.main lcid)).wait = some ⟨.sstep l, since, limit⟩ →
     l.toNat = lv → lv < 5 → ((s.getTile lcid).bar lv).sent = true → ((s.getTile lcid).bar lv).gateDone = false →
     s.pastStop (.main lcid) = false → s.mayArrive (.main lcid) lv = true →
     ∃ t, exec (.gateArrive ⟨lcid, lv⟩) s = .next t ∧ t.mem = s.mem ∧
       (t.getTile lcid).bar lv = { (s.getTile lcid).bar lv with gateArrived := true }) ∧
   (∀ (s : State) (lcid lv : Nat), lv < 5 → s.mayDepart lcid lv = true → s.tileStopped lcid = false →
     ∃ t, exec (.gateDepart ⟨lcid, lv⟩) s = .next t ∧ (t.getTile lcid).bar lv = { (s.getTile lcid).bar lv with
       gateArrived := false, gateDone := true, sent := false, phase := ((s.getTile lcid).bar lv).phase + 1 }))

/-- R290, R291, R293: the event latch, SEV and the global time base. R66, R294: SRR reads the special register of its index; SRW writes
the read-write ones, and a reserved bit or mode raises ILLEGAL; FPFLAGS waits for the stream pushes issued (R68). -/
def Obligations.EventsAndSpecials : Prop :=
  ((∀ (x : OpN) (s : State), s.guard x.q = true →
     let taken : State := { s with core := { s.core with latch := false, tookAt := some s.cycle } }
     (s.core.latch = true → exec (.wfe x) s = .next (taken.done 8)) ∧
     (s.core.latch = false → exec (.wfe x) s = .next (s.waits .other 0))) ∧
   (∀ (x : OpPG) (s : State), s.guard x.q = true →
     (s.core.latch = true → s.latchInTime = true →
       exec (.wfed x) s = .next ((({ s with core := { s.core with latch := false, tookAt := some s.cycle } } : State).wrP x.d true).done 8)) ∧
     ((s.core.latch && s.latchInTime) = false → s.timedOut = true → exec (.wfed x) s = .next ((s.wrP x.d false).done 8)) ∧
     ((s.core.latch && s.latchInTime) = false → s.timedOut = false → exec (.wfed x) s = .next (s.waits (.wfed x.d) (s.rdG x.a).toNat))) ∧
   (∀ (s : State) (p : ProcId) (d : PReg) (since limit : Nat), (s.getCore p).wait = some ⟨.wfed d, since, limit⟩ →
     (s.getCore p).running = true → (s.getCore p).latch = false ∨ since + limit < (s.getCore p).latchAt → limit ≠ 0 →
     since + limit < s.cycle → s.pastStop p = false → exec (.wfedTimeout ⟨p⟩) s = .next (((s.focus p).wrP d false).done 8)) ∧
   (∀ (x : OpG) (s : State), s.guard x.q = true →
     let w := (s.rdG x.a).toNat
     let a := portAddr (w % 2 ^ 10) 0x1000
     (w < 2 ^ 17 → w / 2 ^ 10 % 2 ^ 6 = 0 → exec (.sev x) s = .next
       (((s.issueAccess (oneStep (.sev (decide (w / 2 ^ 16 = 1))) a 8 .rlx .self)).countRequest s.cur a 8).done 8)) ∧
     exec (.gtime x) s = .next ((s.wrG x.a (BitVec.ofNat 64 s.gtime)).done 8))) ∧
  ((∀ (q : Guard) (d : GReg) (idx : BitVec 12) (s : State) (n : Nat), s.guard q = true → s.cur = .main n →
     let reads := fun (v : Word) => exec (.srr ⟨q, d, idx⟩) s = .next ((s.wrG d v).done 8)
     let i := idx.toNat
     (i = 0x000 → reads (BitVec.ofNat 64 n)) ∧ (i = 0x001 → reads (s.modid.setWidth 64)) ∧
     (i = 0x002 → reads (BitVec.ofNat 64 s.tile.team)) ∧ (i = 0x003 → reads (BitVec.ofNat 64 s.tile.tenant)) ∧
     (i = 0x004 → reads (match s.tile.task with | some k => k.tid.setWidth 64 | none => 0)) ∧ (i = 0x005 → reads s.tile.dom) ∧
     (i = 0x006 → reads (s.getCluster (clusterOf n)).cload) ∧
     (i = 0x007 → reads (BitVec.ofNat 64 (8 * 2 ^ 48 + 32 * 2 ^ 40 + 32 * 2 ^ 32 + s.host.msgmax * 2 ^ 24 + 64 * 2 ^ 16 + 32 * 2 ^ 8 + 32))) ∧
     (i = 0x00C → reads (BitVec.ofNat 64 (s.gtime % 32000 / 1000 * 2 ^ 16 + s.gtime % 32000))) ∧
     (i = 0x080 → reads (BitVec.ofNat 64 ((((List.range 16).countP (fun k => vget (s.getCluster (clusterOf n)).slots k none = some s.tile.team)) * 2 ^ 32
       + s.gtime / 2 ^ 18 % 16 * 2 ^ 28 + (2 ^ 18 - s.gtime % 2 ^ 18))))) ∧ (i = 0x008 → reads (s.core.fpctl.setWidth 64)) ∧
     (i = 0x009 → s.allAcked s.cur Access.ofStream = true → reads (s.core.fpflags.setWidth 64)) ∧
     (i = 0x009 → s.allAcked s.cur Access.ofStream = false → s.eager = false → exec (.srr ⟨q, d, idx⟩) s = .next (s.waits .other 0)) ∧ (i = 0x00A → reads s.core.seed) ∧
     (i = 0x00B → reads (s.core.evmask.setWidth 64)) ∧ (i = 0x00D → reads s.core.faultw) ∧ (i = 0x00E → reads s.core.faulta) ∧
     (i = 0x00F → reads s.boot.ready) ∧
     (0x010 ≤ i → i < 0x020 → let e := vget s.tile.ext (i - 0x010) Extent.empty
       reads (BitVec.ofNat 64 ((if e.sr then 2 ^ 63 else 0) + (if e.er then 2 ^ 62 else 0) + (if e.wr then 2 ^ 61 else 0)
         + (if e.rd then 2 ^ 60 else 0) + e.base.toNat))) ∧
     (0x020 ≤ i → i < 0x030 → let e := vget s.tile.ext (i - 0x020) Extent.empty
       reads (BitVec.ofNat 64 (e.tag.toNat * 2 ^ 54 + (if e.valid then 2 ^ 53 else 0) + e.limit.toNat))) ∧
     (0x040 ≤ i → i < 0x080 → reads (vget s.tile.ctr (i - 0x040) 0))) ∧
   (∀ (x : OpSrw) (s : State), s.guard x.q = true →
     let v := s.rdG x.a
     let writes := fun (c : Core) => exec (.srw x) s = .next (State.done 8 { s with core := c })
     (x.idx = 0x008 → v.toNat < 2 ^ 5 → v.toNat % 8 < 6 → writes { s.core with fpctl := v.setWidth 5 }) ∧
     (x.idx = 0x009 → v.toNat < 2 ^ 5 → s.allAcked s.cur Access.ofStream = true → writes { s.core with fpflags := v.setWidth 5 }) ∧
     (x.idx = 0x00A → writes { s.core with seed := v }) ∧
     (x.idx = 0x00B → v.toNat < 2 ^ 4 → writes { s.core with evmask := v.setWidth 4 }) ∧
     ((x.idx = 0x008 ∧ ¬(v.toNat < 2 ^ 5 ∧ v.toNat % 8 < 6)) ∨ (x.idx = 0x009 ∧ ¬ v.toNat < 2 ^ 5) ∨ (x.idx = 0x00B ∧ ¬ v.toNat < 2 ^ 4) →
       ∃ w, exec (.srw x) s = trapAt codeIllegal w 8 s)))

/-- R388, R390–R392: TRAP and BRK enter the team's handler: the fault word and its detail, the resume address after the instruction, the
saved a14, and the handler's entry. -/
def Obligations.TrapInstructions : Prop :=
  ∀ (s : State) (n : Nat) (tm : Team), s.cur = .main n → s.team = some tm → tm.code.handlerLink.isSome = true →
    s.tile.handler.hin = false → s.tile.rep.count = 0 → (∀ a ∈ s.core.pend, a.slot = none) →
    let enters := fun (i : Instr) (code : BitVec 8) (detail : Word) => ∃ t, exec i s = .next t ∧
      t.core.faultw = BitVec.ofNat 64 (code.toNat * 2 ^ 56 + s.core.pc.toNat % 2 ^ 53) ∧ t.core.faulta = detail ∧
      t.tile.handler.hin = true ∧ t.tile.handler.hresume = s.core.pc + 8 ∧ t.tile.handler.skip = false ∧
      t.tile.handler.hlen16 = false ∧ t.tile.handler.xl = s.rdA 14 ∧ t.rdA 14 = (s.core.pc + 8) &&& 0x1FFFFFFFFFFFFF#64 ∧
      t.core.pc = BitVec.ofNat 64 tm.code.handlerEntry ∧ t.core.wait = none ∧ (∀ r, r ≠ 14 → t.rdA r = s.rdA r) ∧ t.core.g = s.core.g ∧
      t.core.p = s.core.p
    (∀ x : OpTrap, s.guard x.q = true → handlerMay x.code = true → enters (.trapI x) x.code (s.rdG x.a)) ∧
    (∀ x : OpBrk, s.guard x.q = true → enters (.brk x) codeBreak (x.n.setWidth 64))

/-- R390, R391: a precise trap resumes at its own instruction; where no handler may take it, and on a stage core and a collective engine,
the team fails with its record, and its processors stop. Once the team's stop time has come the fault is recorded only, and the stop goes on
(R394, log entry 51): a named stop is at or before the present time once the trap has been raised. R296: TRET restores a14 and goes to the
resume address, or past its instruction in mode 1, with the loop's end-of-body step there (R175); outside a handler it is ILLEGAL. -/
def Obligations.TrapEntryAndReturn : Prop :=
  (∀ (s : State) (code : BitVec 8) (detail : Word) (len : Nat),
     let raised := s.raiseTrap ⟨code, detail, false, s.core.pc, s.core.pc, len == 16, true, false⟩
     let stopped := fun (tm : Team) => (raised.findTeam tm.num).map (fun u => u.stopReached s.gtime)
     let fails := fun (tm : Team) (n : Nat) =>
       let word : Word := BitVec.ofNat 64 (code.toNat * 2 ^ 56 + srcOf s.cur * 2 ^ 53 + s.core.pc.toNat % 2 ^ 53)
       (stopped tm = some false → ∃ t u, trapAt code detail len s = .next t ∧ t.core.running = false ∧ (t.getTile n).frozen = true ∧
         t.findTeam tm.num = some u ∧ u.state = .failed ∧ u.key = [] ∧
         ∃ r, u.faults.getLast? = some r ∧ r.faultw = word ∧ r.faulta = detail ∧ r.lcid = n ∧ r.fatal = true) ∧
       (stopped tm = some true → ∃ t u, trapAt code detail len s = .next t ∧ t.core.running = false ∧
         t.findTeam tm.num = some u ∧ u.state = tm.state ∧ u.reason = .fail ∧
         ∃ r, u.faults.getLast? = some r ∧ r.faultw = word ∧ r.faulta = detail ∧ r.lcid = n ∧ r.fatal = true)
     (∀ tm n, s.cur = .main n → s.team = some tm → s.trapFatal code = false → s.tile.rep.count = 0 →
       (∀ a ∈ s.core.pend, a.slot = none) →
       ∃ t, trapAt code detail len s = .next t ∧
         t.core.faultw = BitVec.ofNat 64 (code.toNat * 2 ^ 56 + s.core.pc.toNat % 2 ^ 53) ∧ t.core.faulta = detail ∧
         t.tile.handler.hin = true ∧ t.tile.handler.hresume = s.core.pc ∧ t.tile.handler.hlen16 = decide (len = 16) ∧
         t.tile.handler.xl = s.rdA 14 ∧ t.core.pc = BitVec.ofNat 64 tm.code.handlerEntry ∧ t.tile.loop = s.tile.loop) ∧
     (∀ tm n, (s.cur = .main n ∧ s.trapFatal code = true) ∨ s.cur = .stage n → s.here = n → n < 1024 → s.findTeam tm.num = some tm →
       s.tile.team = tm.num → tm.clusters.any (fun c => c.1 == clusterOf n) = true → fails tm n) ∧
     (∀ tm c, s.cur = .coll c → c < 64 → s.findTeam tm.num = some tm → (s.getTile (tileOfCluster c 0)).team = tm.num →
       tm.clusters.any (fun d => d.1 == c) = true → fails tm (tileOfCluster c 0))) ∧
  (∀ (x : OpTret) (s : State), s.guard x.q = true →
     let h := s.tile.handler
     let past := h.hresume + (if h.hlen16 then 16 else 8)
     (h.hin = false → ∃ w, exec (.tret x) s = trapAt codeIllegal w 8 s) ∧
     (h.hin = true → ∃ t, exec (.tret x) s = .next t ∧
       t.rdA 14 = h.xl ∧ t.tile.handler = Handler.empty ∧ (∀ r, r ≠ 14 → t.rdA r = s.rdA r) ∧ t.core.g = s.core.g ∧ t.core.p = s.core.p ∧
       t.mem = s.mem ∧
       (¬ (x.mode = true ∧ h.skip = true) → t.core.pc = h.hresume ∧ t.tile.loop = s.tile.loop) ∧
       (x.mode = true → h.skip = true → s.onMain = false ∨ s.tile.loop.active = 0 → t.core.pc = past ∧ t.tile.loop = s.tile.loop) ∧
       (x.mode = true → h.skip = true → s.onMain = true → s.tile.loop.active ≠ 0 →
         let r := loopEnd s.tile.loop h.hresume s.tile.loop.active
         t.core.pc = r.2.getD past ∧ t.tile.loop = r.1)))

/-! ## Majors 0x38 to 0x3B -/

/-- R300, R304–R309: configuring, reading and moving a ring, and the causes of RINGUSE. A task that uses one is bound to its tile (R333).
A step waits for the next cycle where one of a later place in R301's order has fallen in this cycle: the model's reading of the order (log
entry 29), as is that a matrix instruction in progress holds a ring it reads (43). -/
def Obligations.RingInstructions : Prop :=
  (∀ (x : OpRing) (s : State), s.guard x.q = true →
    let w := (s.rdG x.g).toNat
    let count := w / 2 ^ 20 % 2 ^ 7
    let esize := w / 2 ^ 27 % 2 ^ 9
    let base := w % 2 ^ 20
    let fits := (count = 0 ∧ w = 0) ∨ (0 < count ∧ count ≤ 64 ∧ 1 ≤ esize ∧ esize ≤ 256 ∧ base % 4096 = 0 ∧
      base + count * esize * 256 ≤ s.spsize ∧ (w / 2 ^ 36 % 2 = 0 ∨ esize = 32))
    (w < 2 ^ 37 → fits → (s.ring x.m).claims = [] → s.ringRead x.m = false → (s.ring x.m).may s.cfgRank s.cycle = true →
      exec (.rcfg x) s = .next (((s.setRing x.m { s.ring x.m with
        base := BitVec.ofNat 20 base, count := count, esize := esize, layout := decide (w / 2 ^ 36 % 2 = 1), head := 0, tail := 0,
        filled := 0, ncommit := 0, wid8 := 0, wid16 := 0, at_ := s.cycle, rank := s.cfgRank }).useMatrix).done 8)) ∧
    (w < 2 ^ 37 → ¬ fits → exec (.rcfg x) s = trapAt codeRinguse (BitVec.ofNat 64 (1 + x.m.toNat * 2 ^ 8)) 8 s.useMatrix) ∧
    (w < 2 ^ 34 → ((s.ring x.m).may s.cfgRank s.cycle = true → exec (.rtol x) s = .next (((s.setRing x.m
        { s.ring x.m with tol := s.rdG x.g, at_ := s.cycle, rank := s.cfgRank }).useMatrix).done 8)) ∧
      ((s.ring x.m).may s.cfgRank s.cycle = false → exec (.rtol x) s = .next (s.waits .other 0)))) ∧
  (∀ (x : OpRget) (s : State), s.guard x.q = true →
    let r := s.ring x.m
    r.may 4 s.cycle = true →
    let reads := fun (v : Word) =>
      exec (.rget x) s = .next ((((s.wrG x.d v).setRing x.m { r with at_ := s.cycle, rank := 4 }).useMatrix).done 8)
    (x.sel = 0 → reads (BitVec.ofNat 64
      (r.base.toNat + r.count * 2 ^ 20 + r.esize * 2 ^ 27 + (if r.layout then 2 ^ 36 else 0)))) ∧
    (x.sel = 1 → reads (BitVec.ofNat 64 (r.head + r.tail * 2 ^ 8 + r.filled * 2 ^ 16 + r.claims.length * 2 ^ 24))) ∧
    (x.sel = 2 → reads r.tol) ∧ (x.sel = 3 → reads r.ncommit) ∧ (x.sel = 4 → reads r.wid8) ∧ (x.sel = 5 → reads r.wid16)) ∧
  (∀ (x : OpRadv) (s : State), s.guard x.q = true →
    let r := s.ring x.m
    let n := x.n.toNat
    let room := r.count - r.filled - r.claims.length
    let cause := fun (i : Instr) (c : Nat) => exec i s = trapAt codeRinguse (BitVec.ofNat 64 (c + x.m.toNat * 2 ^ 8)) 8 s.useMatrix
    let now := fun (rank : Nat) => r.may rank s.cycle = true
    let place := if x.far then 2 else 1
    (¬ now place → exec (.radv x) s = .next (s.waits .other 0)) ∧ (¬ now 4 → exec (.rwait x) s = .next (s.waits .other 0)) ∧
    (r.count = 0 → (now place → cause (.radv x) 2) ∧ (now 4 → cause (.rwait x) 2)) ∧
    (0 < r.count →
      (now place → x.far = true → r.claims ≠ [] → cause (.radv x) 5) ∧
      (now place → x.far = true → r.claims = [] → room < n → cause (.radv x) 4) ∧ (now place → x.far = false → r.filled < n → cause (.radv x) 4) ∧
      (s.tileQuiet = true → x.far = true → r.claims = [] → n ≤ room → r.may 2 s.cycle = true →
        exec (.radv x) s = .next (((s.setRing x.m
          { r with tail := (r.tail + n) % r.count, filled := r.filled + n, at_ := s.cycle, rank := 2 }).useMatrix).done 8)) ∧
      (s.tileQuiet = true → x.far = false → n ≤ r.filled → s.ringRead x.m = false → r.may 1 s.cycle = true →
        exec (.radv x) s = .next (((s.setRing x.m
          { r with head := (r.head + n) % r.count, filled := r.filled - n, at_ := s.cycle, rank := 1 }).useMatrix).done 8)) ∧
      (now 4 → r.count < n → cause (.rwait x) 6) ∧
      (n ≤ r.count → now 4 → s.heldBack s.cur 0 0 .acq .self = false →
        (n ≤ (if x.far then room else r.filled) →
          exec (.rwait x) s = .next (((s.setRing x.m { r with at_ := s.cycle, rank := 4 }).useMatrix).done 8)) ∧
        ((if x.far then room else r.filled) < n → s.eager = false → exec (.rwait x) s = .next (s.waits .other 0)))))

/-- R301, R310–R315: a fill claims the next free entry of its ring and is a command of the stage core's queue; a written entry is
published in claim order. -/
def Obligations.FillInstructions : Prop :=
  (∀ (x : OpRfill) (s : State), s.guard x.q = true → ptrOk (s.rdA x.src) = true →
    let r := s.ring x.m
    let h := BitVec.ofNat 16 s.core.issued
    let w := (s.rdG x.width).toNat
    let str := if x.str = 0 then w else (s.rdG x.str).toNat
    let a := ptrAddr (s.rdA x.src)
    let dst := scratchAddr s.here (r.base.toNat + (r.tail + r.claims.length) % r.count * r.esize * 256)
    w ≠ 0 → (x.str = 0 ∨ str < 2 ^ 32) → 0 < r.count → r.layout = false → 64 * w ≤ r.esize * 256 →
    r.filled + r.claims.length < r.count → s.core.pending < 16 → r.may 3 s.cycle = true →
    let fills := fun (i : Instr) (ok : Region → Bool) (need : BitVec 4) =>
      s.rowOutside ok a str w 0 64 = none → s.firstUngranted need 0 (copyRows a str w 64) = none →
      ∃ t c, exec i s = .next t ∧ t.mem = s.mem ∧ t.rdG x.d = (if x.d = 0 then 0 else h.setWidth 64) ∧
        (x.m.toNat < 8 → (t.ring x.m).claims = r.claims ++ [h]) ∧ t.core.cmds.getLast? = some c ∧ c.handle = h ∧ c.status = .pending ∧
        c.work = .fill x.m a dst str w
    fills (.rfill x) Region.fillSrc 5 ∧ fills (.rfillw x) Region.isWeights 13) ∧
  (∀ (x : OpRquant) (s : State), s.guard x.q = true → ptrOk (s.rdA x.src) = true →
    let r := s.ring x.m
    let h := BitVec.ofNat 16 s.core.issued
    let str := if x.str = 0 then 128 else (s.rdG x.str).toNat
    let a := ptrAddr (s.rdA x.src)
    ptrFmt (s.rdA x.src) = .bf16 → ptrBlog (s.rdA x.src) = 0 → str < 2 ^ 32 → 0 < r.count → r.layout = true →
    r.filled + r.claims.length < r.count → s.core.pending < 16 → r.may 3 s.cycle = true →
    s.rowOutside Region.fillSrc a str 128 0 64 = none → s.firstUngranted 5 0 (copyRows a str 128 64) = none →
    ∃ t c, exec (.rquant x) s = .next t ∧ t.mem = s.mem ∧ t.rdG x.d = (if x.d = 0 then 0 else h.setWidth 64) ∧
      t.core.cmds.getLast? = some c ∧ c.handle = h ∧ c.status = .pending ∧ c.work.isFill = true ∧
      t.core.seed = (if resolveRm s.core.fpctl x.rm = .rsr then seedNext s.core.seed 8192 else s.core.seed)) ∧
  (∀ (s : State) (lcid : Nat) (m : Ring) (h : BitVec 16) (l : List (BitVec 16)), ((s.getTile lcid).ring m).claims = h :: l →
    s.fillReady lcid h = true → s.mayPublish lcid = true → m.toNat < 8 → ((s.getTile lcid).ring m).may 2 s.cycle = true →
    let r := (s.getTile lcid).ring m
    ∃ t, exec (.fillPublish ⟨lcid, m⟩) s = .next t ∧ t.mem = s.mem ∧
      (t.getTile lcid).ring m = { r with
        tail := (r.tail + 1) % max 1 r.count, filled := r.filled + 1, claims := l, at_ := s.cycle, rank := 2 })

/-- R316, R317, R320–R325: a matrix instruction commits its 4,096 cells to its set, pops the entries it has read, and counts a verdict in
ring ma. On an eager machine the instruction does it. Otherwise MMA_COMMIT commits the pending bank of the oldest instruction when its check
passes, and widens it when the check fails; ANCHOR_REFETCH reads the pieces of the bf16 tiles, and after the last one the pending bank holds
their products. The model's choices: the order of the pieces (log entry 29), what a younger instruction's products are and when it begins
again (43), and that other processors' reads are ordered as entry 42 says. -/
def Obligations.MatrixCommit : Prop :=
  (∀ (s : State) (k : MmaKind) (c : Bool) (ma mb : Ring) (l : List Nat) (v : Option Verdict), s.eager = true →
    0 < (s.ring ma).count → 0 < (s.ring mb).count → (s.ring ma).suits k = true → (s.ring mb).suits k = true →
    s.entriesReady ma mb = true → s.tile.mmas = [] → s.resultOf k c ma mb (s.ring ma).tol = .cells l v →
    let commits := fun (i : Instr) => ∃ t, exec i s = .next t ∧ t.mem = s.mem ∧ (t.tile.accSet c).cells = bankOf l ∧
      (t.tile.accSet c).verdict = v ∧ (t.tile.accSet c).pending = [] ∧ t.tile.accSet (!c) = s.tile.accSet (!c) ∧
      t.tile.mmas = [] ∧
      (ma.toNat < 8 → (t.ring ma).filled = (s.ring ma).filled - 1) ∧ (mb.toNat < 8 → (t.ring mb).filled = (s.ring mb).filled - 1) ∧
      (∀ f, v = some f → ma.toNat < 8 → (t.ring ma).ncommit = (if f.fmt = 0 then satAdd (s.ring ma).ncommit 1 else (s.ring ma).ncommit))
    (∀ q, s.guard q = true → k = .narrowFirst → commits (.mma ⟨q, c, ma, mb⟩)) ∧
    (∀ q fov, s.guard q = true → k = .fixed fov → commits (.mmaf ⟨q, c, ma, mb, fov⟩)) ∧
    (∀ q r fov, s.guard q = true → k = .semi r fov → commits (.msr ⟨q, c, ma, mb, r, fov⟩))) ∧
  (∀ (s : State) (lcid : Nat) (m : Mma) (r : List Mma),
    let u := s.focus (.main lcid)
    u.tile.mmas = m :: r → u.core.running = true → s.pastStop (.main lcid) = false → m.phase ≠ .fetch →
    (∀ v, u.checked m = some v → u.mayPop m.ma m.mb = true →
      exec (.mmaCommit ⟨lcid⟩) s = .next ((((((u.commit m.c m.ma m.mb (u.tile.accSet m.c).pending v).setMmas r).useMatrix).retire).advance
        8).focus s.cur)) ∧
    (u.checked m = none → ∃ t : State, exec (.mmaCommit ⟨lcid⟩) s = .next (t.focus s.cur) ∧ t.core = u.core ∧ t.mem = s.mem ∧
      (t.tile.accSet (!m.c)).pending = [] ∧ (∀ c, (t.tile.accSet c).cells = (u.tile.accSet c).cells) ∧
      t.tile.mmas.map Mma.phase = [if m.phase = .first then .wide8 else .fetch])) ∧
  (∀ (s : State) (lcid k a n : Nat) (m : Mma) (r : List Mma),
    let u := s.focus (.main lcid)
    u.tile.mmas = m :: r → u.core.running = true → m.phase = .fetch → s.pastStop (.main lcid) = false → (u.refetchPieces m)[k]? = some (a, n) → m.replay.any (fun e => e.1 == k) = false →
    u.inWindow a = false → u.refetchFault m.ma m.mb (u.headBytes m.ma) (u.headBytes m.mb) = none → u.admits u.cur a = true →
    ∃ (t : State) (y : Mma), exec (.anchorRefetch ⟨lcid, k⟩) s = .next (t.focus s.cur) ∧ t.mem = s.mem ∧ t.tile.mmas = [y] ∧
      (m.replay.length + 1 < (u.refetchPieces m).length → y = { m with replay := (k, u.readBytes a n) :: m.replay }) ∧
      ((u.refetchPieces m).length ≤ m.replay.length + 1 → y = { m with phase := .wide16, replay := [] }))

/-- R326–R331: clearing a set, its verdict and statistics. MDRAIN writes a part of a row to a vector register, or issues one store for each
cell of a bank and completes when they have performed, each cell rounded to the format; MLOAD loads a bank from memory, in each format. -/
def Obligations.AccumulatorMoves : Prop :=
  (∀ (x : OpMzero) (s : State), s.guard x.q = true →
    exec (.mzero x) s = .next (((s.setAcc x.c { cells := zeroCells x.val, pending := [], verdict := none, totals := #v[0, 0, 0] }).useMatrix).done 8)) ∧
  (∀ (x : OpMverd) (s : State), s.guard x.q = true →
    exec (.mverd x) s = .next (((s.wrG x.d (BitVec.ofNat 64 (match (s.tile.accSet x.c).verdict with
      | none => 3
      | some v => v.cancw * 2 ^ 32 + v.cancn * 2 ^ 19 + (if v.srcnan then 2 ^ 4 else 0) + (if v.brw then 2 ^ 3 else 0)
          + (if v.brn then 2 ^ 2 else 0) + v.fmt))).useMatrix).done 8)) ∧
  (∀ (x : OpMstat) (s : State), s.guard x.q = true →
    let a := s.tile.accSet x.c
    let reads := fun (n : Nat) => exec (.mstat x) s = .next (((s.wrG x.d (BitVec.ofNat 64 n)).useMatrix).done 8)
    (x.sel = 0 → reads (match a.verdict with | some v => v.sn + v.un * 2 ^ 16 + v.cancn * 2 ^ 32 | none => 0)) ∧
    (x.sel = 1 → reads (match a.verdict with | some v => v.sw + v.uw * 2 ^ 16 + v.cancw * 2 ^ 32 | none => 0)) ∧
    (x.sel = 2 → reads (vget a.totals 0 0 + vget a.totals 1 0 * 2 ^ 16 + vget a.totals 2 0 * 2 ^ 32))) ∧
  (∀ (x : OpMdrain) (s : State), s.guard x.q = true → s.noStreams = true →
    let a := s.tile.accSet x.c
    let z := x.fov.size
    let rm : Rm := if x.fov = .w80 then .rne else resolveRm s.core.fpctl x.rm
    let value := fun (n k : Nat) => if x.fov = .w80 then a.cell n
      else (x.fov.fp.conv false (roundingOf s.core.seed rm k) (fpW80.val false (a.cell n))).1
    (∀ vd row part, x.mode = .vec vd row part → x.fov ≠ .w80 →
      let l := 64 / z
      ∃ v : Vec, exec (.mdrain x) s = .next ((((s.wrV vd v).drew rm l).useMatrix).done 16) ∧
        ∀ q, q < l → v.toNat / 2 ^ (8 * z * q) % 2 ^ (8 * z) = value (row.toNat * 64 + part.toNat * l + q) q % 2 ^ (8 * z)) ∧
    (∀ dst str, x.mode = .mem dst str → s.eager = false → s.core.wait = none →
      let base := ptrAddr (s.rdA dst)
      let stride := if str = 0 then 64 * z else (s.rdG str).toNat
      let u := if x.fov = .w80 then 2 else z
      ptrOk (s.rdA dst) = true → stride < 2 ^ 32 → rowsInside s.here base stride z = true → base % u = 0 → stride % u = 0 →
      ∃ t accs, exec (.mdrain x) s = .next t ∧ t.mem = s.mem ∧ t.core.pc = s.core.pc ∧ t.core.pend = s.core.pend ++ accs ∧
        accs.length = 4096 ∧ (t.core.wait.map Wait.kind = some .mdrain) ∧
        ∀ n c, accs[n]? = some c → c.addr = base + n / 64 * stride + n % 64 * z ∧
          c.pieces.flatten = cellsOf (base + n / 64 * stride + n % 64 * z) (value n n) z)) ∧
  (∀ (x : OpMdrain) (s : State) (dst : AReg) (str : GReg) (w : Wait), s.guard x.q = true → x.mode = .mem dst str → s.core.wait = some w →
    w.kind = .mdrain → s.eager = false → s.core.bankStored = true →
    let stride := if str = 0 then 64 * x.fov.size else (s.rdG str).toNat
    let u := if x.fov = .w80 then 2 else x.fov.size
    ptrOk (s.rdA dst) = true → stride < 2 ^ 32 → rowsInside s.here (ptrAddr (s.rdA dst)) stride x.fov.size = true →
    ptrAddr (s.rdA dst) % u = 0 → stride % u = 0 →
    exec (.mdrain x) s = .next (((s.drew (if x.fov = .w80 then .rne else resolveRm s.core.fpctl x.rm) 4096).useMatrix).done 16)) ∧
  (∀ (x : OpMload) (s : State), s.guard x.q = true →
    let base := ptrAddr (s.rdA x.src)
    let z := x.fov.size
    let stride := if x.str = 0 then 64 * z else (s.rdG x.str).toNat
    let u := if x.fov = .w80 then 2 else z
    let as_ := (List.range 4096).map (fun n => base + n / 64 * stride + n % 64 * z)
    ptrOk (s.rdA x.src) = true → stride < 2 ^ 32 → rowsInside s.here base stride z = true → base % u = 0 → stride % u = 0 →
    s.readsNow as_ z .rlx .self →
    ∃ t, exec (.mload x) s = .next t ∧ t.mem = s.mem ∧ (t.tile.accSet x.c).verdict = none ∧
      ∀ n, n < 4096 → (t.tile.accSet x.c).cell n =
        (let v := s.readNat (base + n / 64 * stride + n % 64 * z) z
         if x.fov = .w80 then v else fpW80.code (x.fov.fp.val false v)))

/-! ## The host interface -/

/-- R371, R372: a command that completes sends one device response with the session's next number, its status and its result, and the
session then expects the number after the command's; a command that waits sends none. -/
def Obligations.CommandResponses : Prop :=
  ∀ (s : State) (y : Session) (sid tag opc : Nat), s.findSession sid = some y →
    (∀ st r, let t := State.conclude sid tag opc (s.expected sid) (s.accept sid, .done st r)
      t.findSession sid = some { y with expected := y.expected + 1, sent := y.sent + 1 } ∧
      t.host.held = s.host.held ++ [⟨sid, false, opc, st, y.expected, y.sent, r, y.key⟩] ∧ t.mem = s.mem ∧ t.teams = s.teams) ∧
    (∀ st r, let t := State.conclude sid tag opc (s.expected sid) (s.accept sid, .last st r)
      t.findSession sid = none ∧ t.host.held = s.host.held ++ [⟨sid, false, opc, st, y.expected, y.sent, r, y.key⟩] ∧ t.mem = s.mem) ∧
    (∀ w, let t := State.conclude sid tag opc (s.expected sid) (s.accept sid, .waits w)
      t.findSession sid = some { y with expected := y.expected + 1 } ∧ t.host.held = s.host.held ∧
      t.host.waiting = s.host.waiting ++ [⟨sid, tag, opc, y.expected, w⟩])

/-- R370, R373: the SPDM messages, in plaintext and in an open session, and what opens, renews and ends a session. The bytes of the
answers, the keys and what KEY_EXCHANGE and FINISH carry are the model's choices (log entries 11 and 28), and so is the error that answers
an opening message in plaintext while its session is open. -/
def Obligations.SessionMessages : Prop :=
  ∀ (x : EvSpdm) (s : State), s.serves = true →
    let plain : List (Instr × Nat) := [(.getVersion x, 0x84), (.getCapabilities x, 0xE1), (.negotiateAlgorithms x, 0xE3), (.getDigests x, 0x81),
      (.getCertificate x, 0x82), (.challenge x, 0x83), (.getMeasurements x, 0xE0)]
    let reply (c : Nat) : List Byte := Config.spdmReply c (s.spdmContext c ++ x.nonce)
    (s.open x.sid = false → ∀ p ∈ plain, exec p.1 s =
      .next { s with host := { s.host with held := s.host.held ++ [⟨0xFFFF, true, 0, 0, 0, 0, reply p.2, []⟩] } }) ∧
    (∀ y, s.findSession x.sid = some y → s.mayAccept x.sid 0x10000 = true →
      (∀ p ∈ plain ++ [(.heartbeat x, 0xE8)], ∃ t, exec p.1 s = .next t ∧
        t.findSession x.sid = some { y with expected := y.expected + 1, sent := y.sent + 1 } ∧
        t.host.held = s.host.held ++ [⟨x.sid, true, 0, 0, y.expected, y.sent, reply p.2, y.key⟩]) ∧
      (∃ t, exec (.endSession x) s = .next t ∧ t.findSession x.sid = none ∧
        t.host.held = s.host.held ++ [⟨x.sid, true, 0, 0, y.expected, y.sent, reply 0xEC, y.key⟩])) ∧
    (s.mayOpen x.sid x.key = true → ∃ t k, exec (.keyExchange x) s = .next t ∧
      t.findSession x.sid = some ⟨x.sid, k, 0, 0, false, 1, x.key⟩ ∧ t.boot = s.boot ∧ t.host.operator = s.host.operator ∧
      t.host.held = s.host.held ++ [⟨0xFFFF, true, 0, 0, 0, 0, reply 0xE4, []⟩]) ∧
    (s.open x.sid = true → ∀ i ∈ ([.keyExchange x, .finish x] : List Instr), exec i s =
      .next { s with host := { s.host with held := s.host.held ++ [⟨0xFFFF, true, 0, 0, 0, 0, Config.spdmReply 0x7F x.nonce, []⟩] } }) ∧
    (∀ y, s.findSession x.sid = some y → y.phase = 1 → s.mayOpen x.sid y.peer = true → ∃ t, exec (.finish x) s = .next t ∧
      if Config.verify y.peer (Config.transcript y.key) x.nonce = true then
        t.findSession x.sid = some { y with phase := 2, sent := y.sent + 1 } ∧ (x.sid = 0 → s.host.operator = none → t.host.operator = some y.peer) ∧
        (x.sid ≠ 0 → t.boot = s.boot ∧ t.host.operator = s.host.operator) ∧
        (x.sid = 0 ∧ s.host.operator = none → vget t.boot.mr 2 mrZero = Config.sha512 (vget s.boot.mr 2 mrZero ++ Config.sha512 y.peer))
      else t.findSession x.sid = some y ∧ t.boot = s.boot) ∧
    (∀ y, s.findSession x.sid = some y → y.phase = 2 → s.host.waiting.all (fun w => w.sid != x.sid) = true →
      ∃ t k, exec (.keyUpdate x) s = .next t ∧
        t.findSession x.sid = some { y with key := k, expected := 0, sent := 1, resync := false } ∧
        t.host.held = s.host.held ++ [⟨x.sid, true, 0, 0, y.expected, 0, reply 0xE9, k⟩])

/-- R367, R368, R433: the doorbell, once the host port is up, and the posting of responses. -/
def Obligations.RingSteps : Prop :=
  ∀ (x : EvDoorbell) (e : EvNone) (s : State), s.portUp = true →
    let v := x.value.toNat
    (2 ^ 63 ≤ v → v / 2 ^ 44 % 2 ^ 19 ≠ 0 →
      exec (.doorbellInit x) s = .next { s with host := { s.host with ignored := s.host.ignored + 1 } }) ∧
    (2 ^ 63 ≤ v → v / 2 ^ 44 % 2 ^ 19 = 0 → ∃ t, exec (.doorbellInit x) s = .next t ∧ t.host.doorbell = x.value ∧
      t.host.sessions = [] ∧ t.host.held = [] ∧ t.host.rings = s.readRings (v % 2 ^ 44) ∧
      t.boot.ready.getLsbD 19 = t.host.rings.isSome ∧
      (∀ n, n < 4 → (t.getCore (.trust n)).latch = true) ∧ t.mem = s.mem) ∧
    (∀ r, s.host.rings = some r → v < 2 ^ 63 →
      (r.ccount ≤ v → exec (.doorbellTail x) s = .next { s with host := { s.host with ignored := s.host.ignored + 1 } }) ∧
      (v < 2 ^ 16 → v < r.ccount →
        exec (.doorbellTail x) s = .next (State.readPending
          (State.wakeTranslators { s with host := { s.host with doorbell := x.value, rings := some { r with ctail := v } } })) ∧
        (r.chead = v → ∃ t, exec (.doorbellTail x) s = .next t ∧ t.host.held = s.host.held ∧ t.mem = s.mem))) ∧
    (∀ r y l, s.host.rings = some r → s.host.held = y :: l → s.host.waiting = [] → r.chead = r.ctail →
      let next := (r.rtail + 1) % r.rcount
      (next ≠ leNat (s.getHost (r.desc + 0x20) 4) → ∃ t, exec (.responsePost e) s = .next t ∧ t.host.held = l ∧
        t.host.rings = some { r with rtail := next } ∧ t.mem = ((s.putHost (r.rbase + 256 * r.rtail) (responseEntry y)).putHost
          (r.desc + 0x1C) (natBytes next 4)).mem) ∧
      (next = leNat (s.getHost (r.desc + 0x20) 4) → exec (.responsePost e) s = .next s))

/-- R150, R345–R351: an object is admitted, its code published and versioned, and it leaves the heap. The model's choices: where a stub
stands (log entry 22), the words of a translation and when a version is swept (25, 36), and the commands as events with operands (32). -/
def Obligations.ObjectCommands : Prop :=
  (∀ (x : CmdAdmit) (s : State), s.mayAccept x.sid x.tag = true → x.sid = x.tag → x.tag ≠ 0 →
    s.inState x.tag [.unlocked, .locked, .run] = true → s.boot.ready.getLsbD 18 = true →
    let f := readFile x.bytes
    Answers s (.admitObject x) x.sid x.tag 1 (match f.check with
      | some e => (s.accept x.sid, .done 6 (natBytes e.code 1 ++ natBytes e.sect 1 ++ zeros 6 ++ natBytes e.off 8))
      | none => (({ s.accept x.sid with objects := s.objects ++ [f.object s.nextObj x.tag], nextObj := s.nextObj + 1 } : State).reconfigure x.tag,
          ok (natBytes s.nextObj 4)))) ∧
  (∀ (x : CmdObj) (s : State) (o : Obj), s.mayAccept x.sid x.tag = true → ofEither x.sid x.tag → s.inState x.tag anyState = true →
    s.findObj x.tag x.objid = some o →
    (s.pins x.objid = 0 → Answers s (.unloadObject x) x.sid x.tag 2 (((s.accept x.sid).freeObj x.objid).reconfigure x.tag, ok [])) ∧
    (s.pins x.objid ≠ 0 → Answers s (.unloadObject x) x.sid x.tag 2
      ((s.accept x.sid).putObj { o with unloading := true }, .waits (.unload x.objid))) ∧
    (s.objStoppable x.objid = true →
      Answers s (.unloadObjectForced x) x.sid x.tag 2 (((s.accept x.sid).forceUnload x.objid).reconfigure x.tag, ok []) ∧
      ∀ p ∈ (((s.accept x.sid).forceUnload x.objid).reconfigure x.tag).objects, p.objid ≠ x.objid)) ∧
  (∀ (x : EvPublish) (s : State) (o : Obj) (v : Sealed) (link : Nat),
    let u := s.sweepVersions
    u.objOf x.objid = some o → o.findVersion x.base = some v → x.part = .text link → o.mayPublish v link = true →
    exec (.translationPublish x) s = .next (match u.reserve o v link with
      | none => u.heapFullAll v link
      | some (a, region) => match o.native (o.bindOf v) link (a + 96) v.stub with
        | some n => State.publish { u with free := u.free + 1 } o.objid v link (a + 96) region n
        | none => u)) ∧
  (∀ (s : State) (objid : Nat) (v : Sealed) (link a : Nat) (region : Option (Nat × Nat)) (n : Native),
    let t := s.publish objid v link a region n
    s.memOk = true → t.memOk = true ∧
    ((t.boot = s.boot ∧ memNat t.mem (v.stub link) 8 = a % 2 ^ 64) ∨
      (t.boot.sealFaults = s.boot.sealFaults + 1 ∧ t.teams = s.teams ∧ t.objects = s.objects))) ∧
  (∀ (x : EvVersion) (s : State) (o : Obj) (v : Sealed),
    let u := s.sweepVersions
    u.objOf x.objid = some o → o.findVersion x.base = some v →
    exec (.retranslation x) s = .next (match u.heapPlace (fixedSize o.procs.length) with
      | none => s
      | some a => State.publishParts
        { u.addVersion { o with versions := o.versions.map (fun w => if w.binding == v.binding then { w with stale := true } else w) }
            (o.freshVersion 1 a v.binding v.scrx v.tcbx) with free := u.free + 1 } x.objid a o.parts))

/-- R375, R378, R379, R384, R400: registration, extents, lock, unlock, reset and zeroing of a tenant. A reset names the stop of every team
for 10 µs later, and is complete once all have stopped. The model's choices: when a command that stops a team at once is accepted (log
entries 31 and 32), what a reset gives back (34) and what its records keep (35). -/
def Obligations.TenantCommands : Prop :=
  (∀ (x : CmdCreate) (s : State), s.mayAccept 0 x.tag = true → x.sid = 0 → 1 ≤ x.tag → x.tag ≤ 1023 → x.key.length = 133 →
    s.findTenant x.tag = none → Answers s (.createTenant x) 0 x.tag 3
      (if Config.onCurve x.key = true then ({ s.accept 0 with tenants := s.tenants ++ [newTenant x.tag x.key] }, ok [])
        else (s.accept 0, refused 0x11))) ∧
  (∀ (x : CmdCreate) (s : State) (t : Tenant), s.mayAccept 0 x.tag = true → x.sid = 0 → 1 ≤ x.tag → x.tag ≤ 1023 → x.key.length = 133 →
    Config.onCurve x.key = true → s.findTenant x.tag = some t →
    let again : Prop := t.state = .unlocked ∧ t.mig = 0 ∧ (∀ e ∈ t.ext.toList, e.valid = false) ∧ (∀ g ∈ s.granules, g.tag ≠ x.tag) ∧
      (∀ y ∈ s.host.sessions, y.sid = x.tag → y.phase ≠ 2)
    (again → ∃ u, Answers s (.createTenant x) 0 x.tag 3 (u, ok []) ∧ u.tenantAll x.tag (fun y => y = newTenant x.tag x.key) ∧
      (∀ o ∈ u.objects, o.tenant ≠ x.tag)) ∧
    (¬ again → Answers s (.createTenant x) 0 x.tag 3 (s.accept 0, badState))) ∧
  (∀ (x : CmdSetExtents) (s : State) (t : Tenant), s.mayAccept 0 x.tag = true → x.sid = 0 → s.inState x.tag [.unlocked] = true →
    s.findTenant x.tag = some t → x.grants.length ≤ 4096 → x.extents.length ≤ 16 →
    (∀ g ∈ x.grants, g.count ≠ 0 ∧ s.kindReady g.kind.toNat = true ∧
      ∀ i ∈ GrantEntry.ids g, i.exists = true ∧ s.grantable x.tag i = true) →
    (∀ e ∈ x.extents, ExtentEntry.wellFormed e = true ∧ s.addrReady e.base.toNat = true ∧ s.addrReady e.limit.toNat = true ∧
      ((x.grants.flatMap GrantEntry.ids).foldl (fun s g => s.grant x.tag g) s).extentOwned x.tag e.base.toNat e.limit.toNat = true) →
    ∃ t', Answers s (.setExtents x) 0 x.tag 4 (t', ok []) ∧
      t'.tenantAll x.tag (fun y => y = { t with ext := installExtents x.tag t.ext x.extents }) ∧
      (∀ g ∈ x.grants, ∀ i ∈ GrantEntry.ids g, t'.owned i x.tag = true) ∧ t'.mem = s.mem ∧ t'.teams = s.teams) ∧
  (∀ (x : CmdTag) (s : State) (t : Tenant), s.findTenant x.tag = some t → x.sid = x.tag → x.tag ≠ 0 → s.mayAccept x.tag x.tag = true →
    (s.inState x.tag [.unlocked] = true → ∃ t', Answers s (.lock x) x.tag x.tag 13 (t', ok (natBytes 1 4)) ∧
      t'.tenantAll x.tag (fun y => y.state = .locked ∧ y.cfgGen = 1 ∧ y.tcfg = s.tcfgOf t ∧ y.ext = t.ext) ∧ t'.teams = s.teams ∧ t'.mem = s.mem) ∧
    (s.tenantStoppable x.tag = true → s.inState x.tag [.locked, .run, .error] = true →
      ∃ t', Answers s (.unlock x) x.tag x.tag 14 (t', ok []) ∧
        t'.tenantAll x.tag (fun y => y.state = .unlocked ∧ y.cfgGen = 0 ∧ y.ext = t.ext))) ∧
  (∀ (x : CmdTag) (s : State) (t : Tenant), s.findTenant x.tag = some t → x.sid = 0 → s.mayAccept 0 x.tag = true →
    s.active x.tag = true →
    Answers s (.resetTenant x) 0 x.tag 9 ((s.accept 0).nameReset x.tag (s.gtime + 10000), .waits (.reset (s.gtime + 10000))) ∧
    (∀ k ∈ ((s.accept 0).nameReset x.tag (s.gtime + 10000)).teams, k.tenant = x.tag → k.state = .running → k.reason ≠ .fail → k.stop ≠ .none)) ∧
  (∀ (x : CmdTag) (s : State) (t : Tenant) (y : Session) (cseq at_ : Nat), s.findTenant x.tag = some t → x.sid = 0 → x.tag ≠ 0 →
    s.host.waiting = [⟨0, x.tag, 9, cseq, .reset at_⟩] → s.findSession 0 = some y →
    (s.gtime < at_ ∨ s.active x.tag = true → exec (.resetTenant x) s = .next s) ∧
    (at_ ≤ s.gtime → s.active x.tag = false → ∃ u, exec (.resetTenant x) s = .next u ∧ u.host.waiting = [] ∧
      u.tenantAll x.tag (fun z => z.state = .unlocked) ∧
      u.host.held = s.host.held ++ [⟨0, false, 9, 0, cseq, y.sent, s.resetResult t, y.key⟩])) ∧
  (∀ (x : CmdTag) (s : State) (t : Tenant), s.findTenant x.tag = some t → x.sid = 0 → s.mayAccept 0 x.tag = true →
    s.active x.tag = false →
    let mine := (s.granules.filter (fun g => g.tag == x.tag)).map Granule.id
    ∃ t', Answers s (.resetTenant x) 0 x.tag 9 (t', ok (natBytes s.gtime 8 ++ natBytes mine.length 4 ++
        natBytes (s.teamsOf x.tag).length 4 ++ natBytes (s.gtime + ((mine.map GranuleId.size).sum + 99) / 100) 8 ++ zeros 8)) ∧
      t'.tenantAll x.tag (fun y => y.state = .unlocked ∧ y.cfgGen = 0 ∧ y.mig = 0 ∧ y.key = t.key ∧ ∀ i, i < 16 → (vget y.ext i Extent.empty).valid = false) ∧
      (∀ g ∈ t'.granules, g.tag ≠ x.tag) ∧ (∀ j ∈ t'.journal, j.tag ≠ x.tag) ∧ t'.dirty = s.dirty ++ mine) ∧
  (∀ (x : EvGranule) (s : State), s.memOk = true → s.dirty.contains ⟨x.kind, x.die, x.index⟩ = true →
    let g : GranuleId := ⟨x.kind, x.die, x.index⟩
    let p := granuleSpan s.modid g
    ∃ t, exec (.granuleZeroed x) s = .next t ∧ t.dirty = s.dirty.erase g ∧ t.granules = s.granules ∧ t.teams = s.teams ∧
      ∀ a, memGet t.mem a = if p.1 ≤ a ∧ a ≤ p.2 then 0 else memGet s.mem a)

/-- R357–R359, R384: revocation, compaction and attestation. A revocation clears VALID in every context, halts the teams that depend on the
extent and clears the ownership of what lies wholly inside it and inside no other valid extent; a compaction copies the bytes and moves the
extent. The model's choices: what depends on an extent (log entry 26), what a protected extent occupies and which granules are given back
(34, 45), the commands as events (32) and, of a report, the bytes the signing gives (11). -/
def Obligations.ExtentCommands : Prop :=
  (∀ (x : CmdExtent) (s : State) (t : Tenant), s.mayAccept 0 x.tag = true → x.sid = 0 → s.findTenant x.tag = some t → x.index.toNat ≤ 15 →
    s.tenantStoppable x.tag = true →
    Answers s (.revokeExtent x) 0 x.tag 5 ((s.accept 0).revoke t x.index.toNat, ok (natBytes s.gtime 8))) ∧
  (∀ (s : State) (tag i : Nat) (e : Extent), i < 16 → tag ≠ 0 →
    (s.putExtent tag i e).tenantAll tag (fun y => vget y.ext i Extent.empty = e) ∧
    (∀ n, ((s.putExtent tag i e).getTile n).tenant = tag → vget ((s.putExtent tag i e).getTile n).ext i Extent.empty = e) ∧
    (s.putExtent tag i e).mem = s.mem) ∧
  (∀ (s : State) (t : Tenant) (i : Nat), i < 16 → t.tag ≠ 0 → s.findTenant t.tag = some t → (vget t.ext i Extent.empty).valid = true →
    let e := vget t.ext i Extent.empty
    let u := s.revoke t i
    u.tenantAll t.tag (fun y => (vget y.ext i Extent.empty).valid = false) ∧
    (∀ k ∈ u.teams, k.tenant = t.tag → (vget k.ext i Extent.empty).valid = false) ∧
    (∀ n, (u.getTile n).tenant = t.tag → (vget (u.getTile n).ext i Extent.empty).valid = false) ∧
    (∀ g, g ∈ u.granules ↔ g ∈ s.granules ∧ (g.tag = t.tag → s.heldBy e g.id = true →
      ∃ j, j < 16 ∧ j ≠ i ∧ s.heldBy (vget t.ext j Extent.empty) g.id = true)) ∧
    (∀ k, s.findTeam k.num = some k → s.dependents t.tag e.base.toNat e.limit.toNat = [k] →
      (k.state = .waiting → ∃ y, u.findTeam k.num = some y ∧ y.state = .halted) ∧
      (k.state = .running → k.stop = .none → (∀ p ∈ k.procs, (s.getCore p).pend = []) →
        ∃ y, u.findTeam k.num = some y ∧ (y.state = .halted ∨ y.state = .failed)))) ∧
  (∀ (s : State) (f : Team → Bool) (tag i b : Nat) (e : Extent), s.memOk = true → i < 16 → e.base.toNat ≤ e.limit.toNat →
    b + (e.limit.toNat - e.base.toNat) < 2 ^ 53 → (∀ t ∈ s.teams, t.tenant = tag → t.state ≠ .running ∧ t.state ≠ .waiting) →
    let u := s.moveExtent f tag i e b
    (∀ k, k < s.heldLength e → memGet u.mem (b + k) = memGet s.mem (e.base.toNat + k)) ∧
    (∀ a, a < b ∨ b + s.heldLength e ≤ a → memGet u.mem a = memGet s.mem a) ∧
    u.tenantAll tag (fun y => (vget y.ext i Extent.empty).base.toNat = b ∧
      (vget y.ext i Extent.empty).limit.toNat = b + (e.limit.toNat - e.base.toNat))) ∧
  (∀ (x : CmdMove) (s : State) (t : Tenant), s.mayAccept 0 x.tag = true → x.sid = 0 → s.findTenant x.tag = some t →
    s.tenantStoppable x.tag = true → s.drained x.tag x.index.toNat = true → x.index.toNat ≤ 15 →
    let e := vget t.ext x.index.toNat Extent.empty
    let b := x.base.toNat
    let lim := b + (e.limit.toNat - e.base.toNat)
    e.valid = true → lim < 2 ^ 53 → s.extentOwned x.tag b (b + s.heldLength e - 1) = true →
    (∀ j, j < 16 → j ≠ x.index.toNat → (vget t.ext j Extent.empty).valid = true → (vget t.ext j Extent.empty).base.toNat ≠ e.limit.toNat + 1) →
    ∃ u n, Answers s (.moveExtent x) 0 x.tag 6 (u, ok (natBytes n 4)) ∧
      u = ((s.accept 0).moveExtent (fun t => s.dependsOn t e.base.toNat e.limit.toNat) x.tag x.index.toNat e b).reconfigure x.tag ∧
      n = (match u.findTenant x.tag with | some y => y.cfgGen | none => 0)) ∧
  (∀ (x : CmdAttest) (s : State), s.mayAccept x.sid x.tag = true → 476 ≤ x.rlen.toNat →
    (x.sid = 0 → x.tag = 0 → Answers s (.attest x) 0 0 15
      ((s.accept 0).writeResult 0 x.raddr x.rlen (s.report452 none x.nonce))) ∧
    (∀ t, x.sid = x.tag → x.tag ≠ 0 → s.findTenant x.tag = some t → Answers s (.attest x) x.tag x.tag 15
      ((s.accept x.tag).writeResult x.tag x.raddr x.rlen (s.report452 (some t) x.nonce))))

/-- R380, R381, R405, R409, R414: a team is launched, stopped and resumed; the calendar is set; counters and faults are read. STOP_TEAM
names T, and a stop of the calendar before T stands. SET_CALENDAR names the stops of its clusters (R54). The model's choices: the reasons
of refusals (log entry 33), the commands as events (32), what the operator reads (35) and the lead of 1 µs that a new calendar leaves
(55). -/
def Obligations.TeamCommands : Prop :=
  (∀ (x : CmdLaunch) (s : State) (t : Tenant) (o : Obj), s.mayAccept 0 x.tag = true → x.sid = 0 → s.findTenant x.tag = some t →
    s.inState x.tag [.locked, .run] = true → t.mig = 0 → s.findObj x.tag x.objid = some o →
    (∀ r, s.launchRefusal t o x = some r → Answers s (.launchTeam x) 0 x.tag 7 (s.accept 0, refused r)) ∧
    (∀ v, s.launchRefusal t o x = none → o.versions.find? (fun v => v.binding == launchBinding x && !v.stale) = some v →
      let num := s.teamNumber x
      if s.sealsHold v = true then ∃ u, Answers s (.launchTeam x) 0 x.tag 7 (u, ok (natBytes num 4 ++ natBytes (launchStat o x num t.key) 1)) ∧
        u.teams.map (fun y => { y with msgs := [] }) = (s.teams ++ [s.launchedTeam t o x v num]).map (fun y => { y with msgs := [] }) ∧
        u.tenantAll x.tag (fun y => y.state = .run) ∧
        (∀ c ∈ CmdLaunch.clusterList x, ∀ i, i < 16 → x.share.getLsbD i = true → vget (u.getCluster c).slots i none = some num)
      else Answers s (.launchTeam x) 0 x.tag 7
        ({ (s.accept 0).sweepVersions with boot := { s.boot with sealFaults := s.boot.sealFaults + 1 } }, refused 0x14))) ∧
  (∀ (x : CmdTeam) (s : State) (t : Team), s.mayAccept x.sid x.tag = true → ofEither x.sid x.tag → s.inState x.tag [.run] = true →
    s.findTeam x.team = some t → t.tenant = x.tag →
    let at_ := max x.time (s.gtime + 10000)
    let u := { t with haltAt := some at_, byStop := true }
    let stops (v : Team) : Prop := Answers s (.stopTeam x) x.sid x.tag 8 ((s.accept x.sid).putTeam v, .waits (.stop x.team at_))
    (t.state = .waiting → stops u) ∧
    (t.state = .running → t.stop = .none → stops { u with stop := .named at_, stopAt := at_, reason := .halt }) ∧
    (∀ b, t.state = .running → t.stop = .named b → t.reason ≠ .fail →
      (b < at_ → stops u) ∧ (at_ ≤ b → stops { u with stop := .named at_, stopAt := at_, reason := .halt })) ∧
    (t.state ≠ .running → t.state ≠ .waiting → Answers s (.stopTeam x) x.sid x.tag 8 (s.accept x.sid, badState)) ∧
    (t.state = .halted → t.byStop = true → x.time = 0 → (s.findTenant x.tag).all (fun y => y.mig == 0) = true → Answers s (.stopTeamResume x) x.sid x.tag 8
      ((s.accept x.sid).putTeam { t with state := .waiting, byStop := false, haltAt := none }, ok []))) ∧
  (∀ (x : CmdCalendar) (s : State), s.mayAccept 0 0 = true → x.sid = 0 → (x.msgmax = 0 ∨ 5 ≤ x.msgmax.toNat ∧ x.msgmax.toNat ≤ 16) →
    (s.setSlots x.clmask x.slots).calendarOk = true → ∃ u, Answers s (.setCalendar x) 0 0 10 (u, ok []) ∧
      (∀ c i, c < 64 → i < 16 → vget (u.getCluster c).slots i none =
        if x.clmask.getLsbD c = true then (if x.slots.getD i 0 = 0 then none else some (x.slots.getD i 0))
        else vget (s.getCluster c).slots i none) ∧
      u.host.nextMsgmax = (if x.msgmax = 0 then s.host.nextMsgmax else some x.msgmax.toNat) ∧
      (∀ t c g, s.findTeam t.num = some t → t.state = .running → t.stop = .none → t.clusters = [(c, g)] → c < 64 → x.clmask.getLsbD c = true →
        (∀ d, d < 64 → ((s.getCluster d).holder = some t.num ↔ d = c)) → vget (u.getCluster c).slots (slotNow s.gtime) none = some t.num →
        vget (u.getCluster c).slots ((slotNow s.gtime + 1) % 16) none ≠ some t.num →
        u.teamAll t.num (fun y => y.reason = .slot ∧
          y.stop = .named (max ((s.gtime / 2 ^ 18 + 1) * 2 ^ 18 - 2 ^ 16) (s.gtime + 1000))))) ∧
  (∀ (x : CmdRead) (s : State) (t : Team), s.mayAccept x.sid x.tag = true → s.inState x.tag anyState = true →
    s.findTeam x.team = some t → t.tenant = x.tag →
    (x.sid = 0 →
      Answers s (.readCounters x) 0 x.tag 11 ((s.accept 0).writeResult 0 x.raddr x.rlen (t.operatorValues x.mask.toNat)) ∧
      Answers s (.readFaults x) 0 x.tag 12 ((s.accept 0).writeResult 0 x.raddr x.rlen
        ((t.faults.filterMap (fun r => r.shown t.faultPolicy s.gtime)).flatten))) ∧
    (x.sid = x.tag → x.tag ≠ 0 →
      Answers s (.readCounters x) x.tag x.tag 11 ((s.accept x.tag).writeResult x.tag x.raddr x.rlen (s.tenantValues t x.mask.toNat)) ∧
      Answers s (.readFaults x) x.tag x.tag 12 ((s.accept x.tag).writeResult x.tag x.raddr x.rlen (t.faults.flatMap FaultRec.bytes)))) ∧
  (∀ (s : State) (y : Session) (sid : Nat) (raddr rlen : Word) (b : List Byte), s.findSession sid = some y →
    let inside := raddr.toNat < 2 ^ 44 ∧ raddr.toNat + (b.length + 24) ≤ 2 ^ 44
    (raddr.toNat % 64 = 0 → inside → b.length + 24 ≤ rlen.toNat →
      s.writeResult sid raddr rlen b = (s.putHost raddr.toNat (s.sealedBlock sid b), ok (natBytes b.length 8))) ∧
    (raddr.toNat % 64 = 0 → inside → rlen.toNat < b.length + 24 → s.writeResult sid raddr rlen b = (s, refused 0x13)) ∧
    (raddr.toNat % 64 ≠ 0 ∨ ¬ inside → s.writeResult sid raddr rlen b = (s, refused 0x11)))

/-! ## Slices, stops, monitors and power -/

/-- R54, R394, R395, R397–R399: for a team whose current slot is its own and whose next slot is not, the stop is named at B − 2^16 ns; the
calendar begins a slice at its boundary, and names its stop as well; a team stops, is saved and restored; Vigil expires. The model's
choices: the stop 1 µs from now where the slot is already over or less is left, and a slice that begins late because its clusters were not
free (log entry 55), what a failure of the team-level part names and where its fields lie (23), what falls into the stash and the order of
a restore (31), what is kept beside the records (4) and the stop of a team that the backstop refused (30). -/
def Obligations.SlicesAndStops : Prop :=
  (∀ (x : EvCluster) (s : State) (t : Team), s.host.nextMsgmax = none → (s.getCluster x.cl).holder = some t.num → s.findTeam t.num = some t →
    t.state = .running → t.stop = .none →
    let stopAt := fun (n : Nat) => exec (.sliceBoundary x) s = .next (s.putTeam { t with stop := .named n, stopAt := n, reason := .slot })
    let slot := fun (n : Nat) => vget (s.getCluster x.cl).slots (n % 16) none
    (s.slotTeam x.cl (slotNow s.gtime) = none → stopAt (s.gtime + 1000)) ∧
    (slot (slotNow s.gtime) = some t.num → slot (slotNow s.gtime + 1) ≠ some t.num →
      stopAt (max ((s.gtime / 2 ^ 18 + 1) * 2 ^ 18 - 2 ^ 16) (s.gtime + 1000)))) ∧
  (∀ (x : EvCluster) (s : State) (t : Team) (g : Nat) (r : List (Nat × Nat)), s.host.nextMsgmax = none → (s.getCluster x.cl).holder = none →
    s.slotTeam x.cl (slotNow s.gtime) = some t → t.state = .waiting → t.haltAt = none → s.tenantRuns t.tenant = true → s.untripped = true →
    t.clusters = (x.cl, g) :: r →
    let meets := s.gtime % 2 ^ 18 ≤ 100 ∨ t.due = some (s.gtime / 2 ^ 18)
    let last := vget (s.getCluster x.cl).slots ((slotNow s.gtime + 1) % 16) none ≠ some t.num
    (¬ meets → exec (.sliceBoundary x) s = .next s) ∧
    (meets → (∃ c ∈ t.clusters, s.clusterFree c.1 = false) →
      exec (.sliceBoundary x) s = .next (s.putTeam { t with due := some (s.gtime / 2 ^ 18) })) ∧
    (meets → (∀ c ∈ t.clusters, s.clusterFree c.1 = true) →
      ∃ u, exec (.sliceBoundary x) s = .next u ∧ u.teamAll t.num (fun y => y.state = .running ∧ y.placed = false ∧ y.due = none ∧
        (last → y.stop = .named (max ((s.gtime / 2 ^ 18 + 1) * 2 ^ 18 - 2 ^ 16) (s.gtime + 1000)) ∧ y.reason = .slot) ∧
        (¬ last → y.stop = .none)) ∧
        (∀ c ∈ t.clusters, (u.getCluster c.1).holder = some t.num))) ∧
  (∀ (x : EvCluster) (s : State) (m : Nat), s.host.nextMsgmax = some m → ∃ u, exec (.sliceBoundary x) s = .next u ∧
    u.host.msgmax = m ∧ u.host.nextMsgmax = none) ∧
  (∀ (x : EvTeam) (s : State) (t : Team) (at_ : Nat), s.findTeam x.team = some t → t.stop = .named at_ → t.state = .running → at_ ≤ s.gtime →
    (∀ n ∈ t.tiles, (s.getTile n).handler.entering = false) →
    (t.reason ≠ .fail → t.restorePending = true →
      exec (.solsticeStop x) s = .next ((s.coolDown t).putTeam { t with stop := .saved, state := t.afterStop })) ∧
    (t.reason ≠ .fail → t.restorePending = false → s.stoppable t = true → (∀ p ∈ t.procs, ∀ a ∈ (s.getCore p).pend, a.slot = none) →
      ∃ u, exec (.solsticeStop x) s = .next u ∧
      u.teamAll x.team (fun y => y.stop = .stopped ∧ y.state = .running ∧ y.log = [] ∧ y.stopTime = s.gtime) ∧
      (∀ p ∈ t.procs, (u.getCore p).running = false ∧ (u.getCore p).pend = []) ∧ u.mem = s.mem) ∧
    (t.reason = .fail → ∃ u, exec (.solsticeStop x) s = .next u ∧ u.teamAll x.team (fun y => y.stop = .none ∧ y.state = .failed) ∧
      u.mem = s.mem)) ∧
  (∀ (x : EvTeam) (s : State) (t : Team) (at_ : Nat), s.findTeam x.team = some t → t.state = .waiting → t.haltAt = some at_ → at_ ≤ s.gtime →
    exec (.solsticeStop x) s = .next (s.putTeam { t with state := .halted, haltAt := none })) ∧
  (∀ (x : EvTeam) (s : State) (t : Team), s.findTeam x.team = some t → t.stop = .stopped → t.state ≠ .failed →
    let failed := fun (u : State) (code : BitVec 8) (d : Word) => u.teamAll x.team (fun y => y.state = .failed ∧
      ∃ l, y.faults = keepFaults l ⟨faultWord code false 3 0, d, s.gtime, d.toNat / 2 ^ 54, true, false, t.num, false⟩ ∧
        (t.trcx = 0xFF → l = t.faults))
    (s.firstSaveFault t = none → t.levelAt + t.levelSize ≤ t.saveLim + 1 → ∃ u, exec (.contextSave x) s = .next u ∧
      u.teamAll x.team (fun y => y.saveSeq = t.saveSeq + 1 ∧ y.hasSave = true ∧ y.stop = .saved ∧ y.placed = false ∧
        y.state = (if t.reason = StopReason.slot then .waiting else .halted) ∧ y.levelLen = t.levelSize ∧ y.snaps.map Snap.lcid = t.tiles)) ∧
    (∀ code d, s.firstSaveFault t = some (code, d) → ∃ u, exec (.contextSave x) s = .next u ∧ failed u code d) ∧
    (s.firstSaveFault t = none → t.saveLim + 1 < t.levelAt + t.levelSize → (∀ n ∈ t.tiles, n < 1024) → ∃ u, exec (.contextSave x) s = .next u ∧
      failed u codeSavefail (BitVec.ofNat 64 ((t.tiles.getLast?).getD 0 * 2 ^ 54 + 2 ^ 53 + (t.saveLim + 1) % 2 ^ 53)))) ∧
  (∀ (x : EvTeam) (s : State) (t : Team), s.findTeam x.team = some t → t.state = .running → t.hasSave = true → t.placed = false →
    t.stash = [] → t.log = [] →
    (∀ q ∈ t.snaps.zipIdx, s.recordOk t q.2 = true ∧ s.badUnits (t.recordAt q.2) (recordSize t.spsize) = []) →
    s.badUnits t.levelAt t.levelLen = [] →
    memNat s.mem (t.levelAt + t.levelLen - 4) 4 = t.saveSeq → memNat s.mem (t.levelAt + 8) 4 = t.saveSeq →
    ∃ u, exec (.restore x) s = .next u ∧ u.teamAll x.team (fun y => y.placed = true ∧ y.stop = t.stop ∧ y.snaps = [] ∧ y.moves = [])) ∧
  (∀ (m : List Host.Cell) (t : Team) (o : Nat) (x : Snap) (i : Nat),
    let c := restoredMain m t o x
    (i < 32 → vget c.g i 0 = wNat (memNat m (o + 0x40 + 8 * i) 8)) ∧
    (i < 16 → vget c.a i 0 = movedPtr t.moves (wNat (memNat m (o + 0x140 + 8 * i) 8))) ∧
    c.pc = wNat (memNat m (o + 8) 8) ∧ c.seed = wNat (memNat m (o + 0x248) 8) ∧ c.wait = x.main.wait ∧ c.load = none ∧ c.lates = [] ∧ c.pend = []) ∧
  (∀ (x : EvTile) (s : State),
    let k := s.getTile x.lcid
    (k.fenced = true → s.spareFor x.lcid = none → exec (.vigilExpiry x) s =
      .next (s.setCluster (clusterOf x.lcid) { s.getCluster (clusterOf x.lcid) with noPlace := true })) ∧
    (∀ r, k.fenced = true → s.spareFor x.lcid = some r → ∃ u, exec (.vigilExpiry x) s = .next u ∧
      u.boot.spares = s.boot.spares ++ [(x.lcid, r)] ∧ (u.getTile x.lcid).fenced = false ∧ (u.getTile x.lcid).localQ = k.localQ) ∧
    (∀ t, s.findTeam k.team = some t → t.counts s.gtime = true → k.fenced = false → t.lastCycle + 2 ^ t.vigil ≤ s.cycle →
      ∃ u, exec (.vigilExpiry x) s = .next u ∧ u.teamAll t.num (fun y =>
        (y.state = .failed ∨ y.stopReached s.gtime = true ∧ y.reason = .fail) ∧ (t.trcx = 0xFF → y.state = .failed) ∧
        ∃ l, y.faults = keepFaults l ⟨faultWord codeTeamstall false 3 0, wNat t.lastTime, s.gtime, 0xFFFF, true, false, t.num, false⟩ ∧
          (t.trcx = 0xFF → l = t.faults))) ∧
    (∀ t, s.findTeam k.team = some t → t.counts s.gtime = true → k.fenced = false → s.cycle < t.lastCycle + 2 ^ t.vigil →
      (k.progress + 2 ^ t.vigil ≤ t.lastCycle → exec (.vigilExpiry x) s = .next (s.fenceTile t x.lcid 1)) ∧
      (t.lastCycle < k.progress + 2 ^ t.vigil → exec (.vigilExpiry x) s = .next s)))

/-- R404–R409, R441–R445: the copies and releases of counters, the rail measurements, droops and temperatures; after 1 ms at 110 °C a
thermal trip names the stop of every team for 10 µs later, and ends once all have stopped. The model's choices: what is kept of the readings
(log entry 35), the operands of events (37, 38), and how far clocks fall and rise and the two steps of a trip (39). -/
def Obligations.MonitorSteps : Prop :=
  (∀ (x : EvTile) (s : State), (s.getTile x.lcid).team ≠ 0 → (s.getTile x.lcid).copyTime / 1000 < s.gtime / 1000 →
    ∃ u, exec (.counterCopy x) s = .next u ∧ (u.getTile x.lcid).ctrCopy = (s.getTile x.lcid).ctr ∧
      (u.getTile x.lcid).ctr = (s.getTile x.lcid).ctr ∧ (u.getTile x.lcid).copyTime = s.gtime ∧ u.mem = s.mem ∧ u.teams = s.teams) ∧
  (∀ (x : EvTeam) (s : State) (t : Team), s.findTeam x.team = some t → (∀ y ∈ s.tenants, y.tag = t.tenant → y.mig = 0) →
    ∃ t' u, exec (.counterRelease x) s = .next u ∧ u.teamAll x.team (fun y => y = t') ∧ u.mem = s.mem ∧
      (∀ r ∈ t'.released, r ∈ t.released ∨ ∃ e, t.entryFor r.ctr = some e ∧ r.gran = e.gran ∧ e.gran ≠ 0 ∧
        r.time = s.gtime / e.bucket * e.bucket ∧
        r.vals = releaseVals (s.store t) (t.clusters.map Prod.fst) e.gran e.vq r.ctr)) ∧
  (∀ (x : EvRail) (s : State), s.boot.ready.getLsbD 20 = true → ∃ u, exec (.railMeasurement x) s = .next u ∧
    u.boot.modulePower = x.module ∧ u.boot.corePower = x.core ∧ u.boot.current = x.current ∧ u.mem = s.mem ∧
    (∀ c, c < 64 → (u.getCluster c).power = x.power.getD c 0 ∧
      ((3000000 < x.module ∨ 3000000 < x.core ∨ 6000000 < x.current) →
        (u.getCluster c).clock = (s.getCluster c).clock ∨ (u.getCluster c).clock = max 7 ((s.getCluster c).clock - 1)) ∧
      (x.module ≤ 3000000 → x.core ≤ 3000000 → x.current ≤ 6000000 → (s.getCluster c).clock ≤ 15 →
        (s.getCluster c).clock ≤ (u.getCluster c).clock ∧ (u.getCluster c).clock ≤ 15))) ∧
  (∀ (x : EvCluster) (s : State), ∃ u, exec (.droop x) s = .next u ∧ (u.getCluster x.cl).droops = min 0xFFFF ((s.getCluster x.cl).droops + 1) ∧
    u.mem = s.mem ∧ u.teams = s.teams) ∧
  (∀ (x : EvTemp) (s : State), ∃ u, exec (.tempThreshold x) s = .next u ∧
    let k := u.getCluster x.cl
    k.temp = x.temp ∧ (760 ≤ x.temp.toInt → k.tempHigh = true) ∧ (x.temp.toInt < 744 → k.tempHigh = false) ∧
    (744 ≤ x.temp.toInt → x.temp.toInt < 760 → k.tempHigh = (s.getCluster x.cl).tempHigh) ∧
    (840 ≤ x.temp.toInt → s.clockHeld x.cl = false → k.clock = 7) ∧
    u.boot.maxTemp = (if s.boot.maxTemp.toInt < x.temp.toInt then x.temp else s.boot.maxTemp)) ∧
  (∀ (x : EvCluster) (s : State), (s.getCluster x.cl).tempHigh = true → s.clockHeld x.cl = false → 7 < (s.getCluster x.cl).clock →
    exec (.thermalStep x) s = .next (s.setCluster x.cl { s.getCluster x.cl with clock := (s.getCluster x.cl).clock - 1 })) ∧
  (∀ (x : EvTemp) (s : State), 880 ≤ x.temp.toInt → ∃ u, exec (.tempThreshold x) s = .next u ∧
    (u.getCluster x.cl).tripSince = some (((s.getCluster x.cl).tripSince).getD s.gtime)) ∧
  (∀ (e : EvNone) (s : State), s.boot.tripAt = none → s.boot.tripped = false →
    ((∃ c a, c < 64 ∧ (s.getCluster c).tripSince = some a ∧ a + 1000000 ≤ s.gtime) → ∃ u, exec (.thermalTrip e) s = .next u ∧
      u.boot.tripAt = some (s.gtime + 10000) ∧ u.boot.ready = s.boot.ready ∧
      (∀ t ∈ u.teams, t.state = .running → t.reason ≠ .fail → t.stop ≠ .none)) ∧
    ((∀ c a, c < 64 → (s.getCluster c).tripSince = some a → s.gtime < a + 1000000) → exec (.thermalTrip e) s = .next s)) ∧
  (∀ (e : EvNone) (s : State) (a : Nat), s.boot.tripAt = some a →
    (a ≤ s.gtime → (∀ t ∈ s.teams, t.state ≠ .running) →
      ∃ u, exec (.thermalTrip e) s = .next u ∧ u.boot.tripped = true ∧ u.boot.railsOff = true ∧
        (∀ t ∈ u.teams, t.state ≠ .launching ∧ t.state ≠ .waiting) ∧ ∀ i, i < 64 → u.boot.ready.getLsbD i = (i == 19 && s.boot.ready.getLsbD 19)) ∧
    (s.gtime < a → exec (.thermalTrip e) s = .next s))

/-! ## Migration, the fabric and bring-up -/

/-- R383, R385, R386: the ten migration commands of a tenant's own session. The model's choices: the serialisation of the state, where it
goes and in which tenant states a close is taken (log entry 27). -/
def Obligations.MigrationCommands : Prop :=
  ∀ (x : CmdMigrate) (s : State) (t : Tenant), x.sid = x.tag → x.tag ≠ 0 → s.mayAccept x.tag x.tag = true → s.findTenant x.tag = some t →
    s.tenantStoppable x.tag = true →
    let s1 := s.accept x.tag
    let erased : Tenant := { t with mig := 0, blob := [], offer := [], eph := [], other := 0 }
    let out := fun (i : Instr) (e : Effect) => Answers s i x.tag x.tag 0x10 e
    let inn := fun (i : Instr) (e : Effect) => Answers s i x.tag x.tag 0x11 e
    (t.mig = 0 →
      inn (.migrateInOffer x) (s1.withItem x.tag x.raddr x.rlen
        (signedItem (itemBody 1 x.tag s.modid.toNat 0xFF (fixed 32 (Config.random s.free 0)) (Config.publicKey (Config.random s.free 1)) []))
        (fun u => { u.putTenant { t with offer := fixed 32 (Config.random s.free 0), eph := Config.random s.free 1 } with free := u.free + 1 })) ∧
      (∀ y, s1.findSession x.tag = some y → s.inState x.tag [.locked, .run] = true →
        out (.migrateOutSend x) (if s.itemFor x.item 1 x.tag = true then s1.sendBlobs t x (Session.escrowKey y) else (s1, refused 0x14))) ∧
      (t.offer ≠ [] → byteNat x.item 0 = 5 → bytesNat x.item 2 2 = x.tag →
        inn (.migrateInImport x) (match openBlob x.item (wrapKey t.eph (part x.item 0x30 133) t.offer) with
          | none => (s1, refused 0x14)
          | some plain => match Config.unpackTenant plain with
            | none => (s1, refused 0x14)
            | some g => s1.importBlob t x plain g))) ∧
    (t.mig = 0 ∨ t.mig = 3 → byteNat x.item 0 = 6 → bytesNat x.item 2 2 = x.tag → ∀ y, s1.findSession x.tag = some y →
        inn (.migrateInEscrow x) (match openBlob x.item (Session.escrowKey y) with
          | none => (s1, refused 0x14)
          | some plain => match Config.unpackTenant plain with
            | none => (s1, refused 0x14)
            | some g => if s1.imageFits t g = false then (s1, refused 0x12) else if s1.numbersFree t g = false then (s1, refused 0x13)
              else s1.endImport t x g g.source g.nonce g.digest)) ∧
    (t.mig = 1 → s.inState x.tag [.locked, .run] = false →
      out (.migrateOutCommit x) (s1, badState) ∧ out (.migrateOutAbort x) (s1, badState)) ∧
    (t.mig = 1 → s.inState x.tag [.locked, .run] = true →
      let e := s1.withItem x.tag x.raddr x.rlen (s.itemOf 3 x.tag t.other t.offer t.blob) (fun u => u.resetTenant t 3)
      out (.migrateOutCommit x) (if s.itemFor x.item 2 x.tag = true ∧ itemMatches x.item t.other t.offer t.blob = true then (e.1, e.2.final)
        else (s1, refused 0x14)) ∧
      ∃ u, out (.migrateOutAbort x) (u, ok []) ∧ u.tenantAll x.tag (fun y => y.mig = 0 ∧ y.blob = [] ∧ y.offer = [] ∧ y.state = t.state) ∧
        (∀ k ∈ u.teams, k.tenant = x.tag → k.state = .halted → k.byStop = true) ∧ u.mem = s.mem) ∧
    (t.mig = 2 → match s.journalled x.tag with
      | some (j, g) =>
        inn (.migrateInConfirm x) (if s.itemFor x.item 3 x.tag = true ∧ itemMatches x.item j.source j.nonce j.blob = true then
            s1.endImport t x g j.source j.nonce j.blob else (s1, refused 0x14)) ∧
        inn (.migrateInResume x) (s1.endImport t x g j.source j.nonce j.blob)
      | none => inn (.migrateInConfirm x) (s1, badState) ∧ inn (.migrateInResume x) (s1, badState)) ∧
    (t.mig = 3 → t.state = .error → out (.migrateOutClose x) (s1, badState)) ∧
    (t.mig = 3 → t.state ≠ .error → out (.migrateOutClose x)
      (if s.itemFor x.item 4 x.tag = true ∧ itemMatches x.item (byteNat x.item 4) t.offer t.blob = true then (s1.putTenant erased, ok [])
        else (s1, refused 0x14))) ∧
    (t.mig = 0 ∨ t.mig = 2 → inn (.migrateInAbort x)
      ((s1.putTenant erased).closeJournal x.tag, ok []))

/-- R420–R427, R431, R432, R434: a reconfiguration of the fabric with its dark interval; flits, accepted in the order of their port,
delivered, answered, forwarded or refused, and sent again by a replay; returned allowances and the time bases. The model's choices: which
lanes move, what the events carry, which of a port's flits make room and what a return flit spends (log entry 37), and what a message of
another module may be (21). -/
def Obligations.FabricSteps : Prop :=
  (∀ (x : CmdFabric) (s : State), x.sid = 0 → s.mayAccept 0 0 = true → s.fabric.dark = none →
    (s.tableError x = true → Answers s (.fabricConfig x) 0 0 0x12 (s.accept 0, refused 0x20)) ∧
    (s.tableError x = false → s.cutsTeam x = true → Answers s (.fabricConfig x) 0 0 0x12 (s.accept 0, refused 0x21)) ∧
    (s.tableError x = false → s.cutsTeam x = false → (∃ p, p < 16 ∧ lanesUp (s.newMap x) s.fabric.down p = true) →
      ∃ u d, exec (.fabricConfig x) s = .next u ∧ u.fabric.dark = some d ∧ d.portmap = s.newMap x ∧ d.shaken = [] ∧
        u.fabric.gen = s.fabric.gen ∧ u.fabric.peers = s.fabric.peers ∧
        (∀ f l, f < 32 → l < 8 → ((f, l) ∈ d.locked ↔ (f, l) ∉ x.moved ∧ (f, l) ∉ s.fabric.down) ∧
          ((f, l) ∈ d.down ↔ (f, l) ∉ x.moved ∧ (f, l) ∈ s.fabric.down)) ∧
        u.host.waiting = s.host.waiting ++ [⟨0, 0, 0x12, s.expected 0, .fabric⟩] ∧
        (∀ i, i < 64 → u.boot.ready.getLsbD i = (s.boot.ready.getLsbD i && !(decide (32 ≤ i ∧ i < 48)))))) ∧
  (∀ (x : EvLane) (s : State) (d : Dark), s.fabric.dark = some d → d.relocks x.fibre x.lane = true →
    (x.ns ≤ 40000 → ∃ u e, exec (.laneLock x) s = .next u ∧ u.fabric.dark = some e ∧ (x.fibre, x.lane) ∈ e.locked ∧
      (x.fibre, x.lane) ∉ e.down ∧ e.longest = max d.longest x.ns) ∧
    ((x.fibre, x.lane) ∉ d.locked → ∃ u, exec (.laneLockTimeout x) s = .next u ∧
      (∀ e, u.fabric.dark = some e → (x.fibre, x.lane) ∈ e.down) ∧ (u.fabric.dark = none → (x.fibre, x.lane) ∈ u.fabric.down))) ∧
  (∀ (x : EvLane) (s : State), s.fabric.dark = none → x.fibre < 32 → x.lane < 8 → (x.fibre, x.lane) ∉ s.fabric.down →
    ∃ u, exec (.laneLockTimeout x) s = .next u ∧ u.fabric = { s.fabric with down := (x.fibre, x.lane) :: s.fabric.down } ∧
      ∀ p, p < 16 → u.boot.ready.getLsbD (32 + p) = (s.boot.ready.getLsbD (32 + p) && lanesUp s.fabric.portmap u.fabric.down p)) ∧
  (∀ (x : EvPort) (s : State) (d : Dark), s.fabric.dark = some d → d.relocked x.port = false → exec (.portHandshake x) s = .next s) ∧
  (∀ (x : EvPort) (s : State) (d : Dark), s.fabric.dark = some d → x.port ∈ d.ports → x.port ∉ d.shaken → d.relocked x.port = true →
    s.boot.tripped = false →
    ((∃ p ∈ d.ports, p ≠ x.port ∧ p ∉ d.shaken) → ∃ u, exec (.portHandshake x) s = .next u ∧ u.fabric.gen = s.fabric.gen ∧
      u.fabric.dark = some { d with shaken := d.shaken ++ [x.port] }) ∧
    ((∀ p ∈ d.ports, p = x.port ∨ p ∈ d.shaken) → ∃ u, exec (.portHandshake x) s = .next u ∧ u.fabric.gen = s.fabric.gen + 1 ∧
      u.fabric.dark = none ∧ u.fabric.portmap = d.portmap ∧ u.fabric.agree = d.ports ∧
      (∀ i, i < 64 → let q := newPeer d s.modid.toNat i s.gtime (vget s.fabric.peers i Peer.empty)
        let v := vget u.fabric.peers i Peer.empty
        v.valid = q.valid ∧ v.port = q.port ∧ v.epoch = q.epoch ∧
          (s.fabric.held = [] → (∀ f ∈ s.fabric.flights, f.own = true) → v = q)) ∧
      (∀ w ∈ u.host.waiting, w.what ≠ .fabric))) ∧
  (∀ (x : EvFlit) (s : State),
    let next : State := { s with fabric := { s.fabric with expect := vset s.fabric.expect x.port (x.seq + 1) } }
    let s1 := next.owe x.src
    let refuses := fun (a : Nat) => (s.wayFault a).isSome = true ∨ s.admitsTag x.tag a a = false
    (16 ≤ x.port ∨ s.fabric.dark.isSome = true ∨ vget s.fabric.expect x.port 0 ≠ x.seq → exec (.fabricFlitReceive x) s = .next s) ∧
    (x.port < 16 → s.fabric.dark = none → vget s.fabric.expect x.port 0 = x.seq →
      (x.dst ≠ s.modid.toNat → exec (.fabricFlitReceive x) s = .next (next.forward x)) ∧
      (x.dst = s.modid.toNat →
        (∀ e, x.body = .marker e → exec (.fabricFlitReceive x) s = .next (s1.recordEpoch x.src e)) ∧
        (∀ a l, x.body = .store a l → exec (.fabricFlitReceive x) s = .next (s1.landFlit x.src x.tag a (l.take 64))) ∧
        (∀ op n a v new, x.body = .amo op n a v new → ¬ refuses a → s.unready a n = false → s.badUnits a n = [] →
          exec (.fabricFlitReceive x) s = .next ((match amoNew (amoOf op) n (leNat (memBytes s.mem a n)) v new with
            | some r => s1.landFlit x.src x.tag a (natBytes r n)
            | none => s1).answer x.src x.tag .answer (memBytes s.mem a n))) ∧
        (∀ a n, x.body = .read a n → n ≤ 64 →
          (¬ refuses a → s.unready a n = false → exec (.fabricFlitReceive x) s = .next (s1.answer x.src x.tag .answer (memBytes s.mem a n))) ∧
          (refuses a → exec (.fabricFlitReceive x) s = .next (s1.answer x.src x.tag .answer (List.replicate n 0)))) ∧
        (∀ p a, x.body = .nack p a → exec (.fabricFlitReceive x) s = .next (s1.refusedFlit p a codePeerlost)) ∧
        (∀ p a, x.body = .mark p a → exec (.fabricFlitReceive x) s = .next (s1.refusedFlit p a codeBackstop)) ∧
        (∀ l op bin v, x.body = .key l op bin v → refuses (scratchAddr l 0) → exec (.fabricFlitReceive x) s = .next s1)))) ∧
  (∀ (x : EvFlit) (s : State), let q := vget s.fabric.peers x.dst Peer.empty
    let u := s.forward x
    let n := vget s.fabric.seqs q.port.toNat 0
    (q.valid = true → (s.fabric.buffer q.port.toNat).length < 128 → u.fabric.peers = s.fabric.peers ∧ u.mem = s.mem ∧
      u.fabric.flights = s.fabric.flights ++ [⟨q.port.toNat, n, x.dst, x.tag, .forward x.src, (FlitKind.bytes x.body).take 64, 1⟩] ∧
      vget u.fabric.seqs q.port.toNat 0 = n + 1) ∧
    (q.valid = false → (∀ p a, x.body ≠ .nack p a ∧ x.body ≠ .mark p a) →
      u = State.answer { s with fabric := { s.fabric with nacks := s.fabric.nacks + 1 } } x.src x.tag .nack []) ∧
    (q.valid = false → (∃ p a, x.body = .nack p a ∨ x.body = .mark p a) → u = s)) ∧
  (∀ (s : State) (m tag : Nat) (c : Cargo) (b : List Byte), m < 64 → let q := vget s.fabric.peers m Peer.empty
    let u := s.answer m tag c b
    (q.valid = false → u = s) ∧
    (q.valid = true → s.fabric.opens q = false ∨ (∃ h ∈ s.fabric.held, h.1 = m) →
      u = { s with fabric := { s.fabric with held := s.fabric.held ++ [(m, tag, c, b)] } }) ∧
    (q.valid = true → s.fabric.opens q = true → (∀ h ∈ s.fabric.held, h.1 ≠ m) → (s.fabric.buffer q.port.toNat).length < 128 →
      u.fabric.flights = s.fabric.flights ++ [⟨q.port.toNat, vget s.fabric.seqs q.port.toNat 0, m, tag, c, b.take 64, 1⟩] ∧
      vget u.fabric.peers m Peer.empty = { q with allow := q.allow - 1, owed := 0, sentAt := s.gtime } ∧ u.mem = s.mem)) ∧
  (∀ (s : State) (p : ProcId) (m a i : Nat), s.region a = .peer m →
    ((s.getCore p).pend.findIdx? (fun e => e.paid && !e.performed && e.addr == a)) = some i →
    let u := s.refusedFlit p a codePeerlost
    ((u.getCore p).pend.getD i noAccess).performed = true ∧ ((u.getCore p).pend.getD i noAccess).pieces = [] ∧ u.mem = s.mem) ∧
  (∀ (s : State) (m : Nat), m < 64 → (vget s.fabric.peers m Peer.empty).valid = true →
    vget (s.owe m).fabric.peers m Peer.empty = { vget s.fabric.peers m Peer.empty with owed := min 64 ((vget s.fabric.peers m Peer.empty).owed + 1) }) ∧
  (∀ (s : State) (src tag a : Nat) (l : List Byte), (∀ n o, s.region a ≠ .port n o) →
    ((s.wayFault a).isSome = true ∨ s.admitsTag tag a a = false ∨ s.unready a l.length = true) → s.landFlit src tag a l = s) ∧
  (∀ (x : EvPort) (s : State), ∃ u, exec (.fecReplay x) s = .next u ∧ u.mem = s.mem ∧ u.fabric = { s.fabric with
    flights := s.fabric.flights.map (fun f => { f with sends := f.sends + (if f.port = x.port then 1 else 0) })
    replays := s.fabric.replays + 1 }) ∧
  (∀ (x : EvPeer) (s : State), x.peer < 64 → (vget s.fabric.peers x.peer Peer.empty).valid = true → s.fabric.dark = none →
    let q := vget s.fabric.peers x.peer Peer.empty
    let allow := min 64 (q.allow + x.n)
    let left := (keepNewest x.peer (64 - allow) s.fabric.flights.reverse).reverse
    (x.n ≠ 0 → s.fabric.held = [] → exec (.allowanceReturn x) s = .next { s with fabric := { s.fabric with
      peers := vset s.fabric.peers x.peer { q with allow := allow }
      flights := left } }) ∧
    (∀ tag c b, x.n ≠ 0 → s.fabric.held = [(x.peer, tag, c, b)] → s.fabric.room q.port.toNat = true →
      ∃ u n, exec (.allowanceReturn x) s = .next u ∧ u.fabric.held = [] ∧ (vget u.fabric.peers x.peer Peer.empty).allow = allow - 1 ∧
        u.fabric.flights.getLast? = some ⟨q.port.toNat, n, x.peer, tag, c, b.take 64, 1⟩) ∧
    (x.n = 0 → q.owed ≠ 0 → q.sentAt + 256 ≤ s.gtime → exec (.allowanceReturn x) s = .next { s with fabric := { s.fabric with
      peers := vset s.fabric.peers x.peer { q with owed := 0, sentAt := s.gtime } } }) ∧
    (x.n = 0 → q.owed = 0 ∨ s.gtime < q.sentAt + 256 → exec (.allowanceReturn x) s = .next s)) ∧
  (∀ (x : EvTime) (s : State), s.boot.tripped = false → s.fabric.dark = none → lanesUp s.fabric.portmap s.fabric.down x.port = true → x.port < 16 →
    ∃ u, exec (.timestampExchange x) s = .next u ∧ s.gtime ≤ u.gtime ∧ u.gtime ≤ s.gtime + 10 ∧
      ((∀ m, m < s.modid.toNat → (vget s.fabric.peers m Peer.empty).valid = false) → u.gtime = s.gtime) ∧
      (s.gtime < s.fabric.slewAt + 10000 → u.gtime = s.gtime) ∧
      (x.port ∈ s.fabric.agree → x.far.natAbs ≤ 50 → u.boot.ready.getLsbD (32 + x.port) = true ∧ x.port ∉ u.fabric.agree))

/-- R433–R441: the starts and the steps of bring-up, whose attempts may fail. The model's choices: what a start message and a training carry
as operands (log entry 38), the clocks at power up (39) and what a failed attempt of the trust tile clears (56). -/
def Obligations.BringUp : Prop :=
  (∀ (e : EvNone) (s : State), exec (.powerOn e) s = .next s.coldStart) ∧
  (∀ (x : EvStart) (s : State), x.flags.getLsbD 1 = false → s.boot.recovery = false →
    exec (.startCold x) s = .next s.coldStart ∧
    exec (.startWarm x) s = .next (if s.staysWarm = true then s.warmStart (x.flags.getLsbD 0) else s.coldStart)) ∧
  (∀ (x : EvStart) (s : State), x.flags.getLsbD 1 = true → ∃ u, exec (.startCold x) s = .next u ∧ exec (.startWarm x) s = .next u ∧
    (if imageGood (s.hostImage x) = true then u.boot.slot = s.hostImage x ∧ u.boot.recovery = false
      else u.boot.slot = s.boot.slot ∧ u.boot.recovery = true)) ∧
  (∀ (x : EvStart) (s : State), x.imgaddr.toNat % 4096 = 0 → x.imgaddr.toNat + x.imglen.toNat ≤ 2 ^ 44 →
    s.hostImage x = s.getHost x.imgaddr.toNat x.imglen.toNat) ∧
  (∀ b, imageGood b = true → bytesNat b 0 4 = 0x57465454 ∧ bytesNat b 8 8 + 512 = b.length ∧ part b 0x50 64 = Config.sha512 (b.drop 512) ∧
    Config.verify Config.firmwareKey (part b 0 0x90) (part b 0x90 132) = true ∧ Config.sha512 Config.firmwareKey = Config.firmwareKeyHash) ∧
  (∀ s : State, let u := s.coldStart
    u.teams = [] ∧ u.objects = [] ∧ u.granules = [] ∧ u.journal = [] ∧ u.host = HostIf.empty ∧ u.fabric = Fabric.empty ∧ u.tiles = [] ∧
      u.gtime = s.gtime ∧ u.boot.slot = s.boot.slot ∧ u.boot.training = s.boot.training ∧ u.boot.recovery = !s.slotGood ∧
      (∀ i, i < 63 → u.boot.ready.getLsbD i = false) ∧ u.boot.ready.getLsbD 63 = s.boot.ready.getLsbD 63 ∧
      vget u.boot.mr 0 mrZero = (if s.slotGood = true then Config.sha512 (mrZero ++ s.slotDigest) else mrZero)) ∧
  (∀ (s : State) (b : Bool), let u := s.warmStart b
    u.teams = [] ∧ u.objects = s.objects ∧ u.granules = s.granules ∧ u.journal = s.journal ∧ u.host.sessions = [] ∧ u.host.operator = s.host.operator ∧
      u.boot.mr = s.boot.mr ∧ u.fabric.gen = s.fabric.gen ∧ u.gtime = s.gtime ∧ (∀ i, i < 63 → u.boot.ready.getLsbD i = false)) ∧
  (∀ (x : EvPower) (y : EvDigest) (e : EvAttempt) (s : State), s.boot.recovery = false → s.boot.starting = true → s.boot.tripped = false →
    1 ∈ s.boot.doneSteps →
    let fails (i : Instr) (n : Nat) : Prop := ∃ u, exec i s = .next u ∧ u.boot.tries n = s.boot.tries n + 1 ∧ u.boot.doneSteps = s.boot.doneSteps ∧
      (n ∈ u.boot.failedSteps ↔ n ∈ s.boot.failedSteps ∨ s.boot.tries n = 2)
    (2 ∉ s.boot.doneSteps → s.boot.tries 2 < 3 → (e.ok = true → ∃ u, exec (.hostPortTraining e) s = .next u ∧
      u.boot.ready.getLsbD 19 = s.host.rings.isSome ∧ 2 ∈ u.boot.doneSteps ∧ u.host = s.host) ∧ (e.ok = false → fails (.hostPortTraining e) 2)) ∧
    (3 ∉ s.boot.doneSteps → s.boot.tries 3 < 3 → (x.ok = true → ∃ u, exec (.powerManagerStart x) s = .next u ∧ u.boot.ready.getLsbD 20 = true ∧
      3 ∈ u.boot.doneSteps ∧ u.boot.railMv = x.mv.map (fun v => max 450 (min 550 v)) ∧ ∀ c, c < 64 → (u.getCluster c).clock = 15) ∧
      (x.ok = false → fails (.powerManagerStart x) 3)) ∧
    (4 ∉ s.boot.doneSteps → s.boot.tries 4 < 3 → (y.ok = true → ∃ u, exec (.trustTileStart y) s = .next u ∧ u.boot.ready.getLsbD 17 = true ∧
      4 ∈ u.boot.doneSteps ∧ (s.boot.warm = true → s.boot.tries 4 = 0 → u.boot.mr = s.boot.mr) ∧
      (s.boot.warm = false ∨ s.boot.tries 4 ≠ 0 → vget u.boot.mr 1 mrZero = Config.sha512 (vget s.boot.mr 1 mrZero ++ y.digest))) ∧
      (y.ok = false → fails (.trustTileStart y) 4 ∧ ∃ u, exec (.trustTileStart y) s = .next u ∧ u.host.operator = none ∧
        ∀ i, 0 < i → i < 8 → vget u.boot.mr i mrZero = mrZero)) ∧
    (8 ∉ s.boot.doneSteps → s.boot.tries 8 < 3 → 4 ∈ s.boot.doneSteps → (∀ k, k < 12 → 16 + k ∈ s.boot.doneSteps) →
      (e.ok = true → ∃ u, exec (.varpenStart e) s = .next u ∧ u.boot.ready.getLsbD 18 = true ∧ 8 ∈ u.boot.doneSteps ∧
        ∀ i, i < 0x2000 → u.owned ⟨0, 0, 0x5E000 + i⟩ 0 = true) ∧ (e.ok = false → fails (.varpenStart e) 8))) ∧
  (∀ (e : EvAttempt) (s : State), s.boot.recovery = true → ∃ u, exec (.hostPortTraining e) s = .next u ∧ u.boot.ready.getLsbD 19 = e.ok ∧
    u.boot.doneSteps = s.boot.doneSteps) ∧
  (∀ (x : EvTrain) (s : State) (i : Instr) (n u : Nat), (i = .hbmStackTraining x ∧ x.unit < 12 ∧ n = 16 + x.unit ∧ u = x.unit) ∨
      (i = .lpddrTraining x ∧ n = 32 ∧ u = 12) →
    s.boot.recovery = false → s.boot.starting = true → s.boot.tripped = false → 3 ∈ s.boot.doneSteps → n ∉ s.boot.doneSteps → s.boot.tries n < 3 →
    let skip := s.boot.skips n u x.sensors
    (skip = true → s.boot.warm = true ∧ s.boot.trainDigest = Config.sha512 (trainBytes s.boot.training) ∧
      ∃ t, exec i s = .next t ∧ t.boot.ready.getLsbD u = true ∧ t.mem = s.mem ∧ t.boot.training = s.boot.training) ∧
    (skip = false → x.ok = true → x.dead.length ≤ (if u < 12 then 1 else 0) →
      ∃ t, exec i s = .next t ∧ t.boot.ready.getLsbD u = true ∧ n ∈ t.boot.doneSteps ∧
      vget t.boot.training u TrainRec.empty = ⟨true, x.params, x.dead.head?, x.temp⟩ ∧ t.boot.trainDigest = Config.sha512 (trainBytes t.boot.training) ∧
      (s.boot.warm = false → ∀ c ∈ t.mem, s.inUnit u c.1 = false)) ∧
    (skip = false → x.ok = false ∨ (if u < 12 then 1 else 0) < x.dead.length → ∃ t, exec i s = .next t ∧ t.boot.tries n = s.boot.tries n + 1 ∧
      t.boot.doneSteps = s.boot.doneSteps ∧ (∀ c ∈ t.mem, s.inUnit u c.1 = false) ∧ (n ∈ t.boot.failedSteps ↔ n ∈ s.boot.failedSteps ∨ s.boot.tries n = 2))) ∧
  (∀ (x : EvDie) (s : State), x.die < 4 → s.boot.recovery = false → s.boot.starting = true → s.boot.tripped = false → 3 ∈ s.boot.doneSteps →
    48 + x.die ∉ s.boot.doneSteps → s.boot.tries (48 + x.die) < 3 →
    (x.ok = true → exec (.dieTraining x) s = .next (s.dieUp x)) ∧
    (x.ok = true → s.failing x = [] → ∃ t, exec (.dieTraining x) s = .next t ∧ t.boot.ready.getLsbD (13 + x.die) = true ∧
      48 + x.die ∈ t.boot.doneSteps ∧ t.boot.spares = s.boot.spares) ∧
    (x.ok = false → ∃ t, exec (.dieTraining x) s = .next t ∧ t.boot.tries (48 + x.die) = s.boot.tries (48 + x.die) + 1 ∧
      t.boot.doneSteps = s.boot.doneSteps))
end

