-- ==== Sys2Proof/Laws/Memory.lean ====
section
/-!
SUPPORT. Bytes of memory: what a written byte reads as, and the canonical form that every memory operation keeps.
-/
namespace Sys2Proof.Machine
open Sys2Proof

/-! ## The canonical form -/

theorem memWfFrom_weaken {lo lo' : Nat} (h : lo' ≤ lo) {m : List Host.Cell} (hm : memWfFrom lo m = true) : memWfFrom lo' m = true := by
  cases m with
  | nil => rfl
  | cons c r =>
    obtain ⟨a, x⟩ := c
    simp only [memWfFrom, Bool.and_eq_true, decide_eq_true_eq] at hm ⊢
    exact ⟨⟨h.trans hm.1.1, hm.1.2⟩, hm.2⟩

/-- What `memWfFrom` says of a list with a first cell. -/
theorem memWfFrom_cons (lo b : Nat) (y : Byte) (r : List Host.Cell) :
    memWfFrom lo ((b, y) :: r) = true ↔ lo ≤ b ∧ y ≠ 0 ∧ memWfFrom (b + 1) r = true := by
  simp only [memWfFrom, Bool.and_eq_true, decide_eq_true_eq, bne_iff_ne, and_assoc]

theorem memSet_wfFrom (m : List Host.Cell) (a : Nat) (x : Byte) : ∀ lo, lo ≤ a → memWfFrom lo m = true → memWfFrom lo (memSet m a x) = true := by
  induction m with
  | nil =>
    intro lo h _
    by_cases hx : x = 0
    · rw [memSet, if_pos hx]; rfl
    · rw [memSet, if_neg hx, memWfFrom_cons]; exact ⟨h, hx, rfl⟩
  | cons c r ih =>
    obtain ⟨b, y⟩ := c
    intro lo h hm
    obtain ⟨hb, hy, hr⟩ := (memWfFrom_cons lo b y r).1 hm
    by_cases hab : a < b
    · by_cases hx : x = 0
      · rw [memSet, if_pos hab, if_pos hx]; exact hm
      · rw [memSet, if_pos hab, if_neg hx, memWfFrom_cons, memWfFrom_cons]; exact ⟨h, hx, hab, hy, hr⟩
    · by_cases hba : b = a
      · by_cases hx : x = 0
        · rw [memSet, if_neg hab, if_pos hba, if_pos hx]; exact memWfFrom_weaken (by omega) hr
        · rw [memSet, if_neg hab, if_pos hba, if_neg hx, memWfFrom_cons]; exact ⟨h, hx, hba ▸ hr⟩
      · rw [memSet, if_neg hab, if_neg hba, memWfFrom_cons]
        exact ⟨hb, hy, ih (b + 1) (by omega) hr⟩

theorem memSet_wf {m : List Host.Cell} (a : Nat) (x : Byte) (hm : Memory.wf m = true) : Memory.wf (memSet m a x) = true :=
  memSet_wfFrom m a x 0 (Nat.zero_le a) hm

theorem memPut_wf (cells : List Host.Cell) {m : List Host.Cell} (hm : Memory.wf m = true) : Memory.wf (memPut m cells) = true := by
  induction cells generalizing m with
  | nil => exact hm
  | cons c r ih => exact ih (memSet_wf c.1 c.2 hm)

theorem filter_wfFrom (f : Host.Cell → Bool) (m : List Host.Cell) : ∀ lo, memWfFrom lo m = true → memWfFrom lo (m.filter f) = true := by
  induction m with
  | nil => intro _ h; exact h
  | cons c r ih =>
    obtain ⟨b, y⟩ := c
    intro lo hm
    simp only [memWfFrom, Bool.and_eq_true, decide_eq_true_eq] at hm
    by_cases hf : f (b, y) = true
    · rw [List.filter_cons_of_pos hf]
      simp only [memWfFrom, Bool.and_eq_true, decide_eq_true_eq]
      exact ⟨hm.1, ih _ hm.2⟩
    · rw [List.filter_cons_of_neg hf]
      exact memWfFrom_weaken (by omega) (ih _ hm.2)

theorem filter_wf (f : Host.Cell → Bool) {m : List Host.Cell} (hm : Memory.wf m = true) : Memory.wf (m.filter f) = true :=
  filter_wfFrom f m 0 hm
theorem dropCells_wf (a n : Nat) {m : List Host.Cell} (hm : Memory.wf m = true) : Memory.wf (dropCells m a n) = true := filter_wf _ hm

/-! ## Reading after writing -/

theorem memGet_of_lt {m : List Host.Cell} {lo a : Nat} (hm : memWfFrom lo m = true) (h : a < lo) : memGet m a = 0 := by
  cases m with
  | nil => rfl
  | cons c r =>
    obtain ⟨b, y⟩ := c
    simp only [memWfFrom, Bool.and_eq_true, decide_eq_true_eq] at hm
    simp [memGet, show a < b by omega]

theorem memGet_cons (a b : Nat) (x : Byte) (r : List Host.Cell) :
    memGet ((b, x) :: r) a = if a < b then 0 else if b = a then x else memGet r a := rfl

theorem memGet_memSet_from (m : List Host.Cell) (a b : Nat) (x : Byte) :
    ∀ lo, memWfFrom lo m = true → memGet (memSet m a x) b = if b = a then x else memGet m b := by
  induction m with
  | nil =>
    intro _ _
    by_cases hx : x = 0
    · rw [memSet, if_pos hx, hx]; split <;> rfl
    · rw [memSet, if_neg hx, memGet_cons]
      split_ifs <;> first | rfl | omega
  | cons c r ih =>
    obtain ⟨d, y⟩ := c
    intro lo hm
    obtain ⟨-, -, hr⟩ := (memWfFrom_cons lo d y r).1 hm
    by_cases had : a < d
    · by_cases hx : x = 0
      · rw [memSet, if_pos had, if_pos hx, hx, memGet_cons]
        split_ifs <;> first | rfl | omega
      · rw [memSet, if_pos had, if_neg hx]
        simp only [memGet_cons]
        split_ifs <;> first | rfl | omega
    · by_cases hda : d = a
      · by_cases hx : x = 0
        · rw [memSet, if_neg had, if_pos hda, if_pos hx, hx, memGet_cons]
          split_ifs <;> first | rfl | omega | exact memGet_of_lt hr (by omega)
        · rw [memSet, if_neg had, if_pos hda, if_neg hx]
          simp only [memGet_cons]
          split_ifs <;> first | rfl | omega
      · rw [memSet, if_neg had, if_neg hda]
        simp only [memGet_cons, ih _ hr]
        split_ifs <;> first | rfl | omega

/-- A byte reads as written, and every other byte as before. -/
theorem memGet_memSet {m : List Host.Cell} (hm : Memory.wf m = true) (a b : Nat) (x : Byte) :
    memGet (memSet m a x) b = if b = a then x else memGet m b := memGet_memSet_from m a b x 0 hm

/-- A byte that no written cell names reads as before. -/
theorem memGet_memPut_of_not_mem (cells : List Host.Cell) {m : List Host.Cell} (hm : Memory.wf m = true) (b : Nat)
    (hb : ∀ c ∈ cells, c.1 ≠ b) : memGet (memPut m cells) b = memGet m b := by
  induction cells generalizing m with
  | nil => rfl
  | cons c r ih =>
    have h1 := ih (memSet_wf c.1 c.2 hm) (fun d hd => hb d (List.mem_cons_of_mem c hd))
    have h2 : b ≠ c.1 := fun e => hb c (List.mem_cons_self) e.symm
    exact h1.trans (by rw [memGet_memSet hm]; simp [h2])

end Sys2Proof.Machine
end

