-- ==== Sys2Proof/Laws/Commands.lean ====
section
/-!
SUPPORT. What the shared operations of the host's commands do to memory: the journal's region, the save areas and the code heap keep the
canonical form, and what a publication can do (R347, R349, R385, R393).
-/
namespace Sys2Proof.Machine
open Sys2Proof

theorem State.keepJournal_memOk {s : State} (l : List Journal) (h : s.memOk = true) : (s.keepJournal l).memOk = true := by
  unfold State.memOk at *
  exact memPut_wf _ h
theorem State.closeJournal_memOk {s : State} (tag : Nat) (h : s.memOk = true) : (s.closeJournal tag).memOk = true := by
  unfold State.closeJournal
  split
  · exact State.keepJournal_memOk _ h
  · exact h
theorem State.saveCells_memOk {s : State} (a n : Nat) (cells : List Host.Cell) (h : s.memOk = true) : (s.saveCells a n cells).memOk = true := by
  unfold State.memOk at *
  exact memPut_wf _ h
theorem State.putHost_memOk {s : State} (a : Nat) (l : List Byte) (h : s.memOk = true) : (s.putHost a l).memOk = true := by
  unfold State.memOk at *
  exact memPut_wf _ h
@[simp] theorem State.putVersion_mem (s : State) (objid : Nat) (v : Sealed) : (s.putVersion objid v).mem = s.mem := rfl
@[simp] theorem State.putVersion_boot (s : State) (objid : Nat) (v : Sealed) : (s.putVersion objid v).boot = s.boot := rfl
theorem State.addVersion_memOk {s : State} (o : Obj) (v : Sealed) (h : s.memOk = true) : (s.addVersion o v).memOk = true := by
  unfold State.memOk State.addVersion at *
  simp only
  exact memPut_wf _ h
/-- What a publication does to memory: the function, its record and the gap after it, and, where they hold, the link-table word after them.
-/
theorem State.publish_mem (s : State) (objid : Nat) (v : Sealed) (link a : Nat) (region : Option (Nat × Nat)) (n : Native) :
    ∃ l l', (s.publish objid v link a region n).mem = memPut s.mem l ∨
      (s.publish objid v link a region n).mem = memPut (memPut s.mem l) l' := by
  refine ⟨cellsAt (a - 96) (withSeal (recordBody link n.words) ++ zeros 8) ++ cellsAt a (wordBytes n.words) ++
    nopGap (a + 8 * n.words.length), cellsOf (v.stub link) a 8, ?_⟩
  simp only [State.publish]
  split
  · right
    simp only [State.putVersion_mem]
  · left
    dsimp only
theorem State.publish_memOk {s : State} (objid : Nat) (v : Sealed) (link a : Nat) (region : Option (Nat × Nat)) (n : Native)
    (h : s.memOk = true) : (s.publish objid v link a region n).memOk = true := by
  obtain ⟨l, l', e | e⟩ := s.publish_mem objid v link a region n
  · rw [State.memOk, e]
    exact memPut_wf l h
  · rw [State.memOk, e]
    exact memPut_wf l' (memPut_wf l h)

end Sys2Proof.Machine
end

