-- ==== Sys2Proof/Laws/State.lean ====
section
/-!
SUPPORT. The fields of the state after each named update, and what a written register reads as (R58).
-/
namespace Sys2Proof.Machine
open Sys2Proof

/-! ## Fields an update leaves as they were -/

@[simp] theorem State.wrG_cur (s : State) (r : GReg) (x : Word) : (s.wrG r x).cur = s.cur := by unfold State.wrG; split <;> rfl
@[simp] theorem State.wrG_here (s : State) (r : GReg) (x : Word) : (s.wrG r x).here = s.here := by unfold State.wrG; split <;> rfl
@[simp] theorem State.wrG_tile (s : State) (r : GReg) (x : Word) : (s.wrG r x).tile = s.tile := by unfold State.wrG; split <;> rfl
@[simp] theorem State.wrG_cores (s : State) (r : GReg) (x : Word) : (s.wrG r x).cores = s.cores := by unfold State.wrG; split <;> rfl
@[simp] theorem State.wrG_tiles (s : State) (r : GReg) (x : Word) : (s.wrG r x).tiles = s.tiles := by unfold State.wrG; split <;> rfl
@[simp] theorem State.wrG_mem (s : State) (r : GReg) (x : Word) : (s.wrG r x).mem = s.mem := by unfold State.wrG; split <;> rfl
@[simp] theorem State.wrG_full (s : State) (r : GReg) (x : Word) : (s.wrG r x).full = s.full := by unfold State.wrG; split <;> rfl
@[simp] theorem State.wrG_bad (s : State) (r : GReg) (x : Word) : (s.wrG r x).bad = s.bad := by unfold State.wrG; split <;> rfl
@[simp] theorem State.wrG_queues (s : State) (r : GReg) (x : Word) : (s.wrG r x).queues = s.queues := by unfold State.wrG; split <;> rfl
@[simp] theorem State.wrG_homeAt (s : State) (r : GReg) (x : Word) : (s.wrG r x).homeAt = s.homeAt := by unfold State.wrG; split <;> rfl
@[simp] theorem State.wrG_clusters (s : State) (r : GReg) (x : Word) : (s.wrG r x).clusters = s.clusters := by unfold State.wrG; split <;> rfl
@[simp] theorem State.wrG_teams (s : State) (r : GReg) (x : Word) : (s.wrG r x).teams = s.teams := by unfold State.wrG; split <;> rfl
@[simp] theorem State.wrG_objects (s : State) (r : GReg) (x : Word) : (s.wrG r x).objects = s.objects := by unfold State.wrG; split <;> rfl
@[simp] theorem State.wrG_tenants (s : State) (r : GReg) (x : Word) : (s.wrG r x).tenants = s.tenants := by unfold State.wrG; split <;> rfl
@[simp] theorem State.wrG_granules (s : State) (r : GReg) (x : Word) : (s.wrG r x).granules = s.granules := by unfold State.wrG; split <;> rfl
@[simp] theorem State.wrG_dirty (s : State) (r : GReg) (x : Word) : (s.wrG r x).dirty = s.dirty := by unfold State.wrG; split <;> rfl
@[simp] theorem State.wrG_host (s : State) (r : GReg) (x : Word) : (s.wrG r x).host = s.host := by unfold State.wrG; split <;> rfl
@[simp] theorem State.wrG_journal (s : State) (r : GReg) (x : Word) : (s.wrG r x).journal = s.journal := by unfold State.wrG; split <;> rfl
@[simp] theorem State.wrG_fabric (s : State) (r : GReg) (x : Word) : (s.wrG r x).fabric = s.fabric := by unfold State.wrG; split <;> rfl
@[simp] theorem State.wrG_boot (s : State) (r : GReg) (x : Word) : (s.wrG r x).boot = s.boot := by unfold State.wrG; split <;> rfl
@[simp] theorem State.wrG_migrations (s : State) (r : GReg) (x : Word) : (s.wrG r x).migrations = s.migrations := by unfold State.wrG; split <;> rfl
@[simp] theorem State.wrG_modid (s : State) (r : GReg) (x : Word) : (s.wrG r x).modid = s.modid := by unfold State.wrG; split <;> rfl
@[simp] theorem State.wrG_cycle (s : State) (r : GReg) (x : Word) : (s.wrG r x).cycle = s.cycle := by unfold State.wrG; split <;> rfl
@[simp] theorem State.wrG_gtime (s : State) (r : GReg) (x : Word) : (s.wrG r x).gtime = s.gtime := by unfold State.wrG; split <;> rfl
@[simp] theorem State.wrG_firmware (s : State) (r : GReg) (x : Word) : (s.wrG r x).firmware = s.firmware := by unfold State.wrG; split <;> rfl
@[simp] theorem State.wrG_nextTeam (s : State) (r : GReg) (x : Word) : (s.wrG r x).nextTeam = s.nextTeam := by unfold State.wrG; split <;> rfl
@[simp] theorem State.wrG_nextObj (s : State) (r : GReg) (x : Word) : (s.wrG r x).nextObj = s.nextObj := by unfold State.wrG; split <;> rfl
@[simp] theorem State.wrG_free (s : State) (r : GReg) (x : Word) : (s.wrG r x).free = s.free := by unfold State.wrG; split <;> rfl
@[simp] theorem State.wrG_agenda (s : State) (r : GReg) (x : Word) : (s.wrG r x).agenda = s.agenda := by unfold State.wrG; split <;> rfl
@[simp] theorem State.wrG_eager (s : State) (r : GReg) (x : Word) : (s.wrG r x).eager = s.eager := by unfold State.wrG; split <;> rfl
@[simp] theorem State.wrA_cur (s : State) (r : AReg) (x : Word) : (s.wrA r x).cur = s.cur := rfl
@[simp] theorem State.wrA_here (s : State) (r : AReg) (x : Word) : (s.wrA r x).here = s.here := rfl
@[simp] theorem State.wrA_tile (s : State) (r : AReg) (x : Word) : (s.wrA r x).tile = s.tile := rfl
@[simp] theorem State.wrA_cores (s : State) (r : AReg) (x : Word) : (s.wrA r x).cores = s.cores := rfl
@[simp] theorem State.wrA_tiles (s : State) (r : AReg) (x : Word) : (s.wrA r x).tiles = s.tiles := rfl
@[simp] theorem State.wrA_mem (s : State) (r : AReg) (x : Word) : (s.wrA r x).mem = s.mem := rfl
@[simp] theorem State.wrA_full (s : State) (r : AReg) (x : Word) : (s.wrA r x).full = s.full := rfl
@[simp] theorem State.wrA_bad (s : State) (r : AReg) (x : Word) : (s.wrA r x).bad = s.bad := rfl
@[simp] theorem State.wrA_queues (s : State) (r : AReg) (x : Word) : (s.wrA r x).queues = s.queues := rfl
@[simp] theorem State.wrA_homeAt (s : State) (r : AReg) (x : Word) : (s.wrA r x).homeAt = s.homeAt := rfl
@[simp] theorem State.wrA_clusters (s : State) (r : AReg) (x : Word) : (s.wrA r x).clusters = s.clusters := rfl
@[simp] theorem State.wrA_teams (s : State) (r : AReg) (x : Word) : (s.wrA r x).teams = s.teams := rfl
@[simp] theorem State.wrA_objects (s : State) (r : AReg) (x : Word) : (s.wrA r x).objects = s.objects := rfl
@[simp] theorem State.wrA_tenants (s : State) (r : AReg) (x : Word) : (s.wrA r x).tenants = s.tenants := rfl
@[simp] theorem State.wrA_granules (s : State) (r : AReg) (x : Word) : (s.wrA r x).granules = s.granules := rfl
@[simp] theorem State.wrA_dirty (s : State) (r : AReg) (x : Word) : (s.wrA r x).dirty = s.dirty := rfl
@[simp] theorem State.wrA_host (s : State) (r : AReg) (x : Word) : (s.wrA r x).host = s.host := rfl
@[simp] theorem State.wrA_journal (s : State) (r : AReg) (x : Word) : (s.wrA r x).journal = s.journal := rfl
@[simp] theorem State.wrA_fabric (s : State) (r : AReg) (x : Word) : (s.wrA r x).fabric = s.fabric := rfl
@[simp] theorem State.wrA_boot (s : State) (r : AReg) (x : Word) : (s.wrA r x).boot = s.boot := rfl
@[simp] theorem State.wrA_migrations (s : State) (r : AReg) (x : Word) : (s.wrA r x).migrations = s.migrations := rfl
@[simp] theorem State.wrA_modid (s : State) (r : AReg) (x : Word) : (s.wrA r x).modid = s.modid := rfl
@[simp] theorem State.wrA_cycle (s : State) (r : AReg) (x : Word) : (s.wrA r x).cycle = s.cycle := rfl
@[simp] theorem State.wrA_gtime (s : State) (r : AReg) (x : Word) : (s.wrA r x).gtime = s.gtime := rfl
@[simp] theorem State.wrA_firmware (s : State) (r : AReg) (x : Word) : (s.wrA r x).firmware = s.firmware := rfl
@[simp] theorem State.wrA_nextTeam (s : State) (r : AReg) (x : Word) : (s.wrA r x).nextTeam = s.nextTeam := rfl
@[simp] theorem State.wrA_nextObj (s : State) (r : AReg) (x : Word) : (s.wrA r x).nextObj = s.nextObj := rfl
@[simp] theorem State.wrA_free (s : State) (r : AReg) (x : Word) : (s.wrA r x).free = s.free := rfl
@[simp] theorem State.wrA_agenda (s : State) (r : AReg) (x : Word) : (s.wrA r x).agenda = s.agenda := rfl
@[simp] theorem State.wrA_eager (s : State) (r : AReg) (x : Word) : (s.wrA r x).eager = s.eager := rfl
@[simp] theorem State.wrP_cur (s : State) (r : PReg) (x : Bool) : (s.wrP r x).cur = s.cur := by unfold State.wrP; split <;> rfl
@[simp] theorem State.wrP_here (s : State) (r : PReg) (x : Bool) : (s.wrP r x).here = s.here := by unfold State.wrP; split <;> rfl
@[simp] theorem State.wrP_tile (s : State) (r : PReg) (x : Bool) : (s.wrP r x).tile = s.tile := by unfold State.wrP; split <;> rfl
@[simp] theorem State.wrP_cores (s : State) (r : PReg) (x : Bool) : (s.wrP r x).cores = s.cores := by unfold State.wrP; split <;> rfl
@[simp] theorem State.wrP_tiles (s : State) (r : PReg) (x : Bool) : (s.wrP r x).tiles = s.tiles := by unfold State.wrP; split <;> rfl
@[simp] theorem State.wrP_mem (s : State) (r : PReg) (x : Bool) : (s.wrP r x).mem = s.mem := by unfold State.wrP; split <;> rfl
@[simp] theorem State.wrP_full (s : State) (r : PReg) (x : Bool) : (s.wrP r x).full = s.full := by unfold State.wrP; split <;> rfl
@[simp] theorem State.wrP_bad (s : State) (r : PReg) (x : Bool) : (s.wrP r x).bad = s.bad := by unfold State.wrP; split <;> rfl
@[simp] theorem State.wrP_queues (s : State) (r : PReg) (x : Bool) : (s.wrP r x).queues = s.queues := by unfold State.wrP; split <;> rfl
@[simp] theorem State.wrP_homeAt (s : State) (r : PReg) (x : Bool) : (s.wrP r x).homeAt = s.homeAt := by unfold State.wrP; split <;> rfl
@[simp] theorem State.wrP_clusters (s : State) (r : PReg) (x : Bool) : (s.wrP r x).clusters = s.clusters := by unfold State.wrP; split <;> rfl
@[simp] theorem State.wrP_teams (s : State) (r : PReg) (x : Bool) : (s.wrP r x).teams = s.teams := by unfold State.wrP; split <;> rfl
@[simp] theorem State.wrP_objects (s : State) (r : PReg) (x : Bool) : (s.wrP r x).objects = s.objects := by unfold State.wrP; split <;> rfl
@[simp] theorem State.wrP_tenants (s : State) (r : PReg) (x : Bool) : (s.wrP r x).tenants = s.tenants := by unfold State.wrP; split <;> rfl
@[simp] theorem State.wrP_granules (s : State) (r : PReg) (x : Bool) : (s.wrP r x).granules = s.granules := by unfold State.wrP; split <;> rfl
@[simp] theorem State.wrP_dirty (s : State) (r : PReg) (x : Bool) : (s.wrP r x).dirty = s.dirty := by unfold State.wrP; split <;> rfl
@[simp] theorem State.wrP_host (s : State) (r : PReg) (x : Bool) : (s.wrP r x).host = s.host := by unfold State.wrP; split <;> rfl
@[simp] theorem State.wrP_journal (s : State) (r : PReg) (x : Bool) : (s.wrP r x).journal = s.journal := by unfold State.wrP; split <;> rfl
@[simp] theorem State.wrP_fabric (s : State) (r : PReg) (x : Bool) : (s.wrP r x).fabric = s.fabric := by unfold State.wrP; split <;> rfl
@[simp] theorem State.wrP_boot (s : State) (r : PReg) (x : Bool) : (s.wrP r x).boot = s.boot := by unfold State.wrP; split <;> rfl
@[simp] theorem State.wrP_migrations (s : State) (r : PReg) (x : Bool) : (s.wrP r x).migrations = s.migrations := by unfold State.wrP; split <;> rfl
@[simp] theorem State.wrP_modid (s : State) (r : PReg) (x : Bool) : (s.wrP r x).modid = s.modid := by unfold State.wrP; split <;> rfl
@[simp] theorem State.wrP_cycle (s : State) (r : PReg) (x : Bool) : (s.wrP r x).cycle = s.cycle := by unfold State.wrP; split <;> rfl
@[simp] theorem State.wrP_gtime (s : State) (r : PReg) (x : Bool) : (s.wrP r x).gtime = s.gtime := by unfold State.wrP; split <;> rfl
@[simp] theorem State.wrP_firmware (s : State) (r : PReg) (x : Bool) : (s.wrP r x).firmware = s.firmware := by unfold State.wrP; split <;> rfl
@[simp] theorem State.wrP_nextTeam (s : State) (r : PReg) (x : Bool) : (s.wrP r x).nextTeam = s.nextTeam := by unfold State.wrP; split <;> rfl
@[simp] theorem State.wrP_nextObj (s : State) (r : PReg) (x : Bool) : (s.wrP r x).nextObj = s.nextObj := by unfold State.wrP; split <;> rfl
@[simp] theorem State.wrP_free (s : State) (r : PReg) (x : Bool) : (s.wrP r x).free = s.free := by unfold State.wrP; split <;> rfl
@[simp] theorem State.wrP_agenda (s : State) (r : PReg) (x : Bool) : (s.wrP r x).agenda = s.agenda := by unfold State.wrP; split <;> rfl
@[simp] theorem State.wrP_eager (s : State) (r : PReg) (x : Bool) : (s.wrP r x).eager = s.eager := by unfold State.wrP; split <;> rfl
@[simp] theorem State.wrW_cur (s : State) (r : WReg) (x : MaskWord) : (s.wrW r x).cur = s.cur := by unfold State.wrW; split <;> rfl
@[simp] theorem State.wrW_here (s : State) (r : WReg) (x : MaskWord) : (s.wrW r x).here = s.here := by unfold State.wrW; split <;> rfl
@[simp] theorem State.wrW_core (s : State) (r : WReg) (x : MaskWord) : (s.wrW r x).core = s.core := by unfold State.wrW; split <;> rfl
@[simp] theorem State.wrW_cores (s : State) (r : WReg) (x : MaskWord) : (s.wrW r x).cores = s.cores := by unfold State.wrW; split <;> rfl
@[simp] theorem State.wrW_tiles (s : State) (r : WReg) (x : MaskWord) : (s.wrW r x).tiles = s.tiles := by unfold State.wrW; split <;> rfl
@[simp] theorem State.wrW_mem (s : State) (r : WReg) (x : MaskWord) : (s.wrW r x).mem = s.mem := by unfold State.wrW; split <;> rfl
@[simp] theorem State.wrW_full (s : State) (r : WReg) (x : MaskWord) : (s.wrW r x).full = s.full := by unfold State.wrW; split <;> rfl
@[simp] theorem State.wrW_bad (s : State) (r : WReg) (x : MaskWord) : (s.wrW r x).bad = s.bad := by unfold State.wrW; split <;> rfl
@[simp] theorem State.wrW_queues (s : State) (r : WReg) (x : MaskWord) : (s.wrW r x).queues = s.queues := by unfold State.wrW; split <;> rfl
@[simp] theorem State.wrW_homeAt (s : State) (r : WReg) (x : MaskWord) : (s.wrW r x).homeAt = s.homeAt := by unfold State.wrW; split <;> rfl
@[simp] theorem State.wrW_clusters (s : State) (r : WReg) (x : MaskWord) : (s.wrW r x).clusters = s.clusters := by unfold State.wrW; split <;> rfl
@[simp] theorem State.wrW_teams (s : State) (r : WReg) (x : MaskWord) : (s.wrW r x).teams = s.teams := by unfold State.wrW; split <;> rfl
@[simp] theorem State.wrW_objects (s : State) (r : WReg) (x : MaskWord) : (s.wrW r x).objects = s.objects := by unfold State.wrW; split <;> rfl
@[simp] theorem State.wrW_tenants (s : State) (r : WReg) (x : MaskWord) : (s.wrW r x).tenants = s.tenants := by unfold State.wrW; split <;> rfl
@[simp] theorem State.wrW_granules (s : State) (r : WReg) (x : MaskWord) : (s.wrW r x).granules = s.granules := by unfold State.wrW; split <;> rfl
@[simp] theorem State.wrW_dirty (s : State) (r : WReg) (x : MaskWord) : (s.wrW r x).dirty = s.dirty := by unfold State.wrW; split <;> rfl
@[simp] theorem State.wrW_host (s : State) (r : WReg) (x : MaskWord) : (s.wrW r x).host = s.host := by unfold State.wrW; split <;> rfl
@[simp] theorem State.wrW_journal (s : State) (r : WReg) (x : MaskWord) : (s.wrW r x).journal = s.journal := by unfold State.wrW; split <;> rfl
@[simp] theorem State.wrW_fabric (s : State) (r : WReg) (x : MaskWord) : (s.wrW r x).fabric = s.fabric := by unfold State.wrW; split <;> rfl
@[simp] theorem State.wrW_boot (s : State) (r : WReg) (x : MaskWord) : (s.wrW r x).boot = s.boot := by unfold State.wrW; split <;> rfl
@[simp] theorem State.wrW_migrations (s : State) (r : WReg) (x : MaskWord) : (s.wrW r x).migrations = s.migrations := by unfold State.wrW; split <;> rfl
@[simp] theorem State.wrW_modid (s : State) (r : WReg) (x : MaskWord) : (s.wrW r x).modid = s.modid := by unfold State.wrW; split <;> rfl
@[simp] theorem State.wrW_cycle (s : State) (r : WReg) (x : MaskWord) : (s.wrW r x).cycle = s.cycle := by unfold State.wrW; split <;> rfl
@[simp] theorem State.wrW_gtime (s : State) (r : WReg) (x : MaskWord) : (s.wrW r x).gtime = s.gtime := by unfold State.wrW; split <;> rfl
@[simp] theorem State.wrW_firmware (s : State) (r : WReg) (x : MaskWord) : (s.wrW r x).firmware = s.firmware := by unfold State.wrW; split <;> rfl
@[simp] theorem State.wrW_nextTeam (s : State) (r : WReg) (x : MaskWord) : (s.wrW r x).nextTeam = s.nextTeam := by unfold State.wrW; split <;> rfl
@[simp] theorem State.wrW_nextObj (s : State) (r : WReg) (x : MaskWord) : (s.wrW r x).nextObj = s.nextObj := by unfold State.wrW; split <;> rfl
@[simp] theorem State.wrW_free (s : State) (r : WReg) (x : MaskWord) : (s.wrW r x).free = s.free := by unfold State.wrW; split <;> rfl
@[simp] theorem State.wrW_agenda (s : State) (r : WReg) (x : MaskWord) : (s.wrW r x).agenda = s.agenda := by unfold State.wrW; split <;> rfl
@[simp] theorem State.wrW_eager (s : State) (r : WReg) (x : MaskWord) : (s.wrW r x).eager = s.eager := by unfold State.wrW; split <;> rfl
@[simp] theorem State.wrV_cur (s : State) (r : VReg) (x : Vec) : (s.wrV r x).cur = s.cur := rfl
@[simp] theorem State.wrV_here (s : State) (r : VReg) (x : Vec) : (s.wrV r x).here = s.here := rfl
@[simp] theorem State.wrV_core (s : State) (r : VReg) (x : Vec) : (s.wrV r x).core = s.core := rfl
@[simp] theorem State.wrV_cores (s : State) (r : VReg) (x : Vec) : (s.wrV r x).cores = s.cores := rfl
@[simp] theorem State.wrV_tiles (s : State) (r : VReg) (x : Vec) : (s.wrV r x).tiles = s.tiles := rfl
@[simp] theorem State.wrV_mem (s : State) (r : VReg) (x : Vec) : (s.wrV r x).mem = s.mem := rfl
@[simp] theorem State.wrV_full (s : State) (r : VReg) (x : Vec) : (s.wrV r x).full = s.full := rfl
@[simp] theorem State.wrV_bad (s : State) (r : VReg) (x : Vec) : (s.wrV r x).bad = s.bad := rfl
@[simp] theorem State.wrV_queues (s : State) (r : VReg) (x : Vec) : (s.wrV r x).queues = s.queues := rfl
@[simp] theorem State.wrV_homeAt (s : State) (r : VReg) (x : Vec) : (s.wrV r x).homeAt = s.homeAt := rfl
@[simp] theorem State.wrV_clusters (s : State) (r : VReg) (x : Vec) : (s.wrV r x).clusters = s.clusters := rfl
@[simp] theorem State.wrV_teams (s : State) (r : VReg) (x : Vec) : (s.wrV r x).teams = s.teams := rfl
@[simp] theorem State.wrV_objects (s : State) (r : VReg) (x : Vec) : (s.wrV r x).objects = s.objects := rfl
@[simp] theorem State.wrV_tenants (s : State) (r : VReg) (x : Vec) : (s.wrV r x).tenants = s.tenants := rfl
@[simp] theorem State.wrV_granules (s : State) (r : VReg) (x : Vec) : (s.wrV r x).granules = s.granules := rfl
@[simp] theorem State.wrV_dirty (s : State) (r : VReg) (x : Vec) : (s.wrV r x).dirty = s.dirty := rfl
@[simp] theorem State.wrV_host (s : State) (r : VReg) (x : Vec) : (s.wrV r x).host = s.host := rfl
@[simp] theorem State.wrV_journal (s : State) (r : VReg) (x : Vec) : (s.wrV r x).journal = s.journal := rfl
@[simp] theorem State.wrV_fabric (s : State) (r : VReg) (x : Vec) : (s.wrV r x).fabric = s.fabric := rfl
@[simp] theorem State.wrV_boot (s : State) (r : VReg) (x : Vec) : (s.wrV r x).boot = s.boot := rfl
@[simp] theorem State.wrV_migrations (s : State) (r : VReg) (x : Vec) : (s.wrV r x).migrations = s.migrations := rfl
@[simp] theorem State.wrV_modid (s : State) (r : VReg) (x : Vec) : (s.wrV r x).modid = s.modid := rfl
@[simp] theorem State.wrV_cycle (s : State) (r : VReg) (x : Vec) : (s.wrV r x).cycle = s.cycle := rfl
@[simp] theorem State.wrV_gtime (s : State) (r : VReg) (x : Vec) : (s.wrV r x).gtime = s.gtime := rfl
@[simp] theorem State.wrV_firmware (s : State) (r : VReg) (x : Vec) : (s.wrV r x).firmware = s.firmware := rfl
@[simp] theorem State.wrV_nextTeam (s : State) (r : VReg) (x : Vec) : (s.wrV r x).nextTeam = s.nextTeam := rfl
@[simp] theorem State.wrV_nextObj (s : State) (r : VReg) (x : Vec) : (s.wrV r x).nextObj = s.nextObj := rfl
@[simp] theorem State.wrV_free (s : State) (r : VReg) (x : Vec) : (s.wrV r x).free = s.free := rfl
@[simp] theorem State.wrV_agenda (s : State) (r : VReg) (x : Vec) : (s.wrV r x).agenda = s.agenda := rfl
@[simp] theorem State.wrV_eager (s : State) (r : VReg) (x : Vec) : (s.wrV r x).eager = s.eager := rfl
@[simp] theorem State.count_cur (s : State) (c k n : Nat) : (s.count c k n).cur = s.cur := rfl
@[simp] theorem State.count_here (s : State) (c k n : Nat) : (s.count c k n).here = s.here := rfl
@[simp] theorem State.count_core (s : State) (c k n : Nat) : (s.count c k n).core = s.core := rfl
@[simp] theorem State.count_cores (s : State) (c k n : Nat) : (s.count c k n).cores = s.cores := rfl
@[simp] theorem State.count_tiles (s : State) (c k n : Nat) : (s.count c k n).tiles = s.tiles := rfl
@[simp] theorem State.count_mem (s : State) (c k n : Nat) : (s.count c k n).mem = s.mem := rfl
@[simp] theorem State.count_full (s : State) (c k n : Nat) : (s.count c k n).full = s.full := rfl
@[simp] theorem State.count_bad (s : State) (c k n : Nat) : (s.count c k n).bad = s.bad := rfl
@[simp] theorem State.count_queues (s : State) (c k n : Nat) : (s.count c k n).queues = s.queues := rfl
@[simp] theorem State.count_homeAt (s : State) (c k n : Nat) : (s.count c k n).homeAt = s.homeAt := rfl
@[simp] theorem State.count_clusters (s : State) (c k n : Nat) : (s.count c k n).clusters = s.clusters := rfl
@[simp] theorem State.count_teams (s : State) (c k n : Nat) : (s.count c k n).teams = s.teams := rfl
@[simp] theorem State.count_objects (s : State) (c k n : Nat) : (s.count c k n).objects = s.objects := rfl
@[simp] theorem State.count_tenants (s : State) (c k n : Nat) : (s.count c k n).tenants = s.tenants := rfl
@[simp] theorem State.count_granules (s : State) (c k n : Nat) : (s.count c k n).granules = s.granules := rfl
@[simp] theorem State.count_dirty (s : State) (c k n : Nat) : (s.count c k n).dirty = s.dirty := rfl
@[simp] theorem State.count_host (s : State) (c k n : Nat) : (s.count c k n).host = s.host := rfl
@[simp] theorem State.count_journal (s : State) (c k n : Nat) : (s.count c k n).journal = s.journal := rfl
@[simp] theorem State.count_fabric (s : State) (c k n : Nat) : (s.count c k n).fabric = s.fabric := rfl
@[simp] theorem State.count_boot (s : State) (c k n : Nat) : (s.count c k n).boot = s.boot := rfl
@[simp] theorem State.count_migrations (s : State) (c k n : Nat) : (s.count c k n).migrations = s.migrations := rfl
@[simp] theorem State.count_modid (s : State) (c k n : Nat) : (s.count c k n).modid = s.modid := rfl
@[simp] theorem State.count_cycle (s : State) (c k n : Nat) : (s.count c k n).cycle = s.cycle := rfl
@[simp] theorem State.count_gtime (s : State) (c k n : Nat) : (s.count c k n).gtime = s.gtime := rfl
@[simp] theorem State.count_firmware (s : State) (c k n : Nat) : (s.count c k n).firmware = s.firmware := rfl
@[simp] theorem State.count_nextTeam (s : State) (c k n : Nat) : (s.count c k n).nextTeam = s.nextTeam := rfl
@[simp] theorem State.count_nextObj (s : State) (c k n : Nat) : (s.count c k n).nextObj = s.nextObj := rfl
@[simp] theorem State.count_free (s : State) (c k n : Nat) : (s.count c k n).free = s.free := rfl
@[simp] theorem State.count_agenda (s : State) (c k n : Nat) : (s.count c k n).agenda = s.agenda := rfl
@[simp] theorem State.count_eager (s : State) (c k n : Nat) : (s.count c k n).eager = s.eager := rfl
@[simp] theorem State.setCore_cur (s : State) (p : ProcId) (c : Core) : (s.setCore p c).cur = s.cur := by unfold State.setCore; split <;> rfl
@[simp] theorem State.setCore_here (s : State) (p : ProcId) (c : Core) : (s.setCore p c).here = s.here := by unfold State.setCore; split <;> rfl
@[simp] theorem State.setCore_tile (s : State) (p : ProcId) (c : Core) : (s.setCore p c).tile = s.tile := by unfold State.setCore; split <;> rfl
@[simp] theorem State.setCore_tiles (s : State) (p : ProcId) (c : Core) : (s.setCore p c).tiles = s.tiles := by unfold State.setCore; split <;> rfl
@[simp] theorem State.setCore_mem (s : State) (p : ProcId) (c : Core) : (s.setCore p c).mem = s.mem := by unfold State.setCore; split <;> rfl
@[simp] theorem State.setCore_full (s : State) (p : ProcId) (c : Core) : (s.setCore p c).full = s.full := by unfold State.setCore; split <;> rfl
@[simp] theorem State.setCore_bad (s : State) (p : ProcId) (c : Core) : (s.setCore p c).bad = s.bad := by unfold State.setCore; split <;> rfl
@[simp] theorem State.setCore_queues (s : State) (p : ProcId) (c : Core) : (s.setCore p c).queues = s.queues := by unfold State.setCore; split <;> rfl
@[simp] theorem State.setCore_homeAt (s : State) (p : ProcId) (c : Core) : (s.setCore p c).homeAt = s.homeAt := by unfold State.setCore; split <;> rfl
@[simp] theorem State.setCore_clusters (s : State) (p : ProcId) (c : Core) : (s.setCore p c).clusters = s.clusters := by unfold State.setCore; split <;> rfl
@[simp] theorem State.setCore_teams (s : State) (p : ProcId) (c : Core) : (s.setCore p c).teams = s.teams := by unfold State.setCore; split <;> rfl
@[simp] theorem State.setCore_objects (s : State) (p : ProcId) (c : Core) : (s.setCore p c).objects = s.objects := by unfold State.setCore; split <;> rfl
@[simp] theorem State.setCore_tenants (s : State) (p : ProcId) (c : Core) : (s.setCore p c).tenants = s.tenants := by unfold State.setCore; split <;> rfl
@[simp] theorem State.setCore_granules (s : State) (p : ProcId) (c : Core) : (s.setCore p c).granules = s.granules := by unfold State.setCore; split <;> rfl
@[simp] theorem State.setCore_dirty (s : State) (p : ProcId) (c : Core) : (s.setCore p c).dirty = s.dirty := by unfold State.setCore; split <;> rfl
@[simp] theorem State.setCore_host (s : State) (p : ProcId) (c : Core) : (s.setCore p c).host = s.host := by unfold State.setCore; split <;> rfl
@[simp] theorem State.setCore_journal (s : State) (p : ProcId) (c : Core) : (s.setCore p c).journal = s.journal := by unfold State.setCore; split <;> rfl
@[simp] theorem State.setCore_fabric (s : State) (p : ProcId) (c : Core) : (s.setCore p c).fabric = s.fabric := by unfold State.setCore; split <;> rfl
@[simp] theorem State.setCore_boot (s : State) (p : ProcId) (c : Core) : (s.setCore p c).boot = s.boot := by unfold State.setCore; split <;> rfl
@[simp] theorem State.setCore_migrations (s : State) (p : ProcId) (c : Core) : (s.setCore p c).migrations = s.migrations := by unfold State.setCore; split <;> rfl
@[simp] theorem State.setCore_modid (s : State) (p : ProcId) (c : Core) : (s.setCore p c).modid = s.modid := by unfold State.setCore; split <;> rfl
@[simp] theorem State.setCore_cycle (s : State) (p : ProcId) (c : Core) : (s.setCore p c).cycle = s.cycle := by unfold State.setCore; split <;> rfl
@[simp] theorem State.setCore_gtime (s : State) (p : ProcId) (c : Core) : (s.setCore p c).gtime = s.gtime := by unfold State.setCore; split <;> rfl
@[simp] theorem State.setCore_firmware (s : State) (p : ProcId) (c : Core) : (s.setCore p c).firmware = s.firmware := by unfold State.setCore; split <;> rfl
@[simp] theorem State.setCore_nextTeam (s : State) (p : ProcId) (c : Core) : (s.setCore p c).nextTeam = s.nextTeam := by unfold State.setCore; split <;> rfl
@[simp] theorem State.setCore_nextObj (s : State) (p : ProcId) (c : Core) : (s.setCore p c).nextObj = s.nextObj := by unfold State.setCore; split <;> rfl
@[simp] theorem State.setCore_free (s : State) (p : ProcId) (c : Core) : (s.setCore p c).free = s.free := by unfold State.setCore; split <;> rfl
@[simp] theorem State.setCore_agenda (s : State) (p : ProcId) (c : Core) : (s.setCore p c).agenda = s.agenda := by unfold State.setCore; split <;> rfl
@[simp] theorem State.setCore_eager (s : State) (p : ProcId) (c : Core) : (s.setCore p c).eager = s.eager := by unfold State.setCore; split <;> rfl
@[simp] theorem State.setTile_cur (s : State) (n : Nat) (t : Tile) : (s.setTile n t).cur = s.cur := by unfold State.setTile; split <;> rfl
@[simp] theorem State.setTile_here (s : State) (n : Nat) (t : Tile) : (s.setTile n t).here = s.here := by unfold State.setTile; split <;> rfl
@[simp] theorem State.setTile_core (s : State) (n : Nat) (t : Tile) : (s.setTile n t).core = s.core := by unfold State.setTile; split <;> rfl
@[simp] theorem State.setTile_cores (s : State) (n : Nat) (t : Tile) : (s.setTile n t).cores = s.cores := by unfold State.setTile; split <;> rfl
@[simp] theorem State.setTile_mem (s : State) (n : Nat) (t : Tile) : (s.setTile n t).mem = s.mem := by unfold State.setTile; split <;> rfl
@[simp] theorem State.setTile_full (s : State) (n : Nat) (t : Tile) : (s.setTile n t).full = s.full := by unfold State.setTile; split <;> rfl
@[simp] theorem State.setTile_bad (s : State) (n : Nat) (t : Tile) : (s.setTile n t).bad = s.bad := by unfold State.setTile; split <;> rfl
@[simp] theorem State.setTile_queues (s : State) (n : Nat) (t : Tile) : (s.setTile n t).queues = s.queues := by unfold State.setTile; split <;> rfl
@[simp] theorem State.setTile_homeAt (s : State) (n : Nat) (t : Tile) : (s.setTile n t).homeAt = s.homeAt := by unfold State.setTile; split <;> rfl
@[simp] theorem State.setTile_clusters (s : State) (n : Nat) (t : Tile) : (s.setTile n t).clusters = s.clusters := by unfold State.setTile; split <;> rfl
@[simp] theorem State.setTile_teams (s : State) (n : Nat) (t : Tile) : (s.setTile n t).teams = s.teams := by unfold State.setTile; split <;> rfl
@[simp] theorem State.setTile_objects (s : State) (n : Nat) (t : Tile) : (s.setTile n t).objects = s.objects := by unfold State.setTile; split <;> rfl
@[simp] theorem State.setTile_tenants (s : State) (n : Nat) (t : Tile) : (s.setTile n t).tenants = s.tenants := by unfold State.setTile; split <;> rfl
@[simp] theorem State.setTile_granules (s : State) (n : Nat) (t : Tile) : (s.setTile n t).granules = s.granules := by unfold State.setTile; split <;> rfl
@[simp] theorem State.setTile_dirty (s : State) (n : Nat) (t : Tile) : (s.setTile n t).dirty = s.dirty := by unfold State.setTile; split <;> rfl
@[simp] theorem State.setTile_host (s : State) (n : Nat) (t : Tile) : (s.setTile n t).host = s.host := by unfold State.setTile; split <;> rfl
@[simp] theorem State.setTile_journal (s : State) (n : Nat) (t : Tile) : (s.setTile n t).journal = s.journal := by unfold State.setTile; split <;> rfl
@[simp] theorem State.setTile_fabric (s : State) (n : Nat) (t : Tile) : (s.setTile n t).fabric = s.fabric := by unfold State.setTile; split <;> rfl
@[simp] theorem State.setTile_boot (s : State) (n : Nat) (t : Tile) : (s.setTile n t).boot = s.boot := by unfold State.setTile; split <;> rfl
@[simp] theorem State.setTile_migrations (s : State) (n : Nat) (t : Tile) : (s.setTile n t).migrations = s.migrations := by unfold State.setTile; split <;> rfl
@[simp] theorem State.setTile_modid (s : State) (n : Nat) (t : Tile) : (s.setTile n t).modid = s.modid := by unfold State.setTile; split <;> rfl
@[simp] theorem State.setTile_cycle (s : State) (n : Nat) (t : Tile) : (s.setTile n t).cycle = s.cycle := by unfold State.setTile; split <;> rfl
@[simp] theorem State.setTile_gtime (s : State) (n : Nat) (t : Tile) : (s.setTile n t).gtime = s.gtime := by unfold State.setTile; split <;> rfl
@[simp] theorem State.setTile_firmware (s : State) (n : Nat) (t : Tile) : (s.setTile n t).firmware = s.firmware := by unfold State.setTile; split <;> rfl
@[simp] theorem State.setTile_nextTeam (s : State) (n : Nat) (t : Tile) : (s.setTile n t).nextTeam = s.nextTeam := by unfold State.setTile; split <;> rfl
@[simp] theorem State.setTile_nextObj (s : State) (n : Nat) (t : Tile) : (s.setTile n t).nextObj = s.nextObj := by unfold State.setTile; split <;> rfl
@[simp] theorem State.setTile_free (s : State) (n : Nat) (t : Tile) : (s.setTile n t).free = s.free := by unfold State.setTile; split <;> rfl
@[simp] theorem State.setTile_agenda (s : State) (n : Nat) (t : Tile) : (s.setTile n t).agenda = s.agenda := by unfold State.setTile; split <;> rfl
@[simp] theorem State.setTile_eager (s : State) (n : Nat) (t : Tile) : (s.setTile n t).eager = s.eager := by unfold State.setTile; split <;> rfl
@[simp] theorem State.setCluster_cur (s : State) (n : Nat) (c : Cluster) : (s.setCluster n c).cur = s.cur := rfl
@[simp] theorem State.setCluster_here (s : State) (n : Nat) (c : Cluster) : (s.setCluster n c).here = s.here := rfl
@[simp] theorem State.setCluster_core (s : State) (n : Nat) (c : Cluster) : (s.setCluster n c).core = s.core := rfl
@[simp] theorem State.setCluster_tile (s : State) (n : Nat) (c : Cluster) : (s.setCluster n c).tile = s.tile := rfl
@[simp] theorem State.setCluster_cores (s : State) (n : Nat) (c : Cluster) : (s.setCluster n c).cores = s.cores := rfl
@[simp] theorem State.setCluster_tiles (s : State) (n : Nat) (c : Cluster) : (s.setCluster n c).tiles = s.tiles := rfl
@[simp] theorem State.setCluster_mem (s : State) (n : Nat) (c : Cluster) : (s.setCluster n c).mem = s.mem := rfl
@[simp] theorem State.setCluster_full (s : State) (n : Nat) (c : Cluster) : (s.setCluster n c).full = s.full := rfl
@[simp] theorem State.setCluster_bad (s : State) (n : Nat) (c : Cluster) : (s.setCluster n c).bad = s.bad := rfl
@[simp] theorem State.setCluster_queues (s : State) (n : Nat) (c : Cluster) : (s.setCluster n c).queues = s.queues := rfl
@[simp] theorem State.setCluster_homeAt (s : State) (n : Nat) (c : Cluster) : (s.setCluster n c).homeAt = s.homeAt := rfl
@[simp] theorem State.setCluster_teams (s : State) (n : Nat) (c : Cluster) : (s.setCluster n c).teams = s.teams := rfl
@[simp] theorem State.setCluster_objects (s : State) (n : Nat) (c : Cluster) : (s.setCluster n c).objects = s.objects := rfl
@[simp] theorem State.setCluster_tenants (s : State) (n : Nat) (c : Cluster) : (s.setCluster n c).tenants = s.tenants := rfl
@[simp] theorem State.setCluster_granules (s : State) (n : Nat) (c : Cluster) : (s.setCluster n c).granules = s.granules := rfl
@[simp] theorem State.setCluster_dirty (s : State) (n : Nat) (c : Cluster) : (s.setCluster n c).dirty = s.dirty := rfl
@[simp] theorem State.setCluster_host (s : State) (n : Nat) (c : Cluster) : (s.setCluster n c).host = s.host := rfl
@[simp] theorem State.setCluster_journal (s : State) (n : Nat) (c : Cluster) : (s.setCluster n c).journal = s.journal := rfl
@[simp] theorem State.setCluster_fabric (s : State) (n : Nat) (c : Cluster) : (s.setCluster n c).fabric = s.fabric := rfl
@[simp] theorem State.setCluster_boot (s : State) (n : Nat) (c : Cluster) : (s.setCluster n c).boot = s.boot := rfl
@[simp] theorem State.setCluster_migrations (s : State) (n : Nat) (c : Cluster) : (s.setCluster n c).migrations = s.migrations := rfl
@[simp] theorem State.setCluster_modid (s : State) (n : Nat) (c : Cluster) : (s.setCluster n c).modid = s.modid := rfl
@[simp] theorem State.setCluster_cycle (s : State) (n : Nat) (c : Cluster) : (s.setCluster n c).cycle = s.cycle := rfl
@[simp] theorem State.setCluster_gtime (s : State) (n : Nat) (c : Cluster) : (s.setCluster n c).gtime = s.gtime := rfl
@[simp] theorem State.setCluster_firmware (s : State) (n : Nat) (c : Cluster) : (s.setCluster n c).firmware = s.firmware := rfl
@[simp] theorem State.setCluster_nextTeam (s : State) (n : Nat) (c : Cluster) : (s.setCluster n c).nextTeam = s.nextTeam := rfl
@[simp] theorem State.setCluster_nextObj (s : State) (n : Nat) (c : Cluster) : (s.setCluster n c).nextObj = s.nextObj := rfl
@[simp] theorem State.setCluster_free (s : State) (n : Nat) (c : Cluster) : (s.setCluster n c).free = s.free := rfl
@[simp] theorem State.setCluster_agenda (s : State) (n : Nat) (c : Cluster) : (s.setCluster n c).agenda = s.agenda := rfl
@[simp] theorem State.setCluster_eager (s : State) (n : Nat) (c : Cluster) : (s.setCluster n c).eager = s.eager := rfl
@[simp] theorem State.putTeam_cur (s : State) (t : Team) : (s.putTeam t).cur = s.cur := rfl
@[simp] theorem State.putTeam_here (s : State) (t : Team) : (s.putTeam t).here = s.here := rfl
@[simp] theorem State.putTeam_core (s : State) (t : Team) : (s.putTeam t).core = s.core := rfl
@[simp] theorem State.putTeam_tile (s : State) (t : Team) : (s.putTeam t).tile = s.tile := rfl
@[simp] theorem State.putTeam_cores (s : State) (t : Team) : (s.putTeam t).cores = s.cores := rfl
@[simp] theorem State.putTeam_tiles (s : State) (t : Team) : (s.putTeam t).tiles = s.tiles := rfl
@[simp] theorem State.putTeam_mem (s : State) (t : Team) : (s.putTeam t).mem = s.mem := rfl
@[simp] theorem State.putTeam_full (s : State) (t : Team) : (s.putTeam t).full = s.full := rfl
@[simp] theorem State.putTeam_bad (s : State) (t : Team) : (s.putTeam t).bad = s.bad := rfl
@[simp] theorem State.putTeam_queues (s : State) (t : Team) : (s.putTeam t).queues = s.queues := rfl
@[simp] theorem State.putTeam_homeAt (s : State) (t : Team) : (s.putTeam t).homeAt = s.homeAt := rfl
@[simp] theorem State.putTeam_clusters (s : State) (t : Team) : (s.putTeam t).clusters = s.clusters := rfl
@[simp] theorem State.putTeam_objects (s : State) (t : Team) : (s.putTeam t).objects = s.objects := rfl
@[simp] theorem State.putTeam_tenants (s : State) (t : Team) : (s.putTeam t).tenants = s.tenants := rfl
@[simp] theorem State.putTeam_granules (s : State) (t : Team) : (s.putTeam t).granules = s.granules := rfl
@[simp] theorem State.putTeam_dirty (s : State) (t : Team) : (s.putTeam t).dirty = s.dirty := rfl
@[simp] theorem State.putTeam_host (s : State) (t : Team) : (s.putTeam t).host = s.host := rfl
@[simp] theorem State.putTeam_journal (s : State) (t : Team) : (s.putTeam t).journal = s.journal := rfl
@[simp] theorem State.putTeam_fabric (s : State) (t : Team) : (s.putTeam t).fabric = s.fabric := rfl
@[simp] theorem State.putTeam_boot (s : State) (t : Team) : (s.putTeam t).boot = s.boot := rfl
@[simp] theorem State.putTeam_migrations (s : State) (t : Team) : (s.putTeam t).migrations = s.migrations := rfl
@[simp] theorem State.putTeam_modid (s : State) (t : Team) : (s.putTeam t).modid = s.modid := rfl
@[simp] theorem State.putTeam_cycle (s : State) (t : Team) : (s.putTeam t).cycle = s.cycle := rfl
@[simp] theorem State.putTeam_gtime (s : State) (t : Team) : (s.putTeam t).gtime = s.gtime := rfl
@[simp] theorem State.putTeam_firmware (s : State) (t : Team) : (s.putTeam t).firmware = s.firmware := rfl
@[simp] theorem State.putTeam_nextTeam (s : State) (t : Team) : (s.putTeam t).nextTeam = s.nextTeam := rfl
@[simp] theorem State.putTeam_nextObj (s : State) (t : Team) : (s.putTeam t).nextObj = s.nextObj := rfl
@[simp] theorem State.putTeam_free (s : State) (t : Team) : (s.putTeam t).free = s.free := rfl
@[simp] theorem State.putTeam_agenda (s : State) (t : Team) : (s.putTeam t).agenda = s.agenda := rfl
@[simp] theorem State.putTeam_eager (s : State) (t : Team) : (s.putTeam t).eager = s.eager := rfl
@[simp] theorem State.teamProgress_cur (s : State) (n : Nat) (c : Bool) : (s.teamProgress n c).cur = s.cur := by unfold State.teamProgress; split <;> rfl
@[simp] theorem State.progress_cur (s : State) : (s.progress).cur = s.cur := State.teamProgress_cur _ _ _
@[simp] theorem State.teamProgress_here (s : State) (n : Nat) (c : Bool) : (s.teamProgress n c).here = s.here := by unfold State.teamProgress; split <;> rfl
@[simp] theorem State.progress_here (s : State) : (s.progress).here = s.here := State.teamProgress_here _ _ _
@[simp] theorem State.teamProgress_core (s : State) (n : Nat) (c : Bool) : (s.teamProgress n c).core = s.core := by unfold State.teamProgress; split <;> rfl
@[simp] theorem State.progress_core (s : State) : (s.progress).core = s.core := State.teamProgress_core _ _ _
@[simp] theorem State.teamProgress_cores (s : State) (n : Nat) (c : Bool) : (s.teamProgress n c).cores = s.cores := by unfold State.teamProgress; split <;> rfl
@[simp] theorem State.progress_cores (s : State) : (s.progress).cores = s.cores := State.teamProgress_cores _ _ _
@[simp] theorem State.teamProgress_tiles (s : State) (n : Nat) (c : Bool) : (s.teamProgress n c).tiles = s.tiles := by unfold State.teamProgress; split <;> rfl
@[simp] theorem State.progress_tiles (s : State) : (s.progress).tiles = s.tiles := State.teamProgress_tiles _ _ _
@[simp] theorem State.teamProgress_mem (s : State) (n : Nat) (c : Bool) : (s.teamProgress n c).mem = s.mem := by unfold State.teamProgress; split <;> rfl
@[simp] theorem State.progress_mem (s : State) : (s.progress).mem = s.mem := State.teamProgress_mem _ _ _
@[simp] theorem State.teamProgress_full (s : State) (n : Nat) (c : Bool) : (s.teamProgress n c).full = s.full := by unfold State.teamProgress; split <;> rfl
@[simp] theorem State.progress_full (s : State) : (s.progress).full = s.full := State.teamProgress_full _ _ _
@[simp] theorem State.teamProgress_bad (s : State) (n : Nat) (c : Bool) : (s.teamProgress n c).bad = s.bad := by unfold State.teamProgress; split <;> rfl
@[simp] theorem State.progress_bad (s : State) : (s.progress).bad = s.bad := State.teamProgress_bad _ _ _
@[simp] theorem State.teamProgress_queues (s : State) (n : Nat) (c : Bool) : (s.teamProgress n c).queues = s.queues := by unfold State.teamProgress; split <;> rfl
@[simp] theorem State.teamProgress_homeAt (s : State) (n : Nat) (c : Bool) : (s.teamProgress n c).homeAt = s.homeAt := by unfold State.teamProgress; split <;> rfl
@[simp] theorem State.progress_queues (s : State) : (s.progress).queues = s.queues := State.teamProgress_queues _ _ _
@[simp] theorem State.progress_homeAt (s : State) : (s.progress).homeAt = s.homeAt := State.teamProgress_homeAt _ _ _
@[simp] theorem State.teamProgress_clusters (s : State) (n : Nat) (c : Bool) : (s.teamProgress n c).clusters = s.clusters := by unfold State.teamProgress; split <;> rfl
@[simp] theorem State.progress_clusters (s : State) : (s.progress).clusters = s.clusters := State.teamProgress_clusters _ _ _
@[simp] theorem State.teamProgress_objects (s : State) (n : Nat) (c : Bool) : (s.teamProgress n c).objects = s.objects := by unfold State.teamProgress; split <;> rfl
@[simp] theorem State.progress_objects (s : State) : (s.progress).objects = s.objects := State.teamProgress_objects _ _ _
@[simp] theorem State.teamProgress_tenants (s : State) (n : Nat) (c : Bool) : (s.teamProgress n c).tenants = s.tenants := by unfold State.teamProgress; split <;> rfl
@[simp] theorem State.progress_tenants (s : State) : (s.progress).tenants = s.tenants := State.teamProgress_tenants _ _ _
@[simp] theorem State.teamProgress_granules (s : State) (n : Nat) (c : Bool) : (s.teamProgress n c).granules = s.granules := by unfold State.teamProgress; split <;> rfl
@[simp] theorem State.progress_granules (s : State) : (s.progress).granules = s.granules := State.teamProgress_granules _ _ _
@[simp] theorem State.teamProgress_dirty (s : State) (n : Nat) (c : Bool) : (s.teamProgress n c).dirty = s.dirty := by unfold State.teamProgress; split <;> rfl
@[simp] theorem State.progress_dirty (s : State) : (s.progress).dirty = s.dirty := State.teamProgress_dirty _ _ _
@[simp] theorem State.teamProgress_host (s : State) (n : Nat) (c : Bool) : (s.teamProgress n c).host = s.host := by unfold State.teamProgress; split <;> rfl
@[simp] theorem State.progress_host (s : State) : (s.progress).host = s.host := State.teamProgress_host _ _ _
@[simp] theorem State.teamProgress_journal (s : State) (n : Nat) (c : Bool) : (s.teamProgress n c).journal = s.journal := by unfold State.teamProgress; split <;> rfl
@[simp] theorem State.progress_journal (s : State) : (s.progress).journal = s.journal := State.teamProgress_journal _ _ _
@[simp] theorem State.teamProgress_fabric (s : State) (n : Nat) (c : Bool) : (s.teamProgress n c).fabric = s.fabric := by unfold State.teamProgress; split <;> rfl
@[simp] theorem State.progress_fabric (s : State) : (s.progress).fabric = s.fabric := State.teamProgress_fabric _ _ _
@[simp] theorem State.teamProgress_boot (s : State) (n : Nat) (c : Bool) : (s.teamProgress n c).boot = s.boot := by unfold State.teamProgress; split <;> rfl
@[simp] theorem State.progress_boot (s : State) : (s.progress).boot = s.boot := State.teamProgress_boot _ _ _
@[simp] theorem State.teamProgress_migrations (s : State) (n : Nat) (c : Bool) : (s.teamProgress n c).migrations = s.migrations := by unfold State.teamProgress; split <;> rfl
@[simp] theorem State.progress_migrations (s : State) : (s.progress).migrations = s.migrations := State.teamProgress_migrations _ _ _
@[simp] theorem State.teamProgress_modid (s : State) (n : Nat) (c : Bool) : (s.teamProgress n c).modid = s.modid := by unfold State.teamProgress; split <;> rfl
@[simp] theorem State.progress_modid (s : State) : (s.progress).modid = s.modid := State.teamProgress_modid _ _ _
@[simp] theorem State.teamProgress_cycle (s : State) (n : Nat) (c : Bool) : (s.teamProgress n c).cycle = s.cycle := by unfold State.teamProgress; split <;> rfl
@[simp] theorem State.progress_cycle (s : State) : (s.progress).cycle = s.cycle := State.teamProgress_cycle _ _ _
@[simp] theorem State.teamProgress_gtime (s : State) (n : Nat) (c : Bool) : (s.teamProgress n c).gtime = s.gtime := by unfold State.teamProgress; split <;> rfl
@[simp] theorem State.progress_gtime (s : State) : (s.progress).gtime = s.gtime := State.teamProgress_gtime _ _ _
@[simp] theorem State.teamProgress_firmware (s : State) (n : Nat) (c : Bool) : (s.teamProgress n c).firmware = s.firmware := by unfold State.teamProgress; split <;> rfl
@[simp] theorem State.progress_firmware (s : State) : (s.progress).firmware = s.firmware := State.teamProgress_firmware _ _ _
@[simp] theorem State.teamProgress_nextTeam (s : State) (n : Nat) (c : Bool) : (s.teamProgress n c).nextTeam = s.nextTeam := by unfold State.teamProgress; split <;> rfl
@[simp] theorem State.progress_nextTeam (s : State) : (s.progress).nextTeam = s.nextTeam := State.teamProgress_nextTeam _ _ _
@[simp] theorem State.teamProgress_nextObj (s : State) (n : Nat) (c : Bool) : (s.teamProgress n c).nextObj = s.nextObj := by unfold State.teamProgress; split <;> rfl
@[simp] theorem State.progress_nextObj (s : State) : (s.progress).nextObj = s.nextObj := State.teamProgress_nextObj _ _ _
@[simp] theorem State.teamProgress_free (s : State) (n : Nat) (c : Bool) : (s.teamProgress n c).free = s.free := by unfold State.teamProgress; split <;> rfl
@[simp] theorem State.progress_free (s : State) : (s.progress).free = s.free := State.teamProgress_free _ _ _
@[simp] theorem State.teamProgress_agenda (s : State) (n : Nat) (c : Bool) : (s.teamProgress n c).agenda = s.agenda := by unfold State.teamProgress; split <;> rfl
@[simp] theorem State.progress_agenda (s : State) : (s.progress).agenda = s.agenda := State.teamProgress_agenda _ _ _
@[simp] theorem State.teamProgress_eager (s : State) (n : Nat) (c : Bool) : (s.teamProgress n c).eager = s.eager := by unfold State.teamProgress; split <;> rfl
@[simp] theorem State.progress_eager (s : State) : (s.progress).eager = s.eager := State.teamProgress_eager _ _ _
@[simp] theorem State.retire_cur (s : State) : (s.retire).cur = s.cur := State.progress_cur _
@[simp] theorem State.retire_here (s : State) : (s.retire).here = s.here := State.progress_here _
@[simp] theorem State.retire_cores (s : State) : (s.retire).cores = s.cores := State.progress_cores _
@[simp] theorem State.retire_tiles (s : State) : (s.retire).tiles = s.tiles := State.progress_tiles _
@[simp] theorem State.retire_mem (s : State) : (s.retire).mem = s.mem := State.progress_mem _
@[simp] theorem State.retire_full (s : State) : (s.retire).full = s.full := State.progress_full _
@[simp] theorem State.retire_bad (s : State) : (s.retire).bad = s.bad := State.progress_bad _
@[simp] theorem State.retire_queues (s : State) : (s.retire).queues = s.queues := State.progress_queues _
@[simp] theorem State.retire_homeAt (s : State) : (s.retire).homeAt = s.homeAt := State.progress_homeAt _
@[simp] theorem State.retire_clusters (s : State) : (s.retire).clusters = s.clusters := State.progress_clusters _
@[simp] theorem State.retire_objects (s : State) : (s.retire).objects = s.objects := State.progress_objects _
@[simp] theorem State.retire_tenants (s : State) : (s.retire).tenants = s.tenants := State.progress_tenants _
@[simp] theorem State.retire_granules (s : State) : (s.retire).granules = s.granules := State.progress_granules _
@[simp] theorem State.retire_dirty (s : State) : (s.retire).dirty = s.dirty := State.progress_dirty _
@[simp] theorem State.retire_host (s : State) : (s.retire).host = s.host := State.progress_host _
@[simp] theorem State.retire_journal (s : State) : (s.retire).journal = s.journal := State.progress_journal _
@[simp] theorem State.retire_fabric (s : State) : (s.retire).fabric = s.fabric := State.progress_fabric _
@[simp] theorem State.retire_boot (s : State) : (s.retire).boot = s.boot := State.progress_boot _
@[simp] theorem State.retire_migrations (s : State) : (s.retire).migrations = s.migrations := State.progress_migrations _
@[simp] theorem State.retire_modid (s : State) : (s.retire).modid = s.modid := State.progress_modid _
@[simp] theorem State.retire_cycle (s : State) : (s.retire).cycle = s.cycle := State.progress_cycle _
@[simp] theorem State.retire_gtime (s : State) : (s.retire).gtime = s.gtime := State.progress_gtime _
@[simp] theorem State.retire_firmware (s : State) : (s.retire).firmware = s.firmware := State.progress_firmware _
@[simp] theorem State.retire_nextTeam (s : State) : (s.retire).nextTeam = s.nextTeam := State.progress_nextTeam _
@[simp] theorem State.retire_nextObj (s : State) : (s.retire).nextObj = s.nextObj := State.progress_nextObj _
@[simp] theorem State.retire_free (s : State) : (s.retire).free = s.free := State.progress_free _
@[simp] theorem State.retire_agenda (s : State) : (s.retire).agenda = s.agenda := State.progress_agenda _
@[simp] theorem State.retire_eager (s : State) : (s.retire).eager = s.eager := State.progress_eager _

/-! ## Vectors by a number -/

theorem vget_vset_same {α : Type} {n : Nat} (v : Vector α n) (i : Nat) (x d : α) (h : i < n) : vget (vset v i x) i d = x := by
  simp [vget, vset, h]
theorem vget_vset_ne {α : Type} {n : Nat} (v : Vector α n) (i j : Nat) (x d : α) (h : i ≠ j) : vget (vset v i x) j d = vget v j d := by
  simp [vget, vset, h]

/-! ## Registers -/

theorem State.rdG_zero (s : State) : s.rdG 0 = 0 := rfl
theorem State.wrG_zero (s : State) (x : Word) : s.wrG 0 x = s := rfl
theorem State.rdP_zero (s : State) : s.rdP 0 = true := rfl
theorem State.wrP_zero (s : State) (x : Bool) : s.wrP 0 x = s := rfl
theorem State.rdW_zero (s : State) : s.rdW 0 = BitVec.allOnes 128 := rfl
theorem State.wrW_zero (s : State) (x : MaskWord) : s.wrW 0 x = s := rfl
theorem State.rdG_wrG_same (s : State) (r : GReg) (x : Word) (h : r ≠ 0) : (s.wrG r x).rdG r = x := by
  have := r.isLt
  simp only [State.rdG, State.wrG, if_neg h]
  exact vget_vset_same _ _ _ _ this
theorem State.rdG_wrG_ne (s : State) (r q : GReg) (x : Word) (h : q ≠ r) : (s.wrG r x).rdG q = s.rdG q := by
  unfold State.wrG
  split
  · rfl
  · unfold State.rdG
    split
    · rfl
    · exact vget_vset_ne _ _ _ _ _ (fun e => h (BitVec.eq_of_toNat_eq e.symm))
theorem State.rdP_wrP_same (s : State) (r : PReg) (x : Bool) (h : r ≠ 0) : (s.wrP r x).rdP r = x := by
  have := r.isLt
  simp only [State.rdP, State.wrP, if_neg h]
  exact vget_vset_same _ _ _ _ this
theorem State.rdP_wrP_ne (s : State) (r q : PReg) (x : Bool) (h : q ≠ r) : (s.wrP r x).rdP q = s.rdP q := by
  unfold State.wrP
  split
  · rfl
  · unfold State.rdP
    split
    · rfl
    · exact vget_vset_ne _ _ _ _ _ (fun e => h (BitVec.eq_of_toNat_eq e.symm))
theorem State.rdA_wrA_same (s : State) (r : AReg) (x : Word) : (s.wrA r x).rdA r = x := vget_vset_same _ _ _ _ r.isLt
theorem State.rdA_wrA_ne (s : State) (r q : AReg) (x : Word) (h : q ≠ r) : (s.wrA r x).rdA q = s.rdA q :=
  vget_vset_ne _ _ _ _ _ (fun e => h (BitVec.eq_of_toNat_eq e.symm))
theorem State.rdV_wrV_same (s : State) (r : VReg) (x : Vec) : (s.wrV r x).rdV r = x := vget_vset_same _ _ _ _ r.isLt
theorem State.rdV_wrV_ne (s : State) (r q : VReg) (x : Vec) (h : q ≠ r) : (s.wrV r x).rdV q = s.rdV q :=
  vget_vset_ne _ _ _ _ _ (fun e => h (BitVec.eq_of_toNat_eq e.symm))
@[simp] theorem State.rdA_wrG (s : State) (r : GReg) (x : Word) (q : AReg) : (s.wrG r x).rdA q = s.rdA q := by unfold State.wrG; split <;> rfl
@[simp] theorem State.rdP_wrG (s : State) (r : GReg) (x : Word) (q : PReg) : (s.wrG r x).rdP q = s.rdP q := by unfold State.wrG; split <;> rfl
@[simp] theorem State.rdG_wrA (s : State) (r : AReg) (x : Word) (q : GReg) : (s.wrA r x).rdG q = s.rdG q := rfl
@[simp] theorem State.rdP_wrA (s : State) (r : AReg) (x : Word) (q : PReg) : (s.wrA r x).rdP q = s.rdP q := rfl
@[simp] theorem State.rdG_wrP (s : State) (r : PReg) (x : Bool) (q : GReg) : (s.wrP r x).rdG q = s.rdG q := by unfold State.wrP; split <;> rfl
@[simp] theorem State.rdA_wrP (s : State) (r : PReg) (x : Bool) (q : AReg) : (s.wrP r x).rdA q = s.rdA q := by unfold State.wrP; split <;> rfl

end Sys2Proof.Machine
end

