-- ==== Sys2Proof/Laws/Ops.lean ====
section
/-!
SUPPORT. What the shared operations answer: a guarded instruction, its completion, its wait in place, a taken branch, and a trap.
-/
namespace Sys2Proof.Machine
open Sys2Proof

/-! ## Guards, completion and waits -/

theorem guarded_pass {q : Guard} {len : Nat} {s : State} (body : State → Out) (h : s.guard q = true) : guarded q len s body = body s := by
  simp [guarded, h]
theorem guarded_skip {q : Guard} {len : Nat} {s : State} (body : State → Out) (h : s.guard q = false) :
    guarded q len s body = .next (s.done len) := by
  simp [guarded, h]; rfl
theorem complete_eq (len : Nat) (s : State) : complete len s = .next (s.done len) := rfl
theorem completeAt_eq (t : Nat) (s : State) : completeAt (wNat t) s = .next (s.doneAt t) := rfl
theorem stay_eq (k : WaitKind) (limit : Nat) (s : State) : stay k limit s = .next (s.waits k limit) := by
  cases h : s.core.wait <;> simp only [stay, State.waits, h]
theorem guard_always (s : State) : s.guard .always = true := rfl

/-! ## A trap always answers a next state -/

theorem takeTrap_next (tr : Trap) (s : State) : ∃ t, takeTrap tr s = .next t := ⟨_, rfl⟩
theorem trapAt_next (code : BitVec 8) (detail : Word) (len : Nat) (s : State) : ∃ t, trapAt code detail len s = .next t := takeTrap_next _ _
theorem trapAfter_next (code : BitVec 8) (detail : Word) (async eng : Bool) (len : Nat) (s : State) :
    ∃ t, trapAfter code detail async eng len s = .next t := takeTrap_next _ _
theorem trapHeld_next (code : BitVec 8) (detail : Word) (eng : Bool) (len : Nat) (s : State) :
    ∃ t, trapHeld code detail eng len s = .next t := takeTrap_next _ _

theorem takeTrap_fatal {tr : Trap} {s : State} (h : s.trapFatal tr.code = true) : takeTrap tr s = .next (s.trapEnds tr) := by
  simp [takeTrap, h]
theorem takeTrap_handled {tr : Trap} {s : State} (h : s.trapFatal tr.code = false) : takeTrap tr s = .next (s.trapEnters tr) := by
  simp [takeTrap, h]
/-- A trap that is fatal to no team: the processor stops. -/
theorem State.trapEnds_teamless {tr : Trap} {s : State} (ht : s.team = none) : (s.trapEnds tr).core.running = false := by
  simp [State.trapEnds, ht]

/-! ## Where a branch goes -/

@[simp] theorem State.called_cur (s : State) (t : Nat) : (s.called t).cur = s.cur := by unfold State.called; split <;> rfl
@[simp] theorem State.called_core (s : State) (t : Nat) : (s.called t).core = s.core := by unfold State.called; split <;> rfl
@[simp] theorem State.called_handler (s : State) (t : Nat) : (s.called t).tile.handler = s.tile.handler := by unfold State.called; split <;> rfl
@[simp] theorem State.called_mem (s : State) (t : Nat) : (s.called t).mem = s.mem := by unfold State.called; split <;> rfl
theorem branchTo_taken {link : Option AReg} {t : Nat} {s : State} (hr : s.returns t = false) (ha : t % 8 = 0) (hc : s.inCode t = true)
    (hl : s.loopTests = true → LoopState.inBody s.tile.loop (wNat t) = true)
    (hh : s.onMain = true → s.tile.handler.hin = true → s.inHandler t = true) :
    branchTo link t s = .next ((match link with
      | some r => (s.called t).wrA r (wNat ((s.core.pc.toNat + 8) % 2 ^ 53))
      | none => s.called t).doneAt t) := by
  have hb : (s.loopTests && !LoopState.inBody s.tile.loop (wNat t)) = false := by
    cases h : s.loopTests <;> simp [h] at hl ⊢; exact hl
  unfold branchTo
  simp only [hr, ha, hc, hb, Bool.false_eq_true, if_false, ne_eq, not_true_eq_false, Bool.not_true]
  cases link <;> simp only <;> rw [if_neg] <;> first | rfl | skip
  all_goals
    intro h
    simp only [Bool.and_eq_true, Bool.not_eq_true'] at h
    have := hh h.1.1 h.1.2
    simp_all

/-! ## Memory under the named updates -/

@[simp] theorem State.freezeColl_mem (s : State) (c : Nat) : (s.freezeColl c).mem = s.mem := State.setCore_mem _ _ _
@[simp] theorem State.freezeTile_mem (s : State) (n : Nat) : (s.freezeTile n).mem = s.mem := by simp [State.freezeTile]
theorem foldl_mem {α : Type} (f : State → α → State) (h : ∀ s a, (f s a).mem = s.mem) (l : List α) (s : State) : (l.foldl f s).mem = s.mem := by
  induction l generalizing s with
  | nil => rfl
  | cons a r ih => rw [List.foldl_cons, ih, h]
@[simp] theorem State.freezeTeam_mem (s : State) (t : Team) : (s.freezeTeam t).mem = s.mem := by
  simp only [State.freezeTeam]
  rw [foldl_mem _ (fun s c => by simp), foldl_mem _ (fun s n => by simp)]
@[simp] theorem State.failTeamAs_mem (s : State) (n : Nat) (w a : Word) (l : Nat) (e : Bool) : (s.failTeamAs n w a l e).mem = s.mem := by
  unfold State.failTeamAs
  split
  · rfl
  · dsimp only
    split
    · rfl
    · exact State.freezeTeam_mem _ _
/-- A sealed line keeps memory canonical, and every byte outside the line. -/
theorem State.putLine_memOk {s : State} (ni num : Nat) (cells : List Host.Cell) (l : Nat) (h : s.memOk = true) :
    (s.putLine ni num cells l).memOk = true := by
  unfold State.putLine
  split
  · exact h
  · unfold State.memOk at *; simp only; exact memPut_wf _ h
theorem Team.sealedCells_mem {t : Team} {ni l : Nat} {p : List Byte} {c : Host.Cell} (h : c ∈ t.sealedCells ni l p) : l ≤ c.1 ∧ c.1 < l + 64 := by
  have at_ : ∀ (bs : List Byte) (a : Nat), c ∈ cellsAt a bs → a ≤ c.1 ∧ c.1 < a + bs.length := by
    intro bs
    induction bs with
    | nil => intro a h; simp [cellsAt] at h
    | cons b r ih =>
      intro a h
      simp only [cellsAt, List.mem_cons] at h
      rcases h with rfl | h
      · simp
      · have := ih (a + 1) h; simp only [List.length_cons]; omega
  have of_ : ∀ (n a x : Nat), c ∈ cellsOf a x n → a ≤ c.1 ∧ c.1 < a + n := by
    intro n
    induction n with
    | zero => intro a x h; simp [cellsOf] at h
    | succ n ih =>
      intro a x h
      simp only [cellsOf, List.mem_cons] at h
      rcases h with rfl | h
      · simp
      · have := ih (a + 1) _ h; omega
  simp only [Team.sealedCells, List.mem_append] at h
  rcases h with (h | h | h) | h
  · have := at_ _ _ h; simp at this; omega
  · have := of_ _ _ _ h; omega
  · have := of_ _ _ _ h; omega
  · have := of_ _ _ _ h; omega
theorem State.putLine_memGet {s : State} (ni num : Nat) (cells : List Host.Cell) (l b : Nat) (h : s.memOk = true) (hb : b < l ∨ l + 64 ≤ b) :
    memGet (s.putLine ni num cells l).mem b = memGet s.mem b := by
  unfold State.putLine
  split
  · rfl
  · unfold State.memOk at h; simp only; exact memGet_memPut_of_not_mem _ h b (fun c hc => by have := Team.sealedCells_mem hc; omega)
theorem State.teamPut_memOk {s : State} (t : Team) (cells : List Host.Cell) (h : s.memOk = true) : (s.teamPut t cells).memOk = true := by
  unfold State.teamPut
  simp only
  have h1 : ({ s with mem := memPut s.mem (cells.filter (fun c => (s.lineOf t c.1).isNone)) } : State).memOk = true := by
    unfold State.memOk at *; simp only; exact memPut_wf _ h
  revert h1
  generalize ({ s with mem := memPut s.mem (cells.filter (fun c => (s.lineOf t c.1).isNone)) } : State) = s1
  generalize (cells.filterMap (fun c => (s.lineOf t c.1).map Prod.fst)).eraseDups = ls
  intro h1
  induction ls generalizing s1 with
  | nil => exact h1
  | cons l r ih => exact ih _ (State.putLine_memOk 1024 t.num cells l h1)
@[simp] theorem State.countAt_mem (s : State) (l c k n : Nat) : (s.countAt l c k n).mem = s.mem := State.setTile_mem _ _ _
@[simp] theorem State.countOf_mem (s : State) (p : ProcId) (c k n : Nat) : (s.countOf p c k n).mem = s.mem := by
  unfold State.countOf; split <;> simp
@[simp] theorem State.dropped_mem (s : State) (p : ProcId) (c : BitVec 8) (a : Nat) : (s.dropped p c a).mem = s.mem := by
  unfold State.dropped; dsimp only; split <;> [skip; split] <;> split <;> simp
@[simp] theorem State.quarantine_mem (s : State) (t : Team) (pc : Option Nat) : (s.quarantine t pc).mem = s.mem := rfl
@[simp] theorem State.backstopReport_mem (s : State) (p : ProcId) (pc : Option Nat) (a : Nat) : (s.backstopReport p pc a).mem = s.mem := by
  unfold State.backstopReport; split <;> [rfl; (dsimp only; split <;> simp)]
theorem foldl_memOk {α : Type} (f : State → α → State) (hf : ∀ s a, s.memOk = true → (f s a).memOk = true) (l : List α) {s : State}
    (h : s.memOk = true) : (l.foldl f s).memOk = true := by
  induction l generalizing s with
  | nil => exact h
  | cons a r ih => exact ih (hf _ _ h)
theorem State.putSealed_memOk {s : State} (p : ProcId) (a : Nat) (cells : List Host.Cell) (l : Nat) (h : s.memOk = true) :
    (s.putSealed p a cells l).memOk = true := by
  have hd (c : BitVec 8) (b : Nat) : (s.dropped p c b).memOk = true := by unfold State.memOk at *; rwa [State.dropped_mem]
  unfold State.putSealed
  repeat' split
  all_goals first | exact h | exact hd _ _ | exact State.putLine_memOk _ _ _ _ h
/-- A processor's write keeps memory canonical. -/
theorem State.putCells_memOk {s : State} (p : ProcId) (a : Nat) (cells : List Host.Cell) (h : s.memOk = true) : (s.putCells p a cells).memOk = true := by
  unfold State.putCells
  split
  · unfold State.putPlain State.mendCells
    repeat' split
    · unfold State.memOk at *; rwa [State.dropped_mem]
    · unfold State.memOk at *; exact memPut_wf _ h
    · exact h
  · exact foldl_memOk _ (fun s l h => State.putSealed_memOk p a cells l h) _ h
theorem State.putTrace_memOk {s : State} (t : Team) (l a : Nat) (cells : List Host.Cell) (h : s.memOk = true) : (s.putTrace t l a cells).memOk = true := by
  unfold State.putTrace
  split
  · exact State.putCells_memOk _ _ _ h
  · unfold State.memOk at *; rwa [State.backstopReport_mem]
/-- A trace record keeps memory canonical. -/
theorem State.traceOn_memOk {s : State} (l k tid : Nat) (h : s.memOk = true) : (s.traceOn l k tid).memOk = true := by
  unfold State.memOk at *
  unfold State.traceOn
  split
  · exact h
  · simp only
    split
    · simpa using h
    · split
      · exact State.putTrace_memOk _ _ _ _ (by unfold State.memOk; simpa using h)
      · simpa using h
theorem State.trace_memOk {s : State} (k : Nat) (h : s.memOk = true) : (s.trace k).memOk = true := by
  unfold State.trace
  split
  · exact State.traceOn_memOk _ _ _ h
  · exact State.traceOn_memOk _ _ _ h
  · exact State.traceOn_memOk _ _ _ h
  · exact h
  · exact h
@[simp] theorem State.countCode_mem (s : State) (c : BitVec 8) : (s.countCode c).mem = s.mem := by
  unfold State.countCode
  repeat' (first | split | rfl)
@[simp] theorem State.enterHandler_mem (s : State) : s.enterHandler.mem = s.mem := by unfold State.enterHandler; split <;> rfl
@[simp] theorem State.recordHandled_mem (s : State) (w d : Word) (e : Bool) : (s.recordHandled w d e).mem = s.mem := by
  unfold State.recordHandled; split <;> simp
theorem State.raiseTrap_memOk {s : State} (tr : Trap) (h : s.memOk = true) : (s.raiseTrap tr).memOk = true := by
  apply State.trace_memOk
  unfold State.memOk at *
  rw [State.countCode_mem]
  exact h
theorem State.trapBegins_mem (s : State) (tr : Trap) : (s.trapBegins tr).mem = (s.raiseTrap tr).mem := by
  unfold State.trapBegins
  rw [State.recordHandled_mem, State.progress_mem, State.count_mem]
theorem State.trapEnters_mem (s : State) (tr : Trap) : (s.trapEnters tr).mem = (s.raiseTrap tr).mem := by
  unfold State.trapEnters
  simp only
  split
  · rw [State.enterHandler_mem, State.trapBegins_mem]
  · exact State.trapBegins_mem s tr
theorem State.trapEnds_mem (s : State) (tr : Trap) : (s.trapEnds tr).mem = (s.raiseTrap tr).mem := by
  unfold State.trapEnds
  split
  · rfl
  · rw [State.failTeamAs_mem, State.count_mem]
/-- A trap keeps memory canonical. -/
theorem takeTrap_memOk {tr : Trap} {s t : State} (h : s.memOk = true) (ht : takeTrap tr s = .next t) : t.memOk = true := by
  have hr := State.raiseTrap_memOk tr h
  cases ht
  unfold State.memOk at *
  split
  · rw [State.trapEnds_mem]; exact hr
  · rw [State.trapEnters_mem]; exact hr

end Sys2Proof.Machine
end

