-- ==== Sys2Proof/Laws/Vector.lean ====
section
/-!
SUPPORT. The vector instructions where no stream is bound: registers are read and written as themselves (R209), so one issue of an effect of
one, two or three sources writes its vector, its flags and its draws, and nothing else (R179, R180).
-/
namespace Sys2Proof.Machine
open Sys2Proof

theorem boundSlot_of_noStreams {s : State} (h : s.noStreams = true) (r : VReg) : s.boundSlot r = none := by
  unfold State.boundSlot slotOf
  split <;> rename_i n hn
  · have hlt : n < 4 := by
      split at hn <;> simp at hn
      have := r.isLt
      omega
    have hb : (s.slot n).isBound = false := by
      unfold State.slot vget
      unfold State.noStreams at h
      simp [Vector.all_eq_true] at h
      have := h n (by omega)
      simp_all
    simp [hb]
  · rfl
/-- Reading vector registers gives values and changes nothing. -/
theorem readVecs_of_noStreams {s : State} (h : s.noStreams = true) (rs : List VReg) : ∃ l, readVecs rs s = .ok l s := by
  have hs : s.slotsOf rs = [] := by
    unfold State.slotsOf
    have : rs.filterMap s.boundSlot = [] := by
      induction rs <;> simp_all [boundSlot_of_noStreams h]
    simp [this]
  simp [readVecs, hs, popAll, resBind]
theorem deliver_of_noStreams {d : VReg} {out : Fmt} {c : Ctl} {r : LaneRes} {s : State} (h : s.noStreams = true) :
    deliver d out c r s = .ok () (((s.wrV d (vecOf out r.lanes)).addFlags r.flags).draw c.rm r.draws) := by
  simp only [deliver, boundSlot_of_noStreams h]

theorem vec1_of_noStreams (f : Ctl → Nat → Nat → LaneRes) (x : OpV1) {s : State} (h : s.noStreams = true) :
    ∃ v fl n, vec1 f x s = .ok () (((s.wrV x.d v).addFlags fl).draw (resolveRm s.core.fpctl x.rm) n) := by
  obtain ⟨l, hl⟩ := readVecs_of_noStreams h (srcRegs [x.a])
  simp only [vec1, sources, hl, resBind, deliver_of_noStreams h]
  exact ⟨_, _, _, rfl⟩
theorem vec2_of_noStreams (f : Ctl → Nat → Nat → Nat → LaneRes) (x : OpV2) {s : State} (h : s.noStreams = true) :
    ∃ v fl n, vec2 f x s = .ok () (((s.wrV x.d v).addFlags fl).draw (resolveRm s.core.fpctl x.rm) n) := by
  obtain ⟨l, hl⟩ := readVecs_of_noStreams h (srcRegs [x.a, x.b])
  simp only [vec2, sources, hl, resBind, deliver_of_noStreams h]
  exact ⟨_, _, _, rfl⟩
theorem vec3_of_noStreams (f : Ctl → Nat → Nat → Nat → Nat → LaneRes) (x : OpV3) {s : State} (h : s.noStreams = true) :
    ∃ v fl n, vec3 f x s = .ok () (((s.wrV x.d v).addFlags fl).draw (resolveRm s.core.fpctl x.rm) n) := by
  obtain ⟨l, hl⟩ := readVecs_of_noStreams h (srcRegs [x.a, x.b, x.c])
  simp only [vec3, sources, hl, resBind, deliver_of_noStreams h]
  exact ⟨_, _, _, rfl⟩
theorem vecIdx_of_noStreams (f : Ctl → Nat → Nat → Nat → LaneRes) (x : OpV2) {s : State} (h : s.noStreams = true) :
    ∃ v fl n, vecIdx f x s = .ok () (((s.wrV x.d v).addFlags fl).draw (resolveRm s.core.fpctl x.rm) n) := by
  obtain ⟨l, hl⟩ := readVecs_of_noStreams h (srcRegs [x.a])
  simp only [vecIdx, sources, hl, resBind, deliver_of_noStreams h]
  exact ⟨_, _, _, rfl⟩
/-- An instruction whose guard passes and whose issue ends with a vector, its flags and its draws. -/
theorem vecRun_of_effect {q : Guard} {f : State → Res Unit} {s : State} {d : VReg} {rm : Rm} {v : Vec} {fl : FlagSet} {n : Nat}
    (g : s.guard q = true) (e : f s = .ok () (((s.wrV d v).addFlags fl).draw rm n)) :
    vecRun q f s = .next (s.vecDone d v fl rm n) := by
  simp [vecRun, guarded, g, e, vecEnd, complete, State.vecDone, State.done]

end Sys2Proof.Machine
end

