-- ==== Sys2Proof/Tests/Slice0.lean ====
section
/-!
SUPPORT. Tests: terms each check of WellFormed refuses, words the spec writes out, one step on a small state with the result the spec's
examples give, and for every statement a state and operands that meet its hypotheses.
-/
namespace Sys2Proof.Tests
set_option Elab.async false
open Sys2Proof Sys2Proof.Machine

/-- Unguarded. -/
abbrev u : Guard := .always
/-- An address operand a1 with an index that has no register but a scale. -/
abbrev badM : MemOp := ⟨1, 0, .eight, 0⟩
/-- The address in a1. -/
abbrev m1 : MemOp := ⟨1, 0, .one, 0⟩
/-- The address a1 + g2. -/
abbrev m2 : MemOp := ⟨1, 2, .one, 0⟩
def refuses (l : List Instr) : Bool := l.all (fun i => !i.wf)

/-! ## Ill-formed terms (R111–R115 and each family's table) -/

theorem test_wf_fields : refuses [
    .extS ⟨u, 1, 2, 0, 0⟩, .extn ⟨u, 1, 2, 0, 65⟩, .ins ⟨u, 1, 2, 60, 5⟩, .bchk ⟨u, 1, 2, 0, 0⟩, .bchki ⟨u, 1, 2, 0, 0, 4⟩,
    .bchki ⟨u, 1, 2, 0, 1, 0⟩, .loop ⟨0, 0, 1⟩, .loop ⟨1, 0, 0⟩, .loop ⟨1, 0, 65⟩, .loopi ⟨0, 0, 9⟩, .loopi ⟨0, 65, 9⟩] = true := by decide
theorem test_wf_vector_types : refuses [
    .vadd ⟨u, 1, .v 1, .v 2, .i32, .rne, 0⟩, .vfma ⟨u, 1, .v 1, .v 2, .v 3, .fp4, .rne, 0⟩, .vmin ⟨u, 1, .v 1, .v 2, .fp32, .rtz, 0⟩,
    .vabs ⟨u, 1, .v 1, .fp32, .rup, 0⟩, .vsqrt ⟨u, 1, .v 1, .e4m3, .rne, 0⟩, .viadd ⟨u, 1, .v 1, .v 2, .fp32, .rne, 0⟩,
    .viadd ⟨u, 1, .v 1, .v 2, .i32, .rtz, 0⟩, .vand ⟨u, 1, .v 1, .v 2, .raw, .rne, 1⟩, .vand ⟨u, 1, .v 1, .v 2, .fp32, .rne, 0⟩,
    .vand ⟨u, 1, .v 1, .i 1, .raw, .rne, 0⟩, .vpopc ⟨u, 1, .v 1, .raw, .rne, 0⟩, .vcmpeq ⟨u, 1, .v 1, .v 2, .fp4, 0⟩,
    .vclass ⟨u, 1, .v 1, .i32, .rne, 0⟩, .vsel ⟨u, 1, .v 1, .v 2, .raw, .rne, 1⟩, .vsel ⟨u, 1, .v 1, .v 2, .i8, .rup, 1⟩,
    .vexp2 ⟨u, 1, .v 1, .fp64, .rne, 0⟩, .vexp2 ⟨u, 1, .v 1, .fp32, .rtz, 0⟩, .vrsum ⟨u, 1, .v 1, .e4m3, .rne, 0⟩,
    .vrsum ⟨u, 1, .v 1, .i32, .rtz, 0⟩, .vrmax ⟨u, 1, .v 1, .fp32, .rtz, 0⟩, .vrdot ⟨u, 1, .v 1, .v 2, .raw, .rne, 0⟩,
    .vscan ⟨u, 1, .v 1, .fp32, .rne, 0, 3⟩, .vscan ⟨u, 1, .v 1, .fp32, .rtz, 0, 1⟩] = true := by decide
theorem test_wf_permutes : refuses [
    .vmov ⟨u, 1, .v 1, .raw, .rne, 1⟩, .vmov ⟨u, 1, .v 1, .i8, .rtz, 0⟩, .vbcast ⟨u, 1, .g 1, .g 2, .i8, .rne, 0⟩,
    .vrot ⟨u, 1, .v 1, .v 2, .i8, .rne, 0⟩, .vshuf ⟨u, 1, .i 1, .v 2, .i8, .rne, 0⟩, .vextr ⟨u, 1, .lane (.v 1) (.v 2), .i8, 0⟩,
    .vextr ⟨u, 1, .count, .fp4, 0⟩, .vinsr ⟨u, 1, 2, .v 3, .i8⟩, .vcompress ⟨u, 1, .g 1, .i8, .rne, 0⟩,
    .vcswap ⟨u, 1, .v 1, .v 2, .g 1, .i8, .rne, 0⟩, .vcswap ⟨u, 1, .v 1, .g 2, .k 1, .i8, .rne, 0⟩, .vmatch ⟨u, 1, .g 1, .v 2, .i8, 0⟩,
    .vcvt ⟨u, 1, .v 1, 0, .i8, .i16, .rtz, 0⟩, .vcvt ⟨u, 1, .v 1, 2, .fp32, .bf16, .rne, 0⟩, .vcvt ⟨u, 1, .v 1, 0, .fp4, .bf16, .rne, 0⟩,
    .vquant ⟨u, 1, .g 1, .mx, .rne⟩, .vdeq ⟨u, 1, .i 1, .mx, .rne⟩, .vpack ⟨u, 1, .v 1, .v 2, .i64, false⟩,
    .vunpack ⟨u, 1, .v 1, false, .i8⟩] = true := by decide
theorem test_wf_literals : refuses [
    .vmov ⟨u, 1, .i 5, .fp4, .rne, 0⟩, .vmov ⟨u, 1, .i 17, .e4m3, .rne, 0⟩, .vmov ⟨u, 1, .i 9, .e5m2, .rne, 0⟩,
    .vmov ⟨u, 1, .i 18, .e5m2, .rne, 0⟩, .vmov ⟨u, 1, .i 1, .raw, .rne, 0⟩] = true := by decide
theorem test_wf_memory : refuses [
    .vld ⟨u, 1, m1, .d, .rlx, .self⟩, .vld ⟨u, 1, badM, .v, .rlx, .self⟩, .vst ⟨u, 1, m1, .v, .acq, .tile⟩, .vlds ⟨u, 1, m1, .d, .rlx, .self⟩,
    .vsts ⟨u, 1, m2, .q, .rlx, .self⟩, .vgath ⟨u, 31, m1, .w, .rlx, .self⟩, .vscat ⟨u, 1, m1, .f, .rlx, .self⟩, .vldk ⟨u, 1, badM⟩,
    .rep ⟨1, 0, 0, 5⟩, .ld ⟨u, .g 1, badM, .d, .rlx, .self, false⟩, .ld ⟨u, .g 1, m1, .v, .rlx, .self, false⟩,
    .ld ⟨u, .g 1, m1, .d, .rel, .tile, false⟩, .ld ⟨u, .g 1, m1, .d, .rlx, .tile, false⟩, .ld ⟨u, .g 1, m1, .d, .rlx, .self, true⟩,
    .ld ⟨u, .a 1, m1, .w, .rlx, .self, false⟩, .st ⟨u, 1, m1, .w, .acq, .tile⟩, .lds ⟨u, 1, m1, .d, .rlx, .self, true⟩,
    .feset ⟨u, badM, .rlx, .self⟩, .feclr ⟨u, m1, .acq, .tile⟩, .fepoll ⟨u, 1, m1, .rel, .tile⟩, .amoadd ⟨u, 1, m1, .h, .rlx, .self, false⟩,
    .amoinc ⟨u, 1, m1, .d, .ar, .tile, true⟩, .amoswp ⟨u, 1, m1, .d, .rlx, .die, false⟩, .amocas ⟨u, 0, m1, .d, .rlx, .self, false⟩,
    .amocas ⟨u, 31, m1, .d, .rlx, .self, false⟩] = true := by decide
theorem test_wf_queues_engines : refuses [
    .fencee ⟨u, .self⟩, .qpush ⟨u, 1, 1, 0, .eight, .self⟩, .qtry ⟨u, 1, 1, 1, 0, .elem, .self⟩, .qcnt ⟨u, 1, 1, 0, .one, .tile⟩,
    .ksend ⟨u, 1, .v 2, .i8, 0⟩, .cpy2 ⟨u, 1, 1, 2, 3, 0, 4, 5⟩, .coll ⟨u, 1, 1, 2, 3, .allred, .add, 0, 0⟩,
    .coll ⟨u, 1, 1, 2, 3, .allred, .add, 5, 0⟩, .coll ⟨u, 1, 1, 2, 3, .gather, .max, 1, 0⟩, .coll ⟨u, 1, 1, 2, 3, .allred, .add, 1, 7⟩,
    .wld ⟨u, .g 1 false, m1, .q, false⟩, .wld ⟨u, .v 1, m1, .d, false⟩, .wld ⟨u, .g 1 true, m1, .d, false⟩, .wld ⟨u, .g 1 false, m1, .d, true⟩,
    .wld ⟨⟨true, 1⟩, .g 1 false, m1, .d, true⟩, .iwin ⟨u, 1, badM⟩] = true := by decide
theorem test_wf_tasks_matrix : refuses [
    .thint ⟨u, 3⟩, .bar ⟨u, 5⟩, .barw ⟨u, 1, 1, 5⟩, .sstep ⟨u, 1, 0⟩, .sstep ⟨u, 1, 5⟩, .trapI ⟨u, 1, 2⟩, .rget ⟨u, 1, 0, 6⟩, .radv ⟨u, 0, 0, false⟩,
    .rwait ⟨u, 0, 65, false⟩, .rquant ⟨u, 1, 0, 1, 0, 2, true, .rne⟩, .rquant ⟨u, 1, 0, 1, 3, 2, false, .rne⟩, .rfill ⟨u, 1, 0, 1, 0, 2⟩,
    .mmaf ⟨u, false, 0, 1, .fp32⟩, .msr ⟨u, false, 0, 1, .maxTimes, .e4m3⟩, .msr ⟨u, false, 0, 1, .orAnd, .bf16⟩, .mstat ⟨u, false, 1, 3⟩,
    .mdrain ⟨u, false, .w80, .rtz, .mem 1 2⟩, .mdrain ⟨u, false, .w80, .rne, .vec 1 0 0⟩, .mdrain ⟨u, false, .fp32, .rne, .vec 1 0 4⟩,
    .mdrain ⟨u, false, .bf16, .rne, .vec 1 0 2⟩, .mload ⟨u, false, .bf16, 1, 2⟩] = true := by decide

/-! ## Words the spec writes out, with what they stand for -/

/-- Whether words decode to instructions; the word above a two-word instruction's first word is given with it. -/
def decodes (l : List (Nat × Nat × Instr)) : Bool :=
  l.all (fun x => match decode x.1 x.2.1 with | .ok i => i == x.2.2 | .error _ => false)
theorem test_decode_scalar : decodes [
    (0x0300018000000009, 0, .li ⟨u, 6, 9⟩), (0x03001186000E3779, 0, .lih ⟨u, 6, 6, 0xE3779⟩), (0x0200014500000001, 0, .addi ⟨u, 5, 5, 1⟩),
    (0x0100218514000000, 0, .mul ⟨u, 6, 5, 5⟩), (0x04002C4118000000, 0, .cmplt ⟨u, 1, 1, 6⟩), (0x070038C4000001C1, 0, .afrom ⟨u, 3, 4, 1, .fp32, 0⟩),
    (0x0800102324000841, 0, .bchki ⟨u, 3, 9, 1, 2, 4⟩), (0x07002A2E00000000, 0, .amov ⟨u, 8, 14⟩),
    -- (p2) PANDN p3, p0, p2; EXT g1, g2, #8, #16: the fields of R161 and R162
    (0x05 * 2 ^ 56 + 2 * 2 ^ 52 + 3 * 2 ^ 44 + (48 + 3) * 2 ^ 38 + 48 * 2 ^ 32 + (48 + 2) * 2 ^ 26, 0, .pandn ⟨⟨false, 2⟩, 3, 0, 2⟩),
    (0x06 * 2 ^ 56 + 1 * 2 ^ 38 + 2 * 2 ^ 32 + 8 + 16 * 2 ^ 6, 0, .extS ⟨u, 1, 2, 8, 16⟩)] = true := by decide
theorem test_decode_control : decodes [
    (0x0900202E00000000, 0, .jr ⟨u, 14, 0⟩), (0x09001B8000000000, 0, .brl ⟨u, 14, 0⟩), (0x0A00100040000064, 0, .loopi ⟨0, 4, 100⟩),
    (0x0A10200000000000, 0, .lbrk ⟨⟨false, 1⟩, 0⟩)] = true := by decide
theorem test_decode_vector : decodes [
    (0x10003040BF413000, 0, .vfma ⟨u, 1, .v 2, .i (-3), .v 4, .bf16, .rne, 0⟩), (0x1000220030803800, 0, .vmul ⟨u, 8, .v 0, .i 2, .fp32, .rne, 0⟩),
    (0x1700012100600040, 0, .vld ⟨u, 4, ⟨1, 0, .one, 64⟩, .v, .rlx, .self⟩), (0x1900000000000430, 0, .rep ⟨0, 0, 3, 4⟩), (0x1900100000000000, 0, .repw ⟨u⟩),
    -- SCFG.push #2, a5 and SDIM #1, #3, g6, g7 by R206; VIADD.i16 v1, v2, g3 (w4) by R117
    (0x18 * 2 ^ 56 + (32 + 5) * 2 ^ 32 + 2 + 4, 0, .scfg ⟨u, 5, 2, true⟩),
    (0x18 * 2 ^ 56 + 1 * 2 ^ 44 + 6 * 2 ^ 32 + 7 * 2 ^ 26 + 1 + 3 * 4, 0, .sdim ⟨u, 6, 7, 1, 3⟩),
    (0x11 * 2 ^ 56 + 1 * 2 ^ 38 + 2 * 2 ^ 30 + 1 * 2 ^ 28 + 3 * 2 ^ 22 + 3 * 2 ^ 10 + 4 * 2 ^ 4, 0, .viadd ⟨u, 1, .v 2, .g 3, .i16, .rne, 4⟩)] = true := by
  decide
theorem test_decode_memory : decodes [
    (0x200001621A236010, 0, .ld ⟨u, .g 5, ⟨2, 6, .eight, 16⟩, .w, .acq, .die, true⟩), (0x230041A311202000, 0, .amomin ⟨u, 6, ⟨3, 4, .elem, 0⟩, .w, .rlx, .self, true⟩),
    (0x210003E400238000, 0, .st ⟨u, 15, ⟨4, 0, .one, 0⟩, .w, .rel, .die⟩), (0x200002626C234000, 0, .ld ⟨u, .g 9, ⟨2, 27, .one, 0⟩, .w, .acq, .die, false⟩),
    -- FENCE.mod by R250, QPUSH.d.rel.tile g3, [a2] by R252, XWAIT p2, g5, #9 by R272
    (0x24 * 2 ^ 56 + 4, 0, .fence ⟨u, .module⟩), (0x25 * 2 ^ 56 + 3 * 2 ^ 38 + 34 * 2 ^ 32 + 3 * 2 ^ 20 + 1 * 2 ^ 16 + 2 * 2 ^ 14, 0, .qpush ⟨u, 3, 2, 0, .one, .tile⟩),
    (0x2A * 2 ^ 56 + 1 * 2 ^ 44 + 50 * 2 ^ 38 + 5 * 2 ^ 32 + 9, 0, .xwait ⟨u, 2, 5, 9⟩)] = true := by decide
theorem test_decode_tasks_system : decodes [
    (0x3000002400000000, 0, .tspawn ⟨u, 4⟩), (0x3000102300000000, 0, .tdec ⟨u, 3⟩), (0x3000200000000000, 0, .tend ⟨u⟩), (0x3000300000000000, 0, .tyield ⟨u⟩),
    (0x3000400000000001, 0, .thint ⟨u, 1⟩), (0x3100000000000002, 0, .bar ⟨u, 2⟩), (0x310021C000000003, 0, .sstep ⟨u, 7, 3⟩), (0x3200000000000000, 0, .wfe ⟨u⟩),
    (0x32001C4900000000, 0, .wfed ⟨u, 1, 9⟩), (0x3200200400000000, 0, .sev ⟨u, 4⟩), (0x3200308000000000, 0, .gtime ⟨u, 2⟩), (0x3300100400000008, 0, .srw ⟨u, 4, 8⟩),
    (0x3300200600000010, 0, .trapI ⟨u, 6, 0x10⟩), (0x3300300000000001, 0, .tret ⟨u, true⟩), (0x3300400000000000, 0, .nop ⟨u⟩), (0x3300500000000005, 0, .brk ⟨u, 5⟩)] = true := by
  decide
theorem test_decode_matrix : decodes [
    (0x3800020002000000, 0, .rcfg ⟨u, 1, 4⟩), (0x3800100004800000, 0, .rtol ⟨u, 0, 9⟩), (0x3800200001800004, 0, .rget ⟨u, 3, 0, 4⟩), (0x3800340000000081, 0, .radv ⟨u, 2, 1, true⟩),
    (0x3800400000000001, 0, .rwait ⟨u, 0, 1, false⟩), (0x790001C084000000, 4, .rquant ⟨u, 7, 0, 1, 0, 4, false, .rne⟩), (0x3A00004000000000, 0, .mma ⟨u, false, 0, 1⟩),
    (0x3A00294380000000, 0, .msr ⟨u, false, 4, 5, .minPlus, .bf16⟩), (0x3A00300008000000, 0, .mzero ⟨u, false, .pinf⟩), (0x3A00400002800000, 0, .mverd ⟨u, false, 5⟩),
    (0x3A00502003200000, 0, .mstat ⟨u, true, 6, 1⟩), (0x7B000001D18C0000, 0, .mdrain ⟨u, false, .fp32, .rne, .mem 3 6⟩)] = true := by decide


/-! ## Small states -/

/-- The main core of tile 0 at its code, with team 1 and every register zero. -/
def s0 : State := State.reset.withFetchWord 64 0
/-- g2 and g3 hold two values. -/
def sg (a b : Word) : State := (s0.wrG 2 a).wrG 3 b
/-- The tile in focus changed. -/
def onTile (f : Tile → Tile) (s : State) : State := { s with tile := f s.tile }
/-- The processor in focus changed. -/
def onCore (f : Core → Core) (s : State) : State := { s with core := f s.core }
/-- A fact of the next state. -/
def after (o : Out) (p : State → Bool) : Bool := match o with | .next t => p t | _ => false
/-- A register's value in the next state. -/
def gives (i : Instr) (s : State) (r : GReg) (v : Word) : Bool := after (exec i s) (fun t => t.rdG r == v)
/-- The code and the detail of the last fault record of the team in focus, whose object has no handler. -/
def fails (i : Instr) (s : State) (code : BitVec 8) (detail : Word) : Bool :=
  after (exec i s) (fun t => match t.teams with
    | x :: _ => x.state == .failed && (match x.faults.getLast? with
      | some f => f.faultw.toNat / 2 ^ 56 == code.toNat && f.faulta == detail
      | none => false)
    | [] => false)
/-- Extent 1 is the bytes 0x400000 to 0x400FFF, readable and writable (the spec's example of R167). -/
def ext1 : Extent := ⟨true, true, true, false, false, 0x400000, 0x400FFF, 1⟩
def se : State := onTile (fun t => { t with ext := vset t.ext 1 ext1 }) s0
/-- A loop at level 0 over the two instructions that follow the PC. -/
def sl (n : BitVec 32) : State :=
  onTile (fun t => { t with loop := ({ t.loop with lc := vset t.loop.lc 0 n, ls := vset t.loop.ls 0 s0.core.pc, le := vset t.loop.le 0 (s0.core.pc + 8), active := 1 } : LoopState) }) s0

/-! ## One step, with the result the spec's examples give -/

/-- R157's examples, and a negative divisor. -/
theorem test_division : gives (.div ⟨u, 1, 2, 3⟩) (sg (-7) 2) 1 (-3) ∧ gives (.remS ⟨u, 1, 2, 3⟩) (sg (-7) 2) 1 (-1) ∧
    gives (.divn ⟨u, 1, 2, 3⟩) (sg 0xFFFFFFFFFFFFFFF9 2) 1 0x7FFFFFFFFFFFFFFC ∧ gives (.remn ⟨u, 2, 2, 3⟩) (sg 17 5) 2 2 ∧
    gives (.div ⟨u, 3, 2, 3⟩) (sg 7 (-2)) 3 (-3) ∧ gives (.remS ⟨u, 1, 2, 3⟩) (sg 7 0) 1 7 := by decide +kernel
/-- R159's chain that makes a 64-bit constant. -/
theorem test_lih : gives (.lih ⟨u, 6, 6, 0xA7C15⟩) (s0.wrG 6 0x9E3779B97F4) 6 0x9E3779B97F4A7C15 ∧
    gives (.lih ⟨u, 6, 6, 0xE3779⟩) (s0.wrG 6 9) 6 0x9E3779 ∧ gives (.li ⟨u, 6, -2⟩) s0 6 (-2) ∧ gives (.li ⟨u, 0, 5⟩) s0 0 0 := by decide +kernel
theorem test_shifts : gives (.shra ⟨u, 1, 2, 3⟩) (sg (-8) 66) 1 (-2) ∧ gives (.rotl ⟨u, 1, 2, 3⟩) (sg 0x8000000000000001 1) 1 3 ∧
    gives (.mulhi ⟨u, 1, 2, 3⟩) (sg (-1) 5) 1 (-1) ∧ gives (.mulhn ⟨u, 1, 2, 3⟩) (sg (-1) 5) 1 4 ∧ gives (.clz ⟨u, 1, 2⟩) (sg 1 0) 1 63 ∧
    gives (.ctz ⟨u, 1, 2⟩) s0 1 64 ∧ gives (.bswap ⟨u, 1, 2⟩) (sg 0x0102 0) 1 0x0201000000000000 := by decide +kernel
/-- R162: a field of 16 bits at bit 8, its sign, and an insertion that keeps the rest. -/
theorem test_fields : gives (.extS ⟨u, 1, 2, 8, 16⟩) (sg 0x12345678 0) 1 0x3456 ∧ gives (.extS ⟨u, 1, 2, 4, 4⟩) (sg 0x80 0) 1 (-8) ∧
    gives (.extn ⟨u, 1, 2, 4, 4⟩) (sg 0x80 0) 1 8 ∧ gives (.ins ⟨u, 3, 2, 4, 8⟩) (sg 0xAB (-1)) 3 0xFFFFFFFFFFFFFABF := by decide +kernel
/-- R167's example: a pointer through extent 1, five fp32 elements on, and its distance from the extent's base; beyond the extent the
detail of R169. -/
theorem test_pointers :
    after (exec (.afrom ⟨u, 3, 4, 1, .fp32, 0⟩) (se.wrG 4 0x100)) (fun t => t.rdA 3 == 0xE000000000400100 &&
      after (exec (.aaddi ⟨u, 3, 3, 5⟩) t) (fun t => t.rdA 3 == 0xE000000000400114 && gives (.atog ⟨u, 5, 3, 1⟩) t 5 0x114)) ∧
    after (exec (.bchki ⟨u, 3, 9, 1, 2, 4⟩) ((se.wrA 3 0xE000000000400114).wrG 9 0xEE8)) (fun t => t.core.pc == s0.core.pc + 8) ∧
    fails (.bchki ⟨u, 3, 9, 1, 2, 4⟩) ((se.wrA 3 0xE000000000400114).wrG 9 0xEF0) codeExtent 0x0A40080000001004 := by decide +kernel
/-- R171, R175, R176. -/
theorem test_control : after (exec (.br ⟨u, 2⟩) s0) (fun t => t.core.pc == s0.core.pc + 16) ∧
    after (exec (.brl ⟨u, 14, 1⟩) s0) (fun t => t.rdA 14 == s0.core.pc + 8) ∧ fails (.br ⟨u, -1⟩) s0 codeBadaddr (s0.core.pc - 8) ∧
    after (exec (.nop ⟨u⟩) { sl 2 with core := { s0.core with pc := s0.core.pc + 8 } }) (fun t => t.core.pc == s0.core.pc &&
      vget t.tile.loop.lc 0 0 == 1) ∧ fails (.loopi ⟨1, 1, 5⟩) s0 codeLoopuse 0x101 := by decide +kernel

/-! ## States and operands that meet the hypotheses of the statements -/

theorem witness_DecodeEncode : (Instr.addi ⟨⟨true, 2⟩, 7, 7, -1⟩).wf = true ∧ fld ((Instr.addi ⟨⟨true, 2⟩, 7, 7, -1⟩).encode.headD 0) 52 4 ≠ 8 ∧
    (Instr.cpy ⟨u, 7, 2, 1, 5⟩).wf = true ∧ (Instr.cpy ⟨u, 7, 2, 1, 5⟩).encode.length = 2 ∧ (Instr.stageTend ⟨u⟩).wf = true ∧
    (Instr.stageTend ⟨u⟩).encode.length = 1 ∧ decode 0x02A001C7000FFFFF 0 = .ok (.addi ⟨⟨true, 2⟩, 7, 7, -1⟩) := by decide +kernel
theorem witness_StepRunsDecoded :
    let s : State := State.reset.withFetchWord 64 0x0300018000000009
    let ill : State := State.reset.withFetchWord 64 0x0B00000000000000
    (s.agenda = [] ∧ s.issuing = true ∧ s.stubAt = none ∧ s.fetch = .words 0x0300018000000009 0 ∧
      decodeFor (columnOf s.cur) 0x0300018000000009 0 = .ok (.li ⟨u, 6, 9⟩) ∧ s.held (.li ⟨u, 6, 9⟩) 0x0300018000000009 = false ∧
      after (exec (.li ⟨u, 6, 9⟩) s) (fun _ => true)) ∧
    (ill.issuing = true ∧ ill.stubAt = none ∧ ill.fetch = .words 0x0B00000000000000 0 ∧
      decodeFor (columnOf ill.cur) 0x0B00000000000000 0 = .error .major ∧
      after (trapAt codeIllegal 0x0B00000000000000 8 ill) (fun _ => true)) ∧
    (let o := onCore (fun c => { c with pc := 0 }) s
     o.agenda = [] ∧ o.issuing = true ∧ o.stubAt = none ∧ o.inCode o.core.pc.toNat = false) ∧
    (s.cur = .main 0 ∧ s.inCode s.core.pc.toNat = true ∧ s.trained s.core.pc.toNat = true ∧
      s.bad.contains (s.core.pc.toNat / 32 * 32) = false ∧ fld 0x42A001C7000FFFFF 62 2 = 1 ∧ s.badCode (s.core.pc.toNat + 8) = false) ∧
    (let w := onCore (fun c => { c with lates := [⟨.ld (.g 6) false none, scratchAddr 0 0, 8, .rlx, .self, [], 0, 0⟩] }) s
     w.agenda = [] ∧ w.issuing = true ∧ w.held (.li ⟨u, 6, 9⟩) 0x0300018000000009 = false ∧ w.awaits (.li ⟨u, 6, 9⟩) = true ∧
       s.awaits (.li ⟨u, 6, 9⟩) = false ∧ s.teamOf s.cur ≠ none ∧ ({ s with cur := .trust 0 } : State).teamOf (.trust 0) = none) ∧
    ((Instr.droop ⟨0⟩).encode = [] ∧ after (exec (.droop ⟨0⟩) s) (fun _ => true)) := by decide +kernel
theorem witness_GuardFails : s0.guard ⟨false, 1⟩ = false ∧ s0.guard ⟨true, 0⟩ = false ∧ (Instr.nop ⟨⟨false, 1⟩⟩).encode = [0x3310400000000000] ∧
    (Instr.estat ⟨⟨false, 1⟩, 1, 2⟩).encode.length = 2 := by decide +kernel
theorem witness_StepKeepsMemory : s0.memOk = true ∧ after (step s0) (fun _ => true) = true := by decide +kernel
theorem witness_ResetValues :
    let l : List (Nat × List Byte) := [(0, [1, 2]), (2 ^ 20 - 1, [7])]
    s0.memOk = true ∧ (∀ x ∈ l, x.1 + x.2.length ≤ 2 ^ 20) ∧ l.Pairwise (fun x y => x.1 + x.2.length ≤ y.1 ∨ y.1 + y.2.length ≤ x.1) ∧
    2 ^ 20 - 1 < 2 ^ 20 ∧ 1023 < 1024 ∧ (∀ x ∈ l, ¬(x.1 ≤ 2 ∧ 2 < x.1 + x.2.length)) ∧ ([1, 2] : List Byte)[1]? = some 2 := by decide +kernel
theorem witness_ScalarArithmetic : s0.guard u = true ∧ (sg 7 0).rdG 3 = 0 ∧
    (sg 0x8000000000000000 (-1)).rdG 2 = 0x8000000000000000#64 ∧ (sg 0x8000000000000000 (-1)).rdG 3 = 0xFFFFFFFFFFFFFFFF#64 ∧
    (sg 0x8000000000000000 1).rdG 3 ≠ 0 ∧ (sg 0 (-1)).rdG 3 ≠ 0 := by decide +kernel
theorem witness_ScalarForms : s0.guard u = true ∧ (Instr.ins ⟨u, 1, 2, 60, 4⟩).wf = true ∧ (Instr.ins ⟨u, 1, 2, 0, 64⟩).wf = true := by decide +kernel
theorem witness_AddressInstructions :
    se.guard u = true ∧ (se.extent 1).valid = true ∧ blogOk .fp32 0 = true ∧ blogOk .i8 1 = false ∧
    (se.wrG 4 0x1000).rdG 4 = 0x1000 ∧ (se.extent 1).limit.toNat + 1 - (se.extent 1).base.toNat = 0x1000 ∧ (se.extent 2).valid = false ∧
    0x1000 < ((se.wrG 4 0x1001).rdG 4).toNat ∧ (0xE000000000401000#64).toNat / 2 ^ 53 % 16 = 0 ∧ (0xE040000000401000#64).toNat / 2 ^ 53 % 16 ≠ 0 ∧
    (0xE000000000401000#64).toNat % 2 ^ 53 - 0x400000 = 0x1000 ∧ (se.extent 1).rights &&& 3 = 3 ∧ se.checkGroup = none ∧
    (let x (g : CheckGroup) : State := { se with teams := [{ probeTeam [] with code := { (probeTeam []).code with anyOf := [(0, heapBase, g)] } }] }
     (x ⟨[1, 3], some 5⟩).checkGroup = some ⟨[1, 3], some 5⟩ ∧ (x ⟨[], none⟩).checkGroup = some ⟨[], none⟩ ∧
       ((x ⟨[1, 3], none⟩).extent 1).valid = true ∧ ((x ⟨[2, 3], none⟩).extent 2).valid = false) := by decide +kernel
/-- R171 at both ends of a body, and outside one. -/
theorem witness_Branches :
    let t := s0.core.pc.toNat
    (t % 8 = 0 ∧ s0.inCode t = true ∧ s0.returns t = false ∧ s0.loopTests = false ∧ s0.tile.handler.hin = false ∧ s0.guard u = true ∧
      (t : Int) = ((t : Int) + 8 * (0 : BitVec 32).toInt) % 2 ^ 53 ∧ ((s0.wrA 14 s0.core.pc).rdA 14).toNat / 2 ^ 53 % 16 = 0) ∧
    ((sl 2).loopTests = true ∧ LoopState.inBody (sl 2).tile.loop (BitVec.ofNat 64 t) = true ∧
      LoopState.inBody (sl 2).tile.loop (BitVec.ofNat 64 (t + 8)) = true ∧ (sl 2).inCode (t + 8) = true) ∧
    (let h := onTile (fun k => { k with handler := { k.handler with hin := true } }) s0
     h.onMain = true ∧ h.tile.handler.hin = true ∧ h.inHandler t = false ∧ h.loopTests = false) := by decide +kernel
theorem witness_Loops :
    (s0.tile.handler.inBody = false ∧ s0.tile.loop.active = 0 ∧ (sg (2 ^ 32) 0).rdG 2 = 2 ^ 32 ∧ (sg (2 ^ 32 - 1) 0).rdG 2 = 2 ^ 32 - 1) ∧
    (let h := onTile (fun k => { k with handler := { k.handler with inBody := true } }) (sl 2)
     h.tile.handler.inBody = true ∧ h.tile.loop.active ≠ 0) ∧
    ((sl 2).tile.loop.active = 1 ∧ (vget (sl 2).tile.loop.le 0 0).toNat < (sl 2).skipCode ((sl 2).core.pc.toNat + 8) 1 ∧
      ¬ (vget (sl 2).tile.loop.le 0 0).toNat < (sl 2).skipCode ((sl 2).core.pc.toNat + 8) 0) ∧ s0.guard u = true := by decide +kernel
theorem witness_EndOfBody : (sl 2).loopTests = true ∧ (sl 2).tile.loop.active = 1 ∧ (sl 2).core.pc ≠ vget (sl 2).tile.loop.le 0 0 ∧
    (onCore (fun c => { c with pc := c.pc + 8 }) (sl 2)).core.pc = vget (sl 2).tile.loop.le 0 0 ∧ 1 < (vget (sl 2).tile.loop.lc 0 0).toNat ∧
    (vget (sl 1).tile.loop.lc 0 0).toNat ≤ 1 := by decide +kernel

/-! ## Vectors and memory -/

/-- v1 and v2 hold two values, every lane of w4 and w5 as the two masks say. -/
def sv (a b : Vec) : State := (((s0.wrV 1 a).wrV 2 b).wrW 4 0xF0).wrG 3 2
/-- The first lanes of the vector that an instruction gives. -/
def lanes (i : Instr) (s : State) (d : VReg) (et : Fmt) (l : List Nat) : Bool :=
  after (exec i s) (fun t => (List.range l.length).map (vlane et (t.rdV d)) == l)
/-- a1 points at the scratchpad of tile 0 at 0x100, which holds eight bytes. -/
def sm : State := ({ s0 with mem := memPut s0.mem (cellsOf (scratchAddr 0 0x100) 0xF234567890ABCDE1 8) } : State).wrA 1
  (wNat (scratchAddr 0 0x100))
/-- a1 points at a queue of tile 0 with one entry. -/
def sq (l : List Word) : State := ({ s0 with queues := [(3, l)] } : State).wrA 1 (wNat (portAddr 0 0x300))
/-- An issued access of the processor in focus. -/
def acc0 (k : AccKind) (a n : Nat) : Access :=
  { kind := k, addr := a, size := n, pieces := if k = .store then [cellsOf a 0xAB n] else [[]], performed := false, ord := .rlx, sco := .self,
    refused := false, slot := none, vec := false, marked := false, paid := false, seq := 0, pc := 0 }
def withAcc (x : Access) (s : State) : State := onCore (fun c => { c with pend := [x] }) s
def lazyOf (s : State) : State := { s with eager := false }
/-- Module 1 is a peer, with an address of its memory. -/
def withPeer (s : State) : State := { s with fabric := { s.fabric with peers := vset s.fabric.peers 1 { Peer.empty with valid := true, allow := 64 } } }
def peerAddr : Nat := 2 ^ 46 + 0x400000
/-- The processor in focus waits. -/
def waiting (k : WaitKind) (limit : Nat) (s : State) : State :=
  { onCore (fun c => { c with wait := some ⟨k, 0, limit⟩ }) s with cycle := 1000, eager := false }

/-- R184, R179: lanes beyond the mask keep their old value. -/
theorem test_vector_integers : lanes (.viadd ⟨u, 3, .v 1, .g 3, .i8, .rne, 0⟩) (sv 0x7FFF 0) 3 .i8 [1, 0x81, 2] ∧
    lanes (.viadds ⟨u, 3, .v 1, .g 3, .i8, .rne, 0⟩) (sv 0x7FFF 0) 3 .i8 [1, 0x7F, 2] ∧
    lanes (.viadd ⟨u, 1, .v 1, .g 3, .n8, .rne, 4⟩) (sv 0x1111111111 0) 1 .n8 [0x11, 0x11, 0x11, 0x11, 0x13, 2] ∧
    lanes (.vshra ⟨u, 3, .v 1, .i 1, .i16, .rne, 0⟩) (sv 0x8000 0) 3 .i16 [0xC000, 0] ∧
    after (exec (.vcmplt ⟨u, 2, .v 1, .v 2, .i8, 0⟩) (sv 0xFF01 0x0002)) (fun t => t.rdW 2 == 3) ∧
    lanes (.vrsum ⟨u, 3, .v 1, .i8, .rne, 4⟩) (sv 0xFF04030201000000 0) 3 .i8 [8, 0] := by decide +kernel
/-- R83, R91, R97: 1 + 1, 1 / 0 with DZ, and 1 + 2^-9 to bf16 down and up. -/
theorem test_vector_floats : lanes (.vadd ⟨u, 3, .v 1, .i 1, .fp32, .rne, 0⟩) (sv 0x3F800000 0) 3 .fp32 [0x40000000, 0x3F800000] ∧
    after (exec (.vdiv ⟨u, 3, .i 1, .v 1, .bf16, .rne, 0⟩) (sv 0x8000 0)) (fun t => vlane .bf16 (t.rdV 3) 0 == 0xFF80 && t.core.fpflags == fDZ) ∧
    fpBf16.conv false .rne (fpFp32.val false 0x3F804000) = (0x3F80, fNX) ∧ fpBf16.conv false .rup (fpFp32.val false 0x3F804000) = (0x3F81, fNX) ∧
    lanes (.vrcp ⟨u, 3, .v 1, .fp16, .rne, 0⟩) (sv 0x4000 0) 3 .fp16 [0x3800] := by decide +kernel
/-- R95's example seed, its first step, and the two lanes of spec 05. -/
theorem test_stochastic : seedStart 1 1 = 0xD1B54A32D192ED02 ∧ seedNext 0xD1B54A32D192ED02 1 = 0x6FECC3EC50DD6917 ∧
    fpBf16.conv false (.rsr 0x2A10) (fpFp32.val false 0x3F804000) = (0x3F81, fNX) ∧
    fpBf16.conv false (.rsr 0x9C3E) (fpFp32.val false 0x3F804000) = (0x3F80, fNX) := by decide +kernel
/-- The fp4 block of spec 05, "A block that loses its small elements", and its contribution to a cell of value 1.0. -/
theorem test_fp4_block :
    let xs := [0x4220, 0x4040, 0x3FA0, 0xBF00, 0, 0x4158, 0xC1A2, 0x40D8].map (fpBf16.val false)
    let b := (blocks4 false (fun _ => .rne) (some ⟨1, 3⟩) 0 [xs]).headD ⟨0, [], 0, 0, false, false⟩
    b.codes = [7, 1, 0, 8, 0, 4, 0xD, 2] ∧ b.scale = 0x76 ∧ b.sats = 0 ∧ b.unders = 2 ∧
    w80Add 0x3FFE0000000000000000 (FVal.fin false 43875 0 |> fun x => (FVal.div x (.fin false 1000 0)).1) = 0x4008CE00000000000000 := by
  decide +kernel
/-- The two combinations of spec 05, "Two MX blocks meet in a router". -/
theorem test_mx_combine : mxCombine fpE4m3 448 0xFE 0xFE [0x7E, 0x7F, 0x38] [0x7E, 0x38, 0x40] = (0xFE, [0x7E, 0x7F, 0x44], true) ∧
    mxCombine fpE4m3 448 0x7F 0x83 [0x39] [0x5E] = (0x80, [0x76], false) := by decide +kernel
/-- R244: a signed and an unsigned word, and a store with the access it issues. -/
theorem test_loads_and_stores : gives (.ld ⟨u, .g 2, ⟨1, 0, .one, 4⟩, .w, .rlx, .self, true⟩) sm 2 0xFFFFFFFFF2345678 ∧
    gives (.ld ⟨u, .g 2, ⟨1, 0, .one, 1⟩, .h, .rlx, .self, false⟩) sm 2 0xABCD ∧
    after (exec (.st ⟨u, 2, ⟨1, 0, .one, 0⟩, .h, .rlx, .self⟩) (sm.wrG 2 0x12345)) (fun t =>
      t.core.pend.map Access.pieces == [[[(scratchAddr 0 0x100, 0x45), (scratchAddr 0 0x101, 0x23)]]] && t.mem == sm.mem) ∧
    after (exec (.amomin ⟨u, 2, ⟨1, 0, .one, 4⟩, .w, .rlx, .self, true⟩) (sm.wrG 2 5)) (fun t =>
      t.rdG 2 == 0xFFFFFFFFF2345678 && memNat t.mem (scratchAddr 0 0x104) 4 == 0xF2345678) := by decide +kernel
/-- R253: a pop takes the oldest entry; R247: FESET's step sets the bit of its unit. -/
theorem test_queues_and_full_bits : gives (.qpop ⟨u, 2, 1, 0, .one, .tile⟩) (sq [7, 8]) 2 7 ∧
    after (exec (.qtry ⟨u, 2, 1, 1, 0, .one, .tile⟩) (sq [])) (fun t => t.rdP 1 == false && t.core.pc == s0.core.pc + 8) ∧
    after (exec (.storeStep ⟨.main 0, 0, 0⟩) (withAcc (acc0 .feset (scratchAddr 0 0x108) 8) s0)) (fun t =>
      t.full == [scratchAddr 0 0x108 / 8]) := by decide +kernel
/-- R271's example. -/
theorem test_iwin : gives (.iwin ⟨u, 2, ⟨1, 0, .one, 0⟩⟩) (({ s0 with gtime := 1234567 } : State).wrA 1 (wNat (weightAddr 0 0x6000000))) 2 16433 := by
  decide +kernel

theorem witness_VectorIntegers : s0.guard u = true ∧ s0.noStreams = true ∧ Fmt.i8.isI = true ∧ Fmt.n64.isI = true := by decide +kernel
theorem witness_VectorFloats : s0.guard u = true ∧ s0.noStreams = true ∧ Fmt.bf16.isF = true ∧ Fmt.fp64.isF = true ∧ Fmt.fp32 ≠ .fp64 := by
  decide +kernel
theorem witness_RoundedValues :
    let c : Ctl := s0.ctl .bf16 .rne 0
    c.et.isF = true ∧ c.fp.infCode < (opVadd c 0 0x7FC1 0 0).1 % c.fp.signBit ∧ 0x7F80 < 2 * fpBf16.signBit ∧
    0x7F80 % fpBf16.signBit ≤ fpBf16.infCode ∧ c.daz = false ∧ c.ftz = false ∧ 0 ≠ c.fp.signBit ∧
    opVadd c 0 0 0 0 = (0, 0) ∧ opVadd c 3 0x7F80 0 0 = (0x7F80, 0) ∧ opVadd c 3 0x8001 0 0 = (0x8001, 0) := by decide +kernel
theorem witness_VectorMasks : s0.guard u = true ∧ s0.noStreams = true ∧ Fmt.i8.isX = true ∧ Fmt.i8.isI = true ∧ Fmt.fp32.isX = true ∧
    Fmt.fp32.isI = false := by decide +kernel
theorem witness_VectorPermutes : s0.guard u = true ∧ s0.noStreams = true ∧ Fmt.i32 ≠ .raw ∧ Fmt.i32.isI = true ∧
    (8 = 2 ^ 3 ∧ 8 < Fmt.i32.lanes ∧ 16 = 2 ^ 4 ∧ 16 ≤ Fmt.i32.lanes) ∧ ¬ 16 < Fmt.i32.lanes ∧ (sv 0 0).rdG 3 = 2 ∧
    ((5 : BitVec 9).signExtend 64).toNat = 5 := by decide +kernel
theorem witness_VectorReductions : s0.guard u = true ∧ s0.noStreams = true ∧ Fmt.i16.isI = true ∧ Fmt.fp32.isF = true ∧ Fmt.fp32.isX = true ∧
    (∃ k, k < Fmt.i16.lanes ∧ (s0.rdW 0).getLsbD k = true) ∧ (∀ k, k < Fmt.i16.lanes → (s0.rdW 4).getLsbD k = false) ∧ (2 : BitVec 2) ≠ 3 :=
  ⟨by decide +kernel, by decide +kernel, rfl, rfl, rfl, ⟨0, by decide +kernel, by decide +kernel⟩, by decide +kernel, by decide⟩
theorem witness_VectorConversions : s0.guard u = true ∧ s0.noStreams = true ∧ (Instr.vpack ⟨u, 1, .v 2, .v 3, .i8, true⟩).wf = true ∧
    (Instr.vunpack ⟨u, 1, .v 2, true, .i16⟩).wf = true ∧ (Instr.vcvt ⟨u, 1, .v 2, 0, .fp32, .i32, .rne, 0⟩).wf = true ∧
    (Instr.vcvt ⟨u, 1, .v 2, 1, .bf16, .fp32, .rne, 3⟩).wf = true ∧ (Instr.vcvt ⟨u, 1, .v 2, 1, .fp32, .bf16, .rne, 3⟩).wf = true ∧
    Fmt.fp32.lanes = 16 ∧ Fmt.bf16.lanes = 32 ∧ (s0.rdW 4).getLsbD 3 = false ∧ (s0.rdW 0).getLsbD 31 = true := by decide +kernel
theorem witness_VectorMemory :
    let a := scratchAddr 0 0x100
    sm.guard u = true ∧ sm.noStreams = true ∧ ptrOk (sm.rdA 1) = true ∧ sm.eager = true ∧ sm.mustWait [a] 64 .rlx .self = false ∧
    sm.firstFault (allPieces [a] 64) = none ∧ sm.vecOk a 64 = true ∧ sm.vecOk (scratchAddr 0 0xFFFC0) 64 = true ∧
    [a] = [(((ptrAddr (sm.rdA 1) : Int) + (0 : BitVec 13).toInt + (sm.rdG 0).toInt * 1) % 2 ^ 53).toNat] ∧
    (List.range 16).map (fun i => (((ptrAddr (sm.rdA 1) : Int) + (0 : BitVec 13).toInt + (i : Int) * ((sm.rdG 0).toInt * 1)) % 2 ^ 53).toNat)
      = List.replicate 16 a ∧ (List.replicate 16 a).all (fun x => x % 4 == 0) = true ∧
    sm.mustWait (List.replicate 16 a) 4 .rlx .self = false ∧ sm.firstFault (allPieces (List.replicate 16 a) 4) = none ∧
    (List.replicate 16 a).all (fun x => sm.vecOk x 4) = true ∧ (sm.rdV 2).toNat = 0 := by decide +kernel
/-- A pop stream in slot 0 and a push stream in slot 3 over the scratchpad: two vectors each. -/
def ss : State :=
  let c : Stream := { base := wNat (scratchAddr 0 0x200), bound := #v[2, 1, 1, 1], stride := #v[64, 0, 0, 0], index := #v[0, 0, 0, 0],
                      configured := true, isBound := true, push := false, ahead := [], lost := [] }
  (sm.setSlot 0 c).setSlot 3 { c with push := true }
theorem witness_Streams :
    (ptrOk (sm.rdA 1) = true ∧ (sm.slot 2).isBound = false ∧ (sm.slot 2).configured = false ∧ (ss.slot 3).configured = true ∧
      (sg (2 ^ 32 - 1) (BitVec.ofInt 64 (-2 ^ 31))).rdG 2 = 2 ^ 32 - 1 ∧ ((sg 0 (BitVec.ofInt 64 (-2 ^ 31))).rdG 3).toInt = -2 ^ 31 ∧
      ((sg 0 (2 ^ 31)).rdG 3).toInt = 2 ^ 31 ∧ (lazyOf s0).eager = false ∧ ((lazyOf s0).getCore (lazyOf s0).cur).pend = [] ∧
      (let w := lazyOf (withAcc { acc0 .store 0 8 with slot := some 3 } s0)
       (w.getCore w.cur).pend.map Access.slot = [some 3])) ∧
    (let c := ss.slot 0
     c.isBound = true ∧ c.push = false ∧ c.done = false ∧ ss.vecOk (c.addr) 64 = true ∧ c.ahead = [] ∧ ss.eager = true ∧
       ss.mustWait [c.addr] 64 .rlx .self = false ∧ ss.firstFault (allPieces [c.addr] 64) = none) ∧
    (let c := ss.slot 3
     c.isBound = true ∧ c.push = true ∧ c.done = false ∧ ss.vecOk (c.addr) 64 = true) ∧
    (∀ k, k < 4 → (ss.slot 0).ix k < (ss.slot 0).bd k) ∧ (ss.slot 0).next.done = false ∧ (ss.slot 0).next.next.done = true ∧
    (ptrOk ((ss.wrA 1 0x0400000000000000).rdA 1) = false ∧ ptrOk (ss.rdA 1) = true ∧ (ss.slot 0).lost = [] ∧ ss.tile.rep.count = 0 ∧
      ((sg (2 ^ 32) 0).slot 0).isBound = false ∧ ¬ ((sg (2 ^ 32) 0).rdG 2).toNat < 2 ^ 32 ∧ ¬ ((sg 0 (2 ^ 31)).rdG 3).toInt < 2 ^ 31 ∧
      ss.guard u = true ∧ Fmt.i32.isI = true) ∧
    (∀ n ∈ [0, 3], let d := ss.setSlot n (ss.slot n).next.next
      let o := ss.setSlot n { ss.slot n with base := 0xC000000000 }
      (d.slot n).isBound = true ∧ (d.slot n).done = true ∧ (o.slot n).isBound = true ∧ (o.slot n).done = false ∧
        o.vecOk (o.slot n).addr 64 = false ∧ (d.slot n).push = decide (n = 3)) := by decide +kernel
theorem witness_Repeats :
    let w : Word := 0x11 * 2 ^ 56 + 1 * 2 ^ 38 + 2 * 2 ^ 30 + 1 * 2 ^ 28 + 3 * 2 ^ 22 + 3 * 2 ^ 10 + 4 * 2 ^ 4
    let r : State := { s0 with mem := memPut s0.mem (cellsOf (s0.core.pc.toNat + 8) w.toNat 8) }
    let q := onTile (fun t => { t with rep := { Repeat.empty with words := [w], count := 2 } }) s0
    (r.tile.rep.count = 0 ∧ firstBad (r.captured (r.core.pc.toNat + 8) 1) = none ∧ (r.captured (r.core.pc.toNat + 8) 1).map Prod.fst = [w] ∧
      w.toNat / 2 ^ 56 % 64 = 0x11 ∧ r.loopTests = false ∧ (sg (2 ^ 32) 0).rdG 2 = 2 ^ 32) ∧
    (∀ v ∈ [(Instr.addi ⟨u, 7, 7, -1⟩), .cpy ⟨u, 7, 2, 1, 5⟩], let e := v.encode
      let b : State := { s0 with mem := memPut s0.mem (cellsOf (s0.core.pc.toNat + 8) (e.headD 0 + e.getD 1 0 * 2 ^ 64) 16) }
      b.tile.rep.count = 0 ∧ firstBad (b.captured (b.core.pc.toNat + 8) 1) = none ∧
        (b.captured (b.core.pc.toNat + 8) 1).map Prod.fst = [BitVec.ofNat 64 (e.headD 0)] ∧ e.headD 0 / 2 ^ 56 % 64 ∉ [0x10, 0x16]) ∧
    (s0.guard u = true ∧ q.tile.rep.count ≠ 0) ∧
    (q.pastStop (.main 0) = false ∧ (q.getCore (.main 0)).running = true ∧ (q.focus (.main 0)).tile.rep.words[0]? = some w ∧
      decodeFor .main (staggered 0 0 w.toNat) 0 = .ok (.viadd ⟨u, 1, .v 2, .g 3, .i16, .rne, 4⟩) ∧
      (passOf (.viadd ⟨u, 1, .v 2, .g 3, .i16, .rne, 4⟩)).isSome = true ∧
      (match passOf (.viadd ⟨u, 1, .v 2, .g 3, .i16, .rne, 4⟩) with
        | some (_, f) => (match f (q.focus (.main 0)) with | .ok _ _ => true | _ => false)
        | none => false) = true ∧ (q.focus (.main 0)).guard ⟨true, 0⟩ = false) := by decide +kernel
theorem witness_LoadResult : sm.guard u = true ∧ ptrOk (sm.rdA 1) = true ∧ Region.ldOk (sm.region (sm.ea m1 .d)) = true ∧
    Region.ldOk (sm.region (sm.ea m1 .d + 7)) = true ∧ sm.eager = true ∧ sm.mustWait [sm.ea m1 .d] 8 .rlx .self = false ∧
    sm.firstFault (allPieces [sm.ea m1 .d] 8) = none ∧
    (let g : State := { lazyOf sm with cur := .stage 0 }
     g.goesOn = true ∧ g.guard u = true ∧ ptrOk (g.rdA 1) = true ∧ Region.ldOk (g.region (g.ea m1 .d)) = true) := by decide +kernel
theorem witness_Stores :
    let t := withAcc (acc0 .store (scratchAddr 0 0x100) 8) s0
    let a := acc0 .store (scratchAddr 0 0x100) 8
    (ptrOk (sm.rdA 1) = true ∧ Region.stOk (sm.region (sm.ea m1 .d)) = true ∧ Region.stOk (sm.region (sm.ea m1 .d + 7)) = true) ∧
    (t.memOk = true ∧ (t.getCore (.main 0)).pend[0]? = some a ∧ a.performed = false ∧ t.mayPerform (.main 0) 0 = true ∧
      a.pieces[0]? = some (cellsOf (scratchAddr 0 0x100) 0xAB 8) ∧ t.wayFault (scratchAddr 0 0x100) = none ∧ t.mustSend a = none ∧ t.outOfTurn (.main 0) a = false ∧
      t.admits (.main 0) (scratchAddr 0 0x100) = true ∧ (t.region (scratchAddr 0 0x100)).isScratch = true ∧
      t.unready (scratchAddr 0 0x100) 8 = false ∧ t.keptOut (scratchAddr 0 0x100) 8 = [] ∧
      t.linesAt (.main 0) (scratchAddr 0 0x100) 8 = [] ∧ ((cellsOf (scratchAddr 0 0x100) 0xAB 8).map Prod.fst).Nodup) ∧
    (∀ k ∈ [AccKind.feset, .feclr], let w := withAcc (acc0 k (scratchAddr 0 0x100) 8) s0
      let e := acc0 k (scratchAddr 0 0x100) 8
      let o : State := { w with homeAt := [(.unit (scratchAddr 0 0x100 / 8), w.cycle, 3)] }
      w.mustSend e = none ∧ w.outOfTurn (.main 0) e = false ∧ o.outOfTurn (.main 0) e = true ∧
      w.mayPerform (.main 0) 0 = true ∧ e.pieces[0]? = some [] ∧ w.wayFault (scratchAddr 0 0x100) = none ∧
        w.admits (.main 0) (scratchAddr 0 0x100) = true) := by decide +kernel
theorem witness_LoadAndAckSteps :
    let q : LoadPart := ⟨scratchAddr 0 0x100, 8, 0, scratchAddr 0 0x100, 8, none⟩
    let w : Load := ⟨[q], .acq, .system, false, none⟩
    let l := onCore (fun c => { c with load := some w }) sm
    let a := withAcc { acc0 .store 0 8 with performed := true } s0
    ((l.getCore (.main 0)).load = some w ∧ l.partHeld (.main 0) w 0 q = false ∧ l.messageOpen (paidPiece [q] q) q.addr = true ∧
      l.inWindow q.addr = false ∧ l.readFault (.main 0) q.addr 8 = none) ∧
    (a.getCore (.main 0)).pend[0]? = some { acc0 .store 0 8 with performed := true } ∧
    ((withAcc { acc0 .store 0 8 with performed := true, marked := true } s0).getCore (.main 0)).pend.map Access.marked = [true] := by decide +kernel
theorem witness_FullBits :
    let f : State := { sm with full := [scratchAddr 0 0x100 / 8] }
    sm.guard u = true ∧ ptrOk (sm.rdA 1) = true ∧ (sm.region (sm.ea m1 .d)).isScratch = true ∧ (sm.region (sm.ea m1 .d + 7)).isScratch = true ∧
    sm.ea m1 .d % 8 = 0 ∧ sm.readFault sm.cur (sm.ea m1 .d) 8 = none ∧ sm.wayBlocked (sm.ea m1 .d) 8 = none ∧ sm.goesOn = false ∧
    ({ lazyOf sm with cur := .stage 0 } : State).goesOn = true ∧ sm.heldBack sm.cur (sm.ea m1 .d) 8 .acq .tile = false ∧
    sm.ea m1 .d / 8 ∉ sm.full ∧ f.ea m1 .d / 8 ∈ f.full ∧ f.readFault f.cur (f.ea m1 .d) 8 = none := by decide +kernel
theorem witness_AtomicResults : sm.memOk = true ∧ sm.guard u = true ∧ ptrOk (sm.rdA 1) = true ∧ Region.amoOk (sm.region (sm.ea m1 .d)) = true ∧
    Region.amoOk (sm.region (sm.ea m1 .d + 7)) = true ∧ sm.ea m1 .d % 8 = 0 ∧ sm.mustWait [sm.ea m1 .d] 8 .ar .system = false ∧
    sm.goesOn = false ∧ sm.core.lates = [] ∧ sm.readFault sm.cur (sm.ea m1 .d) 8 = none ∧ sm.linesAt sm.cur (sm.ea m1 .d) 8 = [] ∧
    sm.core.load = none ∧ sm.eager = true ∧
    (let p := lazyOf ((withPeer sm).wrA 1 (wNat peerAddr))
     p.eager = false ∧ p.peerAt (p.ea m1 .d) ≠ none ∧ p.memOk = true ∧ p.goesOn = false ∧ p.core.load = none ∧ p.core.lates = [] ∧
       p.mustWait [p.ea m1 .d] 8 .ar .system = false ∧ p.ea m1 .d % 8 = 0 ∧ ptrOk (p.rdA 1) = true ∧ Region.amoOk (p.region (p.ea m1 .d)) = true) := by
  decide +kernel
/-- A queue with room, one with 31 entries, a full one and an empty one; a push whose entry the NI holds. -/
theorem witness_Queues :
    let a := portAddr 0 0x300
    (∀ n ∈ [1, 31], let s := sq (List.replicate n 7)
      s.guard u = true ∧ ptrOk (s.rdA 1) = true ∧ (s.region (s.queueEa 1 0 .one)).queue = some (0, 3) ∧ s.eager = true ∧ s.core.wait = none ∧
        s.core.pend = [] ∧ s.core.lates = [] ∧ s.keptOut a 8 = [] ∧ s.afterHome (.queue 3) (pushPlace s.cur) = false ∧ s.tile.rep.count = 0 ∧ s.wayOpen a = true ∧ s.wayFault a = none ∧ s.admits s.cur a = true ∧
        (s.queue 3).length < 32 ∧
        s.tileStopped 0 = false) ∧
    (let s := sq [7]
     homeTile s.cur = some 0 ∧ s.goesOn = false ∧ ({ lazyOf s with cur := .stage 0 } : State).goesOn = true ∧ s.wayBlocked a 8 = none ∧ s.readFault s.cur a 8 = none ∧ s.heldWriting a 8 .acq .tile = false ∧ s.heldBack s.cur a 8 .rlx .self = false ∧
       s.queue 3 = [7] ∧ (sq []).queue 3 = []) ∧
    (∀ n ∈ [31, 32], let s := withAcc { acc0 (.qpush 5) a 8 with refused := true } (sq (List.replicate n 7))
      s.mayPerform (.main 0) 0 = true ∧ s.wayFault a = none ∧ s.admits (.main 0) a = true ∧ s.keptOut a 8 = [] ∧
        (s.region a).queue = some (0, 3) ∧ s.tileStopped 0 = false ∧ (s.queue 3).length = n ∧
        s.afterHome (.queue 3) (pushPlace (.main 0)) = false ∧
        ({ s with homeAt := [(.queue 3, s.cycle, popPlace)] } : State).afterHome (.queue 3) (pushPlace (.main 0)) = true) ∧
    (∀ p ∈ [(WaitKind.pop, Instr.qpop ⟨u, 2, 1, 0, .one, .tile⟩), (.popYield, .qpopw ⟨u, 2, 1, 0, .one, .tile⟩)],
      let w := BitVec.ofNat 64 (p.2.encode.headD 0)
      let s := waiting p.1 0 (({ State.reset.withFetchWord 64 w.toNat with queues := [(3, [7])] } : State).wrA 1 (wNat a))
      (s.getCore (.main 0)).running = true ∧ (s.focus (.main 0)).fetch = .words w 0 ∧ (s.focus (.main 0)).readFault (.main 0) a 8 = none ∧
        (s.focus (.main 0)).heldWriting a 8 .acq .tile = false ∧ s.pastStop (.main 0) = false ∧ decodeFor .main w.toNat 0 = .ok p.2) := by decide +kernel
theorem witness_Fences :
    let w := lazyOf (withAcc (acc0 .store (scratchAddr 0 0x100) 8) s0)
    let k := lazyOf (withAcc (acc0 (.ksend 0 0 1) (scratchAddr 0 0) 4) s0)
    let c : Cmd := ⟨0, .copy (scratchAddr 0 0) (scratchAddr 0 64) 64 1 0 0, .pending, 0, [], [], [], 0, 0, false⟩
    let e := lazyOf (onCore (fun x => { x with cmds := [c] }) s0)
    let f := onCore (fun x => { x with engRec := some ⟨0, codeMemerr, 5⟩ }) s0
    (s0.fenceDone .system = true ∧ s0.report .system true = none ∧ s0.cmdsDone .system = true ∧ s0.report .system false = none) ∧
    (w.eager = false ∧ w.fenceDone .tile = false) ∧ (e.cmdsDone .tile = false) ∧ (f.fenceDone .tile = true) ∧
    (s0.allAcked s0.cur Access.isKsend = true ∧ k.allAcked k.cur Access.isKsend = false) := by decide +kernel
/-- A task row with no successor. -/
def row0 : TaskRow := ⟨0, 0, 0, 0, [], [], []⟩
/-- The team of `s0` with 4 KiB of scratchpad, one task, and extent 0 over TCBs and save area at the code heap's second page. -/
def tq : Team := { probeTeam [] with
  spsize := 0x1000, trcx := 0xFF, tasks := [row0], tcbBase := heapBase + 0x1000, saveBase := heapBase + 0x4000, saveLim := heapBase + 0xFFFFFF,
  ext := vset (probeTeam []).ext 0 ⟨true, true, true, true, true, BitVec.ofNat 53 (heapBase + 0x1000), BitVec.ofNat 53 (heapBase + 0xFFFFFF), 1⟩ }
def st : State := { onTile (fun t => { t with dom := 0xF }) s0 with teams := [tq], granules := [⟨⟨0, 0, 0x5E000⟩, 1, false⟩, ⟨⟨2, 0, 3⟩, 1, false⟩] }
/-- Bins at scratchpad offset 0, 16 a tile, ADD of n32, level 0. -/
theorem witness_Keys :
    let kc : Word := 16 * 2 ^ 20
    let s := onTile (fun t => { t with keycfg := kc }) s0
    let a := scratchAddr 0 0
    let d := withAcc (acc0 (.ksend 0 15 7) a 4) s
    let e := withAcc (acc0 (.sev true) (portAddr 0 0x1000) 8) s0
    let b := heapBase + 0x1040
    let p := withAcc (acc0 .pcnt (b + 4) 2) { st with mem := memPut s0.mem (cellsOf (b + 4) 1 2) }
    let tm := tq
    (st.keyOk kc = true ∧ s0.procs.any (fun p => (s0.getCore p).pend.any (s0.keyTo s0.here)) = false ∧ s0.keyOk (2 ^ 63) = false) ∧
    (s.noStreams = true ∧ kc.toNat / 2 ^ 20 % 2 ^ 18 ≠ 0 ∧ keyPair .n32 (kc.toNat / 2 ^ 38 % 8) = true) ∧
    (d.mayPerform (.main 0) 0 = true ∧ d.wayFault a = none ∧ d.admits (.main 0) a = true ∧ d.region a = .scratch 0 0 ∧ d.memOk = true ∧
      keyOp (d.getTile 0).keycfg = 0 ∧ 15 < keyNb (d.getTile 0).keycfg ∧ d.keptOut (scratchAddr 0 60) 4 = []) ∧
    (e.mayPerform (.main 0) 0 = true ∧ e.wayFault (portAddr 0 0x1000) = none ∧ e.admits (.main 0) (portAddr 0 0x1000) = true ∧
      e.region (portAddr 0 0x1000) = .port 0 0x1000 ∧ e.tileStopped 0 = false) ∧
    (p.mayPerform (.main 0) 0 = true ∧ p.wayFault (b + 4) = none ∧ p.admits (.main 0) (b + 4) = true ∧ p.region (b + 4) = .hbm ∧
      homeTile (.main 0) = some 0 ∧ p.teamOf (.main 0) = some tm ∧ p.findTeam 1 = some tm ∧ p.memOk = true ∧ tcbFault p tm b = none ∧
      tcbPcnt p tm b = 1 ∧ p.linesOf tm (b + 4) 2 = [] ∧ p.badHeld (.main 0) (b + 4) 2 = false ∧ tcbPcnt { p with mem := s0.mem } tm b = 0 ∧
      tcbFault { p with mem := s0.mem } tm b = none) := by decide +kernel
theorem witness_WeightsAndFabric :
    let a := weightAddr 0 0x6000000
    let s := ({ st with gtime := 8000 } : State).wrA 1 (wNat a)
    let w : State := { s with gtime := 3000 }
    let x := waiting (.xwait 1 7) 5 s0
    let f := { s0 with fabric := { s0.fabric with peers := vset s0.fabric.peers 1 { Peer.empty with valid := true } } }
    (s.guard u = true ∧ ptrOk (s.rdA 1) = true ∧ (s.region (s.ea m1 .v)).isWeights = true ∧ (s.region (s.ea m1 .v + 63)).isWeights = true ∧
      s.core.load = none ∧ (pieces (s.ea m1 .v) 64).any (fun q => s.inWindow q.1) = false ∧ s.eager = true ∧
      s.mustWait [s.ea m1 .v] 64 .rlx .self = false ∧ s.firstFault (allPieces [s.ea m1 .v] 64) = none ∧ s.onMain = true ∧ s.noStreams = true) ∧
    (w.region (w.ea m1 .b)).isWeights = true ∧ (pieces (w.ea m1 .v) 64).any (fun q => w.inWindow q.1) = true ∧
    (w.gtime % 32000 / 1000 = 3 ∧ s0.fabricSent = true ∧ s0.fabric.dark = none) ∧
    (s0.epochsInTime 7 = true ∧ f.epochsInTime 7 = false ∧ f.timedOut = false ∧ (f.onMain && f.singleTest) = false ∧
      ({ x with fabric := f.fabric } : State).timedOut = true) ∧
    ((x.getCore (.main 0)).wait = some ⟨.xwait 1 7, 0, 5⟩ ∧ (x.getCore (.main 0)).running = true ∧ 0 + 5 < x.cycle ∧
      (({ x with fabric := f.fabric } : State).focus (.main 0)).epochsInTime 7 = false) ∧
    ((vget f.fabric.peers 1 Peer.empty).valid = true ∧ (vget f.fabric.peers 63 Peer.empty).valid = false) ∧
    (let e : State := { f with fabric := { f.fabric with peers := vset f.fabric.peers 1 { Peer.empty with valid := true, allow := 1 } } }
     e.fabricSent = true ∧ e.fabric.dark = none ∧
       (List.range 64).all (fun m => let q := vget e.fabric.peers m Peer.empty
         !q.valid || (q.allow != 0 && e.fabric.room q.port.toNat)) = true ∧ x.pastStop (.main 0) = false) ∧
    (let g : State := { lazyOf s with cur := .stage 0 }
     g.goesOn = true ∧ g.guard u = true ∧ ptrOk (g.rdA 1) = true ∧ (g.region (g.ea m1 .d)).isWeights = true ∧ g.core.load = none) := by decide +kernel

/-- R197: distances and blocks that the network admits. -/
theorem witness_VectorFormsComplete : s0.guard u = true ∧ s0.noStreams = true ∧ cswapOk (s0.ctl .i32 .rne 0) 8 0 = true ∧
    cswapOk (s0.ctl .i32 .rne 0) 4 16 = true ∧ s0.srcNum (.i 4) = 4 := by decide +kernel

/-! ## Engines, tasks, traps and the matrix unit -/

/-- `st` with extent 1 over tile 0's scratchpad for the engine, a1 and a2 in it at 0x100 and 0x900, and g5 = 64. -/
def eng : State :=
  (((onTile (fun t => { t with ext := vset t.ext 1 ⟨true, true, true, true, true, BitVec.ofNat 53 (scratchAddr 0 0),
    BitVec.ofNat 53 (scratchAddr 0 0xFFFFF), 1⟩ }) { st with mem := sm.mem }).wrA 1 (wNat (scratchAddr 0 0x100))).wrA 2
      (wNat (scratchAddr 0 0x900))).wrG 5 64
/-- A pending copy of 64 bytes. -/
def cmd0 : Cmd := ⟨0, .copy (scratchAddr 0 0x100) (scratchAddr 0 0x900) 64 1 0 0, .pending, 0, [], [], [], 0, 0, false⟩
def withCmd (c : Cmd) (s : State) : State := onCore (fun k => { k with cmds := [c], issued := 1 }) s
def task0 : Task := ⟨heapBase + 0x1000, 7, 2, true, false, 0, false, false, 0⟩
def cont0 : Cont := ⟨3, BitVec.ofNat 64 heapBase, 0, [], 5, 7, 0, 2, true, false, 0, 0, .ready, false, 0, 9, heapBase + 0x1000, false, 0⟩
/-- A task runs whose live record at the PC names g1 and g2. -/
def stt : State := { onTile (fun t => { t with task := some task0 }) st with
  teams := [{ tq with code := { tq.code with live := [⟨heapBase, false, 6⟩] } }], eager := false }
/-- An idle tile with a ready item, its task's TCB all zero. -/
def ready (w : Work) (c : List Cont) : State :=
  onCore (fun k => { k with running := false }) (onTile (fun t => { t with localQ := [⟨1, w, 2, false, 0, none⟩], conts := c }) { st with teams := [{ tq with code := { tq.code with procs := [⟨0, heapBase + 0x100, 0x40⟩] } }] })
/-- A team whose object has a handler, at heapBase + 0x200. -/
def sh : State := { st with teams := [{ tq with code := { tq.code with handlerLink := some 0, handler := some (heapBase + 0x200, heapBase + 0x240), procs := [⟨0, heapBase + 0x200, 0x40⟩] } }] }
/-- Rings m0 and m1 with one entry each, filled or not, of a layout. -/
def mat (layout : Bool) (filled : Nat) : State :=
  let r : RingReg := { RingReg.empty with count := 1, layout := layout, esize := 32, filled := filled, tol := 0x3FFFFFFFF }
  (st.setRing 0 r).setRing 1 { r with base := 0x4000 }

/-- R261, R262: a copy is issued with handle 0, done on an eager machine when its status is waited for, and its bytes are copied. -/
theorem test_copy : after (exec (.cpy ⟨u, 7, 2, 1, 5⟩) eng) (fun t => t.rdG 7 == 0 && t.core.cmds.length == 1 &&
      after (exec (.ewait ⟨u, 8, 7⟩) t) (fun t => t.rdG 8 == 1 && memNat t.mem (scratchAddr 0 0x900) 8 == 0xF234567890ABCDE1)) ∧
    gives (.estat ⟨u, 8, 7⟩) (eng.wrG 7 9) 8 3 := by decide +kernel
/-- R281, R44: a decrement's target, and a task with no successors that ends its team. -/
theorem test_tasks : after (exec (.tdec ⟨u, 1⟩) (st.wrA 1 (wNat (heapBase + 0x1040)))) (fun t =>
      t.core.pend.map (fun a => (a.addr, a.size)) == [(heapBase + 0x1044, 2)]) ∧
    after (exec (.tend ⟨u⟩) { stt with teams := [{ tq with live := 1 }] }) (fun t => t.tile.task == none &&
      t.teams.map Team.state == [.ended]) := by decide +kernel
/-- R388, R390, R391: TRAP into the handler and back. -/
theorem test_trap : after (exec (.trapI ⟨u, 6, 0x10⟩) (sh.wrG 6 77)) (fun t => t.core.pc.toNat == heapBase + 0x200 && t.core.faulta == 77 &&
      t.core.faultw == BitVec.ofNat 64 (0x10 * 2 ^ 56 + heapBase) && t.rdA 14 == BitVec.ofNat 64 (heapBase + 8) &&
      after (exec (.tret ⟨u, false⟩) t) (fun t => t.core.pc.toNat == heapBase + 8 && !t.tile.handler.hin)) := by decide +kernel
/-- R66, R67: a reserved rounding mode in FPCTL is ILLEGAL; EVMASK reads 1 at placement. -/
theorem test_specials : after (exec (.srw ⟨u, 2, 8⟩) (sg 6 0)) (fun t => !t.core.running) ∧ gives (.srr ⟨u, 2, 0xB⟩) s0 2 1 ∧
    gives (.srr ⟨u, 2, 0⟩) s0 2 0 := by decide +kernel
/-- R300, R307: an entry is published and popped. -/
theorem test_rings : after (exec (.radv ⟨u, 0, 1, true⟩) (mat true 0)) (fun t => (t.ring 0).filled == 1 &&
      gives (.rget ⟨u, 3, 0, 1⟩) t 3 0x10000) ∧ fails (.radv ⟨u, 0, 1, false⟩) (mat true 0) codeRinguse 4 := by decide +kernel
/-- R326, R327: MZERO +inf fills the bank, and MVERD then reads FMT 3. -/
theorem test_accumulators : after (exec (.mzero ⟨u, false, .pinf⟩) st) (fun t => (t.tile.accSet false).cell 4095 == 0x7FFE0000000000000000 &&
    gives (.mverd ⟨u, false, 5⟩) t 5 3) := by decide +kernel

theorem witness_CommandIssue :
    let z := eng.wrG 5 0
    let w := (CmdWork.copy (scratchAddr 0 0x100) (scratchAddr 0 0x900) 64 1 0 0)
    let n : State := eng.wrA 1 (wNat (heapBase + 0x2000000))
    let out := (CmdWork.copy (heapBase + 0x2000000) (scratchAddr 0 0x900) 64 1 0 0)
    (eng.guard u = true ∧ eng.core.pending < 16 ∧ ptrOk (eng.rdA 1) = true ∧ ptrOk (eng.rdA 2) = true ∧
      eng.rowOutside Region.engSrc (scratchAddr 0 0x100) 0 64 0 1 = none ∧ eng.rowOutside Region.engDst (scratchAddr 0 0x900) 0 64 0 1 = none ∧
      eng.firstUngranted 5 0 w.srcRows = none ∧ eng.firstUngranted 6 0 w.dstRows = none ∧ (eng.rdG 5).toNat ≠ 0) ∧
    ((z.rdG 5).toNat = 0 ∧ eng.storeOpen (weightAddr 0 0) = false ∧ eng.rowOutside Region.isWeights (weightAddr 0 0) 0 64 0 1 = none) ∧
    (n.rowOutside Region.engSrc (heapBase + 0x2000000) 0 64 0 1 = none ∧ n.firstUngranted 5 0 out.srcRows = some 0 ∧ n.core.engRec = none) ∧
    (let at_ (o : Nat) : Word := wNat (Fmt.i32.code * 2 ^ 60 + scratchAddr 0 o)
     let c := (eng.wrA 1 (at_ 0x100)).wrA 2 (at_ 0x900)
     c.collIllegal ⟨u, 7, 2, 1, 5, .allred, .add, 1, 0⟩ (c.rdA 2) (c.rdA 1) 64 = false ∧ ptrOk (c.rdA 1) = true ∧ ptrOk (c.rdA 2) = true ∧
      c.core.pending < 16 ∧ c.rowOutside Region.engSrc (scratchAddr 0 0x100) 0 256 0 1 = none ∧
      c.rowOutside Region.engDst (scratchAddr 0 0x900) 0 256 0 1 = none ∧ c.firstUngranted 5 0 [(scratchAddr 0 0x100, 256)] = none ∧
      c.firstUngranted 6 0 [(scratchAddr 0 0x900, 256)] = none ∧
      (CmdWork.coll .allred .add 1 0 (scratchAddr 0 0x100) (scratchAddr 0 0x900) 64 .i32 0 1 0 0).srcChecked = [(scratchAddr 0 0x100, 256)] ∧
      eng.collIllegal ⟨u, 7, 2, 1, 5, .allred, .add, 4, 0⟩ (eng.rdA 2) (eng.rdA 1) 64 = true) := by decide +kernel
theorem witness_CommandStatus :
    let p := withCmd cmd0 (lazyOf s0)
    let d := withCmd { cmd0 with status := .done } s0
    let f := onCore (fun k => { k with engRec := some ⟨0, codeMemerr, 5⟩ }) (withCmd { cmd0 with status := .faulted codeMemerr 5 } s0)
    s0.guard u = true ∧ s0.heldBack s0.cur 0 0 .acq .self = false ∧ s0.core.engRec = none ∧ s0.core.known 0 = none ∧
    p.core.known 0 = some cmd0 ∧ p.eager = false ∧ d.core.known 0 = some { cmd0 with status := .done } ∧
    f.core.known 0 = some { cmd0 with status := .faulted codeMemerr 5 } ∧ f.core.engRec.map EngRec.handle = some 0 ∧
    (let g := onCore (fun k => { k with engRec := none }) f
     g.core.known 0 = some { cmd0 with status := .faulted codeMemerr 5 } ∧ g.core.engRec = none) := by decide +kernel
theorem witness_EngineSteps :
    let s := withCmd cmd0 eng
    let r := withCmd { cmd0 with reads := [1, 0], writes := [7, 6, 5, 4, 3, 2, 1, 0] } eng
    let b : State := { s with bad := [scratchAddr 0 0x100] }
    (s.findCmd (.main 0) 0 = some cmd0 ∧ cmd0.pieces[1]? = some ⟨32, scratchAddr 0 0x120, 32⟩ ∧ s.cmdHeld (.main 0) cmd0 = false ∧
      s.engineOpen (.main 0) = true ∧ s.messageOpen (Cmd.paid cmd0.reads cmd0.pieces ⟨32, scratchAddr 0 0x120, 32⟩) (scratchAddr 0 0x120) = true ∧
      s.inWindow (scratchAddr 0 0x120) = false ∧ s.readFault (.main 0) (scratchAddr 0 0x120) 32 = none) ∧
    (let c : Cmd := { cmd0 with reads := [1, 0] }
     let x : Span := ⟨56, scratchAddr 0 0x938, 8⟩
     let w := withCmd c eng
     w.memOk = true ∧ w.findCmd (.main 0) 0 = some c ∧ c.units[7]? = some x ∧ w.unitOpen (.main 0) c x 7 = true ∧
      w.writeFault (.main 0) x.addr = none ∧ w.unitSent (.main 0) c x = false ∧ w.wayFault x.addr = none ∧ w.peerAt x.addr = none ∧
      (w.unitCells (.main 0) c x).map Prod.fst = (List.range 8).map (fun i => x.addr + i) ∧ w.linesAt (.main 0) x.addr 8 = [] ∧
      w.unready x.addr 8 = false ∧ w.keptOut x.addr 8 = [] ∧ (w.region x.addr).isScratch = true) ∧
    (let c : Cmd := { cmd0 with work := .copy (scratchAddr 0 0x100) (heapBase + 0x1900) 64 1 0 0, reads := [1, 0] }
     let x : Span := ⟨56, heapBase + 0x1938, 8⟩
     let w : State := { withCmd c eng with bad := [heapBase + 0x1920] }
     c.units[7]? = some x ∧ w.unitOpen (.main 0) c x 7 = true ∧ w.writeFault (.main 0) x.addr = none ∧ w.wayFault x.addr = none ∧
       w.peerAt x.addr = none ∧ w.linesAt (.main 0) x.addr 8 = [] ∧ w.keptOut x.addr 8 ≠ []) ∧
    (let c : Cmd := { cmd0 with work := .copy (scratchAddr 0 0x100) peerAddr 64 1 0 0, reads := [1, 0] }
     let x : Span := ⟨0, peerAddr, 8⟩
     let w := withCmd c eng
     let y := withPeer w
     c.units[0]? = some x ∧ y.findCmd (.main 0) 0 = some c ∧ y.unitOpen (.main 0) c x 0 = true ∧ y.writeFault (.main 0) peerAddr = none ∧
       y.unitSent (.main 0) c x = false ∧ y.peerAt peerAddr = some 1 ∧ w.unitOpen (.main 0) c x 0 = true ∧
       w.writeFault (.main 0) peerAddr = none ∧ w.wayFault peerAddr = some codePeerlost ∧ (w.getCore (.main 0)).peerRec = none) ∧
    (r.findCmd (.main 0) 0).map (fun c => (c.allWritten, c.allRead)) = some (true, true) ∧ r.unitsAcked (.main 0) 0 = true ∧
    ((b.cmdFaults (.main 0) cmd0).contains (codeMemerr, scratchAddr 0 0x100) = true ∧ codeMemerr ≠ codeBackstop ∧ codeMemerr ≠ codeEngext ∧
      (b.getCore (.main 0)).engRec = none) := by decide +kernel
/-- The team of `st`, protected: extent 0's bytes lie in sealed lines. -/
def tp : Team := { tq with isProtected := true }
def sp : State := { st with teams := [tp] }
/-- A whole line stored (R361, R362). -/
theorem witness_SealedLines :
    let b := heapBase + 0x1000 + 0x5800
    let l := heapBase + 0x1000 + 0xB000
    let cells := cellsAt b (List.replicate 32 7)
    let t := withAcc { acc0 .store b 32 with pieces := [cells] } sp
    t.memOk = true ∧ t.mayPerform (.main 0) 0 = true ∧ t.wayFault b = none ∧ t.admits (.main 0) b = true ∧ (t.region b).isGlobal = true ∧
      t.teamOf (.main 0) = some tp ∧ t.findTeam 1 = some tp ∧ t.linesAt (.main 0) b 32 = [l] ∧ t.unready l 64 = false ∧
      t.badUnits l 64 = [] ∧ t.coversLine tp l cells = true := by decide +kernel
/-- A team's bytes that agree with a memory's make the same number. -/
theorem teamNat_of_bytes (s : State) (t : Team) (m : List Host.Cell) (n : Nat) : ∀ a, (∀ i < n, s.teamByte t (a + i) = memGet m (a + i)) →
    s.teamNat t a n = memNat m a n := by
  induction n with
  | zero => intro a _; rfl
  | succ n ih =>
    intro a h
    have h0 := h 0 (by omega)
    have h1 := ih (a + 1) (fun i hi => by have := h (i + 1) (by omega); rwa [Nat.add_assoc, Nat.add_comm 1 i])
    rw [State.teamNat, memNat, h1]; simp only [Nat.add_zero] at h0; rw [h0]
/-- A TCB of `tp` at program byte `tcbAt` with PCNT 1, in the two lines from `lineAt` on. -/
def tcbAt : Nat := heapBase + 0x1000 + 0x5800
def lineAt : Nat := heapBase + 0x1000 + 0xB000
def amoAt : Nat := tcbAt + 8
def unitAt : Nat := tcbAt + 32
def lineCmd : Cmd := { cmd0 with work := .copy (scratchAddr 0 0x100) unitAt 16 1 0 0, reads := [0] }
/-- `sp` with a decrement and a copy pending, and a1 at an atomic's bytes. -/
def sq1 : State := withAcc (acc0 .pcnt (tcbAt + 4) 2) (withCmd lineCmd (sp.wrA 1 (wNat amoAt)))
def tcbMem : List Host.Cell := [(tcbAt + 4, 1)]
/-- The premises of an atomic, a decrement and an engine unit on lines that open, as they do when the team has written them. -/
theorem witness_OpenedLines (h : ∀ j < 2, sq1.openLine tp (lineAt + 64 * j) = some (memBytes tcbMem (tcbAt + 32 * j) 32)) :
    (sq1.readFault (.main 0) amoAt 8 = none ∧ sq1.guard u = true ∧ ptrOk (sq1.rdA 1) = true ∧ sq1.ea m1 .d = amoAt ∧
      Region.amoOk (sq1.region amoAt) = true ∧ Region.amoOk (sq1.region (amoAt + 7)) = true ∧ sq1.memOk = true ∧ amoAt % 8 = 0 ∧
      sq1.mustWait [amoAt] 8 .rlx .self = false ∧ sq1.linesAt (.main 0) amoAt 8 = [lineAt]) ∧
    (sq1.writeFault (.main 0) unitAt = none ∧ sq1.findCmd (.main 0) 0 = some lineCmd ∧ lineCmd.units[0]? = some ⟨0, unitAt, 8⟩ ∧
      sq1.unitOpen (.main 0) lineCmd ⟨0, unitAt, 8⟩ 0 = true ∧ sq1.engineOpen (.main 0) = true ∧ sq1.wayFault unitAt = none ∧
      sq1.peerAt unitAt = none ∧ (sq1.unitCells (.main 0) lineCmd ⟨0, unitAt, 8⟩).map Prod.fst = (List.range 8).map (fun i => unitAt + i) ∧
      sq1.linesAt (.main 0) unitAt 8 = [lineAt + 64]) ∧
    (tcbFault sq1 tp tcbAt = none ∧ tcbPcnt sq1 tp tcbAt = 1 ∧ sq1.mayPerform (.main 0) 0 = true ∧ sq1.wayFault (tcbAt + 4) = none ∧
      sq1.admits (.main 0) (tcbAt + 4) = true ∧ sq1.region (tcbAt + 4) = .hbm ∧ sq1.teamOf (.main 0) = some tp ∧
      sq1.findTeam 1 = some tp ∧ sq1.linesOf tp (tcbAt + 4) 2 = [lineAt] ∧ sq1.badHeld (.main 0) (tcbAt + 4) 2 = false) := by
  have h0 : (sq1.openLine tp lineAt).isNone = false := by rw [show lineAt = lineAt + 64 * 0 from rfl, h 0 (by omega)]; rfl
  have h1 : (sq1.openLine tp (lineAt + 64)).isNone = false := by rw [show lineAt + 64 = lineAt + 64 * 1 from rfl, h 1 (by omega)]; rfl
  have hb : ∀ i < 64, sq1.teamByte tp (tcbAt + i) = memGet tcbMem (tcbAt + i) := by
    intro i hi
    have hl : ∀ k : Fin 64, sq1.lineOf tp (tcbAt + k.val) = some (lineAt + 64 * (k.val / 32), k.val % 32) := by decide +kernel
    have e : 32 * (i / 32) + i % 32 = i := Nat.div_add_mod i 32
    rw [State.teamByte, hl ⟨i, hi⟩]
    simp only [h (i / 32) (by omega), Option.getD_some]
    simp [memBytes, Nat.mod_lt, Nat.add_assoc, e]
  have hn : ∀ d n, d + n ≤ 64 → sq1.teamNat tp (tcbAt + d) n = memNat tcbMem (tcbAt + d) n := fun d n hd =>
    teamNat_of_bytes _ _ _ n _ (fun i hi => by rw [Nat.add_assoc]; exact hb _ (by omega))
  have hz : ∀ n, n ≤ 64 → sq1.teamNat tp tcbAt n = memNat tcbMem tcbAt n := fun n hd => hn 0 n (by omega)
  have l8 : sq1.linesOf tp amoAt 8 = [lineAt] := by decide +kernel
  have l64 : sq1.linesOf tp tcbAt 64 = [lineAt, lineAt + 64] := by decide +kernel
  refine ⟨⟨?_, by decide +kernel⟩, by decide +kernel, ?_, ?_, by decide +kernel⟩
  · rw [State.readFault, show sq1.wayFault amoAt = none by decide +kernel, show sq1.admits (.main 0) amoAt = true by decide +kernel,
      show sq1.badHeld (.main 0) amoAt 8 = false by decide +kernel, State.tagFails, show sq1.teamOf (.main 0) = some tp by decide +kernel]
    simp [State.sealFails, l8, h0]
  · rw [tcbFault, show tp.mayUse tcbAt 64 = true by decide +kernel]
    have f : tcbFieldsOk sq1 tp tcbAt = true := by
      rw [tcbFieldsOk, tcbFlags, tcbSlist, tcbTarget, tcbEntry, hz 2 (by omega), hn 2 2 (by omega), hn 6 1 (by omega), hn 8 8 (by omega),
        hn 0x10 8 (by omega), hn 0x3C 4 (by omega)]
      decide +kernel
    have e : tcbAt % 64 = 0 := by decide +kernel
    have g : sq1.admitsTag tp.tenant tcbAt (tp.targetOf tcbAt) = true := by decide +kernel
    simp [State.sealFails, l64, h0, h1, f, e, g]
  · rw [tcbPcnt, hn _ _ (by omega)]; decide +kernel
theorem witness_TaskInstructions :
    let a := heapBase + 0x1040
    let s := st.wrA 1 (wNat a)
    let n := lazyOf s0
    let k : State := { stt with teams := [tq] }
    (s.guard u = true ∧ ptrOk (s.rdA 1) = true ∧ (s.region a).isGlobal = true ∧ a % 64 = 0 ∧ s.fenceDone .domain = true ∧ s.team = some tq ∧
      s.heldBack s.cur a 64 .rlx .self = false ∧
      tq.mayUse a 64 = true ∧ s.wayFault a = none ∧ s.admits s.cur a = true ∧ tcbFault ((s.done 8).addTask 1) tq a = none) ∧
    (n.allAcked n.cur Access.ofStream = true ∧ n.core.idleEngines = true ∧ n.core.quiet = true ∧
      (n.unbind.report .system true).isNone = true ∧ (n.report .system true).isNone = true) ∧
    (k.keepsCore = true ∧ stt.keepsCore = false ∧ stt.core.parkable .ready = true ∧ stt.eager = false) := by decide +kernel
theorem witness_TaskStart :
    let t := ready (.task (heapBase + 0x1000)) []
    let c := ready (.cont 3) [{ cont0 with isReady := true }]
    let e : State := { st with teams := [{ tq with entryPosted := true }] }
    let g : State := { st with teams := [{ tq with stageEntry := some 0, stage := [0] }] }
    let i (w : Work) : ReadyItem := ⟨1, w, 2, false, 0, none⟩
    ((t.mayDispatch 0).isSome = true ∧ t.choose 0 = some (i (.task (heapBase + 0x1000))) ∧
      tcbFault (t.take 0 (i (.task (heapBase + 0x1000)))) tq (heapBase + 0x1000) = none ∧ tq.tasks[tcbEntry t tq (heapBase + 0x1000)]? = some row0 ∧
      (t.findTeam 1).map (fun k => k.code.holds (k.code.entry 0)) = some true) ∧
    ((c.mayDispatch 0).isSome = true ∧ c.choose 0 = some (i (.cont 3)) ∧
      (((c.take 0 (i (.cont 3))).getTile 0).conts.find? (fun c => c.id == 3)).isSome = true ∧ tq.code.holds heapBase = true) ∧
    ((e.findTeam 1).map (fun t => (t.entryPosted, t.state, t.tasks.length)) = some (true, .running, 1) ∧
      tcbFault e tq (tq.tcbBase + 64 * 0) = none ∧ tcbPcnt e tq (heapBase + 0x1000) = 0) ∧
    ((g.findTeam (g.getTile 0).team).map (fun t => (t.stageEntry, t.state, t.beforeStop g.gtime, t.restorePending))
        = some (some 0, .running, true, false) ∧
      (g.getTile 0).stageOn = false ∧ (g.getTile 0).fenced = false ∧ (g.getTile 0).frozen = false) := by decide +kernel
theorem witness_Continuations :
    let w := waiting .kflush 0 (withAcc (acc0 (.sev false) (portAddr 0 0x1000) 8) { stt with mem := memPut s0.mem (cellsOf heapBase ((Instr.kflush ⟨u⟩).encode.headD 0) 8) })
    let k : State := { w with teams := [tq] }
    let c := onTile (fun t => { t with conts := [cont0] }) st
    let m := onTile (fun t => { t with conts := [{ cont0 with isReady := true, hint := 2 }, { cont0 with id := 4, isReady := true }] }) st
    let v (back : Bool) (n : Nat) : State :=
      { st with migrations := [⟨0, 1, cont0, back⟩], tiles := [(1, { Tile.empty with team := 1, tenant := 1, conts := List.replicate n cont0 })] }
    ((w.getCore (.main 0)).wait = some ⟨.kflush, 0, 0⟩ ∧ (w.getCore (.main 0)).running = true ∧ 0 + 64 ≤ w.cycle ∧ w.eager = false ∧
      (k.focus (.main 0)).keepsCore = true ∧ (w.focus (.main 0)).keepsCore = false ∧
      (w.focus (.main 0)).fetch = .words (BitVec.ofNat 64 ((Instr.kflush ⟨u⟩).encode.headD 0)) 0 ∧
      decodeFor .main ((Instr.kflush ⟨u⟩).encode.headD 0) 0 = .ok (.kflush ⟨u⟩) ∧
      w.pastStop (.main 0) = false ∧ (w.focus (.main 0)).contWait ⟨.kflush, 0, 0⟩ (.kflush ⟨u⟩) 8 = some (.kflush, w.core.pc) ∧ (w.focus (.main 0)).core.parkable .kflush = true) ∧
    ((c.getTile 0).conts[0]? = some cont0 ∧ cont0.isReady = false ∧ c.tileRuns 0 = true ∧ c.contHolds 0 cont0 = true) ∧
    (migrant (m.getTile 0).offers = some { cont0 with isReady := true, hint := 2 } ∧ m.leastLoaded 0 = some (0, 1) ∧ (m.getTile 0).migrating = false ∧
      0 + 2 ≤ (m.getTile 0).depth ∧ (m.findTeam (m.getTile 0).team).map (fun t => (t.state, t.beforeStop m.gtime, t.restorePending)) = some (.running, true, false)) ∧
    ((v false 63).migrations[0]? = some ⟨0, 1, cont0, false⟩ ∧ ((v false 63).getTile 1).fenced = false ∧ ((v false 63).getTile 1).storeFull = false ∧
      (v false 63).tileRuns 0 = true ∧ (v true 0).tileRuns 0 = true ∧
      ((v false 64).getTile 1).storeFull = true ∧ (v true 0).migrations[0]? = some ⟨0, 1, cont0, true⟩) := by decide +kernel
theorem witness_Barriers :
    let b (f : BarLevel → BarLevel) : State := lazyOf (onTile (fun t => t.setBar 3 (f (t.bar 3))) st)
    let w (k : WaitKind) : State := waiting k 5 (onTile (fun t => t.setBar 3 { t.bar 3 with arrived := true }) st)
    (st.hasLevel 3 = true ∧ ((b (fun x => { x with done := true })).report (levelScope 3) false).isNone = true) ∧
    ((b id).timedOut = false ∧ (b id).fenceDone (levelScope 3) = true ∧ ((b id).myBar 3).arrived = false) ∧
    ((w (.barw 2 3)).timedOut = true ∧ ((w (.barw 2 3)).myBar 3).arrived = true ∧ ((w (.barw 2 3)).myBar 3).done = false) ∧
    (let a := onTile (fun t => t.setBar 0 { t.bar 0 with arrived := true }) st
     a.allArrived 0 0 = true ∧ a.tileStopped 0 = false ∧ (a.domain 0 0).Nodup) ∧
    (((w (.barw 2 3)).getCore (.main 0)).wait = some ⟨.barw 2 3, 0, 5⟩ ∧ ((w (.barw 2 3)).getCore (.main 0)).running = true ∧
      0 + 5 < (w (.barw 2 3)).cycle ∧ (w (.barw 2 3)).pastStop (.main 0) = false ∧ (((w (.barw 2 3)).focus (.main 0)).myBar 3).done = false) ∧
    (let z := b (fun x => { x with gateDone := true })
     (z.myBar 3).gateDone = true ∧ ((((({ z with tile := z.tile.setBar 3 { z.myBar 3 with gateDone := false } } : State).wrG 1 0).trace 5).report
       (levelScope 3) false).isNone = true)) ∧
    (let z := b (fun x => { x with phase := 1 })
     (z.myBar 3).phase.toNat % 2 = 1 ∧ (z.myBar 3).gateDone = false ∧ (z.myBar 3).gateArrived = false ∧ (z.myBar 3).sent = false) ∧
    (let z := onTile (fun t => t.setBar 3 { t.bar 3 with sent := true }) (w (.sstep 3))
     (z.getCore (.main 0)).wait = some ⟨.sstep 3, 0, 5⟩ ∧ ((z.getTile 0).bar 3).sent = true ∧ ((z.getTile 0).bar 3).gateDone = false ∧
       z.pastStop (.main 0) = false ∧ z.mayArrive (.main 0) 3 = true) ∧
    (let g := onTile (fun t => t.setBar 0 { t.bar 0 with gateArrived := true }) st
     g.mayDepart 0 0 = true ∧ g.tileStopped 0 = false) := by decide +kernel
theorem witness_EventsAndSpecials :
    let l := onCore (fun c => { c with latch := true }) s0
    let w := waiting (.wfed 2) 5 s0
    s0.guard u = true ∧ l.core.latch = true ∧ s0.core.latch = false ∧ w.timedOut = true ∧ s0.timedOut = false ∧
    ((w.getCore (.main 0)).wait = some ⟨.wfed 2, 0, 5⟩ ∧ (w.getCore (.main 0)).running = true ∧ (w.getCore (.main 0)).latch = false ∧ 0 + 5 < w.cycle ∧
      w.pastStop (.main 0) = false) ∧ l.latchInTime = true ∧
    (let y := onCore (fun c => { c with latch := true, latchAt := 6 }) w
     y.core.latch = true ∧ y.latchInTime = false ∧ y.timedOut = true ∧ 0 + 5 < (y.getCore (.main 0)).latchAt) ∧
    (let y := lazyOf (withAcc { acc0 .store 0 8 with slot := some 3 } s0)
     s0.allAcked s0.cur Access.ofStream = true ∧ y.allAcked y.cur Access.ofStream = false ∧ y.eager = false) ∧
    (0x103FF : Nat) < 2 ^ 17 ∧ (0x103FF : Nat) / 2 ^ 10 % 2 ^ 6 = 0 ∧ s0.cur = .main 0 ∧ (0x01F : BitVec 12).toNat < 0x020 ∧ (0x02F : BitVec 12).toNat < 0x030 ∧
    (0x07F : BitVec 12).toNat < 0x080 ∧ ((sg 0x1D 0).rdG 2).toNat < 2 ^ 5 ∧ ((sg 0x1D 0).rdG 2).toNat % 8 < 6 ∧ ¬ ((sg 0x1E 0).rdG 2).toNat % 8 < 6 ∧
    ¬ ((sg 16 0).rdG 2).toNat < 2 ^ 4 ∧ ¬ ((sg 32 0).rdG 2).toNat < 2 ^ 5 := by decide +kernel
theorem witness_TrapInstructions : sh.cur = .main 0 ∧ sh.team.map (fun t => t.code.handlerLink.isSome) = some true ∧ sh.tile.handler.hin = false ∧
    sh.tile.rep.count = 0 ∧ sh.core.pend = [] ∧ sh.guard u = true ∧ handlerMay 0x10 = true := by decide +kernel
theorem witness_TrapEntryAndReturn :
    let h := onTile (fun t => { t with handler := { t.handler with hin := true, skip := true } }) sh
    (sh.cur = .main 0 ∧ sh.team.isSome = true ∧ sh.trapFatal codeAlign = false ∧ sh.tile.rep.count = 0 ∧ sh.core.pend = []) ∧
    (st.cur = .main 0 ∧ st.here = 0 ∧ st.team = some tq ∧ st.findTeam tq.num = some tq ∧ st.tile.team = tq.num ∧
      tq.clusters.any (fun c => c.1 == clusterOf 0) = true ∧ st.trapFatal codeAlign = true) ∧
    (let raised (s : State) : State := s.raiseTrap ⟨codeAlign, 5, false, s.core.pc, s.core.pc, false, true, false⟩
     let stopped (s : State) : Option Bool := ((raised s).findTeam 1).map (fun u => u.stopReached s.gtime)
     (∀ p ∈ [ProcId.main 0, .stage 0, .coll 0], stopped (st.focus p) = some false ∧
       stopped (({ st with teams := [{ tq with stop := .named 0, reason := .slot }] } : State).focus p) = some true) ∧
     (st.focus (.stage 0)).cur = .stage 0 ∧ (st.focus (.stage 0)).here = 0 ∧ (st.focus (.coll 0)).cur = .coll 0 ∧
     ((st.focus (.coll 0)).getTile (tileOfCluster 0 0)).team = 1 ∧ tq.clusters.any (fun d => d.1 == 0) = true) ∧
    (let b := onTile (fun t => { t with handler := { t.handler with hin := true, skip := true } }) (sl 2)
     b.onMain = true ∧ b.tile.loop.active ≠ 0 ∧ (st.focus (.stage 0)).onMain = false) ∧
    (sh.guard u = true ∧ sh.tile.handler.hin = false ∧ h.tile.handler.hin = true ∧ h.tile.handler.skip = true ∧ h.tile.loop.active = 0) := by
  decide +kernel
theorem witness_RingInstructions :
    let w : Nat := 0x3000 + 1 * 2 ^ 20 + 1 * 2 ^ 27
    let s (n : Nat) : State := ({ st with teams := [{ tq with spsize := 0x3100 }] } : State).wrG 2 (wNat n)
    let claimed := (mat true 0).setRing 0 { (mat true 0).ring 0 with claims := [0] }
    (st.guard u = true ∧ (0x3000 % 4096 = 0 ∧ 0x3000 + 256 ≤ (s w).spsize ∧ w < 2 ^ 37 ∧ w / 2 ^ 36 % 2 = 0) ∧ ((s w).ring 0).claims = [] ∧ (∀ k ∈ [1, 2, 3, 4], ((s w).ring 0).may k (s w).cycle = true) ∧
      ((s w).ring 0).may (s w).cfgRank (s w).cycle = true ∧
      (let z := { (s w).ring 0 with at_ := (s w).cycle, rank := 9 }
       z.may (s w).cfgRank (s w).cycle = false ∧ ∀ k ∈ [1, 2, 4], z.may k (s w).cycle = false) ∧
      (s w).ringRead 0 = false ∧ ¬ 0x4000 + 256 ≤ (s w).spsize ∧ (2 ^ 34 - 1 : Nat) < 2 ^ 34) ∧
    ((st.ring 0).count = 0 ∧ 0 < ((mat true 0).ring 0).count ∧ ((mat true 0).ring 0).filled < 1 ∧ ((claimed.ring 0).claims ≠ []) ∧
      (mat true 1).tileQuiet = true ∧ 1 ≤ ((mat true 1).ring 0).filled ∧ (mat true 1).ringRead 0 = false ∧ ((mat true 1).ring 0).claims = [] ∧
      ((mat true 1).ring 0).count - ((mat true 1).ring 0).filled < 1 ∧ 1 ≤ ((mat true 0).ring 0).count - ((mat true 0).ring 0).filled ∧
      ((mat true 1).ring 0).count < 2 ∧ (mat true 1).heldBack (mat true 1).cur 0 0 .acq .self = false) := by decide +kernel
theorem witness_FillInstructions :
    let f : State := { (eng.setRing 0 ((mat false 0).ring 0)).wrG 5 128 with }
    let q : State := (eng.setRing 0 ((mat true 0).ring 0)).wrA 1 (wNat (Fmt.bf16.code * 2 ^ 60 + scratchAddr 0 0x4000))
    let p : State := (mat true 0).setCore (.stage 0) { Core.empty with cmds := [{ cmd0 with work := .fill 0 0 0 0 0, status := .done }] }
    let c := p.setRing 0 { p.ring 0 with claims := [0] }
    let w : State := (eng.setRing 0 ((mat false 0).ring 0)).wrA 1 (wNat (weightAddr 0 0))
    (f.guard u = true ∧ ptrOk (f.rdA 1) = true ∧ (f.rdG 5).toNat = 128 ∧ 0 < (f.ring 0).count ∧ (f.ring 0).layout = false ∧
      64 * 128 ≤ (f.ring 0).esize * 256 ∧ (f.ring 0).filled + (f.ring 0).claims.length < (f.ring 0).count ∧ f.core.pending < 16 ∧
      (f.ring 0).may 3 f.cycle = true ∧ f.rowOutside Region.fillSrc (scratchAddr 0 0x100) 128 128 0 64 = none ∧
      f.firstUngranted 5 0 (copyRows (scratchAddr 0 0x100) 128 128 64) = none) ∧
    w.rowOutside Region.isWeights (weightAddr 0 0) 1 1 0 64 = none ∧
    (ptrOk (q.rdA 1) = true ∧ ptrFmt (q.rdA 1) = .bf16 ∧ ptrBlog (q.rdA 1) = 0 ∧ 0 < (q.ring 0).count ∧ (q.ring 0).layout = true ∧
      (q.ring 0).filled + (q.ring 0).claims.length < (q.ring 0).count ∧
      (q.ring 0).may 3 q.cycle = true ∧ q.rowOutside Region.fillSrc (ptrAddr (q.rdA 1)) 128 128 0 64 = none ∧
      q.firstUngranted 5 0 (copyRows (ptrAddr (q.rdA 1)) 128 128 64) = none) ∧
    (((c.getTile 0).ring 0).claims = [0] ∧ c.fillReady 0 0 = true ∧ c.mayPublish 0 = true ∧ ((c.getTile 0).ring 0).may 2 c.cycle = true) := by decide +kernel
/-- Each kind has its cells: MMA within its tolerance, MMAF and MSR; a check that passes, one that fails, and a refetch. -/
theorem witness_MatrixCommit :
    let cells (x : Result) : Bool := match x with | .cells _ _ => true | .needsRefetch _ _ => false
    let begun (k : MmaKind) (ph : MmaPhase) : Mma := ⟨k, false, 0, 1, 0, ph, 0, 0, []⟩
    let with_ (m : Mma) (s : State) : State := onTile (fun t => { t with mmas := [m] }) s
    (∀ p ∈ [(MmaKind.narrowFirst, true), (.fixed .e4m3, true), (.semi .minPlus .bf16, false)], let s := mat p.2 1
      s.eager = true ∧ 0 < (s.ring 0).count ∧ 0 < (s.ring 1).count ∧ (s.ring 0).suits p.1 = true ∧ (s.ring 1).suits p.1 = true ∧
        s.entriesReady 0 1 = true ∧ s.tile.mmas = [] ∧ cells (s.resultOf p.1 false 0 1 (s.ring 0).tol) = true) ∧
    (let w := (with_ (begun (.fixed .fp4) .first) (mat true 1)).focus (.main 0)
     (mat true 1).pastStop (.main 0) = false ∧ w.tile.mmas = [begun (.fixed .fp4) .first] ∧ w.core.running = true ∧ (w.checked (begun (.fixed .fp4) .first)).isSome = true ∧ w.mayPop 0 1 = true) ∧
    (let f : Mma := { begun .narrowFirst .first with cancn := 5 }
     let w := (with_ f (mat true 1)).focus (.main 0)
     w.tile.mmas = [f] ∧ (w.checked f).isNone = true) := by decide +kernel
theorem witness_MatrixRefetch :
    let m : Mma := ⟨.fixed .bf16, false, 0, 1, 0, .fetch, 0, 0, []⟩
    let s := onTile (fun t => { t with mmas := [m] }) (mat true 1)
    let v : State := { s with granules := [⟨⟨0, 0, 2⟩, 1, false⟩] }
    let w := onTile (fun t => { t with ext := vset t.ext 0 { ext1 with er := true, limit := 0x40FFFF } }) v
    let f := w.focus (.main 0)
    w.pastStop (.main 0) = false ∧ f.core.running = true ∧ f.tile.mmas = [m] ∧ ((f.refetchPieces m)[0]?).isSome = true ∧ f.inWindow 0x400000 = false ∧
      (f.refetchPieces m).take 1 = [(0x400000, 32)] ∧ (f.refetchFault 0 1 (f.headBytes 0) (f.headBytes 1)).isNone = true ∧ f.admits f.cur 0x400000 = true := by
  decide +kernel
theorem witness_AccumulatorMoves :
    let s := st.wrA 1 (wNat (scratchAddr 0 0x100))
    let d := lazyOf s
    let e := onCore (fun c => { c with wait := some ⟨.mdrain, 0, 0⟩ }) d
    let as_ := (List.range 4096).map (fun n => scratchAddr 0 0x100 + n / 64 * 640 + n % 64 * 10)
    (s.guard u = true ∧ s.noStreams = true ∧ d.core.wait = none ∧ ptrOk (s.rdA 1) = true ∧ rowsInside s.here (scratchAddr 0 0x100) 640 10 = true ∧
      scratchAddr 0 0x100 % 2 = 0 ∧ 640 < 2 ^ 32) ∧
    (e.core.wait = some ⟨.mdrain, 0, 0⟩ ∧ e.core.bankStored = true ∧ rowsInside e.here (scratchAddr 0 0x100) (64 * AccFmt.fp32.size) AccFmt.fp32.size = true) ∧
    (s.eager = true ∧ s.mustWait as_ 10 .rlx .self = false ∧ s.firstFault (allPieces as_ 10) = none) ∧
    (∀ f ∈ [AccFmt.fp32, .bf16], rowsInside s.here (scratchAddr 0 0x100) (64 * f.size) f.size = true ∧ scratchAddr 0 0x100 % f.size = 0 ∧
      64 * f.size % f.size = 0 ∧ 64 * f.size < 2 ^ 32 ∧ f ≠ .w80) ∧
    (let as4 := (List.range 4096).map (fun n => scratchAddr 0 0x100 + n / 64 * 256 + n % 64 * 4)
     s.mustWait as4 4 .rlx .self = false ∧ s.firstFault (allPieces as4 4) = none) := by decide +kernel

/-! ## The edge die -/

/-- An open session. -/
def sess (sid : Nat) : Session := ⟨sid, [], 5, 3, false, 2, [7]⟩
def ten (x : TenantState) : Tenant := { newTenant 1 [7] with state := x }
/-- A version at the code heap's 16th page with one procedure, still at its stub. -/
def ver : Sealed := { Sealed.empty with base := heapBase + 0x10000, size := 384, linkOff := 0x10080, linkCnt := 1, exitStub := heapBase + 0x10100, binding := [] }
def obj : Obj :=
  { objid := 1, tenant := 1, digest := [], flags := 0, spsize := 0x1000, text := [], stage := [], stageEntry := none, coll := [],
    collEntry := none, handlerOff := none, consts := [], bufs := [], tasks := [row0], steps := [], tols := [], almanac := [], calls := [],
    procs := [(0, 0, 0x40)], versions := [ver], quarantined := false, unloading := false }
/-- A module that has started, with the operator's and tenant 1's sessions open. -/
def hs (x : TenantState) : State :=
  { s0 with teams := [], host := { HostIf.empty with sessions := [sess 0, sess 1] }, tenants := [ten x],
            objects := [obj], boot := { s0.boot with ready := 0x1FFFFF, doneSteps := [1, 2, 3, 4, 8] } }
def withTeam (t : Team) (s : State) : State := { s with teams := [t] }
/-- The ring descriptor at host address 0x1000: four commands at 0x10000, four responses at 0x20000. -/
def ringed (head tail : Nat) : State :=
  let s := hs .run
  let d := s.putHost 0x1000 (natBytes 0x10000 8 ++ natBytes 4 4 ++ natBytes 4 4 ++ natBytes 0x20000 8 ++ natBytes head 4 ++ natBytes 0 4 ++ natBytes 0 4)
  { d with host := { d.host with rings := some ⟨0x1000, 0x10000, 4, 4, 0x20000, head, 0, tail⟩ } }

/-- The object of the spec's example of a translation: out, tab and idx, bound to e1, e2 and the scratch extent e0. -/
def sqObj : Obj := { obj with
  text := [0x0300014000000000, 0x0A00100030000008, 0x0100218514000000, 0x210001A115200000, 0x0200014500000001, 0x200001E300202000,
    0x0300020000000007, 0x210002221D200000, 0x0900202E00000000]
  bufs := [⟨1, 2, 5, 0, 32, 0, []⟩, ⟨1, 3, 5, 0, 256, 0, []⟩, ⟨0, 1, 5, 0, 4, 0, []⟩]
  tasks := [{ row0 with bufix := [0, 1, 2] }]
  procs := [(0, 0, 72)] }
/-- R341, R343, R363: the eleven words of that example, with the byte offset in g9 and the check `BCHKI.wr a2, g9, #4, e2` before the store
that no proof covers; the accesses to out and idx keep none (R340). -/
theorem test_translation : (sqObj.native (sqObj.bind [1, 2, 0] 0 3) 0 0xBC00042160 (fun _ => 0xBC00042080)).map Native.words =
    some [0x0300014000000000, 0x0A00100030000008, 0x0100218514000000, 0x210001A115200000, 0x0200014500000001, 0x200001E300202000,
      0x0300020000000007, 0x0200524700000002, 0x0800102224000842, 0x210002221D200000, 0x0900202E00000000] := by decide +kernel

/-- R372: a command answers in its session with the session's number; R375: a tenant that exists is not created again. -/
theorem test_host_answers : after (exec (.setCalendar ⟨0, 0, [], 9⟩) (hs .run)) (fun t => t.host.nextMsgmax == some 9 &&
      t.host.held.map (fun r => (r.opc, r.status, r.cseq, r.seq)) == [(10, 0, 5, 3)]) ∧
    after (exec (.stopTeam ⟨1, 1, 1, 0⟩) (withTeam { tq with state := .waiting } (hs .run))) (fun t => t.teams.map Team.haltAt == [some 10000] &&
      t.teams.map Team.state == [.waiting]) := by
  decide +kernel
/-- R400: a granule's bytes are zero once it is zeroed. -/
theorem test_granule_zeroed : after (exec (.granuleZeroed ⟨0, 0, 0x5E000⟩) { s0 with dirty := [⟨0, 0, 0x5E000⟩], mem := [(heapBase + 9, 1)] })
    (fun t => t.mem == [] && t.dirty == []) := by decide +kernel
/-- R385, R386: a tenant without a migration answers an abort of its import; R423: an allowance never exceeds 64. -/
theorem test_allowances : after (exec (.allowanceReturn ⟨1, 9⟩) { s0 with fabric := { s0.fabric with
    peers := vset s0.fabric.peers 1 ⟨true, 0, 60, none, 0, 0, 0⟩ } }) (fun t => (vget t.fabric.peers 1 Peer.empty).allow == 64) := by decide +kernel

theorem witness_CommandResponses : ((hs .run).findSession 0) = some (sess 0) := by decide +kernel
theorem witness_SessionMessages :
    let n (p : Nat) : State := { hs .run with host := { (hs .run).host with sessions := [{ sess 1 with phase := p }] } }
    (hs .run).serves = true ∧ (n 0).open 1 = false ∧ (hs .run).findSession 1 = some (sess 1) ∧ (hs .run).mayAccept 1 0x10000 = true ∧
    (n 0).mayOpen 1 [7] = true ∧ (n 0).mayOpen 0 [9] = true ∧ (n 0).host.operator = none ∧ (n 1).findSession 1 = some { sess 1 with phase := 1 } ∧ (n 1).mayOpen 1 [7] = true ∧
    (hs .run).host.waiting = [] ∧ (hs .run).open 1 = true := by decide +kernel
theorem witness_RingSteps :
    let r (h t : Nat) : Rings := ⟨0x1000, 0x10000, 4, 4, 0x20000, h, 0, t⟩
    let y : Response := ⟨1, false, 1, 0, 5, 3, [], []⟩
    let p : State := { ringed 2 2 with host := { (ringed 2 2).host with held := [y] } }
    let full : State := p.putHost 0x1020 (natBytes 1 4)
    (ringed 2 2).portUp = true ∧ p.portUp = true ∧ 2 ^ 63 / 2 ^ 44 % 2 ^ 19 = 0 ∧ (2 ^ 63 + 2 ^ 44) / 2 ^ 44 % 2 ^ 19 ≠ 0 ∧ (ringed 2 2).host.rings = some (r 2 2) ∧ (4 : Nat) ≤ 4 ∧ (3 : Nat) < 4 ∧
    (p.host.held = [y] ∧ p.host.waiting = [] ∧ (r 2 2).chead = (r 2 2).ctail ∧ ((r 2 2).rtail + 1) % 4 ≠ leNat (p.getHost 0x1020 4) ∧
      ((r 2 2).rtail + 1) % 4 = leNat (full.getHost 0x1020 4)) := by decide +kernel
theorem witness_ObjectCommands :
    let s := hs .run
    let busy := withTeam { tq with objid := 1 } (onTile (fun t => { t with task := some task0 }) s)
    (s.mayAccept 1 1 = true ∧ s.inState 1 [.unlocked, .locked, .run] = true ∧ s.boot.ready.getLsbD 18 = true) ∧
    (s.findObj 1 1 = some obj ∧ s.inState 1 anyState = true ∧ s.pins 1 = 0 ∧ busy.pins 1 ≠ 0 ∧ busy.objStoppable 1 = true) ∧
    (s.memOk = true ∧ s.sweepVersions.objOf 1 = some obj ∧ obj.findVersion (heapBase + 0x10000) = some ver ∧ obj.mayPublish ver 0 = true) := by
  decide +kernel
theorem witness_TenantCommands :
    let none_ : State := { hs .run with tenants := [] }
    let g : GrantEntry := ⟨0, 0, 0x5DFFF, 1⟩
    let e : ExtentEntry := ⟨15, 3, BitVec.ofNat 64 (0x5DFFF * 2 ^ 21), BitVec.ofNat 64 (0x5E000 * 2 ^ 21 - 1)⟩
    let s := hs .unlocked
    (none_.mayAccept 0 1023 = true ∧ (List.replicate 133 (4 : Byte)).length = 133 ∧ none_.findTenant 1023 = none) ∧
    (s.mayAccept 0 1 = true ∧ s.inState 1 [.unlocked] = true ∧ s.findTenant 1 = some (ten .unlocked) ∧ g.count ≠ 0 ∧ s.kindReady 0 = true ∧
      (∀ i ∈ GrantEntry.ids g, i.exists = true ∧ s.grantable 1 i = true) ∧ ExtentEntry.wellFormed e = true ∧ s.addrReady e.base.toNat = true ∧
      s.addrReady e.limit.toNat = true ∧ ((GrantEntry.ids g).foldl (fun s g => s.grant 1 g) s).extentOwned 1 e.base.toNat e.limit.toNat = true) ∧
    (s.mayAccept 1 1 = true ∧ s.tenantStoppable 1 = true ∧ (hs .error).inState 1 [.locked, .run, .error] = true) ∧
    (s.findTenant 1 = some (ten .unlocked) ∧ (ten .unlocked).mig = 0 ∧ (∀ e ∈ (ten .unlocked).ext.toList, e.valid = false) ∧
      (∀ g ∈ s.granules, g.tag ≠ 1) ∧ (∀ y ∈ ({ s with host := { s.host with sessions := [{ sess 1 with phase := 1 }] } } : State).host.sessions,
        y.sid = 1 → y.phase ≠ 2) ∧ (ten .run).state ≠ .unlocked) ∧
    ((withTeam tq (hs .run)).active 1 = true ∧ (hs .run).active 1 = false) ∧
    (let q (t : Nat) (x : State) : State := { x with gtime := t, host := { x.host with waiting := [⟨0, 1, 9, 5, .reset 10000⟩] } }
     (q 9999 (hs .run)).gtime < 10000 ∧ (q 20000 (withTeam tq (hs .run))).active 1 = true ∧ (q 20000 (hs .run)).active 1 = false ∧
       (q 20000 (hs .run)).findSession 0 = some (sess 0) ∧ (q 20000 (hs .run)).findTenant 1 = some (ten .run)) ∧
    (let d : State := { s with dirty := [⟨0, 0, 3⟩] }
     d.memOk = true ∧ d.dirty.contains ⟨0, 0, 3⟩ = true) := by decide +kernel
theorem witness_ExtentCommands :
    let s : State := { hs .run with granules := [⟨⟨0, 0, 4⟩, 1, false⟩] }
    let t : Tenant := { ten .run with ext := vset (ten .run).ext 2 ext1 }
    let m : State := { s with tenants := [t] }
    (s.mayAccept 0 1 = true ∧ s.findTenant 1 = some (ten .run) ∧ (15 : BitVec 8).toNat ≤ 15 ∧ s.tenantStoppable 1 = true ∧
      m.drained 1 2 = true ∧ m.tenantStoppable 1 = true) ∧
    (m.findTenant 1 = some t ∧ (vget t.ext 2 Extent.empty).valid = true ∧ m.extentOwned 1 0x800000 (0x800000 + m.heldLength ext1 - 1) = true ∧
      (∀ j, j < 16 → j ≠ 2 → (vget t.ext j Extent.empty).valid = false)) ∧
    (let z (x : TeamState) : Team := { tq with state := x, ext := vset tq.ext 2 ext1, code := { tq.code with binding := [2] } }
     let w (x : TeamState) : State := withTeam (z x) m
     ∀ x ∈ [TeamState.waiting, .running], (w x).findTeam 1 = some (z x) ∧ (w x).dependents 1 0x400000 0x400FFF = [z x] ∧ (z x).stop = .none ∧
       (∀ p ∈ (z x).procs, ((w x).getCore p).pend = [])) ∧
    (m.memOk = true ∧ ext1.base.toNat ≤ ext1.limit.toNat ∧ 0x800000 + (ext1.limit.toNat - ext1.base.toNat) < 2 ^ 53 ∧
      (∀ t ∈ (withTeam { tq with state := .halted } m).teams, t.tenant = 1 → t.state ≠ .running ∧ t.state ≠ .waiting) ∧ m.heldLength ext1 = 0x1000 ∧
      ∃ g ∈ s.granules, g.tag = 1) ∧
    (s.mayAccept 0 0 = true ∧ s.mayAccept 1 1 = true ∧ (476 : Nat) ≤ (476#64).toNat) := by decide +kernel
theorem witness_TeamCommands :
    let cov (a b : Nat) : Extent := ⟨true, true, true, true, true, BitVec.ofNat 53 a, BitVec.ofNat 53 b, 1⟩
    let t : Tenant := { ten .locked with ext := vset (vset (ten .locked).ext 0 (cov (scratchAddr 0 0) (scratchAddr 1023 0xFFFFF))) 1 (cov 0x200000 0x3FFFFF) }
    let s : State := { hs .locked with tenants := [t], granules := (List.range 8).map (fun i => ⟨⟨0, 0, i⟩, 1, false⟩) }
    let x : CmdLaunch :=
      { sid := 0, tag := 1, objid := 1, teamno := 0, jobseed := 1, flags := 0, vigil := 16, nbuf := 0, share := 0x8000, clusters := 1,
        groups := List.replicate 64 0, tcbx := 1, scrx := 0, trcx := 0xFF, tcboff := 0, savebase := 0x400000, savelim := 0xFFFFFF, mods := 0,
        almanac := none, bindings := [] }
    let w (y : TeamState) : State := withTeam { tq with state := y, byStop := true } (hs .run)
    (s.mayAccept 0 1 = true ∧ s.findTenant 1 = some t ∧ s.inState 1 [.locked, .run] = true ∧ t.mig = 0 ∧ s.findObj 1 1 = some obj ∧
      s.launchRefusal t obj x = none ∧ s.launchRefusal t obj { x with vigil := 25 } = some 0x11 ∧
      obj.versions.find? (fun v => v.binding == launchBinding x && !v.stale) = some ver) ∧
    ((hs .run).findTenant 1 = some (ten .run) ∧ (ten .run).mig = 0 ∧ (withTeam { tq with stop := .named 9, reason := .slot } (hs .run)).findTeam 1
        = some { tq with stop := .named 9, reason := .slot }) ∧
    ((w .waiting).mayAccept 1 1 = true ∧ (w .waiting).inState 1 [.run] = true ∧ (w .running).findTeam 1 = some { tq with state := .running, byStop := true } ∧
      tq.tenant = 1 ∧ tq.stop = .none ∧ ((w .halted).findTeam 1).map Team.byStop = some true ∧ (withTeam { tq with stop := .named 9, reason := .slot }
        (hs .run)).gtime + 10000 > 9 ∧ (max 5 ((hs .run).gtime + 10000) ≤ 10000) ∧ TeamState.failed ≠ .running ∧ TeamState.failed ≠ .waiting) ∧
    (let s : State := { withTeam tq (hs .run) with clusters := [(0, { Cluster.empty with holder := some 1 })] }
     let n := s.setSlots 1 [1]
     s.mayAccept 0 0 = true ∧ n.calendarOk = true ∧ s.findTeam 1 = some tq ∧ tq.state = .running ∧ tq.clusters = [(0, 0)] ∧
       (∀ d, d < 64 → ((s.getCluster d).holder = some 1 ↔ d = 0)) ∧ vget (n.getCluster 0).slots (slotNow s.gtime) none = some 1 ∧
       vget (n.getCluster 0).slots ((slotNow s.gtime + 1) % 16) none ≠ some 1) ∧
    ((hs .run).mayAccept 0 0 = true ∧ ((hs .run).setSlots 0 []).calendarOk = true ∧ (5 : BitVec 8).toNat = 5 ∧ (16 : BitVec 8).toNat ≤ 16) ∧
    ((w .running).inState 1 anyState = true) ∧
    ((64#64).toNat % 64 = 0 ∧ (24#64).toNat = 24 ∧ (65#64).toNat % 64 ≠ 0 ∧ 2 ^ 44 ≤ (0x100000000000#64).toNat ∧ (23#64).toNat < 24 ∧
      (0xFFFFFFFFFC0#64).toNat + (40 + 24) ≤ 2 ^ 44 ∧ ¬ (0xFFFFFFFFFC0#64).toNat + (41 + 24) ≤ 2 ^ 44) := by decide +kernel
/-- A team of cluster 0, its stop, its save and its restore; a fenced tile and one whose progress is late. -/
theorem witness_SlicesAndStops :
    let b : State := { withTeam tq (hs .run) with clusters := [(0, { Cluster.empty with holder := some 1 })] }
    let g : State := { withTeam { tq with state := .waiting } (hs .run) with clusters := [(0, { Cluster.empty with slots := vset Cluster.empty.slots 0 (some 1) })] }
    (b.host.nextMsgmax = none ∧ (b.getCluster 0).holder = some 1 ∧ b.findTeam 1 = some tq ∧ tq.state = .running ∧ tq.stop = .none ∧
      b.slotTeam 0 (slotNow b.gtime) = none ∧
      (let own : State := { b with clusters := [(0, { Cluster.empty with holder := some 1, slots := vset Cluster.empty.slots 0 (some 1) })] }
       vget (own.getCluster 0).slots (slotNow own.gtime % 16) none = some 1 ∧ vget (own.getCluster 0).slots ((slotNow own.gtime + 1) % 16) none ≠ some 1)) ∧
    (tq.clusters = (0, 0) :: [] ∧ tq.haltAt = none ∧ vget (g.getCluster 0).slots ((slotNow g.gtime + 1) % 16) none ≠ some 1 ∧
      vget ({ Cluster.empty with slots := Vector.replicate 16 (some 1) } : Cluster).slots 1 none = some 1 ∧ ({ tq with haltAt := some 0 } : Team).haltAt = some 0) ∧
    ((g.getCluster 0).holder = none ∧ g.slotTeam 0 (slotNow g.gtime) = some { tq with state := .waiting } ∧ g.tenantRuns 1 = true ∧ g.clusterFree 0 = true ∧
      g.untripped = true ∧ g.gtime % 2 ^ 18 ≤ 100 ∧ ¬ ({ g with gtime := 101 } : State).gtime % 2 ^ 18 ≤ 100 ∧ tq.due = none ∧
      ({ g with gtime := 2 ^ 18 - 1 } : State).gtime / 2 ^ 18 = 0 ∧
      (let two : Team := { tq with state := .waiting, clusters := [(0, 0), (1, 0)], due := some 0 }
       let n : State := { withTeam two g with clusters := g.clusters ++ [(1, { Cluster.empty with holder := some 9 })] }
       let v : State := { n with teams := [two, { tq with num := 9 }] }
       v.slotTeam 0 (slotNow v.gtime) = some two ∧ v.clusterFree 1 = false ∧ two.due = some (v.gtime / 2 ^ 18))) := by
  decide +kernel
theorem witness_SavesAndVigil :
    let stop (r : StopReason) (x : StopState) : State := withTeam { tq with stop := x, reason := r } st
    let sp : Team := { tq with stop := .stopped }
    let tiny : Team := { sp with saveLim := sp.saveBase }
    let rs : Team := { tq with hasSave := true, saveSeq := 0, placed := false }
    let fz (f : Bool) : State := onTile (fun t => { t with fenced := f }) (withTeam { tq with vigil := 16 } st)
    let late : State := { fz false with cycle := 2 ^ 16 }
    let tile : State := withTeam { tq with vigil := 16, lastCycle := 1 } late
    ((stop .slot (.named 0)).findTeam 1 = some { tq with stop := .named 0, reason := .slot } ∧ tq.restorePending = false ∧ rs.restorePending = true ∧
      (stop .slot (.named 0)).stoppable tq = true ∧ (∀ p ∈ tq.procs, ((stop .slot (.named 0)).getCore p).pend = []) ∧
      (∀ n ∈ tq.tiles, ((stop .fail (.named 0)).getTile n).handler.entering = false)) ∧
    ((stop .slot .stopped).firstSaveFault sp = none ∧ sp.levelAt + sp.levelSize ≤ sp.saveLim + 1 ∧
      sp.state ≠ .failed ∧ ((stop .slot .stopped).firstSaveFault tiny).isSome = true ∧
      (let edge : Team := { sp with saveLim := sp.levelAt + sp.levelSize - 2 }
       (withTeam edge st).firstSaveFault edge = none ∧ edge.saveLim + 1 < edge.levelAt + edge.levelSize ∧ (∀ n ∈ edge.tiles, n < 1024))) ∧
    (rs.state = .running ∧ rs.stash = [] ∧ rs.log = [] ∧ memNat st.mem (rs.levelAt + rs.levelLen - 4) 4 = rs.saveSeq ∧
      memNat st.mem (rs.levelAt + 8) 4 = rs.saveSeq ∧ rs.snaps = []) ∧
    (((fz true).getTile 0).fenced = true ∧ ((fz true).spareFor 0).isSome = true ∧
      ({ fz true with boot := { s0.boot with spares := (List.range 16).map (fun r => (0, r)) } } : State).spareFor 0 = none) ∧
    ((late.findTeam (late.getTile 0).team).map (fun t => (t.counts late.gtime, t.vigil, t.lastCycle)) = some (true, 16, 0) ∧
      (late.getTile 0).fenced = false ∧ (0 + 2 ^ 16 ≤ late.cycle) ∧ (tile.cycle < 1 + 2 ^ 16 ∧ 1 < (tile.getTile 0).progress + 2 ^ 16) ∧
      (let go : State := withTeam { tq with vigil := 16, lastCycle := 2 ^ 16 } late
       go.cycle < 2 ^ 16 + 2 ^ 16 ∧ (go.getTile 0).progress + 2 ^ 16 ≤ 2 ^ 16)) := by
  decide +kernel
theorem witness_MonitorSteps :
    let h : State := { hs .run with clusters := [(3, { Cluster.empty with temp := 880, tempHigh := true, clock := 8 })] }
    (({ s0 with gtime := 1000 } : State).getTile 0).team ≠ 0 ∧ (s0.getTile 0).copyTime / 1000 < 1000 / 1000 ∧
    ((withTeam tq (hs .run)).findTeam 1 = some tq ∧ (∀ y ∈ (hs .run).tenants, y.tag = 1 → y.mig = 0)) ∧ h.boot.ready.getLsbD 20 = true ∧
    3000000 < 3000001 ∧ (h.getCluster 3).clock ≤ 15 ∧
    ((760 : BitVec 16).toInt = 760 ∧ (743 : BitVec 16).toInt < 744 ∧ (840 : BitVec 16).toInt = 840 ∧ h.clockHeld 3 = false) ∧
    ((h.getCluster 3).tempHigh = true ∧ 7 < (h.getCluster 3).clock) ∧ (880 : BitVec 16).toInt = 880 ∧
    (let z (n : Nat) (a : Option Nat) : State :=
       { h with gtime := n, clusters := [(3, { Cluster.empty with tripSince := some 5 })], boot := { h.boot with tripAt := a } }
     (z 1000005 none).boot.tripAt = none ∧ (z 1000005 none).boot.tripped = false ∧ ((z 1000005 none).getCluster 3).tripSince = some 5 ∧
       5 + 1000000 ≤ (z 1000005 none).gtime ∧ (z 9 none).gtime < 5 + 1000000 ∧ (z 9 (some 10)).boot.tripAt = some 10 ∧ (z 9 (some 10)).gtime < 10 ∧
       10 ≤ (z 10 (some 10)).gtime ∧
       (∀ t ∈ (withTeam { tq with state := .waiting } (z 10 (some 10))).teams, t.state ≠ .running)) := by
  decide +kernel
theorem witness_MigrationCommands :
    let s (m : Nat) (o : List Byte) : State := { hs .run with tenants := [{ ten .run with mig := m, offer := o }] }
    (s 0 []).mayAccept 1 1 = true ∧ (s 0 []).findTenant 1 = some { ten .run with mig := 0, offer := [] } ∧ (s 0 []).tenantStoppable 1 = true ∧
    ((s 0 []).accept 1).findSession 1 = some { sess 1 with expected := 6 } ∧ (s 0 []).inState 1 [.locked, .run] = true ∧
    (s 0 [9]).findTenant 1 = some { ten .run with mig := 0, offer := [9] } ∧ byteNat [5, 0, 1, 0] 0 = 5 ∧ bytesNat [5, 0, 1, 0] 2 2 = 1 ∧
    byteNat [6, 0, 1, 0] 0 = 6 ∧ (∀ m ∈ [1, 2, 3], (s m []).findTenant 1 = some { ten .run with mig := m, offer := [] } ∧
      (s m []).mayAccept 1 1 = true) ∧
    ({ s 1 [] with tenants := [{ ten .error with mig := 1 }] } : State).inState 1 [.locked, .run] = false ∧
    ({ ten .error with mig := 3 } : Tenant).state = .error ∧ ({ ten .run with mig := 3 } : Tenant).state ≠ .error := by decide +kernel
theorem witness_FabricSteps :
    let s := hs .run
    let all : List (Nat × Nat) := (List.range 2).flatMap (fun f => (List.range 8).map (fun l => (f, l)))
    let x : CmdFabric := ⟨0, 0, [1, 2] ++ List.replicate 14 0, [0, 0x8000] ++ List.replicate 62 0, all⟩
    let f : State := { s with teams := [{ tq with fabric := true, mods := [0, 2], state := .waiting }] }
    let d (lk sh : List Nat) : Dark := ⟨Vector.ofFn (fun i => if i.val < 2 then BitVec.ofNat 32 (i.val + 1) else 0), x.peers, all,
      all.filter (fun q => lk.contains q.1), [], sh, 0⟩
    let k (lk sh : List Nat) : State := { s with fabric := { s.fabric with dark := some (d lk sh) } }
    let p : State := { s with fabric := { s.fabric with peers := vset s.fabric.peers 1 ⟨true, 0, 64, none, 0, 0, 0⟩, portmap := (d [] []).portmap, agree := [0] } }
    (s.mayAccept 0 0 = true ∧ s.fabric.dark = none ∧ s.tableError { x with flags := 2 } = true ∧ s.tableError x = false ∧ s.cutsTeam x = false ∧
      f.cutsTeam x = true ∧ lanesUp (s.newMap x) s.fabric.down 1 = true) ∧
    ((d [] []).relocks 0 7 = true ∧ (40000 : Nat) ≤ 40000 ∧ (0, 7) ∉ (d [] []).locked) ∧
    ((d [] []).relocked 0 = false ∧ (d [0, 1] []).relocked 0 = true ∧ s.boot.tripped = false) ∧
    ((k [0, 1] []).fabric.dark = some (d [0, 1] []) ∧ 0 ∈ (d [0, 1] []).ports ∧ 1 ∈ (d [0, 1] []).ports ∧ 1 ∉ (d [0, 1] []).shaken ∧
      (∀ q ∈ (d [0, 1] [1]).ports, q = 0 ∨ q ∈ (d [0, 1] [1]).shaken) ∧ 0 ∉ (d [0, 1] [1]).shaken) ∧
    (s.fabric.dark = none ∧ (1, 7) ∉ s.fabric.down) ∧
    ((1 : Nat) ≠ s.modid.toNat ∧ (vget p.fabric.peers 1 Peer.empty).valid = true ∧ (vget s.fabric.peers 63 Peer.empty).valid = false ∧ s.modid.toNat = 0) ∧
    ((p.fabric.buffer 0).length < 128 ∧ p.fabric.room 0 = true ∧ p.fabric.opens (vget p.fabric.peers 1 Peer.empty) = true ∧ p.fabric.held = [] ∧
      p.fabric.dark = none ∧ vget p.fabric.expect 0 0 = 0 ∧ vget p.fabric.expect 0 0 ≠ 1 ∧ (∀ f ∈ p.fabric.flights, f.own = true) ∧
      (let h : State := { p with fabric := { p.fabric with held := [(1, 1, .answer, [7])] } }
       h.fabric.held = [(1, 1, .answer, [7])] ∧ ∃ x ∈ h.fabric.held, x.1 = 1) ∧
      (let o (t : Nat) : Peer := { vget p.fabric.peers 1 Peer.empty with owed := 3, sentAt := t }
       (o 0).owed ≠ 0 ∧ (o 0).sentAt + 256 ≤ 256 ∧ 255 < (o 0).sentAt + 256) ∧
      (let e : Access := { acc0 .store peerAddr 8 with paid := true }
       let w := withAcc e (withPeer s0)
       w.region peerAddr = .peer 1 ∧ (w.getCore (.main 0)).pend.findIdx? (fun e => e.paid && !e.performed && e.addr == peerAddr) = some 0)) ∧
    (s.badUnits 0x400000 8 = [] ∧ s.unready 0x400000 8 = false ∧ s.wayFault 0x5E000 = none ∧ s.admitsTag 0 0x400000 0x400000 = true ∧ s.admitsTag 1 0x400000 0x400000 = false ∧ s.admitsTag 9 (scratchAddr 0 0) (scratchAddr 0 0) = false) ∧
    (∀ n o, s.region 0x400000 ≠ .port n o) ∧
    (lanesUp p.fabric.portmap p.fabric.down 0 = true ∧ 0 ∈ p.fabric.agree ∧ (50 : Int).natAbs ≤ 50 ∧ (∀ m, m < p.modid.toNat →
      (vget p.fabric.peers m Peer.empty).valid = false) ∧ p.gtime < p.fabric.slewAt + 10000) := by
  refine ⟨by decide +kernel, by decide +kernel, by decide +kernel, by decide +kernel, by decide +kernel, by decide +kernel, by decide +kernel, by decide +kernel,
    ?_, by decide +kernel⟩
  intro n o
  rw [show (hs .run).region 0x400000 = .hbm by decide +kernel]
  exact Region.noConfusion
theorem witness_BringUp :
    let b (l : List Nat) : State := { s0 with boot := { s0.boot with starting := true, doneSteps := l } }
    (s0.boot.recovery = false ∧ (0 : BitVec 8).getLsbD 1 = false ∧ (2 : BitVec 8).getLsbD 1 = true ∧ (0x3000#64).toNat % 4096 = 0 ∧
      (0x3000#64).toNat + (512#64).toNat ≤ 2 ^ 44) ∧
    ((b [1]).boot.starting = true ∧ (b [1]).boot.tripped = false ∧ 1 ∈ (b [1]).boot.doneSteps ∧ 2 ∉ (b [1]).boot.doneSteps ∧ (b [1]).boot.tries 2 < 3 ∧
      3 ∉ (b [1]).boot.doneSteps ∧ (b [1]).boot.tries 3 < 3 ∧ 4 ∉ (b [1]).boot.doneSteps ∧ (b [1]).boot.tries 4 < 3) ∧
    (let v := b ([1, 4] ++ (List.range 12).map (· + 16))
     8 ∉ v.boot.doneSteps ∧ v.boot.tries 8 < 3 ∧ 4 ∈ v.boot.doneSteps ∧ ∀ k, k < 12 → 16 + k ∈ v.boot.doneSteps) ∧
    ({ s0.boot with recovery := true } : Boot).recovery = true ∧
    (3 ∈ (b [1, 3]).boot.doneSteps ∧ 16 + 11 ∉ (b [1, 3]).boot.doneSteps ∧ 32 ∉ (b [1, 3]).boot.doneSteps ∧ (b [1, 3]).boot.skips 27 11 [400] = false ∧
      (b [1, 3]).boot.tries 27 < 3 ∧ ([3] : List Nat).length ≤ 1 ∧ ¬ ([3, 4] : List Nat).length ≤ 1 ∧ ([] : List Nat).length ≤ 0) ∧
    (({ (b [1]).boot with attempts := [(4, 1)] } : Boot).tries 4 ≠ 0 ∧ (b [1]).boot.tries 4 = 0) ∧
    (48 + 3 ∉ (b [1, 3]).boot.doneSteps ∧ (b [1, 3]).boot.tries 51 < 3 ∧ (b [1, 3]).failing ⟨3, true, []⟩ = []) := by decide +kernel
/-- A warm start skips a training whose record, digest and temperatures hold. -/
theorem witness_SkippedTraining :
    let v : Vector TrainRec 13 := Vector.replicate 13 ⟨true, [], none, 400⟩
    let w : Boot := { s0.boot with warm := true, training := v, trainDigest := Config.sha512 (trainBytes v) }
    w.skips 27 11 [400, 480] = true := by
  dsimp only
  simp only [Boot.skips, Boot.trainOk, beq_self_eq_true, Bool.and_true]
  decide +kernel

end Sys2Proof.Tests
end

section
/-!
SUPPORT. Reading a part of the machine after another part, or the same one, was replaced: processors, tiles, clusters and teams.
-/
namespace Sys2Proof.Machine
open Sys2Proof

/-! ## Association lists -/

theorem assoc_assocSet {κ α : Type} [DecidableEq κ] (l : List (κ × α)) (k j : κ) (x d : α) :
    assoc (assocSet l k x) j d = if j = k then x else assoc l j d := by
  induction l with
  | nil => simp [assocSet, assoc, eq_comm]
  | cons e r ih =>
    obtain ⟨i, y⟩ := e
    by_cases hik : i = k
    · subst hik
      by_cases hj : i = j
      · simp [assocSet, assoc, hj]
      · simp [assocSet, assoc, hj, Ne.symm hj]
    · by_cases hij : i = j
      · subst hij; simp [assocSet, assoc, hik]
      · simp [assocSet, assoc, hik, hij, ih]

/-! ## Processors, tiles and clusters -/

@[simp] theorem State.getCore_setCore (s : State) (p q : ProcId) (c : Core) :
    (s.setCore p c).getCore q = if q = p then c else s.getCore q := by
  unfold State.setCore State.getCore
  by_cases hp : p = s.cur
  · by_cases hq : q = s.cur <;> simp [hp, hq]
  · by_cases hq : q = s.cur
    · simp [hp, hq, Ne.symm hp]
    · simp [hp, hq, assoc_assocSet]
@[simp] theorem State.getTile_setTile (s : State) (n m : Nat) (t : Tile) : (s.setTile n t).getTile m = if m = n then t else s.getTile m := by
  unfold State.setTile State.getTile
  by_cases hn : n = s.here
  · by_cases hm : m = s.here <;> simp [hn, hm]
  · by_cases hm : m = s.here
    · simp [hn, hm, Ne.symm hn]
    · simp [hn, hm, assoc_assocSet]
@[simp] theorem State.getCluster_setCluster (s : State) (n m : Nat) (c : Cluster) :
    (s.setCluster n c).getCluster m = if m = n then c else s.getCluster m := assoc_assocSet _ _ _ _ _
theorem State.getCore_setCore_same (s : State) (p : ProcId) (c : Core) : (s.setCore p c).getCore p = c := by simp
theorem State.getTile_setTile_same (s : State) (n : Nat) (t : Tile) : (s.setTile n t).getTile n = t := by simp
theorem State.getCluster_setCluster_same (s : State) (n : Nat) (c : Cluster) : (s.setCluster n c).getCluster n = c := by simp
@[simp] theorem State.getTile_setCore (s : State) (p : ProcId) (c : Core) (n : Nat) : (s.setCore p c).getTile n = s.getTile n := by
  simp [State.getTile]
@[simp] theorem State.getCore_setTile (s : State) (n : Nat) (t : Tile) (p : ProcId) : (s.setTile n t).getCore p = s.getCore p := by
  simp [State.getCore]
@[simp] theorem State.getCluster_setCore (s : State) (p : ProcId) (c : Core) (n : Nat) : (s.setCore p c).getCluster n = s.getCluster n := by
  simp [State.getCluster]
@[simp] theorem State.getCluster_setTile (s : State) (n : Nat) (t : Tile) (m : Nat) : (s.setTile n t).getCluster m = s.getCluster m := by
  simp [State.getCluster]
@[simp] theorem State.getTile_setCluster (s : State) (n : Nat) (c : Cluster) (m : Nat) : (s.setCluster n c).getTile m = s.getTile m := rfl
@[simp] theorem State.getCore_setCluster (s : State) (n : Nat) (c : Cluster) (p : ProcId) : (s.setCluster n c).getCore p = s.getCore p := rfl
@[simp] theorem State.getTile_putTeam (s : State) (t : Team) (n : Nat) : (s.putTeam t).getTile n = s.getTile n := rfl
@[simp] theorem State.getCore_putTeam (s : State) (t : Team) (p : ProcId) : (s.putTeam t).getCore p = s.getCore p := rfl
@[simp] theorem State.getCluster_putTeam (s : State) (t : Team) (n : Nat) : (s.putTeam t).getCluster n = s.getCluster n := rfl

/-! ## Teams by number -/

theorem State.num_of_findTeam {s : State} {n : Nat} {t : Team} (h : s.findTeam n = some t) : t.num = n := by
  simpa using List.find?_some h
theorem State.mem_of_findTeam {s : State} {n : Nat} {t : Team} (h : s.findTeam n = some t) : t ∈ s.teams := List.mem_of_find?_eq_some h
/-- A replaced record is found under its own number, when the number is a team's, and every other record as before. -/
theorem State.findTeam_putTeam (s : State) (t : Team) (n : Nat) :
    (s.putTeam t).findTeam n = if n = t.num then (s.findTeam n).map (fun _ => t) else s.findTeam n := by
  simp only [State.findTeam, State.putTeam]
  induction s.teams with
  | nil => simp
  | cons u r ih =>
    by_cases hu : u.num = t.num
    · by_cases hn : n = t.num
      · simp [hu, hn]
      · simp [hu, hn, Ne.symm hn] at ih ⊢
        exact ih
    · by_cases hun : u.num = n
      · subst hun; simp [hu]
      · simp [hu, hun] at ih ⊢
        exact ih
theorem State.findTeam_putTeam_same {s : State} {t u : Team} {n : Nat} (h : s.findTeam n = some u) (ht : t.num = n) :
    (s.putTeam t).findTeam n = some t := by
  simp [State.findTeam_putTeam, ht, h]

end Sys2Proof.Machine
end

section
/-!
SUPPORT. What counting, trace records and reports leave as it was (R251, R355, R402, R415): a processor but for its fault records, a tile
but for its counters, and the migrations in flight.
-/
namespace Sys2Proof.Machine
open Sys2Proof

/-- A processor without its fault records (R251). -/
def Core.unrecorded (c : Core) : Core :=
  { c with fencedRec := Core.empty.fencedRec, memerrRec := Core.empty.memerrRec, peerRec := none }
/-- A tile without its counters (R402). -/
def Tile.uncounted (k : Tile) : Tile := { k with ctr := Tile.empty.ctr }

@[simp] theorem Tile.uncounted_count (k : Tile) (c n m : Nat) : (k.count c n m).uncounted = k.uncounted := rfl

/-- `t` is `s` but for counters, fault records and what lies outside the processors, the tiles and the migrations. -/
structure SameWork (s t : State) : Prop where
  core : ∀ p, (t.getCore p).unrecorded = (s.getCore p).unrecorded
  tile : ∀ n, (t.getTile n).uncounted = (s.getTile n).uncounted
  migrations : t.migrations = s.migrations

namespace SameWork

theorem refl (s : State) : SameWork s s := ⟨fun _ => rfl, fun _ => rfl, rfl⟩
theorem trans {s t u : State} (h : SameWork s t) (k : SameWork t u) : SameWork s u :=
  ⟨fun p => (k.core p).trans (h.core p), fun n => (k.tile n).trans (h.tile n), k.migrations.trans h.migrations⟩
/-- Parts of the state that no processor, tile or migration stands in do not matter. -/
theorem of_eq {s t : State} (hc : ∀ p, t.getCore p = s.getCore p) (ht : ∀ n, t.getTile n = s.getTile n)
    (hm : t.migrations = s.migrations) : SameWork s t :=
  ⟨fun p => by rw [hc p], fun n => by rw [ht n], hm⟩
theorem foldl {α : Type} (f : State → α → State) (hf : ∀ s a, SameWork s (f s a)) (l : List α) (s : State) : SameWork s (l.foldl f s) := by
  induction l generalizing s with
  | nil => exact refl s
  | cons a r ih => exact (hf s a).trans (ih _)

theorem setBytes (s : State) (m : List Host.Cell) (l : List Nat) : SameWork s { s with mem := m, bad := l } :=
  of_eq (fun _ => rfl) (fun _ => rfl) rfl
theorem putTeam (s : State) (t : Team) : SameWork s (s.putTeam t) := of_eq (fun _ => rfl) (fun _ => rfl) rfl
theorem setCore {s : State} {p : ProcId} {c : Core} (h : c.unrecorded = (s.getCore p).unrecorded) : SameWork s (s.setCore p c) where
  core q := by
    rw [State.getCore_setCore]
    split
    · next e => rw [h, e]
    · rfl
  tile n := by simp
  migrations := by simp
theorem setTile {s : State} {n : Nat} {k : Tile} (h : k.uncounted = (s.getTile n).uncounted) : SameWork s (s.setTile n k) where
  core p := by simp
  tile m := by
    rw [State.getTile_setTile]
    split
    · next e => rw [h, e]
    · rfl
  migrations := by simp

/-! ## Counters (R402, R403) -/

theorem countAt (s : State) (l c k n : Nat) : SameWork s (s.countAt l c k n) := setTile (Tile.uncounted_count _ _ _ _)
theorem countOf (s : State) (p : ProcId) (c k n : Nat) : SameWork s (s.countOf p c k n) := by
  unfold State.countOf
  split
  · exact countAt _ _ _ _ _
  · exact refl s
theorem countFlits (s : State) (p : ProcId) (a n : Nat) : SameWork s (s.countFlits p a n) :=
  foldl _ (fun s _ => countOf s p _ _ _) _ s

/-! ## Writes of a monitor block (R251, R361, R393) -/

/-- A dropped write enters a record of its processor, or is counted. -/
theorem dropped (s : State) (p : ProcId) (code : BitVec 8) (a : Nat) : SameWork s (s.dropped p code a) := by
  unfold State.dropped
  dsimp only
  split
  · split
    · exact setCore rfl
    · exact countOf _ _ _ _ _
  · split
    · split
      · exact setCore rfl
      · exact countOf _ _ _ _ _
    · split
      · exact setCore rfl
      · exact countOf _ _ _ _ _
theorem putLine (s : State) (ni num : Nat) (cells : List Host.Cell) (l : Nat) : SameWork s (s.putLine ni num cells l) := by
  unfold State.putLine
  split
  · exact refl s
  next t _ =>
    generalize ((s.sentBy t ni).countMsgs ni 1) = u
    generalize memPut _ _ = m
    exact (putTeam s u).trans (setBytes _ m _)
theorem mendCells (s : State) (a : Nat) (cells : List Host.Cell) : SameWork s (s.mendCells a cells) := by
  unfold State.mendCells
  split
  · exact setBytes _ _ _
  · exact refl s
theorem putPlain (s : State) (p : ProcId) (a : Nat) (cells : List Host.Cell) : SameWork s (s.putPlain p a cells) := by
  unfold State.putPlain
  split
  · exact dropped _ _ _ _
  · exact mendCells _ _ _
theorem putSealed (s : State) (p : ProcId) (a : Nat) (cells : List Host.Cell) (l : Nat) : SameWork s (s.putSealed p a cells l) := by
  unfold State.putSealed
  split
  · exact refl s
  next t _ =>
    split
    · exact dropped _ _ _ _
    split
    · exact (putLine s _ _ _ _).trans (setBytes _ _ _)
    split
    · exact dropped _ _ _ _
    split
    · exact dropped _ _ _ _
    · exact putLine _ _ _ _ _
theorem putCells (s : State) (p : ProcId) (a : Nat) (cells : List Host.Cell) : SameWork s (s.putCells p a cells) := by
  unfold State.putCells
  split
  · exact putPlain _ _ _ _
  · exact foldl _ (fun s l => putSealed s p a cells l) _ s

/-! ## Reports and trace records (R355, R415) -/

theorem quarantine (s : State) (t : Team) (pc : Option Nat) : SameWork s (s.quarantine t pc) := of_eq (fun _ => rfl) (fun _ => rfl) rfl
theorem backstopReport (s : State) (p : ProcId) (pc : Option Nat) (a : Nat) : SameWork s (s.backstopReport p pc a) := by
  unfold State.backstopReport
  split
  · exact refl s
  next t _ =>
    have counted : SameWork s ((s.countOf p 5 4 1).countOf p 5 1 1) := (countOf s p 5 4 1).trans (countOf _ _ _ _ _)
    dsimp only
    split
    · exact counted
    · generalize ({ t with stop := _, stopAt := _, reason := _, faults := _ } : Team) = u
      exact (counted.trans (putTeam _ u)).trans (quarantine _ _ _)
theorem putTrace (s : State) (t : Team) (l a : Nat) (cells : List Host.Cell) : SameWork s (s.putTrace t l a cells) := by
  unfold State.putTrace
  split
  · exact putCells _ _ _ _
  · exact backstopReport _ _ _ _
theorem traceOn (s : State) (l kind tid : Nat) : SameWork s (s.traceOn l kind tid) := by
  unfold State.traceOn
  split
  · exact refl s
  next t _ =>
    dsimp only
    generalize ht : ({ t with opTrace := _ } : Team) = t1
    have counted (b : Nat) : SameWork s (((s.putTeam t1).countAt l 6 0 1).countAt l 6 1 b) :=
      ((putTeam s t1).trans (countAt _ _ _ _ _)).trans (countAt _ _ _ _ _)
    split
    · exact counted _
    split
    · exact ((counted _).trans (putTeam _ _)).trans (putTrace _ _ _ _ _)
    · exact (counted _).trans (countAt _ _ _ _ _)

end SameWork
end Sys2Proof.Machine
end

section
/-!
SUPPORT. A dispatch (R46, R75): the entry state of a task, the state of a continuation that resumes, and what placing and tracing them
leave as it was.
-/
namespace Sys2Proof.Machine
open Sys2Proof

/-! ## Vectors by a number -/

theorem vget_ofFn {α : Type} {n : Nat} (f : Fin n → α) (i : Nat) (d : α) (h : i < n) : vget (Vector.ofFn f) i d = f ⟨i, h⟩ := by
  simp [vget, h]
theorem vget_replicate {α : Type} (n : Nat) (x d : α) (i : Nat) (h : i < n) : vget (Vector.replicate n x) i d = x := by
  simp [vget, h]

/-! ## What a team reads depends on memory alone -/

theorem State.lineOf_congr {s u : State} (hn : u.modid = s.modid) (t : Team) (a : Nat) : u.lineOf t a = s.lineOf t a := by
  have sealable : u.sealable a = s.sealable a := by simp only [State.sealable, hn]
  rw [State.lineOf, State.lineOf, sealable]
theorem State.openLine_congr {s u : State} (hm : u.mem = s.mem) (t : Team) (l : Nat) : u.openLine t l = s.openLine t l := by
  simp only [State.openLine, hm]
theorem State.sealFails_congr {s u : State} (hm : u.mem = s.mem) (hn : u.modid = s.modid) (t : Team) (a n : Nat) :
    u.sealFails t a n = s.sealFails t a n := by
  simp only [State.sealFails, State.linesOf, State.lineOf_congr hn, State.openLine_congr hm]
theorem State.teamByte_congr {s u : State} (hm : u.mem = s.mem) (hn : u.modid = s.modid) (t : Team) (a : Nat) :
    u.teamByte t a = s.teamByte t a := by
  rw [State.teamByte, State.teamByte, State.lineOf_congr hn, hm]
  cases s.lineOf t a with
  | none => rfl
  | some q => simp only [State.openLine_congr hm]
theorem State.teamNat_congr {s u : State} (hm : u.mem = s.mem) (hn : u.modid = s.modid) (t : Team) (a n : Nat) :
    u.teamNat t a n = s.teamNat t a n := by
  induction n generalizing a with
  | zero => rfl
  | succ n ih => rw [State.teamNat, State.teamNat, ih, State.teamByte_congr hm hn]

/-! ## The item a dispatch takes -/

@[simp] theorem State.take_mem (s : State) (l : Nat) (i : ReadyItem) : (s.take l i).mem = s.mem := by
  unfold State.take; dsimp only; split <;> simp
@[simp] theorem State.take_modid (s : State) (l : Nat) (i : ReadyItem) : (s.take l i).modid = s.modid := by
  unfold State.take; dsimp only; split <;> simp
theorem exec_dispatch {s : State} {l : Nat} {t : Team} {i : ReadyItem} (ht : s.mayDispatch l = some t) (hi : s.choose l = some i) :
    exec (.dispatch ⟨l⟩) s = .next (match i.work with
      | .task a => (s.take l i).startTask t l a i.named i.home
      | .cont id => (s.take l i).startCont t l id) := by
  change execDispatch ⟨l⟩ s = _
  simp only [execDispatch, ht, hi]
  cases i.work <;> rfl

/-! ## The entry state of a task (R75) -/

section
variable (s : State) (t : Team) (r : TaskRow) (c : Core) (l a h : Nat)

theorem entryCore_arg {k : Nat} (hk : k < 4) : vget (entryCore s t r c l a h).g (k + 1) 0 = wNat (tcbArg s t a k) := by
  simp only [entryCore, vget_ofFn _ _ _ (show k + 1 < 32 by omega)]
  rw [if_pos (by omega)]; rfl
theorem entryCore_g_zero {k : Nat} (h4 : 4 < k) (hk : k < 32) : vget (entryCore s t r c l a h).g k 0 = 0 := by
  simp only [entryCore, vget_ofFn _ _ _ hk]
  exact if_neg (by omega)
theorem entryCore_tcb : vget (entryCore s t r c l a h).a 0 0 = wNat a := vget_ofFn _ _ _ (by omega)
theorem entryCore_buffer {k : Nat} (hk : k < 6) : vget (entryCore s t r c l a h).a (k + 1) 0 = match r.bufix[k]? with
    | some b => if b = 0xFF then 0 else bufPointer t l b
    | none => 0 := by
  simp only [entryCore, vget_ofFn _ _ _ (show k + 1 < 16 by omega)]
  rw [if_neg (by omega), if_pos (by omega)]; rfl
theorem entryCore_a_zero {k : Nat} (h6 : 6 < k) (hk : k < 14) : vget (entryCore s t r c l a h).a k 0 = 0 := by
  simp only [entryCore, vget_ofFn _ _ _ (show k < 16 by omega)]
  rw [if_neg (by omega), if_neg (by omega), if_neg (by omega), if_neg (by omega)]
theorem entryCore_exit : vget (entryCore s t r c l a h).a 14 0 = wNat t.code.exitStub := vget_ofFn _ _ _ (by omega)
theorem entryCore_stack : vget (entryCore s t r c l a h).a 15 0 = wNat (scratchAddr l 0x100000) := vget_ofFn _ _ _ (by omega)
theorem entryCore_pred {k : Nat} (hk : k < 8) : vget (entryCore s t r c l a h).p k false = false := vget_replicate 8 _ _ _ hk
end
theorem Tile.entry_v (t : Tile) (k : Task) {j : Nat} (hj : j < 32) : vget (t.entry k).v j 0 = 0 := vget_replicate 32 _ _ _ hj
theorem Tile.entry_w (t : Tile) (k : Task) {j : Nat} (hj : j < 8) : vget (t.entry k).w j 0 = 0 := vget_replicate 8 _ _ _ hj
theorem Tile.entry_loop (t : Tile) (k : Task) : (t.entry k).loop = LoopState.empty := rfl
theorem LoopState.empty_levels {j : Nat} (hj : j < 4) :
    vget LoopState.empty.lc j 0 = 0 ∧ vget LoopState.empty.ls j 0 = 0 ∧ vget LoopState.empty.le j 0 = 0 :=
  ⟨vget_replicate 4 _ _ _ hj, vget_replicate 4 _ _ _ hj, vget_replicate 4 _ _ _ hj⟩

/-! ## Starting the work that was taken -/

namespace SameWork

/-- A processor differs in its fault records alone. -/
theorem core_eq {s t : State} (h : SameWork s t) (p : ProcId) :
    ∃ f m q, t.getCore p = { s.getCore p with fencedRec := f, memerrRec := m, peerRec := q } :=
  ⟨(t.getCore p).fencedRec, (t.getCore p).memerrRec, (t.getCore p).peerRec,
    congrArg (fun c : Core => { c with fencedRec := (t.getCore p).fencedRec, memerrRec := (t.getCore p).memerrRec, peerRec := (t.getCore p).peerRec })
      (h.core p)⟩
/-- A tile differs in its counters alone. -/
theorem tile_eq {s t : State} (h : SameWork s t) (n : Nat) : ∃ v, t.getTile n = { s.getTile n with ctr := v } :=
  ⟨(t.getTile n).ctr, congrArg (fun k : Tile => { k with ctr := (t.getTile n).ctr }) (h.tile n)⟩
theorem place (s : State) (t : Team) (l : Nat) : SameWork s (s.place t l) := by
  have counted (b : Bool) (n : Nat) : SameWork s (if b then s else s.countAt l 7 0 n) := by
    cases b
    · exact countAt _ _ _ _ _
    · exact refl s
  unfold State.place
  dsimp only
  split
  · exact (counted _ _).trans (putTeam _ _)
  · exact counted _ _
end SameWork

/-- A task whose TCB, row and code hold starts with the registers of R75 and the tile's units as R75 has them. -/
theorem State.startTask_sameWork {s : State} {t : Team} {l a : Nat} {named : Bool} {home : Option Nat} {r : TaskRow}
    (hf : tcbFault s t a = none) (hr : t.tasks[tcbEntry s t a]? = some r) (hc : t.code.holds (t.code.entry r.link) = true) :
    ∃ k : Task, k.tcb = a ∧ SameWork
      ((s.setCore (.main l) (entryCore s t r (s.getCore (.main l)) l a (home.getD l))).setTile l ((s.getTile l).entry k))
      (s.startTask t l a named home) := by
  simp only [State.startTask, hf, hr, hc, Bool.not_true, Bool.false_eq_true, if_false]
  exact ⟨_, rfl, (SameWork.place _ _ _).trans (SameWork.traceOn _ _ _ _)⟩
/-- A continuation of the store whose code holds resumes, and its record leaves the store (R50). -/
theorem State.startCont_sameWork {s : State} {t : Team} {l id : Nat} {c : Cont}
    (hf : (s.getTile l).conts.find? (fun c => c.id == id) = some c) (hc : t.code.holds c.pc.toNat = true) :
    ∃ k : Task, SameWork
      ((s.setCore (.main l) (resumeCore c (s.getCore (.main l)))).setTile l
        (({ s.getTile l with conts := (s.getTile l).conts.filter (fun d => d.id != id) } : Tile).entry k))
      (s.startCont t l id) := by
  simp only [State.startCont, hf, hc, Bool.not_true, Bool.false_eq_true, if_false]
  exact ⟨_, (SameWork.place _ _ _).trans (SameWork.traceOn _ _ _ _)⟩

/-! ## The launch entry readies the tasks that wait for nothing (R47) -/

/-- Work stands in a ready queue: a tile's or a cluster's. -/
def State.queued (s : State) (i : ReadyItem) : Prop := (∃ l, i ∈ (s.getTile l).localQ) ∨ ∃ c, i ∈ (s.getCluster c).readyQ

/-- `t` is `s` with more work in the ready queues. -/
structure Readied (s t : State) : Prop where
  mem : t.mem = s.mem
  modid : t.modid = s.modid
  granules : t.granules = s.granules
  teams : t.teams = s.teams
  holder : ∀ n, (t.getTile n).team = (s.getTile n).team ∧ (t.getTile n).tenant = (s.getTile n).tenant
  queued : ∀ i, s.queued i → t.queued i

theorem Readied.refl (s : State) : Readied s s := ⟨rfl, rfl, rfl, rfl, fun _ => ⟨rfl, rfl⟩, fun _ h => h⟩
theorem Readied.trans {s t u : State} (h : Readied s t) (k : Readied t u) : Readied s u :=
  ⟨k.mem.trans h.mem, k.modid.trans h.modid, k.granules.trans h.granules, k.teams.trans h.teams,
    fun n => ⟨(k.holder n).1.trans (h.holder n).1, (k.holder n).2.trans (h.holder n).2⟩, fun i hi => k.queued i (h.queued i hi)⟩
theorem Readied.findTeam {s t : State} (h : Readied s t) (n : Nat) : t.findTeam n = s.findTeam n := by simp only [State.findTeam, h.teams]
theorem Readied.tcbPcnt {s t : State} (h : Readied s t) (v : Team) (a : Nat) : tcbPcnt t v a = tcbPcnt s v a :=
  State.teamNat_congr h.mem h.modid _ _ _
/-- The checks of a TCB read memory, the granules and who holds the tiles. -/
theorem Readied.tcbFault {s t : State} (h : Readied s t) (v : Team) (a : Nat) : tcbFault t v a = tcbFault s v a := by
  have num := State.teamNat_congr h.mem h.modid v
  have tag (ta : Nat) : t.admitsTag v.tenant a ta = s.admitsTag v.tenant a ta := by
    simp only [State.admitsTag, State.region, State.owned, h.modid, h.granules, (h.holder _).1, (h.holder _).2]
  have fields : tcbFieldsOk t v a = tcbFieldsOk s v a := by
    unfold tcbFieldsOk tcbFlags tcbSlist tcbTarget tcbEntry
    rw [num, num, num, num, num, num]
  rw [Machine.tcbFault, Machine.tcbFault, tag, State.sealFails_congr h.mem h.modid, fields]

/-- Work is added at the end of a tile's queue. -/
theorem Readied.enqueueTile (s : State) (n : Nat) (i : ReadyItem) :
    Readied s (s.setTile n { s.getTile n with localQ := (s.getTile n).localQ ++ [i] }) where
  mem := by simp
  modid := by simp
  granules := by simp
  teams := by simp
  holder m := by
    rw [State.getTile_setTile]
    split
    · next e => subst e; exact ⟨rfl, rfl⟩
    · exact ⟨rfl, rfl⟩
  queued j hj := by
    refine hj.imp (fun ⟨l, hl⟩ => ⟨l, ?_⟩) (fun ⟨c, hc⟩ => ⟨c, by simpa using hc⟩)
    rw [State.getTile_setTile]
    split
    · next e => subst e; exact List.mem_append_left _ hl
    · exact hl
/-- Work is added at the end of a cluster's queue. -/
theorem Readied.enqueueCluster (s : State) (n : Nat) (i : ReadyItem) :
    Readied s (s.setCluster n { s.getCluster n with readyQ := (s.getCluster n).readyQ ++ [i] }) where
  mem := rfl
  modid := rfl
  granules := rfl
  teams := rfl
  holder _ := ⟨rfl, rfl⟩
  queued j hj := by
    refine hj.imp id (fun ⟨c, hc⟩ => ⟨c, ?_⟩)
    rw [State.getCluster_setCluster]
    split
    · next e => subst e; exact List.mem_append_left _ hc
    · exact hc
theorem State.queued_enqueueTile (s : State) (n : Nat) (i : ReadyItem) :
    (s.setTile n { s.getTile n with localQ := (s.getTile n).localQ ++ [i] }).queued i := by
  refine .inl ⟨n, ?_⟩
  rw [State.getTile_setTile_same]
  exact List.mem_append_right _ (List.mem_singleton_self i)
theorem State.queued_enqueueCluster (s : State) (n : Nat) (i : ReadyItem) :
    (s.setCluster n { s.getCluster n with readyQ := (s.getCluster n).readyQ ++ [i] }).queued i := by
  refine .inr ⟨n, ?_⟩
  rw [State.getCluster_setCluster_same]
  exact List.mem_append_right _ (List.mem_singleton_self i)
/-- A task that becomes ready stands in one queue more (R43). -/
theorem State.makeReady_readied (s : State) (t : Team) (from_ a : Nat) :
    Readied s (s.makeReady t from_ a) ∧ ∃ i : ReadyItem, i.work = .task a ∧ i.team = t.num ∧ (s.makeReady t from_ a).queued i := by
  unfold State.makeReady
  dsimp only
  split
  · exact ⟨Readied.enqueueTile _ _ _, _, rfl, rfl, State.queued_enqueueTile _ _ _⟩
  · exact ⟨Readied.enqueueCluster _ _ _, _, rfl, rfl, State.queued_enqueueCluster _ _ _⟩

/-- A TCB without a fault that the launch entry brings: with PCNT 0 its task becomes ready. -/
theorem State.launchTcb_readied {s : State} {n a : Nat} {t : Team} (ht : s.findTeam n = some t) (hs : t.state ≠ .failed)
    (hf : tcbFault s t a = none) :
    Readied s (s.launchTcb n a) ∧ (tcbPcnt s t a = 0 → ∃ i : ReadyItem, i.work = .task a ∧ i.team = t.num ∧ (s.launchTcb n a).queued i) := by
  simp only [State.launchTcb, ht, hs, hf, if_false]
  split
  · next h0 => exact ⟨(s.makeReady_readied t _ a).1, fun _ => (s.makeReady_readied t _ a).2⟩
  · next h0 => exact ⟨Readied.refl s, fun h => absurd h h0⟩
/-- The same for a list of TCBs. -/
theorem State.launchTcbs_readied (at_ : Nat → Nat) {n : Nat} {t : Team} (hs : t.state ≠ .failed) (l : List Nat) : ∀ s : State,
    s.findTeam n = some t → (∀ k ∈ l, tcbFault s t (at_ k) = none) →
    let u := l.foldl (fun s k => s.launchTcb n (at_ k)) s
    Readied s u ∧ ∀ k ∈ l, tcbPcnt s t (at_ k) = 0 → ∃ i : ReadyItem, i.work = .task (at_ k) ∧ i.team = t.num ∧ u.queued i := by
  induction l with
  | nil => exact fun s _ _ => ⟨Readied.refl s, fun k hk => absurd hk List.not_mem_nil⟩
  | cons k r ih =>
    intro s ht hf
    obtain ⟨h1, hk⟩ := State.launchTcb_readied ht hs (hf k List.mem_cons_self)
    obtain ⟨h2, hr⟩ := ih _ ((h1.findTeam n).trans ht) (fun j hj => (h1.tcbFault t _).trans (hf j (List.mem_cons_of_mem k hj)))
    refine ⟨h1.trans h2, fun j hj h0 => ?_⟩
    rcases List.mem_cons.1 hj with rfl | hj
    · obtain ⟨i, hw, hn, hq⟩ := hk h0
      exact ⟨i, hw, hn, h2.queued i hq⟩
    · exact hr j hj ((h1.tcbPcnt t _).trans h0)

end Sys2Proof.Machine
end

section
/-!
CERTIFICATE. A task starts (R46, R47, R75, R334).
-/
namespace Sys2Proof.Machine
open Sys2Proof

/-- R50: a continuation resumes with the predicates of its record. -/
theorem resumeCore_pred (c : Cont) (k : Core) {n : Nat} (h : n < 8) : vget (resumeCore c k).p n false = c.preds.getLsbD n :=
  vget_ofFn _ _ _ h
/-- R334: a stage core starts when its team runs, no stop has fallen and nothing holds the tile back. -/
theorem exec_stageStart {s : State} {l e : Nat} {t : Team} (ht : s.findTeam (s.getTile l).team = some t) (he : t.stageEntry = some e)
    (hr : t.state = .running) (hb : t.beforeStop s.gtime = true) (hp : t.restorePending = false) (ho : (s.getTile l).stageOn = false)
    (hf : (s.getTile l).fenced = false) (hz : (s.getTile l).frozen = false) :
    exec (.stageStart ⟨l⟩) s = .next ((s.setCore (.stage l) { Core.empty with
      seed := seedStart t.jobseed (l + 1024), pc := wNat e, running := true, latch := (s.getCore (.stage l)).latch }).setTile l
      { s.getTile l with stageOn := true }) := by
  change execStageStart ⟨l⟩ s = _
  simp [execStageStart, ht, he, hr, hb, hp, ho, hf, hz]
/-- R47: the launch entry of a team that has left LAUNCHING brings its TCBs in table order. -/
theorem exec_launchEntryArrival {s : State} {n : Nat} {t : Team} (ht : s.findTeam n = some t) (hp : t.entryPosted = true)
    (hl : t.state ≠ .launching) :
    exec (.launchEntryArrival ⟨n⟩) s = .next ((List.range t.tasks.length).foldl (fun s k => s.launchTcb t.num (t.tcbBase + 64 * k))
      (s.putTeam { t with entryPosted := false })) := by
  change execLaunchEntryArrival ⟨n⟩ s = _
  simp [execLaunchEntryArrival, ht, hp, hl]

/-- Settles O38: a dispatch leaves the registers and the units of R75 in place, since placing and tracing the task change counters and
fault records alone; the launch entry readies what waits for nothing, one TCB after the other. -/
theorem taskStart : Obligations.TaskStart := by
  refine ⟨?task, ?cont, ?launch, ?stage⟩
  case task =>
    intro s l a tm i r hm hi hw hf hr hc
    have hr' : tm.tasks[tcbEntry (s.take l i) tm a]? = some r := by
      rwa [tcbEntry, State.teamNat_congr (State.take_mem s l i) (State.take_modid s l i)]
    obtain ⟨k, rfl, hs⟩ := State.startTask_sameWork (named := i.named) (home := i.home) hf hr' hc
    obtain ⟨f, m, q, hcore⟩ := hs.core_eq (.main l)
    obtain ⟨v, htile⟩ := hs.tile_eq l
    rw [State.getCore_setTile, State.getCore_setCore_same] at hcore
    rw [State.getTile_setTile_same] at htile
    refine ⟨_, (exec_dispatch hm hi).trans (by rw [hw]), ?_⟩
    dsimp only
    rw [hcore, htile]
    dsimp only
    rw [Tile.entry_loop]
    refine ⟨rfl, rfl, fun n hn => ?_, fun n h4 hn => entryCore_g_zero _ _ _ _ _ _ _ h4 hn, entryCore_tcb _ _ _ _ _ _ _,
      fun n hn => ?_, fun n h6 hn => entryCore_a_zero _ _ _ _ _ _ _ h6 hn, entryCore_exit _ _ _ _ _ _ _,
      entryCore_stack _ _ _ _ _ _ _, fun n hn => entryCore_pred _ _ _ _ _ _ _ hn, rfl, rfl, rfl, rfl,
      fun n hn => Tile.entry_v _ _ hn, fun n hn => Tile.entry_w _ _ hn, rfl, fun n hn => LoopState.empty_levels hn, rfl, rfl⟩
    · refine (entryCore_arg _ _ _ _ _ _ _ hn).trans ?_
      rw [tcbArg, State.teamNat_congr (State.take_mem s l i) (State.take_modid s l i)]
      rfl
    · refine (entryCore_buffer _ _ _ _ _ _ _ hn).trans ?_
      cases r.bufix[n]? with
      | none => rfl
      | some b =>
        simp only [bufPointer]
        cases tm.bufs[b]? with
        | none => simp
        | some x => rfl
  case cont =>
    intro s l id tm i c hm hi hw hf hc
    obtain ⟨k, hs⟩ := State.startCont_sameWork hf hc
    obtain ⟨f, m, q, hcore⟩ := hs.core_eq (.main l)
    obtain ⟨v, htile⟩ := hs.tile_eq l
    rw [State.getCore_setTile, State.getCore_setCore_same] at hcore
    rw [State.getTile_setTile_same] at htile
    refine ⟨_, (exec_dispatch hm hi).trans (by rw [hw]), ?_⟩
    dsimp only
    rw [hcore, htile]
    dsimp only
    refine ⟨rfl, rfl, rfl, rfl, rfl, fun n hn => resumeCore_pred _ _ hn, List.all_eq_true.2 fun d hd => ?_⟩
    exact (List.mem_filter.1 hd).2
  case launch =>
    intro s n tm ht hp hl hx hf
    have hn := State.num_of_findTeam ht
    have hu : (s.putTeam { tm with entryPosted := false }).findTeam tm.num = some { tm with entryPosted := false } :=
      State.findTeam_putTeam_same (hn ▸ ht) rfl
    obtain ⟨hr, hq⟩ := State.launchTcbs_readied (fun k => tm.tcbBase + 64 * k) (t := { tm with entryPosted := false }) hx
      (List.range tm.tasks.length) _ hu (fun k hk => hf k (List.mem_range.1 hk))
    refine ⟨_, exec_launchEntryArrival ht hp hl, hr.mem, fun u h => ?_, fun k hk h0 => hq k (List.mem_range.2 hk) h0⟩
    rw [hr.findTeam, ← hn, hu] at h
    cases h
    rfl
  case stage =>
    intro s l e tm ht he hr hb hp ho hf hz
    exact ⟨_, exec_stageStart ht he hr hb hp ho hf hz, by simp, by simp [wNat], by simp⟩

end Sys2Proof.Machine
end

section
/-!
SUPPORT. Continuations: parking, readiness, the continuation store and its migrations (R48–R51), and the packed depths of CLOAD (R24).
-/
namespace Sys2Proof.Machine
open Sys2Proof

/-! ## Lists by a number -/

theorem getElem?_setAt_same {α : Type} (l : List α) (i : Nat) (x y : α) (h : l[i]? = some y) : (setAt l i x)[i]? = some x := by
  induction l generalizing i with
  | nil => simp at h
  | cons z r ih =>
    cases i with
    | zero => rfl
    | succ i => simpa [setAt] using ih i (by simpa using h)

/-! ## Parking (R48, R49, R448) -/

@[simp] theorem State.focus_eager (s : State) (p : ProcId) : (s.focus p).eager = s.eager := by
  unfold State.focus
  cases tileOf p with
  | none => rfl
  | some n => dsimp only; split <;> rfl
/-- Without the machine steps taken at once, no acknowledgement is awaited (log entry 2). -/
theorem State.settledAcks_lazy {s : State} (h : s.eager = false) : s.settledAcks = s := by simp [State.settledAcks, h]
theorem State.yieldNow_parks {s : State} {w : Wait} {a b : Word} {i : Instr} {c : ContWait} {pc : Word} (he : s.eager = false)
    (hf : s.fetch = .words a b) (hd : decodeFor .main a.toNat b.toNat = .ok i)
    (hc : s.contWait w i (if fld a.toNat 62 2 = 1 then 16 else 8) = some (c, pc)) (hp : s.core.parkable c = true) :
    s.yieldNow w = s.park pc c := by
  simp only [State.yieldNow, hf, hd, hc, State.settledAcks_lazy he, hp, if_true]
theorem exec_yieldTimeout {s : State} {l : Nat} {w : Wait} (hw : (s.getCore (.main l)).wait = some w)
    (hr : (s.getCore (.main l)).running = true) (hs : s.pastStop (.main l) = false) (h64 : w.since + 64 ≤ s.cycle) :
    exec (.yieldTimeout ⟨l⟩) s = .next
      ((if (s.focus (.main l)).keepsCore then s.focus (.main l) else (s.focus (.main l)).yieldNow w).focus s.cur) := by
  change execYieldTimeout ⟨l⟩ s = _
  simp only [execYieldTimeout, hw]
  exact if_pos ⟨hr, hs, h64⟩

/-! ## The store and its migrations (R51) -/

theorem exec_continuationReady {s : State} {l i : Nat} {c : Cont} (hc : (s.getTile l).conts[i]? = some c) (hr : c.isReady = false)
    (ht : s.tileRuns l = true) (hh : s.contHolds l c = true) :
    let d := { c with isReady := true, time := s.cycle }
    exec (.continuationReady ⟨l, i⟩) s = .next (s.setTile l { s.getTile l with
      conts := setAt (s.getTile l).conts i d, localQ := (s.getTile l).localQ ++ [contItem (s.getTile l).team d] }) := by
  change execContinuationReady ⟨l, i⟩ s = _
  simp [execContinuationReady, hc, hr, ht, hh]
/-- The store and the ready queue of a tile without a continuation, which a migration takes along. -/
def Tile.without (k : Tile) (c : Cont) : Tile :=
  { k with migrating := true, conts := k.conts.filter (fun d => d.id != c.id), localQ := k.localQ.filter (fun i => i.work != .cont c.id) }
theorem exec_continuationMigrate {s : State} {l f n : Nat} {c : Cont} {t : Team} (hc : migrant (s.getTile l).offers = some c)
    (hl : s.leastLoaded l = some (f, n)) (ht : s.findTeam (s.getTile l).team = some t) (hm : (s.getTile l).migrating = false)
    (hd : f + 2 ≤ (s.getTile l).depth) (hr : t.state = .running) (hb : t.beforeStop s.gtime = true) (hp : t.restorePending = false) :
    let m : Migration := ⟨l, tileOfCluster (clusterOf l) n, c, false⟩
    let u := (s.setTile l ((s.getTile l).without c)).countFlits (.main l) (scratchAddr m.to_ 0) 160
    exec (.continuationMigrate ⟨l⟩) s = .next (({ u with migrations := u.migrations ++ [m] } : State).traceOn l 4 c.tid.toNat) := by
  change execContinuationMigrate ⟨l⟩ s = _
  simp only [execContinuationMigrate, hc, hl, ht]
  exact if_neg (by simp [hm, hr, hb, hp, hd])

@[simp] theorem State.storeCont_migrations (s : State) (l : Nat) (c : Cont) : (s.storeCont l c).migrations = s.migrations :=
  State.setTile_migrations _ _ _
theorem State.storeCont_conts_length (s : State) (l : Nat) (c : Cont) :
    ((s.storeCont l c).getTile l).conts.length = (s.getTile l).conts.length + 1 := by
  simp [State.storeCont]
@[simp] theorem State.endMigration_migrations (s : State) (l : Nat) : (s.endMigration l).migrations = s.migrations :=
  State.setTile_migrations _ _ _
theorem State.endMigration_migrating (s : State) (l : Nat) : ((s.endMigration l).getTile l).migrating = false := by
  simp [State.endMigration]
theorem State.endMigration_conts (s : State) (l n : Nat) : ((s.endMigration l).getTile n).conts = (s.getTile n).conts := by
  rw [State.endMigration, State.getTile_setTile]
  split
  · next e => subst e; rfl
  · rfl
/-- A migration that has reached its end: its record stands in the store of tile `n`, and tile `l` may migrate again. -/
def State.settleMigration (s : State) (i n l : Nat) (c : Cont) : State :=
  (({ s with migrations := dropAt s.migrations i } : State).storeCont n { c with hint := 0 }).endMigration l
theorem State.settleMigration_spec (s : State) (i n l : Nat) (c : Cont) :
    (s.settleMigration i n l c).migrations = dropAt s.migrations i ∧
      ((s.settleMigration i n l c).getTile n).conts.length = (s.getTile n).conts.length + 1 ∧
      ((s.settleMigration i n l c).getTile l).migrating = false := by
  refine ⟨by simp [State.settleMigration], ?_, State.endMigration_migrating _ _⟩
  rw [State.settleMigration, State.endMigration_conts, State.storeCont_conts_length]
  rfl
theorem exec_migrationArrival_taken {s : State} {i : Nat} {m : Migration} (hm : s.migrations[i]? = some m) (hr : s.tileRuns m.from_ = true)
    (hb : m.back = false) (hf : (s.getTile m.to_).fenced = false) (hs : (s.getTile m.to_).storeFull = false) :
    exec (.migrationArrival ⟨i⟩) s = .next ((s.settleMigration i m.to_ m.from_ m.cont).countAt m.from_ 0 4 1) := by
  change execMigrationArrival ⟨i⟩ s = _
  simp [execMigrationArrival, State.settleMigration, hm, hr, hb, hf, hs]
theorem exec_migrationArrival_refused {s : State} {i : Nat} {m : Migration} (hm : s.migrations[i]? = some m)
    (hr : s.tileRuns m.from_ = true) (hb : m.back = false) (hs : (s.getTile m.to_).storeFull = true) :
    exec (.migrationArrival ⟨i⟩) s = .next { s with migrations := setAt s.migrations i { m with back := true } } := by
  change execMigrationArrival ⟨i⟩ s = _
  simp [execMigrationArrival, hm, hr, hb, hs]
theorem exec_migrationReturn {s : State} {i : Nat} {m : Migration} (hm : s.migrations[i]? = some m) (hr : s.tileRuns m.from_ = true)
    (hb : m.back = true) (hf : (s.getTile m.from_).fenced = false) :
    exec (.migrationReturn ⟨i⟩) s = .next (s.settleMigration i m.from_ m.from_ m.cont) := by
  change execMigrationReturn ⟨i⟩ s = _
  simp [execMigrationReturn, State.settleMigration, hm, hr, hb, hf]

theorem SameWork.migrating {s t : State} (h : SameWork s t) (n : Nat) : (t.getTile n).migrating = (s.getTile n).migrating := by
  obtain ⟨_, e⟩ := h.tile_eq n
  rw [e]
theorem SameWork.conts {s t : State} (h : SameWork s t) (n : Nat) : (t.getTile n).conts = (s.getTile n).conts := by
  obtain ⟨_, e⟩ := h.tile_eq n
  rw [e]

/-! ## CLOAD (R24) -/

/-- The low `m` fields of four bits, packed. -/
def packed4 (f : Nat → Nat) (m : Nat) : Nat := (List.range m).foldl (fun n t => n + f t * 2 ^ (4 * t)) 0
theorem packed4_succ (f : Nat → Nat) (m : Nat) : packed4 f (m + 1) = packed4 f m + f m * 2 ^ (4 * m) := by
  simp [packed4, List.range_succ]
theorem packed4_lt (f : Nat → Nat) (hf : ∀ t, f t < 16) (m : Nat) : packed4 f m < 2 ^ (4 * m) := by
  induction m with
  | zero => simp [packed4]
  | succ m ih =>
    have h : f m * 2 ^ (4 * m) ≤ 15 * 2 ^ (4 * m) := Nat.mul_le_mul_right _ (by have := hf m; omega)
    rw [packed4_succ, show 4 * (m + 1) = 4 * m + 4 by ring, pow_add]
    omega
/-- Field `n` of the packed fields. -/
theorem packed4_field (f : Nat → Nat) (hf : ∀ t, f t < 16) {n m : Nat} (h : n < m) : packed4 f m / 2 ^ (4 * n) % 16 = f n := by
  induction m with
  | zero => omega
  | succ m ih =>
    rw [packed4_succ]
    rcases Nat.lt_succ_iff_lt_or_eq.1 h with hlt | rfl
    · have e : f m * 2 ^ (4 * m) = 2 ^ (4 * n) * (16 * (f m * 2 ^ (4 * (m - n - 1)))) := by
        rw [show 4 * m = 4 * n + 4 + 4 * (m - n - 1) by omega, pow_add, pow_add]; ring
      rw [e, Nat.add_mul_div_left _ _ (by positivity), Nat.add_mul_mod_self_left]
      exact ih hlt
    · rw [Nat.add_mul_div_right _ _ (by positivity), Nat.div_eq_of_lt (packed4_lt f hf n), Nat.zero_add]
      exact Nat.mod_eq_of_lt (hf n)
theorem State.cloadField_lt (s : State) (l : Nat) : s.cloadField l < 16 := by
  unfold State.cloadField
  dsimp only
  split <;> omega
theorem exec_cloadRefresh (s : State) (c : Nat) : exec (.cloadRefresh ⟨c⟩) s = .next (s.setCluster c { s.getCluster c with
    cload := wNat (packed4 (fun n => s.cloadField (tileOfCluster c n)) 16) }) := rfl

end Sys2Proof.Machine
end

section
/-!
CERTIFICATE. Continuations (R48–R51, R448) and CLOAD (R24).
-/
namespace Sys2Proof.Machine
open Sys2Proof

/-- Settles O39: each step of a continuation by what it does to the store and to the migrations in flight, which counting and tracing leave
as they are; CLOAD by the fields of a packed number. -/
theorem continuations : Obligations.Continuations := by
  refine ⟨?yield, ?ready, ?migrate, ?arrival, ?cload⟩
  case yield =>
    intro s l w a b i c pc hw hr hs h64 he
    have hx := exec_yieldTimeout hw hr hs h64
    refine ⟨fun hk => by rw [hx, if_pos hk], fun hk hf hd hc hp => ?_⟩
    rw [hx, if_neg (by simp [hk]), State.yieldNow_parks ((s.focus_eager _).trans he) hf hd hc hp]
  case ready =>
    intro s l i c hc hr ht hh
    refine ⟨_, _, exec_continuationReady hc hr ht hh, ?_, rfl, ?_⟩
    · rw [State.getTile_setTile_same]
      exact getElem?_setAt_same _ _ _ _ hc
    · rw [State.getTile_setTile_same]
      exact List.mem_append_right _ (List.mem_singleton_self _)
  case migrate =>
    intro s l f n c tm hc hl ht hm hd hr hb hp
    refine ⟨_, exec_continuationMigrate hc hl ht hm hd hr hb hp, ?_⟩
    have flits := SameWork.countFlits (s.setTile l ((s.getTile l).without c)) (.main l)
      (scratchAddr (tileOfCluster (clusterOf l) n) 0) 160
    generalize State.countFlits _ _ _ _ = u at flits ⊢
    have traced := SameWork.traceOn ({ u with migrations := u.migrations ++ [⟨l, tileOfCluster (clusterOf l) n, c, false⟩] } : State)
      l 4 c.tid.toNat
    refine ⟨traced.migrations.trans ?_, ?_⟩
    · rw [flits.migrations, State.setTile_migrations]
    · calc _ = (u.getTile l).migrating := traced.migrating l
        _ = ((s.setTile l ((s.getTile l).without c)).getTile l).migrating := flits.migrating l
        _ = true := by rw [State.getTile_setTile_same]; rfl
  case arrival =>
    intro s i m hm hr
    refine ⟨fun hb hf hs _ => ?_, fun hb hs => exec_migrationArrival_refused hm hr hb hs, fun hb hf => ?_⟩
    · obtain ⟨hd, hl, hg⟩ := s.settleMigration_spec i m.to_ m.from_ m.cont
      have counted := SameWork.countAt (s.settleMigration i m.to_ m.from_ m.cont) m.from_ 0 4 1
      exact ⟨_, exec_migrationArrival_taken hm hr hb hf hs, counted.migrations.trans hd,
        by rwa [counted.conts],
        (counted.migrating _).trans hg⟩
    · exact ⟨_, exec_migrationReturn hm hr hb hf, s.settleMigration_spec i m.from_ m.from_ m.cont⟩
  case cload =>
    intro s c
    refine ⟨_, exec_cloadRefresh s c, rfl, fun n hn => ?_⟩
    have hlt := packed4_lt (fun n => s.cloadField (tileOfCluster c n)) (fun _ => s.cloadField_lt _) 16
    rw [State.getCluster_setCluster_same, wNat, BitVec.toNat_ofNat, Nat.mod_eq_of_lt hlt]
    exact packed4_field _ (fun _ => s.cloadField_lt _) hn

end Sys2Proof.Machine
end

section
/-!
CERTIFICATE. Slices and stops: a restore does not always leave the team's stop as it was (R17, R355, R397, R415).
-/
namespace Sys2Proof.Machine
open Sys2Proof

/-! ## A restore whose contexts have no task -/

/-- The state in which a whole save has come back, before a context whose code is gone raises CODEGONE (R78, R397). -/
def State.restored (s : State) (t : Team) : State :=
  let s1 := (t.snaps.zipIdx).foldl (fun s q => s.restoreTile t q.2 q.1) s
  let s2 := t.collSnaps.foldl (fun s c => s.restoreColl t c) s1
  let s3 := s2.putTeam { t with placed := true, stash := [], log := [], moves := [], snaps := [], collSnaps := [], kept := [],
                                lastCycle := t.lastCycle + (s.cycle - t.stopCycle) }
  let s4 := t.stash.foldl (fun s f => s.reinject t.moves f) s3
  let s5 := (t.log.foldl State.replay s4).coolDown t
  t.snaps.foldl (fun s x => match s.findTeam t.num with | some u => s.refence u x | none => s) s5

/-- Only a context that has a task can have lost its code (R351). -/
theorem State.goneContext_of_idle {s : State} {t : Team} (h : ∀ n ∈ t.tiles, (s.getTile n).task = none) : s.goneContext t = none := by
  rw [State.goneContext, List.findSome?_eq_none_iff]
  intro n hn
  simp [h n hn]
theorem State.restoreNow_of_idle {s : State} {t : Team} (hf : s.restoreFault t = none)
    (h : ∀ n ∈ t.tiles, ((s.restored t).getTile n).task = none) : s.restoreNow t = s.restored t := by
  have whole : s.restoreNow t = match (s.restored t).findTeam t.num, (s.restored t).goneContext t with
      | some u, some (n, pc) => if u.state = .failed then s.restored t else (s.restored t).codeGone u n pc
      | _, _ => s.restored t := by
    rw [State.restoreNow, hf]
    rfl
  rw [whole, State.goneContext_of_idle h]
  cases (s.restored t).findTeam t.num <;> rfl
theorem exec_restore {s : State} {n : Nat} {t : Team} (ht : s.findTeam n = some t) (hr : t.state = .running)
    (hp : t.restorePending = true) : exec (.restore ⟨n⟩) s = .next (s.restoreNow t) := by
  change execRestore ⟨n⟩ s = _
  simp [execRestore, ht, hr, hp]

/-! ## A team that comes back to an absent tile, with a trace extent that the backstop refuses -/

namespace FencedRestore

/-- A task that ran when its team stopped, and that Vigil cannot start again (R399). -/
def onceTask : Task := ⟨0x4000040, 7, 0, false, false, 0, false, false, 0⟩
/-- The contexts as they stopped: that of tile 0 holds the task. -/
def snap (n : Nat) : Snap :=
  ⟨n, { Tile.empty with tenant := 1, team := 1, task := if n = 0 then some onceTask else none }, Core.empty, Core.empty⟩
/-- A trace extent in HBM whose granule its tenant does not own. -/
def traceExtent : Extent := ⟨true, true, true, false, false, 0x4000000, 0x4000FFF, 1⟩
/-- A team of cluster 0 whose slice has begun, with no stop named, and whose save is to come back. -/
def team : Team :=
  let t : Team := { Team.empty with
    num := 1, tenant := 1, state := .running, clusters := [(0, 0)], hasSave := true, saveSeq := 1, saveBase := 0x8000000,
    saveLim := 0x8FFFFFF, trcx := 0, ext := vset (Vector.replicate 16 Extent.empty) 0 traceExtent }
  { t with levelLen := t.levelSize, snaps := t.tiles.map snap }
/-- What the restore asks of the save area: the sequence number at both ends of every record and of the team-level part. -/
def saveArea : List Host.Cell :=
  (List.range 16).flatMap (fun i => [(team.recordAt i + 0x14, 1), (team.recordAt i + recordSize 0 - 4, 1)])
    ++ [(team.levelAt + 8, 1), (team.levelAt + team.levelLen - 4, 1)]
/-- Tile 0 is absent after a fence without a spare (R17). -/
def state : State :=
  { State.reset with
    gtime := 2 ^ 18, here := 1023, mem := saveArea, teams := [team]
    clusters := [(0, { Cluster.empty with holder := some 1 })]
    tiles := team.tiles.map (fun n => (n, { Tile.empty with tenant := 1, team := 1, fenced := n == 0 })) }

/-- The state meets the invariant of the machine. -/
theorem state_memOk : state.memOk = true := by decide +kernel
/-- The save is whole. -/
theorem records_ok : ∀ q ∈ team.snaps.zipIdx, state.recordOk team q.2 = true ∧
    state.badUnits (team.recordAt q.2) (recordSize team.spsize) = [] := by decide +kernel
theorem level_ok : memNat state.mem (team.levelAt + team.levelLen - 4) 4 = team.saveSeq ∧
    memNat state.mem (team.levelAt + 8) 4 = team.saveSeq := by decide +kernel
theorem restoreFault_none : state.restoreFault team = none := by decide +kernel
/-- Tile 0 is fenced anew, and the other contexts had no task. -/
theorem restored_idle : ∀ n ∈ team.tiles, ((state.restored team).getTile n).task = none := by decide +kernel
/-- Fencing tile 0 reports FENCED; its trace record is refused, and that report names the team's stop for now (R355). -/
theorem restored_stop : ((state.restored team).findTeam 1).map Team.stop = some (.named (2 ^ 18)) := by decide +kernel

end FencedRestore

/-- Refutes O55, in its clause on RESTORE, which says that the team's stop stands: a context comes back to a tile that has stayed absent and
is fenced again (R17); its task cannot start again, which is a team fault, and where the backstop refuses the fault's trace record, the
report names the team's stop (R355, R415). The clause leaves out this case, which the one on Vigil admits. -/
theorem not_slicesAndStops : ¬ Obligations.SlicesAndStops := by
  unfold Obligations.SlicesAndStops
  rintro ⟨-, -, -, -, -, -, restoreKeepsStop, -⟩
  obtain ⟨hlast, hfirst⟩ := FencedRestore.level_ok
  obtain ⟨u, hu, hall⟩ := restoreKeepsStop ⟨1⟩ FencedRestore.state FencedRestore.team rfl rfl rfl rfl rfl rfl FencedRestore.records_ok rfl
    hlast hfirst
  have hx : u = FencedRestore.state.restored FencedRestore.team := by
    rw [exec_restore (t := FencedRestore.team) rfl rfl rfl,
      State.restoreNow_of_idle FencedRestore.restoreFault_none FencedRestore.restored_idle] at hu
    exact (Host.Outcome.next.inj hu).symm
  obtain ⟨y, hy, hstop⟩ := Option.map_eq_some_iff.1 FencedRestore.restored_stop
  obtain ⟨-, kept, -⟩ := hall y (hx ▸ State.mem_of_findTeam hy) (State.num_of_findTeam hy)
  exact absurd (hstop.symm.trans kept) (by decide)

end Sys2Proof.Machine
end

section
/-!
SUPPORT. The frame of an instruction that only writes registers (R58, R67, R96, R402): what each operation its next state is written with
leaves, and the records of teams, where one number stands for one record and where it does not.
-/
namespace Sys2Proof.Machine
open Sys2Proof

/-! ## Mask registers -/

theorem State.rdW_wrW_ne (s : State) (r q : WReg) (x : MaskWord) (h : q ≠ r) : (s.wrW r x).rdW q = s.rdW q := by
  unfold State.wrW
  split
  · rfl
  · unfold State.rdW
    split
    · rfl
    · exact vget_vset_ne _ _ _ _ _ (fun e => h (BitVec.eq_of_toNat_eq e.symm))

/-! ## A draw on the random stream (R96) -/

theorem State.draw_teams (s : State) (rm : Rm) (k : Nat) : (s.draw rm k).teams = s.teams := by
  unfold State.draw
  split <;> rfl
theorem State.addFlags_seed (s : State) (f : FlagSet) : (s.addFlags f).core.seed = s.core.seed := rfl
theorem State.addFlags_setSeed (s : State) (f : FlagSet) (x : Word) :
    { s.addFlags f with core := { (s.addFlags f).core with seed := x } } = ({ s with core := { s.core with seed := x } } : State).addFlags f := rfl
theorem State.draw_addFlags (s : State) (f : FlagSet) (rm : Rm) (k : Nat) : (s.addFlags f).draw rm k = (s.draw rm k).addFlags f := by
  unfold State.draw
  by_cases h : rm = .rsr ∧ k ≠ 0
  · rw [if_pos h, if_pos h, State.addFlags_seed, State.addFlags_setSeed]
  · rw [if_neg h, if_neg h]
theorem State.draw_wrV (s : State) (d : VReg) (v : Vec) (rm : Rm) (k : Nat) : (s.wrV d v).draw rm k = (s.draw rm k).wrV d v := by
  unfold State.draw
  split <;> rfl

/-! ## What one operation leaves -/

/-- A team's record without its times of progress (R388, R399). -/
def Team.untimed (u : Team) : Team := { u with lastTime := 0, lastCycle := 0 }

/-- What `Keeps` says of the machine before the instruction's wait is over. -/
structure Leaves (s t : State) (d : Dests) : Prop where
  g : ∀ r, r ∉ d.g → t.rdG r = s.rdG r := by exact fun _ _ => rfl
  a : ∀ r, r ∉ d.a → t.rdA r = s.rdA r := by exact fun _ _ => rfl
  p : ∀ r, r ∉ d.p → t.rdP r = s.rdP r := by exact fun _ _ => rfl
  v : ∀ r, r ∉ d.v → t.rdV r = s.rdV r := by exact fun _ _ => rfl
  w : ∀ r, r ∉ d.w → t.rdW r = s.rdW r := by exact fun _ _ => rfl
  flags : d.fl = false → t.core.fpflags = s.core.fpflags := by exact fun _ => rfl
  teams : t.teams.map Team.untimed = s.teams.map Team.untimed := by rfl
  rest : t = { s with
    core := { s.core with g := t.core.g, a := t.core.a, p := t.core.p, fpflags := t.core.fpflags, pc := t.core.pc, wait := t.core.wait }
    tile := { s.tile with v := t.tile.v, w := t.tile.w, loop := t.tile.loop, ctr := t.tile.ctr, progress := t.tile.progress }
    teams := t.teams } := by rfl

namespace Leaves

theorem trans {s t u : State} {d e : Dests} (h : Leaves s t d) (k : Leaves t u e) :
    Leaves s u ⟨d.g ++ e.g, d.a ++ e.a, d.p ++ e.p, d.v ++ e.v, d.w ++ e.w, d.fl || e.fl⟩ where
  g r hr := by rw [List.mem_append, not_or] at hr; rw [k.g r hr.2, h.g r hr.1]
  a r hr := by rw [List.mem_append, not_or] at hr; rw [k.a r hr.2, h.a r hr.1]
  p r hr := by rw [List.mem_append, not_or] at hr; rw [k.p r hr.2, h.p r hr.1]
  v r hr := by rw [List.mem_append, not_or] at hr; rw [k.v r hr.2, h.v r hr.1]
  w r hr := by rw [List.mem_append, not_or] at hr; rw [k.w r hr.2, h.w r hr.1]
  flags hf := by rw [Bool.or_eq_false_iff] at hf; rw [k.flags hf.2, h.flags hf.1]
  teams := k.teams.trans h.teams
  rest := k.rest.trans (by rw [h.rest])
/-- Once the wait is over, nothing but what `Keeps` names has changed. -/
theorem keeps {s t : State} {d : Dests} (h : Leaves s t d) (hw : t.core.wait = none) : Keeps s t d where
  g := h.g
  a := h.a
  p := h.p
  v := h.v
  w := h.w
  flags := h.flags
  bytes x := by rw [h.rest]
  teams := h.teams
  rest := by rw [← hw]; exact h.rest

section
variable (s : State)

theorem wrG (d : GReg) (x : Word) : Leaves s (s.wrG d x) { g := [d] } := by
  have other (r : GReg) (h : r ∉ [d]) := s.rdG_wrG_ne d r x (List.ne_of_not_mem_cons h)
  revert other
  unfold State.wrG
  split <;> exact fun other => { g := other }
theorem wrA (d : AReg) (x : Word) : Leaves s (s.wrA d x) { a := [d] } where
  a r h := s.rdA_wrA_ne d r x (List.ne_of_not_mem_cons h)
theorem wrP (d : PReg) (x : Bool) : Leaves s (s.wrP d x) { p := [d] } := by
  have other (r : PReg) (h : r ∉ [d]) := s.rdP_wrP_ne d r x (List.ne_of_not_mem_cons h)
  revert other
  unfold State.wrP
  split <;> exact fun other => { p := other }
theorem wrV (d : VReg) (x : Vec) : Leaves s (s.wrV d x) { v := [d] } where
  v r h := s.rdV_wrV_ne d r x (List.ne_of_not_mem_cons h)
theorem wrW (d : WReg) (x : MaskWord) : Leaves s (s.wrW d x) { w := [d] } := by
  have other (r : WReg) (h : r ∉ [d]) := s.rdW_wrW_ne d r x (List.ne_of_not_mem_cons h)
  revert other
  unfold State.wrW
  split <;> exact fun other => { w := other }
theorem addFlags (f : FlagSet) : Leaves s (s.addFlags f) { fl := true } where
  flags h := absurd h (by decide)
theorem count (c k n : Nat) : Leaves s (s.count c k n) {} := by
  unfold State.count
  split <;> exact {}
theorem advance (n : Nat) : Leaves s (s.advance n) {} := by
  unfold State.advance
  split <;> exact {}
theorem setPc (pc : Word) : Leaves s { s with core := { s.core with pc := pc } } {} := {}

end
end Leaves

/-! ## The end of an instruction, where one number stands for one record -/

/-- No two records of teams have one number (R410). -/
def State.distinctTeams (s : State) : Prop := (s.teams.map Team.num).Nodup

theorem State.teamProgress_untimed {s : State} (h : s.distinctTeams) (n : Nat) (c : Bool) :
    (s.teamProgress n c).teams.map Team.untimed = s.teams.map Team.untimed := by
  unfold State.teamProgress
  split
  · rfl
  next t ht =>
    simp only [State.putTeam, List.map_map]
    refine List.map_congr_left fun u hu => ?_
    by_cases e : u.num = t.num
    · have : u = t := List.inj_on_of_nodup_map h hu (State.mem_of_findTeam ht) e
      simp [this, Team.untimed]
    · simp [e]
/-- Records that differ in their times of progress alone have the same numbers. -/
theorem Leaves.distinctTeams {s t : State} {d : Dests} (h : Leaves s t d) (hs : s.distinctTeams) : t.distinctTeams := by
  have nums := congrArg (List.map Team.num) h.teams
  simp only [List.map_map] at nums
  change t.teams.map Team.num = s.teams.map Team.num at nums
  rwa [State.distinctTeams, nums]
theorem State.teamProgress_eq (s : State) (n : Nat) (c : Bool) : s.teamProgress n c = { s with teams := (s.teamProgress n c).teams } := by
  unfold State.teamProgress
  split <;> rfl
theorem Leaves.teamProgress {s : State} (h : s.distinctTeams) (n : Nat) (c : Bool) : Leaves s (s.teamProgress n c) {} := by
  have kept := State.teamProgress_untimed h n c
  rw [State.teamProgress_eq] at kept ⊢
  exact { teams := kept }
theorem Leaves.progress {s : State} (h : s.distinctTeams) : Leaves s s.progress {} := by
  unfold State.progress
  split
  · refine Leaves.trans (d := {}) (e := {}) ?_ (Leaves.teamProgress ?_ _ _)
    · exact {}
    · exact h
  · exact Leaves.teamProgress h _ _
theorem Leaves.retire {s : State} (h : s.distinctTeams) : Leaves s s.retire {} := by
  have waited : Leaves s { s with core := { s.core with wait := none } } {} := {}
  exact (waited.trans (Leaves.count _ 0 0 1)).trans (Leaves.progress h)
theorem State.retire_wait (s : State) : s.retire.core.wait = none := by simp [State.retire]
theorem State.advance_wait (s : State) (n : Nat) : (s.advance n).core.wait = s.core.wait := by
  unfold State.advance
  split <;> rfl

/-! ## The frames -/

section
variable {s t : State} {d : Dests}

/-- What an instruction leaves that has written its registers and completes. -/
theorem Leaves.keeps_done (h : Leaves s t d) (hs : s.distinctTeams) (n : Nat) : Keeps s (t.done n) d := by
  have k := (h.trans (Leaves.retire (h.distinctTeams hs))).trans (Leaves.advance _ n)
  simp only [List.append_nil, Bool.or_false] at k
  exact k.keeps ((State.advance_wait _ _).trans (State.retire_wait _))
theorem Leaves.keeps_doneAt (h : Leaves s t d) (hs : s.distinctTeams) (a : Nat) : Keeps s (t.doneAt a) d := by
  have k := (h.trans (Leaves.retire (h.distinctTeams hs))).trans (Leaves.setPc _ (wNat a))
  simp only [List.append_nil, Bool.or_false] at k
  exact k.keeps (State.retire_wait _)
end

section
variable {s : State} (h : s.distinctTeams)
include h

theorem State.done_keeps (n : Nat) : Keeps s (s.done n) {} := Leaves.keeps_done {} h n
theorem State.doneAt_keeps (a : Nat) : Keeps s (s.doneAt a) {} := Leaves.keeps_doneAt {} h a
theorem State.wrG_done_keeps (d : GReg) (x : Word) (n : Nat) : Keeps s ((s.wrG d x).done n) { g := [d] } :=
  (Leaves.wrG s d x).keeps_done h n
theorem State.wrA_done_keeps (d : AReg) (x : Word) (n : Nat) : Keeps s ((s.wrA d x).done n) { a := [d] } :=
  (Leaves.wrA s d x).keeps_done h n
theorem State.wrP_done_keeps (d : PReg) (x : Bool) (n : Nat) : Keeps s ((s.wrP d x).done n) { p := [d] } :=
  (Leaves.wrP s d x).keeps_done h n
theorem State.wrA_wrA_doneAt_keeps (d e : AReg) (x y : Word) (a : Nat) : Keeps s (((s.wrA d x).wrA e y).doneAt a) { a := [d, e] } :=
  ((Leaves.wrA s d x).trans (Leaves.wrA _ e y)).keeps_doneAt h a
theorem State.wrW_done_keeps (d : WReg) (m : MaskWord) (fl : FlagSet) (n : Nat) :
    Keeps s ((((s.wrW d m).addFlags fl).count 0 7 1).done n) { w := [d], fl := true } :=
  (((Leaves.wrW s d m).trans (Leaves.addFlags _ fl)).trans (Leaves.count _ 0 7 1)).keeps_done h n
theorem State.vecDone_keeps (d : VReg) (v : Vec) (fl : FlagSet) (rm : Rm) (k : Nat) :
    Keeps (s.draw rm k) (s.vecDone d v fl rm k) { v := [d], fl := true } := by
  have same : (s.draw rm k).distinctTeams := by rwa [State.distinctTeams, State.draw_teams]
  rw [State.vecDone, State.draw_addFlags, State.draw_wrV]
  exact (((Leaves.wrV _ d v).trans (Leaves.addFlags _ fl)).trans (Leaves.count _ 0 7 1)).keeps_done same 8
end

/-! ## One number for two records -/

namespace TwoRecords

/-- Two records of different tenants under one team number. -/
def teams : List Team := [{ Team.empty with num := 1, tenant := 1 }, { Team.empty with num := 1, tenant := 2 }]
/-- The main core of tile 0 works for team 1. -/
def state : State := { State.reset with cur := .main 0, tile := { Tile.empty with team := 1 }, teams := teams }

/-- The state meets the invariant of the machine, which says nothing of team numbers. -/
theorem state_memOk : state.memOk = true := rfl
/-- The second record has become the first, with the time of progress in it. -/
theorem done_tenants (n : Nat) : (state.done n).teams.map Team.tenant = [1, 1] := rfl

end TwoRecords

/-- Refutes O5, in its clause on a plain completion (`State.done`). The statement takes every state; where two records of teams have one
number, the time of progress replaces the second with the first, its tenant and all. A number already in use is refused (R410), and where no
two records have one number, every frame of the statement holds, from `State.done_keeps` to `State.vecDone_keeps`. -/
theorem not_frameOfRegisterWrites : ¬ Obligations.FrameOfRegisterWrites := by
  unfold Obligations.FrameOfRegisterWrites
  intro frames
  obtain ⟨kept, -⟩ := frames TwoRecords.state 8
  have tenants := congrArg (List.map Team.tenant) kept.teams
  simp only [List.map_map] at tenants
  change (TwoRecords.state.done 8).teams.map Team.tenant = [1, 2] at tenants
  rw [TwoRecords.done_tenants] at tenants
  exact absurd tenants (by decide)

end Sys2Proof.Machine
end

section
/-!
SUPPORT. Reset and placement (R58, R64, R433): what a byte reads after a range was dropped or cells were written, and what clearing and
placing a tile leave in its cores, its units, its full bits and its scratchpad.
-/
namespace Sys2Proof.Machine
open Sys2Proof

/-! ## Bytes read after a range was dropped or cells were written -/

theorem memGet_filter {keep : Nat → Bool} (a : Nat) (m : List Host.Cell) : ∀ lo, memWfFrom lo m = true →
    memGet (m.filter (fun c => keep c.1)) a = if keep a = true then memGet m a else 0 := by
  induction m with
  | nil => intro _ _; simp [memGet]
  | cons c r ih =>
    obtain ⟨b, x⟩ := c
    intro lo hm
    obtain ⟨-, -, hr⟩ := (memWfFrom_cons lo b x r).1 hm
    have below : a < b → memGet r a = 0 := fun h => memGet_of_lt hr (by omega)
    by_cases hb : keep b = true
    · rw [List.filter_cons_of_pos (p := fun c : Host.Cell => keep c.1) hb, memGet_cons, memGet_cons, ih _ hr]
      split_ifs <;> simp_all
    · rw [List.filter_cons_of_neg (p := fun c : Host.Cell => keep c.1) hb, memGet_cons, ih _ hr]
      split_ifs <;> simp_all
theorem memGet_dropCells {m : List Host.Cell} (hm : Memory.wf m = true) (a n b : Nat) :
    memGet (dropCells m a n) b = if a ≤ b ∧ b < a + n then 0 else memGet m b := by
  rw [dropCells, memGet_filter (keep := fun i => !decide (a ≤ i ∧ i < a + n)) b m 0 hm]
  by_cases h : a ≤ b ∧ b < a + n <;> simp [h]
/-- A byte that a written cell names, where the cells that name it agree, reads as they say. -/
theorem memGet_memPut_of_mem {cells : List Host.Cell} {m : List Host.Cell} (hm : Memory.wf m = true) {b : Nat} {x : Byte}
    (hx : (b, x) ∈ cells) (agree : ∀ c ∈ cells, c.1 = b → c.2 = x) : memGet (memPut m cells) b = x := by
  induction cells generalizing m with
  | nil => simp at hx
  | cons c r ih =>
    have hr := memSet_wf c.1 c.2 hm
    change memGet (memPut (memSet m c.1 c.2) r) b = x
    by_cases hmem : (b, x) ∈ r
    · exact ih hr hmem fun d hd => agree d (List.mem_cons_of_mem c hd)
    · have hc : (b, x) = c := (List.mem_cons.1 hx).resolve_right hmem
      have later : ∀ d ∈ r, d.1 ≠ b := fun d hd e =>
        hmem (by rw [← e, ← agree d (List.mem_cons_of_mem c hd) e]; exact hd)
      rw [memGet_memPut_of_not_mem r hr b later, memGet_memSet hm, ← hc, if_pos rfl]
theorem mem_cellsAt {a : Nat} {l : List Byte} {c : Host.Cell} : c ∈ cellsAt a l ↔ ∃ j, l[j]? = some c.2 ∧ c.1 = a + j := by
  induction l generalizing a with
  | nil => simp [cellsAt]
  | cons b r ih =>
    simp only [cellsAt, List.mem_cons, ih]
    constructor
    · rintro (rfl | ⟨j, hj, ha⟩)
      · exact ⟨0, rfl, rfl⟩
      · exact ⟨j + 1, hj, by omega⟩
    · rintro ⟨_ | j, hj, ha⟩
      · exact .inl (Prod.ext ha (Option.some.inj hj).symm)
      · exact .inr ⟨j, hj, by omega⟩

/-! ## What clearing and placing a tile leave -/

section
variable (s : State) (t : Team) (l : Nat)

@[simp] theorem State.clearTile_mem : (s.clearTile l).mem = (s.wipe l).mem := by
  simp only [State.clearTile, State.setCore_mem, State.setTile_mem]; rfl
@[simp] theorem State.clearTile_full : (s.clearTile l).full = (s.wipe l).full := by
  simp only [State.clearTile, State.setCore_full, State.setTile_full]; rfl
theorem State.clearTile_main : (s.clearTile l).getCore (.main l) = Core.empty := by simp [State.clearTile]
theorem State.placeTile_mem : (s.placeTile t l).mem = memPut (s.wipe l).mem (t.imageCells l) := by simp [State.placeTile]
theorem State.placeTile_full : (s.placeTile t l).full = (s.wipe l).full := by simp [State.placeTile]
theorem State.placeTile_getCore (p : ProcId) :
    (s.placeTile t l).getCore p = if p = .stage l then t.freshStage l else (s.clearTile l).getCore p := by
  change (State.setCore (State.setTile (s.clearTile l) l _) _ _).getCore p = _
  rw [State.getCore_setCore, State.getCore_setTile]
theorem State.placeTile_main : (s.placeTile t l).getCore (.main l) = Core.empty := by
  rw [State.placeTile_getCore, if_neg ProcId.noConfusion, State.clearTile_main]
theorem State.placeTile_stage : (s.placeTile t l).getCore (.stage l) = t.freshStage l := by
  rw [State.placeTile_getCore, if_pos rfl]
/-- A placed tile is the team's fresh tile, but for its fence, its time of progress and what is ready on it. -/
theorem State.placeTile_tile : ∃ f p q, (s.placeTile t l).getTile l = { t.freshTile l f with progress := p, localQ := q } := by
  refine ⟨((s.clearTile l).getTile l).fenced, s.cycle, ((s.clearTile l).getTile l).localQ, ?_⟩
  change (State.setCore (State.setTile (s.clearTile l) l _) _ _).getTile l = _
  rw [State.getTile_setCore, State.getTile_setTile_same]
end

/-! ## The scratchpad at placement -/

theorem scratchAddr_add (l o : Nat) : scratchAddr l o = scratchAddr l 0 + o := by simp [scratchAddr]
theorem scratchAddr_eq_iff {l o i : Nat} : scratchAddr l i = scratchAddr l o ↔ i = o := Nat.add_left_cancel_iff
theorem State.wipe_mem_wf {s : State} (l : Nat) (h : s.memOk = true) : Memory.wf (s.wipe l).mem = true :=
  dropCells_wf _ _ (dropCells_wf _ _ h)
theorem State.wipe_scratch {s : State} {l o : Nat} (h : s.memOk = true) (ho : o < 2 ^ 20) : memGet (s.wipe l).mem (scratchAddr l o) = 0 := by
  have inRange : scratchAddr l 0 ≤ scratchAddr l o ∧ scratchAddr l o < scratchAddr l 0 + 2 ^ 20 := by
    rw [scratchAddr_add l o]; omega
  change memGet (dropCells (dropCells s.mem (scratchAddr l 0) (2 ^ 20)) _ _) _ = 0
  rw [memGet_dropCells (dropCells_wf _ _ h), memGet_dropCells h, if_pos inRange, ite_self]
theorem State.wipe_not_full (s : State) {l o : Nat} (ho : o < 2 ^ 20) : scratchAddr l o / 8 ∉ (s.wipe l).full := by
  have aligned : scratchAddr l 0 % 8 = 0 := by unfold scratchAddr windowBase; omega
  have inRange : scratchAddr l 0 / 8 ≤ scratchAddr l o / 8 ∧ scratchAddr l o / 8 < scratchAddr l 0 / 8 + 2 ^ 17 := by
    rw [scratchAddr_add l o]; omega
  change _ ∉ s.full.filter _
  simp only [List.mem_filter, inRange, decide_true, Bool.not_true, and_false, Bool.false_eq_true, not_false_eq_true, and_self]
theorem Team.mem_imageCells {t : Team} {l : Nat} {c : Host.Cell} :
    c ∈ t.imageCells l ↔ ∃ x ∈ t.images, ∃ j, x.2[j]? = some c.2 ∧ c.1 = scratchAddr l (x.1 + j) := by
  simp only [Team.imageCells, List.mem_flatMap, mem_cellsAt, scratchAddr, Nat.add_assoc]
/-- Two images that do not overlap. -/
def Apart (x y : Nat × List Byte) : Prop := x.1 + x.2.length ≤ y.1 ∨ y.1 + y.2.length ≤ x.1
theorem Apart.symmetric : Std.Symm Apart := ⟨fun _ _ h => h.symm⟩
/-- Two bytes of images that do not overlap, at one place, are one byte. -/
theorem imageByte_unique {l : List (Nat × List Byte)} (disjoint : l.Pairwise Apart)
    {x y : Nat × List Byte} (hx : x ∈ l) (hy : y ∈ l) {i j : Nat} {b d : Byte} (hb : x.2[i]? = some b) (hd : y.2[j]? = some d)
    (e : x.1 + i = y.1 + j) : d = b := by
  have hi : i < x.2.length := (List.getElem?_eq_some_iff.1 hb).1
  have hj : j < y.2.length := (List.getElem?_eq_some_iff.1 hd).1
  by_cases hxy : x = y
  · subst hxy
    have : i = j := by omega
    subst this
    exact Option.some.inj (hd.symm.trans hb)
  · have := Apart.symmetric
    have apart : x.1 + x.2.length ≤ y.1 ∨ y.1 + y.2.length ≤ x.1 := disjoint.forall hx hy hxy
    omega

section
variable {s : State} {t : Team} {l o : Nat}

theorem State.placeTile_scratch_zero (h : s.memOk = true) (ho : o < 2 ^ 20) (outside : ∀ x ∈ t.images, ¬(x.1 ≤ o ∧ o < x.1 + x.2.length)) :
    memGet (s.placeTile t l).mem (scratchAddr l o) = 0 := by
  rw [State.placeTile_mem, memGet_memPut_of_not_mem _ (State.wipe_mem_wf l h), State.wipe_scratch h ho]
  intro c hc e
  obtain ⟨x, hx, j, hj, ha⟩ := Team.mem_imageCells.1 hc
  have : j < x.2.length := (List.getElem?_eq_some_iff.1 hj).1
  have : x.1 + j = o := scratchAddr_eq_iff.1 (ha.symm.trans e)
  exact outside x hx (by omega)
theorem State.placeTile_scratch_image (h : s.memOk = true) (disjoint : t.images.Pairwise Apart)
    {x : Nat × List Byte} (hx : x ∈ t.images) {j : Nat} {b : Byte} (hb : x.2[j]? = some b) (e : x.1 + j = o) :
    memGet (s.placeTile t l).mem (scratchAddr l o) = b := by
  rw [State.placeTile_mem]
  refine memGet_memPut_of_mem (State.wipe_mem_wf l h) (Team.mem_imageCells.2 ⟨x, hx, j, hb, by rw [e]⟩) ?_
  intro c hc hco
  obtain ⟨y, hy, i, hi, ha⟩ := Team.mem_imageCells.1 hc
  exact imageByte_unique disjoint hx hy hb hi (e.trans (scratchAddr_eq_iff.1 (ha.symm.trans hco)).symm)
end

/-! ## The statements -/

/-- Settles O7: at reset no cell is listed, which is canonical, and a byte that is not listed reads zero (log entry 5). -/
theorem resetInvariant : Obligations.ResetInvariant := ⟨rfl, fun _ => rfl⟩

/-- Settles O8: a placed tile is the team's fresh tile over cleared cores; its scratchpad is wiped, and the images, which do not overlap,
are then written. -/
theorem resetValues : Obligations.ResetValues := by
  unfold Obligations.ResetValues
  refine ⟨fun i _ => BitVec.getLsbD_zero, rfl, rfl, ?_⟩
  intro s t l o hs ho _ _ disjoint
  dsimp only
  obtain ⟨f, p, q, tile⟩ := s.placeTile_tile t l
  rw [State.placeTile_main, State.placeTile_stage, tile]
  exact ⟨fun i hi => ⟨vget_replicate 32 _ _ i hi, vget_replicate 32 _ _ i hi⟩, fun i hi => vget_replicate 16 _ _ i hi,
    fun i hi => ⟨vget_replicate 8 _ _ i hi, fun _ => vget_replicate 8 _ _ i hi⟩,
    rfl, rfl, rfl, rfl, rfl, rfl, rfl, rfl, rfl, rfl, rfl, rfl, fun i hi => vget_ofFn _ i 0 hi,
    State.placeTile_full s t l ▸ s.wipe_not_full ho, State.placeTile_scratch_zero hs ho,
    fun x hx j b hb e => State.placeTile_scratch_image hs disjoint hx hb e⟩

end Sys2Proof.Machine
end

section
/-!
SUPPORT. Rounding (R84, R91, R92, R97): which code a rounding gives that no NaN came into, what stays of a value that a format represents,
and both for the lanes of the floating-point instructions.
-/
namespace Sys2Proof.Machine
open Sys2Proof

/-! ## Codes as a sign and a magnitude -/

/-- The code of a sign and a magnitude code. -/
def FP.signed (f : FP) (neg : Bool) (mag : Nat) : Nat := (if neg then f.signBit else 0) + mag

theorem FP.infCode_lt_signBit (f : FP) : f.infCode < f.signBit := by
  rw [infCode, signBit, pow_add]
  exact Nat.mul_lt_mul_of_pos_right (Nat.sub_lt (by positivity) one_pos) (by positivity)
theorem FP.signed_mod (f : FP) (neg : Bool) {mag : Nat} (h : mag < f.signBit) : f.signed neg mag % f.signBit = mag := by
  cases neg <;> simp [signed, Nat.mod_eq_of_lt h]
theorem FP.eq_signed (f : FP) {code : Nat} (h : code < 2 * f.signBit) :
    code = f.signed (decide (code / f.signBit % 2 = 1)) (code % f.signBit) := by
  have split := Nat.div_add_mod code f.signBit
  have sign : code / f.signBit < 2 := Nat.div_lt_of_lt_mul (mul_comm 2 _ ▸ h)
  obtain e | e := Nat.le_one_iff_eq_zero_or_eq_one.1 (Nat.lt_succ_iff.1 sign)
  all_goals
    rw [e] at split ⊢
    simpa [signed] using split.symm
/-- A magnitude code is its exponent field and its fraction field. -/
theorem FP.mod_signBit (f : FP) (code : Nat) :
    code % f.signBit = code / 2 ^ f.fb % 2 ^ f.eb * 2 ^ f.fb + code % 2 ^ f.fb := by
  rw [signBit, add_comm f.eb, pow_add, Nat.mod_mul, add_comm, mul_comm]

/-! ## No rounding makes a NaN but the canonical one (R84) -/

/-- The code is no NaN of the format, or the canonical one. -/
def FP.NanCanonical (f : FP) (code : Nat) : Prop := f.infCode < code % f.signBit → code = f.nan

theorem FP.signed_nanCanonical (f : FP) (neg : Bool) {mag : Nat} (h : mag ≤ f.infCode) : f.NanCanonical (f.signed neg mag) := by
  intro isNan
  rw [f.signed_mod neg (h.trans_lt f.infCode_lt_signBit)] at isNan
  omega
theorem FP.maxCode_le_infCode {f : FP} (hf : f.top = .ieee) : f.maxCode ≤ f.infCode := by
  simp [maxCode, hf]
theorem FP.round_nanCanonical {f : FP} (hf : f.top = .ieee) (ftz : Bool) (md : Rounding) (neg : Bool) (m : Nat) (e : Int) :
    f.NanCanonical (f.round ftz md neg m e).1 := by
  have finite := maxCode_le_infCode hf
  unfold round
  dsimp only
  split
  next => exact f.signed_nanCanonical neg (Nat.zero_le _)
  split
  next =>
    refine f.signed_nanCanonical neg ?_
    split_ifs
    · exact le_rfl
    · exact finite
  split
  next => exact f.signed_nanCanonical neg (Nat.zero_le _)
  next inRange _ => exact f.signed_nanCanonical neg ((not_lt.1 inRange).trans finite)
theorem FP.conv_inf {f : FP} (hf : f.top = .ieee) (ftz : Bool) (md : Rounding) (neg : Bool) :
    f.conv ftz md (.inf neg) = (f.signed neg f.infCode, 0) := by
  simp [conv, hf, signed]
theorem FP.conv_nanCanonical {f : FP} (hf : f.top = .ieee) (ftz : Bool) (md : Rounding) (v : FVal) :
    f.NanCanonical (f.conv ftz md v).1 := by
  cases v with
  | nan sig => exact fun _ => rfl
  | inf neg => rw [conv_inf hf]; exact f.signed_nanCanonical neg le_rfl
  | fin neg m e => exact round_nanCanonical hf ftz md neg m e

section
variable {c : Ctl} (hf : c.fp.top = .ieee)
include hf

theorem Ctl.fin_nanCanonical (i : Nat) (r : FVal × FlagSet) : c.fp.NanCanonical (c.fin i r).1 :=
  FP.conv_nanCanonical hf c.ftz (c.rounding i) r.1
theorem opFused_nanCanonical (negP neg3 : Bool) (i x y z : Nat) : c.fp.NanCanonical (opFused negP neg3 c i x y z).1 := by
  unfold opFused
  split <;> exact Ctl.fin_nanCanonical hf i _
theorem opSpecial_nanCanonical (fn i x y z : Nat) : c.fp.NanCanonical (opSpecial c fn i x y z).1 := by
  unfold opSpecial
  dsimp only
  split
  · split
    · split <;> exact FP.conv_nanCanonical hf _ _ _
    · exact FP.conv_nanCanonical hf _ _ _
  · exact FP.conv_nanCanonical hf _ _ _

end

/-! ## Rounding what the format represents (R91, R97) -/

theorem roundsUp_zero (md : Rounding) (neg : Bool) (n : Nat) {unit : Nat} (h : 0 < unit) : roundsUp md neg n 0 unit = false := by
  cases md <;> simp [roundsUp]; omega
/-- A whole number of units is kept, however many bits it is written with. -/
theorem quantum_exact (md : Rounding) (neg : Bool) (n j : Nat) (q : Int) : quantum md neg (n * 2 ^ j) (q - j) q = (n, false) := by
  unfold quantum
  split_ifs with h
  · obtain rfl : j = 0 := by omega
    simp
  · simp [roundsUp_zero, bit]

/-- The magnitude code `mag` is finite and stands for `n` units of 2^q, the unit of its last place. -/
structure FP.Represents (f : FP) (mag n : Nat) (q : Int) : Prop where
  finite : mag ≤ f.maxCode
  code : mag = ((q + f.fb + f.bias).toNat - 1) * 2 ^ f.fb + n
  least : 1 - f.bias - f.fb ≤ q
  lastPlace : n ≠ 0 → max (Nat.log2 n + q) (1 - f.bias) = q + f.fb
  zero : n = 0 → mag = 0

theorem log2_mul_two_pow {n : Nat} (hn : n ≠ 0) (j : Nat) : Nat.log2 (n * 2 ^ j) = Nat.log2 n + j := by
  obtain ⟨low, high⟩ := (Nat.log2_eq_iff hn).1 rfl
  rw [Nat.log2_eq_iff (by positivity), add_right_comm, pow_add, pow_add _ _ j]
  exact ⟨Nat.mul_le_mul_right _ low, Nat.mul_lt_mul_of_pos_right high (by positivity)⟩
/-- A value that the format represents, written with `j` bits more than it needs, rounds to its code and sets no flag. -/
theorem FP.Represents.round {f : FP} {mag n : Nat} {q : Int} (h : f.Represents mag n q) (md : Rounding) (neg : Bool) (j : Nat) :
    f.round false md neg (n * 2 ^ j) (q - j) = (f.signed neg mag, 0) := by
  unfold FP.round
  by_cases hn : n = 0
  · simp [hn, h.zero hn, signed]
  have log : (Nat.log2 (n * 2 ^ j) : Int) + (q - j) = Nat.log2 n + q := by
    rw [log2_mul_two_pow hn]
    push_cast
    ring
  simp [hn, log, h.lastPlace hn, quantum_exact, ← h.code, h.finite.not_gt, signed]

section
variable {f : FP} (hf : f.top = .ieee)
include hf

theorem FP.represents_normal {e fr : Nat} (he : e ≠ 0) (top : e < 2 ^ f.eb - 1) (h : fr < 2 ^ f.fb) :
    f.Represents (e * 2 ^ f.fb + fr) (2 ^ f.fb + fr) (e - f.bias - f.fb) where
  finite := by
    have : (e + 1) * 2 ^ f.fb ≤ f.infCode := Nat.mul_le_mul_right _ top
    simp only [maxCode, hf]
    rw [Nat.succ_mul] at this
    omega
  code := by
    have field : ((e : Int) - f.bias - f.fb + f.fb + f.bias).toNat = e - 1 + 1 := by omega
    rw [field, Nat.add_sub_cancel, ← add_assoc, ← Nat.succ_mul, Nat.succ_eq_add_one, Nat.sub_one_add_one he]
  least := by omega
  lastPlace hn := by
    have : Nat.log2 (2 ^ f.fb + fr) = f.fb := (Nat.log2_eq_iff hn).2 (by rw [pow_succ]; omega)
    omega
  zero hn := by
    have : 0 < 2 ^ f.fb := by positivity
    omega

variable (heb : 0 < f.eb)
include heb

theorem FP.represents_subnormal {fr : Nat} (h : fr < 2 ^ f.fb) : f.Represents fr fr (1 - f.bias - f.fb) where
  finite := by
    have : 1 * 2 ^ f.fb ≤ f.infCode := Nat.mul_le_mul_right _ (Nat.le_sub_one_of_lt (Nat.one_lt_two_pow heb.ne'))
    simp only [maxCode, hf]
    omega
  code := by simp
  least := le_rfl
  lastPlace hn := by
    have := (Nat.log2_lt hn).2 h
    omega
  zero := id
/-- A code of magnitude infinity or less is an infinity's, or stands for a finite value in units of its last place. -/
theorem FP.val_cases {code : Nat} (h : code < 2 * f.signBit) (hm : code % f.signBit ≤ f.infCode) :
    ∃ neg mag, code = f.signed neg mag ∧
      ((mag = f.infCode ∧ f.val false code = .inf neg) ∨ ∃ n q, f.Represents mag n q ∧ f.val false code = .fin neg n q) := by
  refine ⟨_, _, f.eq_signed h, ?_⟩
  have fraction : code % 2 ^ f.fb < 2 ^ f.fb := Nat.mod_lt _ (by positivity)
  rw [f.mod_signBit] at hm ⊢
  simp only [val, hf, true_and]
  generalize decide (code / f.signBit % 2 = 1) = neg
  generalize code / 2 ^ f.fb % 2 ^ f.eb = e at *
  generalize code % 2 ^ f.fb = fr at *
  have expOne : 1 < 2 ^ f.eb := Nat.one_lt_two_pow heb.ne'
  rcases Nat.eq_zero_or_pos e with rfl | normal
  · exact .inr ⟨fr, _, by simpa using represents_subnormal hf heb fraction, by simp⟩
  rcases Nat.lt_or_ge e (2 ^ f.eb - 1) with finite | top
  · exact .inr ⟨2 ^ f.fb + fr, _, represents_normal hf normal.ne' finite fraction, by simp [normal.ne', finite.ne]⟩
  · have infinite : (2 ^ f.eb - 1) * 2 ^ f.fb ≤ e * 2 ^ f.fb := Nat.mul_le_mul_right _ top
    rw [infCode] at hm
    obtain rfl : fr = 0 := by omega
    obtain rfl : e = 2 ^ f.eb - 1 := Nat.eq_of_mul_eq_mul_right (by positivity) (hm.antisymm infinite)
    exact .inl ⟨rfl, by simp [normal.ne']⟩

/-- Every mode gives back a code that is no NaN's (R91, R97). -/
theorem FP.conv_val (md : Rounding) {code : Nat} (h : code < 2 * f.signBit) (hm : code % f.signBit ≤ f.infCode) :
    f.conv false md (f.val false code) = (code, 0) := by
  obtain ⟨neg, mag, rfl, ⟨rfl, hv⟩ | ⟨n, q, rep, hv⟩⟩ := val_cases hf heb h hm
  · rw [hv, conv_inf hf]
  · rw [hv]
    simpa [conv] using rep.round md neg 0
end

/-! ## Adding +0 -/

/-- A sum with +0 is the other value, in units of the smaller of the two. -/
theorem FVal.add_zero (md : Rounding) (a b : Bool) {m : Nat} {e g : Int} (hm : m ≠ 0) (hg : g ≤ e) :
    FVal.add md (.fin a m e) (.fin b 0 g) = (.fin a (m * 2 ^ (e - g).toNat) g, 0) := by
  have pos : (0 : Int) < m * 2 ^ (e - g).toNat := by positivity
  cases a <;> simp [FVal.add, inUnits, hm, min_eq_right hg, pos, pos.not_gt, Int.natAbs_mul, Int.natAbs_pow]
theorem FP.val_zero (f : FP) : f.val false 0 = .fin false 0 (1 - f.bias - f.fb) := by simp [val]

section
variable {f : FP} (hf : f.top = .ieee) (heb : 0 < f.eb)
include hf heb

/-- A sum with +0 rounds back to the code it began with, unless that is −0. -/
theorem FP.conv_add_zero (md : Rounding) {code : Nat} (h : code < 2 * f.signBit) (hm : code % f.signBit ≤ f.infCode)
    (negZero : code ≠ f.signBit) :
    let r := FVal.add md (f.val false code) (f.val false 0)
    r.2 = 0 ∧ f.conv false md r.1 = (code, 0) := by
  dsimp only
  rw [val_zero]
  obtain ⟨neg, mag, rfl, ⟨rfl, hv⟩ | ⟨n, q, rep, hv⟩⟩ := val_cases hf heb h hm
  · rw [hv]
    exact ⟨rfl, conv_inf hf false md neg⟩
  rw [hv]
  by_cases hn : n = 0
  · have hmag := rep.zero hn
    obtain rfl : neg = false := by
      by_contra sign
      exact negZero (by simp [hmag, signed, sign])
    simp [FVal.add, hn, hmag, conv, round, signed]
  · rw [FVal.add_zero md neg false hn rep.least]
    have units : q - ((q - (1 - f.bias - f.fb)).toNat : Int) = 1 - f.bias - f.fb := by
      have := rep.least
      omega
    have rounds := rep.round md neg (q - (1 - f.bias - f.fb)).toNat
    rw [units] at rounds
    exact ⟨rfl, rounds⟩
end

/-! ## The statement -/

theorem isF_cases {t : Fmt} (h : t.isF = true) : t = .bf16 ∨ t = .fp16 ∨ t = .fp32 ∨ t = .fp64 := by
  simpa [Fmt.isF, or_assoc] using h
theorem Ctl.fp_top {c : Ctl} (h : c.et.isF = true) : c.fp.top = .ieee := by
  rcases isF_cases h with e | e | e | e <;> rw [fp, e] <;> rfl
theorem Ctl.fp_eb_pos {c : Ctl} (h : c.et.isF = true) : 0 < c.fp.eb := by
  rcases isF_cases h with e | e | e | e <;> rw [fp, e] <;> decide
theorem Ctl.val_of_isF {c : Ctl} (h : c.et.isF = true) (x : Nat) : c.val x = c.fp.val c.daz x := by
  rcases isF_cases h with e | e | e | e <;> simp [val, e, Fmt.isI, Fmt.code]

/-- A lane of VADD gives back what it adds +0 to, but for −0. -/
theorem opVadd_zero {c : Ctl} (hF : c.et.isF = true) (hdaz : c.daz = false) (hftz : c.ftz = false) (k z : Nat) {code : Nat}
    (h : code < 2 * c.fp.signBit) (hm : code % c.fp.signBit ≤ c.fp.infCode) (negZero : code ≠ c.fp.signBit) :
    opVadd c k code 0 z = (code, 0) := by
  obtain ⟨noFlag, back⟩ := FP.conv_add_zero (Ctl.fp_top hF) (Ctl.fp_eb_pos hF) (c.rounding k) h hm negZero
  simp [opVadd, Ctl.fin, Ctl.val_of_isF hF, hdaz, hftz, noFlag, back]

/-- Settles O17: a rounding makes no NaN but the canonical one; a represented value is a whole number of units of its last place, which
`quantum` keeps in every mode, also when the exact sum with +0 writes it in the units of the least place. -/
theorem roundedValues : Obligations.RoundedValues := by
  unfold Obligations.RoundedValues
  refine ⟨?_, ?_, fun c k z code hF hdaz hftz h hm negZero => opVadd_zero hF hdaz hftz k z h hm negZero⟩
  · intro c i x y z hF nan canonical
    have hf := Ctl.fp_top hF
    have canonical_eq : c.fp.nan = canonical := by
      rcases isF_cases hF with e | e | e | e <;> simp only [canonical, Ctl.fp, e] <;> rfl
    rw [← canonical_eq]
    have rounded := fun r => Ctl.fin_nanCanonical hf i r
    have selected := fun v => FP.conv_nanCanonical hf false .rne v
    have fused := fun a b => opFused_nanCanonical hf a b i x y z
    have special := fun fn => opSpecial_nanCanonical hf fn i x y z
    simp only [List.forall_mem_cons, List.not_mem_nil, false_imp_iff, implies_true, and_true]
    exact ⟨rounded _, rounded _, rounded _, fused _ _, fused _ _, fused _ _, rounded _, rounded _, rounded _, selected _, selected _,
      special _, special _, special _, special _, special _, special _⟩
  · rintro f md code (rfl | rfl | rfl | rfl) h hm
    all_goals exact FP.conv_val rfl (by decide) md h hm

end Sys2Proof.Machine
end

section
/-!
SUPPORT. Fields of words (R108, R111–R122): a field read from a sum of fields, each operand's code read back, and the fields of each
format's operand area. Bounds are numerals, as `simp` leaves them.
-/
namespace Sys2Proof

/-! ## Fields of numbers that are sums of fields -/

theorem fld_add_below (n m : Nat) {lo len k : Nat} (h : lo + len ≤ k) : fld (n + 2 ^ k * m) lo len = fld n lo len := by
  obtain ⟨j, rfl⟩ := Nat.exists_eq_add_of_le h
  rw [fld, fld, pow_add, pow_add, mul_assoc, mul_assoc, Nat.add_mul_div_left _ _ (by positivity), Nat.add_mul_mod_self_left]
theorem fld_add_above {n k : Nat} (hn : n < 2 ^ k) (m lo len : Nat) : fld (n + 2 ^ k * m) (k + lo) len = fld m lo len := by
  rw [fld, fld, pow_add, ← Nat.div_div_eq_div_mul, Nat.add_mul_div_left _ _ (by positivity), Nat.div_eq_of_lt hn, zero_add]
@[simp] theorem fld_of_lt {n len : Nat} (h : n < 2 ^ len) : fld n 0 len = n := by simp [fld, Nat.mod_eq_of_lt h]
/-- The fields below a summand. -/
@[simp] theorem fld_sum_below {n m k lo len : Nat} (h : 2 ^ (lo + len) ∣ k) : fld (n + k * m) lo len = fld n lo len := by
  obtain ⟨j, rfl⟩ := h
  rw [mul_assoc, fld_add_below _ _ le_rfl]
/-- The field a summand begins at. -/
@[simp] theorem fld_sum_at {n m k lo len : Nat} (hk : k = 2 ^ lo) (hn : n < k) : fld (n + k * m) lo len = fld m 0 len := by
  subst hk; exact fld_add_above hn m 0 len
@[simp] theorem fld_shifted_below {m k lo len : Nat} (h : 2 ^ (lo + len) ∣ k) : fld (k * m) lo len = 0 := by
  simpa [fld] using fld_sum_below (n := 0) (m := m) h
@[simp] theorem fld_shifted_at {m k lo len : Nat} (hk : k = 2 ^ lo) : fld (k * m) lo len = fld m 0 len := by
  simpa using fld_sum_at (n := 0) (m := m) (len := len) hk (by simp [hk])
@[simp] theorem fld_add_dvd {n k lo len : Nat} (h : 2 ^ (lo + len) ∣ k) : fld (k + n) lo len = fld n lo len := by
  simpa [add_comm] using fld_sum_below (n := n) (m := 1) h
theorem sum_lt {n m k b : Nat} (hk : k ∣ b) (hn : n < k) (hm : m < b / k) : n + k * m < b := by
  obtain ⟨j, rfl⟩ := hk
  rw [Nat.mul_div_cancel_left _ (by omega)] at hm
  calc n + k * m < k * (m + 1) := by rw [mul_add]; omega
    _ ≤ k * j := Nat.mul_le_mul_left _ hm
theorem shifted_lt {m k b : Nat} (hk : k ∣ b) (h0 : 0 < k) (hm : m < b / k) : k * m < b := by
  simpa using sum_lt (n := 0) hk h0 hm
@[simp] theorem toNat_lt_of_pow_le {n m : Nat} (x : BitVec n) (h : 2 ^ n ≤ m) : x.toNat < m := x.isLt.trans_le h
@[simp] theorem ofNat_fld_toNat {n : Nat} (x : BitVec n) : BitVec.ofNat n (fld x.toNat 0 n) = x := by
  simp [fld_of_lt x.isLt]

/-! ## A code is read back -/

@[simp] theorem uG_lt (r : GReg) {m : Nat} (h : 32 ≤ m) : uG r < m := by unfold uG; omega
@[simp] theorem uA_not_lt (r : AReg) : ¬ uA r < 32 := by unfold uA; omega
@[simp] theorem uA_lt (r : AReg) {m : Nat} (h : 64 ≤ m) : uA r < m := by unfold uA; omega
@[simp] theorem uP_lt (r : PReg) {m : Nat} (h : 64 ≤ m) : uP r < m := by unfold uP; omega
@[simp] theorem uW_lt (r : WReg) {m : Nat} (h : 64 ≤ m) : uW r < m := by unfold uW; omega
@[simp] theorem toG_uG (r : GReg) : toG (uG r) = r := by simp [toG, uG]
@[simp] theorem toG_toNat (r : GReg) : toG r.toNat = r := by simp [toG]
@[simp] theorem toA_uA (r : AReg) : toA (uA r) = r := by apply BitVec.eq_of_toNat_eq; simp only [toA, uA, BitVec.toNat_ofNat]; omega
@[simp] theorem toP_uP (r : PReg) : toP (uP r) = r := by apply BitVec.eq_of_toNat_eq; simp only [toP, uP, BitVec.toNat_ofNat]; omega
@[simp] theorem toP_uW (r : WReg) : toP (uW r) = r := by apply BitVec.eq_of_toNat_eq; simp only [toP, uW, BitVec.toNat_ofNat]; omega

@[simp] theorem Guard.code_lt (q : Guard) : q.code < 16 := by unfold Guard.code; split <;> omega
@[simp] theorem Fmt.code_lt (f : Fmt) {m : Nat} (h : 16 ≤ m) : f.code < m := lt_of_lt_of_le (by cases f <;> decide) h
@[simp] theorem Rm.code_lt (m : Rm) : m.code < 8 := by cases m <;> decide
@[simp] theorem Scope.code_lt (c : Scope) {m : Nat} (h : 16 ≤ m) : c.code < m := lt_of_lt_of_le (by cases c <;> decide) h
@[simp] theorem Ord.code_lt (o : Ord) : o.code < 4 := by cases o <;> decide
@[simp] theorem Asz.code_lt (a : Asz) : a.code < 16 := by cases a <;> decide
@[simp] theorem Isc.code_lt (c : Isc) : c.code < 4 := by cases c <;> decide
@[simp] theorem CollKind.code_lt (k : CollKind) : k.code < 16 := by cases k <;> decide
@[simp] theorem CollOp.code_lt (o : CollOp) : o.code < 16 := by cases o <;> decide
@[simp] theorem Semiring.code_lt (r : Semiring) : r.code < 16 := by cases r <;> decide
@[simp] theorem ZeroVal.code_lt (z : ZeroVal) : z.code < 4 := by cases z <;> decide
@[simp] theorem AccFmt.code_lt (f : AccFmt) {m : Nat} (h : 16 ≤ m) : f.code < m := lt_of_lt_of_le (by cases f <;> decide) h
@[simp] theorem bit_lt (b : Bool) {m : Nat} (h : 2 ≤ m) : bit b < m := by cases b <;> exact lt_of_lt_of_le (by decide) h
@[simp] theorem bit_le_one (b : Bool) : bit b ≤ 1 := by cases b <;> decide
@[simp] theorem fld_bit (b : Bool) : fld (bit b) 0 1 = bit b := by cases b <;> rfl
@[simp] theorem Src.code_lt (a : Src) : a.code < 256 := by cases a <;> simp only [Src.code] <;> omega

/-! Sources that the encoder writes with their tag of kind g or i (R112). -/

@[simp] theorem tag_uG_lt (r : GReg) : 64 + uG r < 256 := by unfold uG; omega
@[simp] theorem tag_toNat_lt (n : BitVec 6) : 192 + n.toNat < 256 := by omega
@[simp] theorem tag_bit_lt (b : Bool) : 192 + bit b < 256 := by cases b <;> decide

@[simp] theorem Guard.ofCode_code (q : Guard) : Guard.ofCode q.code = q := by
  obtain ⟨gs, gp⟩ := q
  have hgp := gp.isLt
  cases gs <;> simp [Guard.ofCode, Guard.code, Nat.mod_eq_of_lt hgp] <;> omega
@[simp] theorem Fmt.ofCode_code (f : Fmt) : Fmt.ofCode f.code = f := by cases f <;> rfl
@[simp] theorem Rm.ofCode_code (m : Rm) : Rm.ofCode m.code = m := by cases m <;> rfl
@[simp] theorem Scope.ofCode_code (c : Scope) : Scope.ofCode c.code = c := by cases c <;> rfl
@[simp] theorem Ord.ofCode_code (o : Ord) : Ord.ofCode o.code = o := by cases o <;> rfl
@[simp] theorem Asz.ofCode_code (a : Asz) : Asz.ofCode a.code = a := by cases a <;> rfl
@[simp] theorem Isc.ofCode_code (c : Isc) : Isc.ofCode c.code = c := by cases c <;> rfl
@[simp] theorem CollKind.ofCode_code (k : CollKind) : CollKind.ofCode k.code = k := by cases k <;> rfl
@[simp] theorem CollOp.ofCode_code (o : CollOp) : CollOp.ofCode o.code = o := by cases o <;> rfl
@[simp] theorem Semiring.ofCode_code (r : Semiring) : Semiring.ofCode r.code = r := by cases r <;> rfl
@[simp] theorem ZeroVal.ofCode_code (z : ZeroVal) : ZeroVal.ofCode z.code = z := by cases z <;> rfl
@[simp] theorem AccFmt.ofCode_code (f : AccFmt) : AccFmt.ofCode f.code = f := by cases f <;> rfl
@[simp] theorem bit_beq_one (b : Bool) : (bit b == 1) = b := by cases b <;> rfl
@[simp] theorem Src.ofCode_code (a : Src) : Src.ofCode a.code = a := by
  cases a with
  | v r => simp [Src.ofCode, Src.code, show r.toNat / 64 % 4 = 0 by omega]
  | g r => simp [Src.ofCode, Src.code, show (r.toNat / 64 + 1) % 4 = 1 by omega, BitVec.ofNat_add]
  | k n => simp [Src.ofCode, Src.code, show (128 + n.toNat) / 64 % 4 = 2 by omega, BitVec.ofNat_add]
  | i n => simp [Src.ofCode, Src.code, show (192 + n.toNat) / 64 % 4 = 3 by omega, BitVec.ofNat_add]

/-- A number of the 44 bits of an operand area (R108). -/
def IsArea (n : Nat) : Prop := n < 2 ^ 44
@[simp] theorem isArea_zero : IsArea 0 := by unfold IsArea; decide

/-! ## The fields of each format's operand area (R116–R122) -/

@[simp] theorem packS_fields {imm s3 s2 s1 d : Nat} (himm : imm < 1048576) (hs3 : s3 < 64) (hs2 : s2 < 64) (hs1 : s1 < 64) (hd : d < 64) :
    let w := packS imm s3 s2 s1 d
    IsArea w ∧ fld w 20 6 = s3 ∧ fld w 26 6 = s2 ∧ fld w 32 6 = s1 ∧ fld w 38 6 = d := by
  unfold IsArea packS fld; refine ⟨?_, ?_, ?_, ?_, ?_⟩ <;> omega
@[simp] theorem packS_imm {imm s3 s2 s1 d lo len : Nat} (h : lo + len ≤ 20) : fld (packS imm s3 s2 s1 d) lo len = fld imm lo len := by
  unfold packS
  iterate 3 rw [fld_add_below _ _ (by omega)]
  exact fld_add_below _ _ h

@[simp] theorem packV_fields {vx wm rm et s3 s2 s1 vd : Nat} (hvx : vx < 16) (hwm : wm < 8) (hrm : rm < 8) (het : et < 16) (hs3 : s3 < 256)
    (hs2 : s2 < 256) (hs1 : s1 < 256) (hvd : vd < 64) :
    let w := packV vx wm rm et s3 s2 s1 vd
    IsArea w ∧ fld w 4 3 = wm ∧ fld w 7 3 = rm ∧ fld w 10 4 = et ∧ fld w 14 8 = s3 ∧ fld w 38 6 = vd := by
  unfold IsArea packV fld; refine ⟨?_, ?_, ?_, ?_, ?_, ?_⟩ <;> omega
@[simp] theorem packV_vx {vx wm rm et s3 s2 s1 vd lo len : Nat} (h : lo + len ≤ 4) :
    fld (packV vx wm rm et s3 s2 s1 vd) lo len = fld vx lo len := by
  unfold packV
  iterate 6 rw [fld_add_below _ _ (by omega)]
  exact fld_add_below _ _ h
@[simp] theorem packV_s2 {vx wm rm et s3 s2 s1 vd len : Nat} (hvx : vx < 16) (hwm : wm < 8) (hrm : rm < 8) (het : et < 16) (hs3 : s3 < 256)
    (h : len ≤ 8) : fld (packV vx wm rm et s3 s2 s1 vd) 22 len = fld s2 0 len := by
  unfold packV
  iterate 2 rw [fld_add_below _ _ (by omega)]
  exact fld_add_above (by omega) s2 0 len
@[simp] theorem packV_s1 {vx wm rm et s3 s2 s1 vd len : Nat} (hvx : vx < 16) (hwm : wm < 8) (hrm : rm < 8) (het : et < 16) (hs3 : s3 < 256)
    (hs2 : s2 < 256) (h : len ≤ 8) : fld (packV vx wm rm et s3 s2 s1 vd) 30 len = fld s1 0 len := by
  unfold packV
  rw [fld_add_below _ _ (by omega)]
  exact fld_add_above (by omega) s1 0 len

@[simp] theorem packM_fields {off ext ord sco asz isc ix ab d : Nat} (hoff : off < 8192) (hext : ext < 2) (hord : ord < 4) (hsco : sco < 16)
    (hasz : asz < 16) (hisc : isc < 4) (hix : ix < 64) (hab : ab < 64) (hd : d < 64) :
    let w := packM off ext ord sco asz isc ix ab d
    IsArea w ∧ fld w 13 1 = ext ∧ fld w 14 2 = ord ∧ fld w 14 1 = fld ord 0 1 ∧ fld w 16 4 = sco ∧ fld w 20 4 = asz ∧
      fld w 24 2 = isc ∧ fld w 26 6 = ix ∧ fld w 32 6 = ab ∧ fld w 38 6 = d := by
  unfold IsArea packM fld; refine ⟨?_, ?_, ?_, ?_, ?_, ?_, ?_, ?_, ?_, ?_⟩ <;> omega
@[simp] theorem packM_off {off ext ord sco asz isc ix ab d lo len : Nat} (h : lo + len ≤ 13) :
    fld (packM off ext ord sco asz isc ix ab d) lo len = fld off lo len := by
  unfold packM
  iterate 7 rw [fld_add_below _ _ (by omega)]
  exact fld_add_below _ _ h

@[simp] theorem packB_fields {off tr ln : Nat} (hoff : off < 4294967296) (htr : tr < 64) (hln : ln < 64) :
    let w := packB off tr ln
    IsArea w ∧ fld w 0 32 = off ∧ fld w 32 6 = tr ∧ fld w 38 6 = ln := by
  unfold IsArea packB fld; refine ⟨?_, ?_, ?_, ?_⟩ <;> omega

@[simp] theorem packL_fields {icnt len lv cnt : Nat} (hicnt : icnt < 268435456) (hlen : len < 256) (hlv : lv < 4) (hcnt : cnt < 64) :
    let w := packL icnt len lv cnt
    IsArea w ∧ fld w 0 28 = icnt ∧ fld w 28 8 = len ∧ fld w 36 2 = lv ∧ fld w 38 6 = cnt := by
  unfold IsArea packL fld; refine ⟨?_, ?_, ?_, ?_, ?_⟩ <;> omega

@[simp] theorem packR_fields {low fov mode c mb ma : Nat} (hlow : low < 536870912) (hfov : fov < 16) (hmode : mode < 16) (hc : c < 2)
    (hmb : mb < 8) (hma : ma < 8) :
    let w := packR low fov mode c mb ma
    IsArea w ∧ fld w 29 4 = fov ∧ fld w 33 4 = mode ∧ fld w 37 1 = c ∧ fld w 38 3 = mb ∧ fld w 41 3 = ma := by
  unfold IsArea packR fld; refine ⟨?_, ?_, ?_, ?_, ?_, ?_⟩ <;> omega
@[simp] theorem packR_low {low fov mode c mb ma lo len : Nat} (h : lo + len ≤ 29) :
    fld (packR low fov mode c mb ma) lo len = fld low lo len := by
  unfold packR
  iterate 4 rw [fld_add_below _ _ (by omega)]
  exact fld_add_below _ _ h

@[simp] theorem packX_fields {f25 f31 f37 d : Nat} (h25 : f25 < 64) (h31 : f31 < 64) (h37 : f37 < 64) (hd : d < 64) :
    let w := packX f25 f31 f37 d
    IsArea w ∧ fld w 20 6 = f25 ∧ fld w 26 6 = f31 ∧ fld w 32 6 = f37 ∧ fld w 38 6 = d := by
  unfold IsArea packX fld; refine ⟨?_, ?_, ?_, ?_, ?_⟩ <;> omega

@[simp] theorem packF_fields {aux src m d : Nat} (haux : aux < 64) (hsrc : src < 64) (hm : m < 8) (hd : d < 64) :
    let w := packF aux src m d
    IsArea w ∧ fld w 20 6 = aux ∧ fld w 26 6 = src ∧ fld w 35 3 = m ∧ fld w 38 6 = d := by
  unfold IsArea packF fld; refine ⟨?_, ?_, ?_, ?_, ?_⟩ <;> omega

/-! ## The readers of the fields -/

@[simp] theorem fD_eq (w : Nat) : fD w = fld w 38 6 := rfl
@[simp] theorem fS1_eq (w : Nat) : fS1 w = fld w 32 6 := rfl
@[simp] theorem fS2_eq (w : Nat) : fS2 w = fld w 26 6 := rfl
@[simp] theorem fS3_eq (w : Nat) : fS3 w = fld w 20 6 := rfl
@[simp] theorem bv_eq (n w lo : Nat) : bv n w lo = BitVec.ofNat n (fld w lo n) := rfl
@[simp] theorem vSrc1_eq (w : Nat) : vSrc1 w = Src.ofCode (fld w 30 8) := rfl
@[simp] theorem vSrc2_eq (w : Nat) : vSrc2 w = Src.ofCode (fld w 22 8) := rfl
@[simp] theorem vSrc3_eq (w : Nat) : vSrc3 w = Src.ofCode (fld w 14 8) := rfl
@[simp] theorem vEt_eq (w : Nat) : vEt w = Fmt.ofCode (fld w 10 4) := rfl
@[simp] theorem vRm_eq (w : Nat) : vRm w = Rm.ofCode (fld w 7 3) := rfl
@[simp] theorem mAddr_eq (w : Nat) :
    mAddr w = ⟨toA (fld w 32 6), toG (fld w 26 6), Isc.ofCode (fld w 24 2), BitVec.ofNat 13 (fld w 0 13)⟩ := rfl
@[simp] theorem MemOp.pack_eq (m : MemOp) (ext ord sco asz d : Nat) :
    m.pack ext ord sco asz d = packM m.off.toNat ext ord sco asz m.isc.code (uG m.ix) (uA m.ab) d := rfl
@[simp] theorem mAsz_eq (w : Nat) : mAsz w = Asz.ofCode (fld w 20 4) := rfl
@[simp] theorem mSco_eq (w : Nat) : mSco w = Scope.ofCode (fld w 16 4) := rfl
@[simp] theorem mOrd_eq (w : Nat) : mOrd w = Ord.ofCode (fld w 14 2) := rfl
@[simp] theorem mExt_eq (w : Nat) : mExt w = (fld w 13 1 == 1) := rfl

/-! ## The header (R108) -/

/-- A word whose guard and operand area are the ones given. -/
structure Holds (w : Nat) (q : Guard) (area : Nat) : Prop where
  guard : guardOf w = q
  field : ∀ {lo len}, lo + len ≤ 44 → fld w lo len = fld area lo len

theorem word_header {sz maj fn area : Nat} {q : Guard} (ha : IsArea area) (hf : fn < 2 ^ 8) (hm : maj < 2 ^ 6) (hs : sz < 2 ^ 2) :
    let w := word sz maj q fn area
    fld w 44 8 = fn ∧ fld w 52 4 = q.code ∧ fld w 56 6 = maj ∧ fld w 62 2 = sz := by
  have := q.code_lt
  unfold IsArea at ha
  unfold word fld; refine ⟨?_, ?_, ?_, ?_⟩ <;> omega
theorem word_field {sz maj fn area lo len : Nat} {q : Guard} (h : lo + len ≤ 44) : fld (word sz maj q fn area) lo len = fld area lo len := by
  unfold word
  iterate 3 rw [fld_add_below _ _ (by omega)]
  exact fld_add_below _ _ h

end Sys2Proof
end

section
/-!
SUPPORT. The round trip of the instruction words (R109–R123, R126) and the guard they carry (R110): one lemma per operand shape, then one
for every instruction that has words.
-/
namespace Sys2Proof

/-! ## A shape's encoder and its reading agree -/

/-- The encoder of a shape writes, for every function, a word with the guard `q` above an area, and an extension when the format has two
words; the shape's reading of any word with that guard and area, and of that extension, gives the operands back. `ok` is what the operands
must meet for that beyond their types. -/
def Codes {α : Type} (ok : Prop) (two : Bool) (enc : Nat → Nat → List Nat) (read : Nat → Nat → α) (q : Guard) (x : α) : Prop :=
  ∃ area rest, IsArea area ∧ rest.length = bit two ∧ (∀ maj fn, enc maj fn = word (bit two) maj q fn area :: rest) ∧
    (ok → ∀ w e, Holds w q area → read w (rest.headD e) = x)

section
variable {α : Type} {enc : Nat → Nat → List Nat} {read : Nat → Nat → α} {q : Guard} {x : α} {area ext : Nat}
theorem Codes.one (words : ∀ maj fn, enc maj fn = one maj fn q area) (lt : IsArea area)
    (reads : ∀ {w} e, Holds w q area → read w e = x) : Codes True false enc read q x :=
  ⟨area, [], lt, rfl, words, fun _ _ => reads⟩
theorem Codes.two (words : ∀ maj fn, enc maj fn = two maj fn q area ext) (lt : IsArea area)
    (reads : ∀ {w}, Holds w q area → read w ext = x) : Codes True true enc read q x :=
  ⟨area, [ext], lt, rfl, words, fun _ _ _ => reads⟩
end

/-! ### Formats S, B and L (R116, R119, R120) -/

theorem OpN.codes (x : OpN) : Codes True false x.enc decN x.q x :=
  .one (fun _ _ => rfl) (by simp) fun e h => by simp [decN, h.guard]
theorem OpGGG.codes (x : OpGGG) : Codes True false x.enc decGGG x.q x :=
  .one (fun _ _ => rfl) (by simp) fun e h => by simp [decGGG, h.guard, h.field]
theorem OpGG.codes (x : OpGG) : Codes True false x.enc decGG x.q x :=
  .one (fun _ _ => rfl) (by simp) fun e h => by simp [decGG, h.guard, h.field]
theorem OpGGI.codes (x : OpGGI) : Codes True false x.enc decGGI x.q x :=
  .one (fun _ _ => rfl) (by simp) fun e h => by simp [decGGI, h.guard, h.field]
theorem OpGGSh.codes (x : OpGGSh) : Codes True false x.enc decGGSh x.q x :=
  .one (fun _ _ => rfl) (by simp) fun e h => by simp [decGGSh, h.guard, h.field]
theorem OpGI.codes (x : OpGI) : Codes True false x.enc decGI x.q x :=
  .one (fun _ _ => rfl) (by simp) fun e h => by simp [decGI, h.guard, h.field]
theorem OpPGG.codes (x : OpPGG) : Codes True false x.enc decPGG x.q x :=
  .one (fun _ _ => rfl) (by simp) fun e h => by simp [decPGG, h.guard, h.field]
theorem OpPGI.codes (x : OpPGI) : Codes True false x.enc decPGI x.q x :=
  .one (fun _ _ => rfl) (by simp) fun e h => by simp [decPGI, h.guard, h.field]
theorem OpPGBit.codes (x : OpPGBit) : Codes True false x.enc decPGBit x.q x :=
  .one (fun _ _ => rfl) (by simp) fun e h => by simp [decPGBit, h.guard, h.field]
theorem OpPPP.codes (x : OpPPP) : Codes True false x.enc decPPP x.q x :=
  .one (fun _ _ => rfl) (by simp) fun e h => by simp [decPPP, h.guard, h.field]
theorem OpPP.codes (x : OpPP) : Codes True false x.enc decPP x.q x :=
  .one (fun _ _ => rfl) (by simp) fun e h => by simp [decPP, h.guard, h.field]
theorem OpField.codes (x : OpField) : Codes True false x.enc decField x.q x := by
  have low : x.pos.toNat + 64 * x.len.toNat < 1048576 := by simp [sum_lt]
  exact .one (fun _ _ => rfl) (by simp [low]) fun e h => by simp [decField, h.guard, h.field, low]
theorem OpSel.codes (x : OpSel) : Codes True false x.enc decSel x.q x :=
  .one (fun _ _ => rfl) (by simp) fun e h => by simp [decSel, h.guard, h.field]
theorem OpGP.codes (x : OpGP) : Codes True false x.enc decGP x.q x :=
  .one (fun _ _ => rfl) (by simp) fun e h => by simp [decGP, h.guard, h.field]
theorem OpPG.codes (x : OpPG) : Codes True false x.enc decPG x.q x :=
  .one (fun _ _ => rfl) (by simp) fun e h => by simp [decPG, h.guard, h.field]
theorem OpAAG.codes (x : OpAAG) : Codes True false x.enc decAAG x.q x :=
  .one (fun _ _ => rfl) (by simp) fun e h => by simp [decAAG, h.guard, h.field]
theorem OpAAI.codes (x : OpAAI) : Codes True false x.enc decAAI x.q x :=
  .one (fun _ _ => rfl) (by simp) fun e h => by simp [decAAI, h.guard, h.field]
theorem OpAA.codes (x : OpAA) : Codes True false x.enc decAA x.q x :=
  .one (fun _ _ => rfl) (by simp) fun e h => by simp [decAA, h.guard, h.field]
theorem OpAFrom.codes (x : OpAFrom) : Codes True false x.enc decAFrom x.q x := by
  have low : x.ext.toNat + 32 * x.fmt.code < 512 := by simp [sum_lt]
  have full : x.ext.toNat + 32 * x.fmt.code + 512 * x.blog.toNat < 1048576 := by simp [sum_lt, low]
  exact .one (fun _ _ => rfl) (by simp [full]) fun e h => by simp [decAFrom, h.guard, h.field, low, full]
theorem OpAToG.codes (x : OpAToG) : Codes True false x.enc decAToG x.q x :=
  .one (fun _ _ => rfl) (by simp) fun e h => by simp [decAToG, h.guard, h.field]
theorem OpAFmt.codes (x : OpAFmt) : Codes True false x.enc decAFmt x.q x := by
  have low : x.fmt.code + 32 * x.blog.toNat < 1048576 := by simp [sum_lt]
  exact .one (fun _ _ => rfl) (by simp [low]) fun e h => by simp [decAFmt, h.guard, h.field, low]
theorem OpGAA.codes (x : OpGAA) : Codes True false x.enc decGAA x.q x :=
  .one (fun _ _ => rfl) (by simp) fun e h => by simp [decGAA, h.guard, h.field]
theorem OpPAA.codes (x : OpPAA) : Codes True false x.enc decPAA x.q x :=
  .one (fun _ _ => rfl) (by simp) fun e h => by simp [decPAA, h.guard, h.field]
theorem OpChk.codes (x : OpChk) : Codes True false x.enc decChk x.q x := by
  have low : x.ext.toNat + 32 * x.need.toNat < 1048576 := by simp [sum_lt]
  exact .one (fun _ _ => rfl) (by simp [low]) fun e h => by simp [decChk, h.guard, h.field, low]
theorem OpChkI.codes (x : OpChkI) : Codes True false x.enc decChkI x.q x := by
  have low : x.ext.toNat + 32 * x.need.toNat < 512 := by simp [sum_lt]
  have full : x.ext.toNat + 32 * x.need.toNat + 512 * x.len.toNat < 1048576 := by simp [sum_lt, low]
  exact .one (fun _ _ => rfl) (by simp [full]) fun e h => by simp [decChkI, h.guard, h.field, low, full]
theorem OpScfg.codes (x : OpScfg) : Codes True false x.enc decScfg x.q x := by
  have low : x.slot.toNat + 4 * bit x.push < 1048576 := by simp [sum_lt]
  exact .one (fun _ _ => rfl) (by simp [low]) fun e h => by simp [decScfg, h.guard, h.field, low]
theorem OpSdim.codes (x : OpSdim) : Codes True false x.enc decSdim x.q x := by
  have low : x.slot.toNat + 4 * x.dim.toNat < 1048576 := by simp [sum_lt]
  exact .one (fun _ _ => rfl) (by simp [low]) fun e h => by simp [decSdim, h.guard, h.field, low]
theorem OpSlot.codes (x : OpSlot) : Codes True false x.enc decSlot x.q x :=
  .one (fun _ _ => rfl) (by simp) fun e h => by simp [decSlot, h.guard, h.field]
theorem OpRep.codes (x : OpRep) : Codes True false x.enc decRep Guard.always x := by
  have low : x.lenM1.toNat + 16 * x.stag.toNat < 256 := by simp [sum_lt]
  have full : x.lenM1.toNat + 16 * x.stag.toNat + 256 * x.icnt.toNat < 1048576 := by simp [sum_lt, low]
  exact .one (fun _ _ => rfl) (by simp [full]) fun e h => by simp [decRep, h.field, low, full]
theorem OpFence.codes (x : OpFence) : Codes True false x.enc decFence x.q x :=
  .one (fun _ _ => rfl) (by simp) fun e h => by simp [decFence, h.guard, h.field]
theorem OpEpoch.codes (x : OpEpoch) : Codes True false x.enc decEpoch x.q x :=
  .one (fun _ _ => rfl) (by simp) fun e h => by simp [decEpoch, h.guard, h.field]
theorem OpXwait.codes (x : OpXwait) : Codes True false x.enc decXwait x.q x :=
  .one (fun _ _ => rfl) (by simp) fun e h => by simp [decXwait, h.guard, h.field]
theorem OpA.codes (x : OpA) : Codes True false x.enc decA x.q x :=
  .one (fun _ _ => rfl) (by simp) fun e h => by simp [decA, h.guard, h.field]
theorem OpHint.codes (x : OpHint) : Codes True false x.enc decHint x.q x :=
  .one (fun _ _ => rfl) (by simp) fun e h => by simp [decHint, h.guard, h.field]
theorem OpLevel.codes (x : OpLevel) : Codes True false x.enc decLevel x.q x :=
  .one (fun _ _ => rfl) (by simp) fun e h => by simp [decLevel, h.guard, h.field]
theorem OpBarw.codes (x : OpBarw) : Codes True false x.enc decBarw x.q x :=
  .one (fun _ _ => rfl) (by simp) fun e h => by simp [decBarw, h.guard, h.field]
theorem OpSstep.codes (x : OpSstep) : Codes True false x.enc decSstep x.q x :=
  .one (fun _ _ => rfl) (by simp) fun e h => by simp [decSstep, h.guard, h.field]
theorem OpSrr.codes (x : OpSrr) : Codes True false x.enc decSrr x.q x :=
  .one (fun _ _ => rfl) (by simp) fun e h => by simp [decSrr, h.guard, h.field]
theorem OpSrw.codes (x : OpSrw) : Codes True false x.enc decSrw x.q x :=
  .one (fun _ _ => rfl) (by simp) fun e h => by simp [decSrw, h.guard, h.field]
theorem OpTrap.codes (x : OpTrap) : Codes True false x.enc decTrap x.q x :=
  .one (fun _ _ => rfl) (by simp) fun e h => by simp [decTrap, h.guard, h.field]
theorem OpTret.codes (x : OpTret) : Codes True false x.enc decTret x.q x :=
  .one (fun _ _ => rfl) (by simp) fun e h => by simp [decTret, h.guard, h.field]
theorem OpBrk.codes (x : OpBrk) : Codes True false x.enc decBrk x.q x :=
  .one (fun _ _ => rfl) (by simp) fun e h => by simp [decBrk, h.guard, h.field]
theorem OpBr.codes (x : OpBr) : Codes True false x.enc decBr x.q x :=
  .one (fun _ _ => rfl) (by simp) fun e h => by simp [decBr, h.guard, h.field]
theorem OpBrl.codes (x : OpBrl) : Codes True false x.enc decBrl x.q x :=
  .one (fun _ _ => rfl) (by simp) fun e h => by simp [decBrl, h.guard, h.field]
theorem OpJr.codes (x : OpJr) : Codes True false x.enc decJr x.q x :=
  .one (fun _ _ => rfl) (by simp) fun e h => by simp [decJr, h.guard, h.field]
theorem OpJrl.codes (x : OpJrl) : Codes True false x.enc decJrl x.q x :=
  .one (fun _ _ => rfl) (by simp) fun e h => by simp [decJrl, h.guard, h.field]
theorem OpLoop.codes (x : OpLoop) : Codes True false x.enc decLoop Guard.always x :=
  .one (fun _ _ => rfl) (by simp) fun e h => by simp [decLoop, h.field]
theorem OpLoopI.codes (x : OpLoopI) : Codes True false x.enc decLoopI Guard.always x :=
  .one (fun _ _ => rfl) (by simp) fun e h => by simp [decLoopI, h.field]
theorem OpLbrk.codes (x : OpLbrk) : Codes True false x.enc decLbrk x.q x :=
  .one (fun _ _ => rfl) (by simp) fun e h => by simp [decLbrk, h.guard, h.field]
theorem OpG.codes_s1 (x : OpG) : Codes True false (x.enc · · true) decG1 x.q x :=
  .one (fun _ _ => rfl) (by simp) fun e h => by simp [decG1, h.guard, h.field]
theorem OpG.codes_d (x : OpG) : Codes True false (x.enc · · false) decGd x.q x :=
  .one (fun _ _ => rfl) (by simp) fun e h => by simp [decGd, h.guard, h.field]

/-! ### Format V (R117) -/

theorem OpV1.codes (x : OpV1) : Codes True false x.enc decV1 x.q x :=
  .one (fun _ _ => rfl) (by simp) fun e h => by simp [decV1, h.guard, h.field]
theorem OpV2.codes (x : OpV2) : Codes True false x.enc decV2 x.q x :=
  .one (fun _ _ => rfl) (by simp) fun e h => by simp [decV2, h.guard, h.field]
theorem OpV3.codes (x : OpV3) : Codes True false x.enc decV3 x.q x :=
  .one (fun _ _ => rfl) (by simp) fun e h => by simp [decV3, h.guard, h.field]
theorem OpWV2.codes (x : OpWV2) : Codes True false x.enc decWV2 x.q x :=
  .one (fun _ _ => rfl) (by simp) fun e h => by simp [decWV2, h.guard, h.field]
theorem OpWWW.codes (x : OpWWW) : Codes True false x.enc decWWW x.q x :=
  .one (fun _ _ => rfl) (by simp) fun e h => by simp [decWWW, h.guard, h.field]
theorem OpWW.codes (x : OpWW) : Codes True false x.enc decWW x.q x :=
  .one (fun _ _ => rfl) (by simp) fun e h => by simp [decWW, h.guard, h.field]
theorem OpScan.codes (x : OpScan) : Codes True false x.enc decScan x.q x :=
  .one (fun _ _ => rfl) (by simp) fun e h => by simp [decScan, h.guard, h.field]
theorem OpInsr.codes (x : OpInsr) : Codes True false x.enc decInsr x.q x :=
  .one (fun _ _ => rfl) (by simp) fun e h => by simp [decInsr, h.guard, h.field]
theorem OpCvt.codes (x : OpCvt) : Codes True false x.enc decCvt x.q x :=
  .one (fun _ _ => rfl) (by simp) fun e h => by simp [decCvt, h.guard, h.field]
theorem OpPack.codes (x : OpPack) : Codes True false x.enc decPack x.q x :=
  .one (fun _ _ => rfl) (by simp) fun e h => by simp [decPack, h.guard, h.field]
theorem OpUnpack.codes (x : OpUnpack) : Codes True false x.enc decUnpack x.q x :=
  .one (fun _ _ => rfl) (by simp) fun e h => by simp [decUnpack, h.guard, h.field]
theorem OpKsend.codes (x : OpKsend) : Codes True false x.enc decKsend x.q x :=
  .one (fun _ _ => rfl) (by simp) fun e h => by simp [decKsend, h.guard, h.field]
theorem OpExtr.codes (x : OpExtr) : Codes True false x.enc decExtr x.q x := by
  obtain ⟨q, d, mode, et, wm⟩ := x
  cases mode <;> exact .one (fun _ _ => rfl) (by simp) fun e h => by simp [decExtr, h.guard, h.field]
theorem OpQuant.codes (x : OpQuant) : Codes True false x.enc decQuant x.q x := by
  obtain ⟨q, d, a, fmt, rm⟩ := x
  cases fmt <;> exact .one (fun _ _ => rfl) (by simp) fun e h => by simp [decQuant, h.guard, h.field]
theorem OpG.codes_kcfg (x : OpG) : Codes True false x.encKcfg decKcfg x.q x :=
  .one (fun _ _ => rfl) (by simp) fun e h => by simp [decKcfg, h.guard, h.field]

/-! ### Format M (R118) -/

theorem OpSt.codes (x : OpSt) : Codes True false x.enc decSt x.q x :=
  .one (fun _ _ => rfl) (by simp) fun e h => by simp [decSt, h.guard, h.field]
theorem OpMemG.codes (x : OpMemG) : Codes True false x.enc decMemG x.q x :=
  .one (fun _ _ => rfl) (by simp) fun e h => by simp [decMemG, h.guard, h.field]
theorem OpFe.codes (x : OpFe) : Codes True false x.enc decFe x.q x :=
  .one (fun _ _ => rfl) (by simp) fun e h => by simp [decFe, h.guard, h.field]
theorem OpFepoll.codes (x : OpFepoll) : Codes True false x.enc decFepoll x.q x :=
  .one (fun _ _ => rfl) (by simp) fun e h => by simp [decFepoll, h.guard, h.field]
theorem OpQtry.codes (x : OpQtry) : Codes True false x.enc decQtry x.q x :=
  .one (fun _ _ => rfl) (by simp) fun e h => by simp [decQtry, h.guard, h.field]
theorem OpVmem.codes (x : OpVmem) : Codes True false x.enc decVmem x.q x :=
  .one (fun _ _ => rfl) (by simp) fun e h => by simp [decVmem, h.guard, h.field]
theorem OpVldk.codes (x : OpVldk) : Codes True false x.enc decVldk x.q x :=
  .one (fun _ _ => rfl) (by simp) fun e h => by simp [decVldk, h.guard, h.field]
theorem OpIwin.codes (x : OpIwin) : Codes True false x.enc decIwin x.q x :=
  .one (fun _ _ => rfl) (by simp) fun e h => by simp [decIwin, h.guard, h.field]
theorem OpLd.codes (x : OpLd) : Codes True false x.enc decLd x.q x := by
  obtain ⟨q, d, m, asz, ord, sco, ext⟩ := x
  cases d <;> exact .one (fun _ _ => rfl) (by simp) fun e h => by simp [decLd, h.guard, h.field]
/-- The size of the access says whether the destination is a g or a v register (R268). -/
theorem OpWld.codes (x : OpWld) : Codes ((Instr.wld x).wf = true) false x.enc decWld x.q x := by
  obtain ⟨q, d, m, asz, nowait⟩ := x
  cases d <;> refine ⟨_, [], ?_, rfl, fun _ _ => rfl, fun wf w e h => ?_⟩
  case g.refine_1 | v.refine_1 => simp
  all_goals
    simp only [Instr.wf, Bool.and_eq_true, Bool.not_eq_true'] at wf
    simp [decWld, h.guard, h.field, wf]
theorem OpQue.codes (x : OpQue) {ord : Nat} (ho : ord < 4) : Codes True false (x.enc · · ord) decQue x.q x :=
  .one (fun _ _ => rfl) (by simp [ho]) fun e h => by simp [decQue, h.guard, h.field, ho]

/-! ### Formats R and X (R121, R122) -/

theorem OpRing.codes (x : OpRing) : Codes True false x.enc decRing x.q x := by
  have low : 8388608 * uG x.g < 536870912 := by simp [shifted_lt]
  exact .one (fun _ _ => rfl) (by simp [low]) fun e h => by simp [decRing, h.guard, h.field, low]
theorem OpRget.codes (x : OpRget) : Codes True false x.enc decRget x.q x := by
  have low : x.sel.toNat + 8388608 * uG x.d < 536870912 := by simp [sum_lt]
  exact .one (fun _ _ => rfl) (by simp [low]) fun e h => by simp [decRget, h.guard, h.field, low]
theorem OpRadv.codes (x : OpRadv) : Codes True false x.enc decRadv x.q x := by
  have low : x.n.toNat + 128 * bit x.far < 536870912 := by simp [sum_lt]
  exact .one (fun _ _ => rfl) (by simp [low]) fun e h => by simp [decRadv, h.guard, h.field, low]
theorem OpMma.codes (x : OpMma) : Codes True false x.enc decMma x.q x :=
  .one (fun _ _ => rfl) (by simp) fun e h => by simp [decMma, h.guard, h.field]
theorem OpMmaf.codes (x : OpMmaf) : Codes True false x.enc decMmaf x.q x :=
  .one (fun _ _ => rfl) (by simp) fun e h => by simp [decMmaf, h.guard, h.field]
theorem OpMsr.codes (x : OpMsr) : Codes True false x.enc decMsr x.q x :=
  .one (fun _ _ => rfl) (by simp) fun e h => by simp [decMsr, h.guard, h.field]
theorem OpMzero.codes (x : OpMzero) : Codes True false x.enc decMzero x.q x := by
  have low : 134217728 * x.val.code < 536870912 := by simp [shifted_lt]
  exact .one (fun _ _ => rfl) (by simp [low]) fun e h => by simp [decMzero, h.guard, h.field, low]
theorem OpMverd.codes (x : OpMverd) : Codes True false x.enc decMverd x.q x := by
  have low : 8388608 * uG x.d < 536870912 := by simp [shifted_lt]
  exact .one (fun _ _ => rfl) (by simp [low]) fun e h => by simp [decMverd, h.guard, h.field, low]
theorem OpMstat.codes (x : OpMstat) : Codes True false x.enc decMstat x.q x := by
  have low : 2097152 * x.sel.toNat < 8388608 := by simp [shifted_lt]
  have full : 2097152 * x.sel.toNat + 8388608 * uG x.d < 536870912 := by simp [sum_lt, low]
  exact .one (fun _ _ => rfl) (by simp [full]) fun e h => by simp [decMstat, h.guard, h.field, low, full]
theorem OpMload.codes (x : OpMload) : Codes True false x.enc decMload x.q x := by
  have low : 131072 * uG x.str < 8388608 := by simp [shifted_lt]
  have full : 131072 * uG x.str + 8388608 * uA x.src < 536870912 := by simp [sum_lt, low]
  exact .one (fun _ _ => rfl) (by simp [full]) fun e h => by simp [decMload, h.guard, h.field, low, full]
theorem OpCpy.codes (x : OpCpy) : Codes True true x.enc decCpy x.q x :=
  .two (fun _ _ => rfl) (by simp) fun h => by simp [decCpy, h.guard, h.field]
theorem OpCpy2.codes (x : OpCpy2) : Codes True true x.enc decCpy2 x.q x := by
  have low : uG x.rows + 64 * uG x.sstr < 4096 := by simp [sum_lt]
  exact .two (fun _ _ => rfl) (by simp) fun h => by simp [decCpy2, h.guard, h.field, low]
theorem OpColl.codes (x : OpColl) : Codes True true x.enc decColl x.q x := by
  have low : x.kind.code + 16 * x.op.code < 256 := by simp [sum_lt]
  have full : x.kind.code + 16 * x.op.code + 256 * x.level.toNat < 4096 := by simp [sum_lt, low]
  exact .two (fun _ _ => rfl) (by simp) fun h => by simp [decColl, h.guard, h.field, low, full]
theorem OpRquant.codes (x : OpRquant) : Codes True true x.enc decRquant x.q x := by
  have low : uG x.str + 64 * bit x.fixed < 128 := by simp [sum_lt]
  exact .two (fun _ _ => rfl) (by simp) fun h => by simp [decRquant, h.guard, h.field, low]
theorem OpRfill.codes (x : OpRfill) : Codes True true x.enc decRfill x.q x :=
  .two (fun _ _ => rfl) (by simp) fun h => by simp [decRfill, h.guard, h.field]
theorem OpMdrain.codes (x : OpMdrain) : Codes True true x.enc decMdrain x.q x := by
  obtain ⟨q, c, fov, rm, mode⟩ := x
  cases mode with
  | mem dst str =>
    have low : 16384 * rm.code < 131072 := by simp [shifted_lt]
    have middle : 16384 * rm.code + 131072 * uG str < 8388608 := by simp [sum_lt, shifted_lt]
    have full : 16384 * rm.code + 131072 * uG str + 8388608 * uA dst < 536870912 := by simp [sum_lt, middle]
    exact .two (fun _ _ => rfl) (by simp [full]) fun h => by simp [decMdrain, h.guard, h.field, low, middle, full]
  | vec vd row part =>
    have mark : fld 8192 13 1 = 1 := rfl
    have low : 8192 + 16384 * rm.code < 536870912 := by have := rm.code_lt; omega
    have ext : vd.toNat + 64 * row.toNat < 4096 := by simp [sum_lt]
    exact .two (fun _ _ => rfl) (by simp [low]) fun h => by simp [decMdrain, h.guard, h.field, mark, low, ext]
theorem OpGG.codes2 (x : OpGG) : Codes True true x.enc2 decGG x.q x :=
  .two (fun _ _ => rfl) (by simp) fun h => by simp [decGG, h.guard, h.field]

/-! ## The opcode map -/

/-- The entry of a function of a major. -/
def entryOf (maj fn : Nat) : Option Entry := (functionsOf maj).bind (·[fn]?)

theorem entryOf_lt {maj fn : Nat} {f : Entry} (h : entryOf maj fn = some f) : maj < 64 ∧ fn < 256 := by
  obtain ⟨fs, hfs, hf⟩ := Option.bind_eq_some_iff.1 h
  have count := (List.getElem?_eq_some_iff.1 hf).1
  unfold functionsOf at hfs
  split at hfs <;> cases hfs <;> exact ⟨by decide, count.trans_le (by decide)⟩

end Sys2Proof

namespace Sys2Proof.Machine

/-! ## The entry of an instruction's words -/

/-- The instruction that the opcode map names for the words of an instruction: on a main core, TEND's word is TEND (R282). -/
def mapped : Instr → Instr
  | .stageTend x => .tend x
  | i => i

/-- The words of an instruction: they name its entry in the opcode map, which reads it back if it is well formed, and their guard decides
whether it runs. -/
structure Listed (i : Instr) (w : Nat) (r : List Nat) (f : Sys2Proof.Entry) : Prop where
  entry : entryOf (fld w 56 6) (fld w 44 8) = some f
  size : fld w 62 2 = bit f.two
  count : r.length = bit f.two
  bare : f.bare = true → fld w 52 4 = 0
  read : i.wf = true → ∀ e, f.read w (r.headD e) = mapped i
  skip : ∀ s, s.guard (guardOf w) = false → exec i s = .next (s.done (8 * (r.length + 1)))

section
variable {α : Type} {ok : Prop} {two bare : Bool} {enc : Nat → Nat → List Nat} {dec : Nat → Nat → α} {q : Guard} {x : α} {i : Instr}
  {c : α → Instr} {maj fn w : Nat} {r : List Nat}

theorem listed_of_codes (hc : Codes ok two enc dec q x) (words : i.encode = enc maj fn)
    (entry : entryOf maj fn = some ⟨two, bare, fun w e => c (dec w e)⟩) (reads : c x = mapped i) (wf : i.wf = true → ok)
    (unguarded : bare = true → q = .always) (skip : ∀ s, s.guard q = false → exec i s = .next (s.done (8 * (bit two + 1))))
    (h : i.encode = w :: r) : ∃ f, Listed i w r f := by
  obtain ⟨area, rest, lt, count, encodes, read⟩ := hc
  obtain ⟨hmaj, hfn⟩ := entryOf_lt entry
  obtain ⟨rfl, rfl⟩ := List.cons.inj ((words.trans (encodes maj fn)).symm.trans h)
  obtain ⟨fn_eq, guard_eq, maj_eq, sz_eq⟩ := word_header (q := q) lt hfn hmaj (bit_lt two (by decide))
  have guard : guardOf (word (bit two) maj q fn area) = q := by rw [guardOf, guard_eq, Guard.ofCode_code]
  refine ⟨_, by rw [fn_eq, maj_eq, entry], sz_eq, count, fun b => ?_, fun hw e => ?_, fun s hs => ?_⟩
  · rw [guard_eq, unguarded b]; rfl
  · exact (congrArg c (read (wf hw) _ e ⟨guard, word_field⟩)).trans reads
  · rw [count]; exact skip s (guard ▸ hs)

/-- An instruction that tests its guard first. -/
theorem listed_guarded (hc : Codes ok two enc dec q x) (words : i.encode = enc maj fn)
    (entry : entryOf maj fn = some ⟨two, false, fun w e => c (dec w e)⟩) (reads : c x = mapped i) (wf : i.wf = true → ok)
    (runs : ∀ s, ∃ o, exec i s = if s.guard q then o else complete (8 * (bit two + 1)) s) (h : i.encode = w :: r) : ∃ f, Listed i w r f :=
  listed_of_codes hc words entry reads wf nofun (fun s hs => by obtain ⟨o, run⟩ := runs s; simp [run, hs, complete_eq]) h

/-- An instruction that is never guarded: LOOP, LOOPI and REP (R110). -/
theorem listed_bare (hc : Codes ok false enc dec .always x) (words : i.encode = enc maj fn)
    (entry : entryOf maj fn = some ⟨false, true, fun w e => c (dec w e)⟩) (reads : c x = mapped i) (wf : i.wf = true → ok)
    (h : i.encode = w :: r) : ∃ f, Listed i w r f :=
  listed_of_codes hc words entry reads wf (fun _ => rfl) (fun s hs => by cases (guard_always s).symm.trans hs) h
end

/-- Every instruction that has words, by its shape: the opcode map has its reading at the major and function its encoder writes, and its
meaning tests the guard of its shape first. -/
theorem encode_listed {i : Instr} {w : Nat} {r : List Nat} (h : i.encode = w :: r) : ∃ f, Listed i w r f := by
  cases i with
  | add x | subG x | mul x | mulhi x | mulhn x | div x | divn x | remS x | remn x | andG x | orG x | xorG x | andn x | orn x | shl x
  | shr x | shra x | rotl x | rotr x | minS x | minn x | maxS x | maxn x | clz x | ctz x | popc x | brev x | bswap x | addi x | muli x
  | andi x | ori x | xori x | shli x | shri x | shrai x | rotli x | mini x | maxi x | li x | lih x | cmpeq x | cmpne x | cmplt x | cmple x
  | cmpltn x | cmplen x | cmpeqi x | cmplti x | tbit x | pand x | por x | pxor x | pandn x | pmov x | extS x | extn x | ins x | sel x
  | ptog x | gtop x | aadd x | aaddi x | amov x | afrom x | atog x | afmt x | adiff x | acmplt x | bchk x | bchki x | br x | brl x | jr x
  | jrl x | lbrk x | vadd x | vsub x | vmul x | vfma x | vfms x | vfnma x | vmin x | vmax x | vabs x | vneg x | vdiv x | vsqrt x | vscl x
  | viadd x | visub x | vimul x | vimulhi x | vimin x | vimax x | vand x | vor x | vxor x | vshl x | vshr x | vshra x | vpopc x | viadds x
  | vcmpeq x | vcmplt x | vcmple x | vclass x | vsel x | wand x | wor x | wnot x | vexp2 x | vlog2 x | vrcp x | vrsq x | vtanh x | vsigm x
  | vrsum x | vrmax x | vrmin x | vrdot x | vscan x | vmov x | vbcast x | vshuf x | vrot x | vextr x | vinsr x | vcompress x | vexpand x
  | vcswap x | vmatch x | vcvt x | vquant x | vdeq x | vpack x | vunpack x | vld x | vst x | vlds x | vsts x | vgath x | vscat x | vldk x
  | scfg x | sdim x | son x | soff x | swait x | repw x | ld x | st x | lds x | feset x | feclr x | fepoll x | amoadd x | amoand x
  | amoor x | amoxor x | amomin x | amomax x | amominn x | amomaxn x | amoswp x | amocas x | amofadd x | amoinc x | fence x | fencee x
  | qtry x | ksend x | kflush x | cpy x | cpy2 x | cpyw x | coll x | iwin x | xmark x | xwait x | xpeer x | tspawn x | tdec x | tend x
  | tyield x | thint x | bar x | barw x | sstep x | wfe x | wfed x | srr x | srw x | trapI x | tret x | nop x | brk x | rcfg x | rtol x
  | rget x | radv x | rwait x | rquant x | rfill x | rfillw x | mma x | mmaf x | msr x | mzero x | mverd x | mstat x | mdrain x | mload x =>
    exact listed_guarded x.codes rfl rfl rfl (fun _ => trivial) (fun _ => ⟨_, rfl⟩) h
  | wld x => exact listed_guarded x.codes rfl rfl rfl id (fun _ => ⟨_, rfl⟩) h
  | estat x | ewait x | cstat x | cwait x => exact listed_guarded x.codes2 rfl rfl rfl (fun _ => trivial) (fun _ => ⟨_, rfl⟩) h
  | sev x => exact listed_guarded x.codes_s1 rfl rfl rfl (fun _ => trivial) (fun _ => ⟨_, rfl⟩) h
  | gtime x => exact listed_guarded x.codes_d rfl rfl rfl (fun _ => trivial) (fun _ => ⟨_, rfl⟩) h
  | kcfg x => exact listed_guarded x.codes_kcfg rfl rfl rfl (fun _ => trivial) (fun _ => ⟨_, rfl⟩) h
  | qpush x => exact listed_guarded (x.codes (ord := 2) (by decide)) rfl rfl rfl (fun _ => trivial) (fun _ => ⟨_, rfl⟩) h
  | qpop x | qpopw x => exact listed_guarded (x.codes (ord := 1) (by decide)) rfl rfl rfl (fun _ => trivial) (fun _ => ⟨_, rfl⟩) h
  | qcnt x => exact listed_guarded (x.codes (ord := 0) (by decide)) rfl rfl rfl (fun _ => trivial) (fun _ => ⟨_, rfl⟩) h
  | stageTend x => exact listed_guarded (c := .tend) x.codes rfl rfl rfl (fun _ => trivial) (fun _ => ⟨_, rfl⟩) h
  | rep x | loop x | loopi x => exact listed_bare x.codes rfl rfl rfl (fun _ => trivial) h
  | _ => cases h

/-! ## The statements -/

/-- A word whose entry reads an instruction that is well formed and encoded by it decodes to that instruction. -/
theorem decode_eq_ok {w e : Nat} {f : Sys2Proof.Entry} {i : Instr} (entry : entryOf (fld w 56 6) (fld w 44 8) = some f)
    (size : fld w 62 2 = bit f.two) (guard : fld w 52 4 ≠ 8) (bare : f.bare = true → fld w 52 4 = 0) (read : f.read w e = i)
    (wf : i.wf = true) (words : i.encode = if f.two then [w, e] else [w]) : decode w e = .ok i := by
  obtain ⟨fs, hfs, hf⟩ := Option.bind_eq_some_iff.1 entry
  have two : (bit f.two == 1) = f.two := bit_beq_one _
  have small : ¬ bit f.two ≥ 2 := by cases f.two <;> decide
  have unguarded : ¬ (f.bare && fld w 52 4 != 0) = true := by simpa using bare
  simp [decode, hfs, hf, size, two, guard, unguarded, small, read, wf, words]

/-- What a word that decodes satisfies, by the decoder's last tests. -/
theorem of_decode_eq_ok {w e : Nat} {i : Instr} (h : decode w e = .ok i) :
    i.wf = true ∧ fld w 52 4 ≠ 8 ∧ (i.encode = [w] ∨ i.encode = [w, e]) := by
  unfold decode at h
  split at h
  · cases h
  split at h
  · cases h
  split at h
  · cases h
  next f _ =>
  generalize f.read w e = read at h
  dsimp only at h
  split_ifs at h with format guard unguarded two accepted accepted
  all_goals
    cases h
    rw [Bool.and_eq_true, beq_iff_eq] at accepted
    obtain ⟨wf, words⟩ := accepted
    exact ⟨wf, by simpa using guard, by simp [words]⟩

theorem words_of_length {r : List Nat} {b : Bool} (h : r.length = bit b) (w e : Nat) : w :: r = if b then [w, r.headD e] else [w] := by
  cases b with
  | false => rw [List.length_eq_zero_iff.1 h]; rfl
  | true => obtain ⟨x, rfl⟩ := List.length_eq_one_iff.1 h; rfl

@[simp] theorem mapped_wf (i : Instr) : (mapped i).wf = i.wf := by unfold mapped; split <;> rfl
@[simp] theorem mapped_encode (i : Instr) : (mapped i).encode = i.encode := by unfold mapped; split <;> rfl

/-- The words of a well-formed instruction decode to what the opcode map names for them. -/
theorem decode_mapped {i : Instr} {w : Nat} {r : List Nat} (wf : i.wf = true) (h : i.encode = w :: r) (e : Nat) (guard : fld w 52 4 ≠ 8) :
    decode w (r.headD e) = .ok (mapped i) := by
  obtain ⟨f, l⟩ := encode_listed h
  exact decode_eq_ok l.entry l.size guard l.bare (l.read wf e) (by simpa using wf)
    (by simpa [h] using words_of_length l.count w e)

theorem mapped_eq {i : Instr} (main : ∀ x, i ≠ .stageTend x) : mapped i = i := by
  unfold mapped
  split
  · exact absurd rfl (main _)
  · rfl
/-- TEND's word (R282). -/
theorem stageTend_words {x : OpN} {w : Nat} {r : List Nat} (h : (Instr.stageTend x).encode = w :: r) :
    fld w 56 6 = 0x30 ∧ fld w 44 8 = 2 := by
  obtain ⟨fn, -, maj, -⟩ := word_header (sz := 0) (maj := 0x30) (fn := 2) (area := 0) (q := x.q)
    isArea_zero (by decide) (by decide) (by decide)
  rw [← (List.cons.inj h).1]
  exact ⟨maj, fn⟩
theorem decodeFor_stage_tend {x : OpN} {w e : Nat} (decoded : decode w e = .ok (.tend x)) (maj : fld w 56 6 = 0x30) (fn : fld w 44 8 = 2) :
    decodeFor .stage w e = .ok (.stageTend x) := by
  simp [decodeFor, decoded, maj, fn, Column.has, fieldsFor]

/-- Settles O1: an instruction's words name an entry of the opcode map that reads it back (`encode_listed`), so they pass the decoder's tests;
what those tests ask is what a decoded word satisfies (`of_decode_eq_ok`). -/
theorem decodeEncode : Obligations.DecodeEncode := by
  unfold Obligations.DecodeEncode
  refine ⟨fun i w r e wf h guard => ⟨fun main => ?_, ?_⟩, fun w e i => of_decode_eq_ok⟩
  · rw [decode_mapped wf h e guard, mapped_eq main]
  · rintro x rfl
    obtain ⟨maj, fn⟩ := stageTend_words h
    exact decodeFor_stage_tend (decode_mapped wf h e guard) maj fn

/-- The guard of a word, by the bits of its header (R108). -/
theorem guardOf_eq (w : Nat) : guardOf w = ⟨w.testBit 55, BitVec.ofNat 3 (w / 2 ^ 52)⟩ := by
  unfold guardOf Guard.ofCode fld
  congr 1
  · rw [Nat.testBit_eq_decide_div_mod_eq, Bool.beq_eq_decide_eq]
    congr 2
    omega
  · apply BitVec.eq_of_toNat_eq
    simp only [BitVec.toNat_ofNat]
    omega

/-- Settles O4: the guard an instruction tests is the one in its word's header (`Listed.skip`). -/
theorem guardFails : Obligations.GuardFails := by
  unfold Obligations.GuardFails
  intro i s w r h guard
  obtain ⟨f, l⟩ := encode_listed h
  exact l.skip s (guardOf_eq w ▸ guard)

/-- Settles O2: the decoder runs on each word. -/
theorem decodeWords : Obligations.DecodeWords := by
  unfold Obligations.DecodeWords
  decide

end Sys2Proof.Machine
end

section
/-!
SUPPORT. One step of the machine (R126, R220): the move it takes, the words it fetches, and the time that passes.
-/
namespace Sys2Proof.Machine
open Sys2Proof

/-! ## The move a step takes (R126, R220) -/

theorem step_next {s t : State} (h : move s = .next t) : step s = .next t.tick := by simp [step, h]
theorem step_fault {s : State} {r : Fault} (h : move s = .fault r) : step s = .fault r := by simp [step, h]
theorem step_refused {s : State} {r : Refusal} (h : move s = .refused r) : step s = .refused r := by simp [step, h]
theorem move_issues {s : State} (h : s.agenda = []) : move s = issue s := by simp [move, h]
theorem move_event {s : State} {i : Instr} {r : List Move} (h : s.agenda = .event i :: r) (noWord : i.encode = []) :
    move s = exec i { s with agenda := r } := by simp [move, h, noWord]
theorem move_processor {s : State} {p : ProcId} {r : List Move} (h : s.agenda = .issue p :: r) :
    move s = issue (({ s with agenda := r } : State).focus p) := by simp [move, h]

section
variable {s : State} (issuing : s.issuing = true) (stub : s.stubAt = none)
include issuing stub

theorem issue_runs {w e : Word} {i : Instr} (fetched : s.fetch = .words w e)
    (decoded : decodeFor (columnOf s.cur) w.toNat e.toNat = .ok i) (free : s.held i w.toNat = false) :
    issue s = if s.awaits i then .next s else exec i s := by
  simp only [State.issuing, Bool.and_eq_true, Bool.not_eq_true'] at issuing
  obtain ⟨⟨running, outside⟩, opened⟩ := issuing
  simp [issue, running, outside, opened, stub, fetched, decoded, free]
theorem issue_illegal {w e : Word} {r : DecodeError} (fetched : s.fetch = .words w e)
    (refused : decodeFor (columnOf s.cur) w.toNat e.toNat = .error r) :
    issue s = trapAt codeIllegal w (if fld w.toNat 62 2 = 1 then 16 else 8) s := by
  simp only [State.issuing, Bool.and_eq_true, Bool.not_eq_true'] at issuing
  obtain ⟨⟨running, outside⟩, opened⟩ := issuing
  simp [issue, running, outside, opened, stub, fetched, refused]
theorem issue_outside (fetched : s.fetch = .outside) :
    issue s = if (s.teamOf s.cur).isSome then .next s else .fault .fetchOutsideCode := by
  simp only [State.issuing, Bool.and_eq_true, Bool.not_eq_true'] at issuing
  obtain ⟨⟨running, outside⟩, opened⟩ := issuing
  simp [issue, running, outside, opened, stub, fetched]
end

/-! ## What is fetched (R109, R220) -/

theorem fetch_outside {s : State} (h : s.inCode s.core.pc.toNat = false) : s.fetch = .outside := by simp [State.fetch, h]
theorem codeWord_main {s : State} {n : Nat} (cur : s.cur = .main n) (a : Nat) : s.codeWord a = BitVec.ofNat 64 (memNat s.mem a 8) := by
  simp [State.codeWord, cur]
theorem fld_size_mod (n : Nat) : fld (n % 2 ^ 64) 62 2 = fld n 62 2 := by unfold fld; omega
/-- The words at the PC of a main core whose code can be read. -/
theorem fetch_main {s : State} {n : Nat} (cur : s.cur = .main n) (code : s.inCode s.core.pc.toNat = true)
    (first : s.badCode s.core.pc.toNat = false)
    (second : fld (memNat s.mem s.core.pc.toNat 8) 62 2 = 1 → s.badCode (s.core.pc.toNat + 8) = false) :
    s.fetch = .words (BitVec.ofNat 64 (memNat s.mem s.core.pc.toNat 8)) (BitVec.ofNat 64 (memNat s.mem (s.core.pc.toNat + 8) 8)) := by
  have readable : ¬ (fld (memNat s.mem s.core.pc.toNat 8) 62 2 = 1 ∧ s.badCode (s.core.pc.toNat + 8) = true) := by
    rintro ⟨two, bad⟩
    rw [second two] at bad
    cases bad
  simp only [State.fetch, codeWord_main cur, BitVec.toNat_ofNat, fld_size_mod]
  simp [code, first, readable]

/-! ## Time passes (R13, R402) -/

theorem tickTile_eq (s : State) (d n : Nat) (k : Tile) : s.tickTile d n k = { k with ctr := (s.tickTile d n k).ctr } := by
  unfold State.tickTile; split <;> rfl
theorem tickTile_free (s : State) (d n : Nat) {k : Tile} (h : k.team = 0) : s.tickTile d n k = k := if_pos h
theorem tick_eq (s : State) : s.tick =
    { s with cycle := s.tick.cycle, gtime := s.tick.gtime, free := s.free + 1, tiles := s.tick.tiles,
             tile := { s.tile with ctr := s.tick.tile.ctr } } :=
  congrArg (fun k => { s.tick with tile := k }) (tickTile_eq s (Config.stepCycles s.free) s.here s.tile)
theorem tick_tiles (s : State) {i : Nat} {q : Nat × Tile} (h : s.tiles[i]? = some q) :
    ∃ c, s.tick.tiles[i]? = some (q.1, { q.2 with ctr := c }) ∧ (q.2.team = 0 → c = q.2.ctr) := by
  refine ⟨(s.tickTile (Config.stepCycles s.free) q.1 q.2).ctr, ?_, fun free => by rw [tickTile_free _ _ _ free]⟩
  rw [← tickTile_eq]
  simp [State.tick, h]

/-- Settles O3: the moves of the agenda, the fetch and the passing of time, one lemma each. -/
theorem stepRunsDecoded : Obligations.StepRunsDecoded := by
  unfold Obligations.StepRunsDecoded
  refine ⟨fun s w e idle issuing stub fetched => ⟨fun i decoded free => ?_, fun r t refused trap => ?_⟩,
    fun s idle issuing stub outside => ?_, fun s n cur code trained good second => ?_, fun s t i r agenda noWord run => ?_,
    fun s p r agenda => ?_, fun s => ⟨tick_eq s, Nat.le_add_right _ _, Nat.le_add_right _ _, ?_, ?_, fun _ _ => tick_tiles s⟩⟩
  · have runs := (move_issues idle).trans (issue_runs issuing stub fetched decoded free)
    exact ⟨fun go t run => step_next (by simp [runs, go, run]), fun wait => step_next (by simp [runs, wait])⟩
  · exact step_next ((move_issues idle).trans ((issue_illegal issuing stub fetched refused).trans trap))
  · have stuck := (move_issues idle).trans (issue_outside issuing stub (fetch_outside outside))
    exact ⟨fun teamless => step_fault (by simp [stuck, teamless]),
      fun team => step_next (by simp [stuck, Option.isSome_iff_ne_none, team])⟩
  · exact fetch_main cur code (by rw [State.badCode, good, trained]; rfl) second
  · exact step_next ((move_event agenda noWord).trans run)
  · have moved := move_processor agenda
    cases ran : issue (({ s with agenda := r } : State).focus p) with
    | next t => exact step_next (moved.trans ran)
    | fault f => exact step_fault (moved.trans ran)
    | refused f => exact step_refused (moved.trans ran)
  · simp [State.tick]
  · exact tickTile_free s _ _

end Sys2Proof.Machine
end

section
/-!
SUPPORT. The commands and events of an object's life (R150, R345–R351): what accepting a host command leaves as it was, what each of them
answers, and what a publication leaves in the link table.
-/
namespace Sys2Proof.Machine
open Sys2Proof

/-! ## A number read back (R4) -/

theorem le_of_mem_cellsOf {c : Host.Cell} {n : Nat} : ∀ {a x : Nat}, c ∈ cellsOf a x n → a ≤ c.1 := by
  induction n with
  | zero => intro a x h; cases h
  | succ n ih =>
    intro a x h
    rcases List.mem_cons.1 h with rfl | later
    · exact Nat.le_refl a
    · exact Nat.le_of_succ_le (ih later)
theorem memPut_cons (m : List Host.Cell) (c : Host.Cell) (r : List Host.Cell) : memPut m (c :: r) = memPut (memSet m c.1 c.2) r := rfl
/-- The low bytes of a number, written at an address, read back as the number to that many bytes. -/
theorem memNat_memPut_cellsOf {m : List Host.Cell} (hm : Memory.wf m = true) (a x n : Nat) :
    memNat (memPut m (cellsOf a x n)) a n = x % 256 ^ n := by
  induction n generalizing a x m with
  | zero => simp [memNat, Nat.mod_one]
  | succ n ih =>
    have first := memSet_wf a (BitVec.ofNat 8 x) hm
    have above : ∀ c ∈ cellsOf (a + 1) (x / 256) n, c.1 ≠ a := fun c hc => Nat.ne_of_gt (le_of_mem_cellsOf hc)
    rw [cellsOf, memPut_cons, memNat, ih first, memGet_memPut_of_not_mem _ first a above, memGet_memSet hm, if_pos rfl,
      BitVec.toNat_ofNat, Nat.pow_succ' (m := 256), Nat.mod_mul]

/-! ## Acceptance (R370, R372) -/

section
variable (s : State) (sid : Nat)

/-- Acceptance changes the command unit's records alone. -/
theorem State.accept_eq : s.accept sid = { s with host := (s.accept sid).host } := by
  unfold State.accept
  split <;> rfl
@[simp] theorem State.accept_boot : (s.accept sid).boot = s.boot := by rw [State.accept_eq]
@[simp] theorem State.accept_objects : (s.accept sid).objects = s.objects := by rw [State.accept_eq]
@[simp] theorem State.accept_nextObj : (s.accept sid).nextObj = s.nextObj := by rw [State.accept_eq]
@[simp] theorem State.accept_inState (tag : Nat) (l : List TenantState) : (s.accept sid).inState tag l = s.inState tag l := by
  rw [State.accept_eq]; rfl
@[simp] theorem State.accept_findObj (tag objid : Nat) : (s.accept sid).findObj tag objid = s.findObj tag objid := by
  rw [State.accept_eq]; rfl
@[simp] theorem State.accept_pins (objid : Nat) : (s.accept sid).pins objid = s.pins objid := by
  rw [State.accept_eq]; rfl
end

/-- A command that the unit may accept is answered with its body's effect on the state that accepted it. -/
theorem answers_of_hostCommand {i : Instr} {sid tag opc : Nat} {body : State → Effect} {s : State}
    (run : exec i s = hostCommand sid tag opc body s) (may : s.mayAccept sid tag = true) :
    Answers s i sid tag opc (body (s.accept sid)) := by
  rw [Answers, run, hostCommand, if_pos may]
/-- An earlier command of a session that still waits keeps the next from being accepted (R372). -/
theorem State.waitsFor_of_mayAccept {s : State} {sid tag : Nat} (may : s.mayAccept sid tag = true) (w : WaitFor) :
    s.waitsFor sid w = false := by
  unfold State.mayAccept at may
  split at may
  · simp only [Bool.and_eq_true, List.all_eq_true, bne_iff_ne] at may
    obtain ⟨-, others⟩ := may
    simp only [State.waitsFor, List.any_eq_false, Bool.and_eq_true, beq_iff_eq, not_and]
    exact fun y hy same => absurd same (others y hy).1
  · cases may
theorem byOperator_or_byTenant {sid tag : Nat} (h : ofEither sid tag) : (byOperator sid || byTenant sid tag) = true := by
  rcases h with rfl | rfl
  · rfl
  · by_cases h : sid = 0 <;> simp [byOperator, byTenant, h]

/-! ## Admission (R150) -/

theorem exec_admitObject (x : CmdAdmit) (s : State) : exec (.admitObject x) s = hostCommand x.sid x.tag 1 (doAdmit x) s := rfl
theorem doAdmit_eq {x : CmdAdmit} {s : State} (own : x.sid = x.tag) (tagged : x.tag ≠ 0)
    (inState : s.inState x.tag [.unlocked, .locked, .run] = true) (ready : s.boot.ready.getLsbD 18 = true) :
    doAdmit x s = match (readFile x.bytes).check with
      | some e => (s, .done 6 (natBytes e.code 1 ++ natBytes e.sect 1 ++ zeros 6 ++ natBytes e.off 8))
      | none => ((s.admitFile x.tag (readFile x.bytes)).reconfigure x.tag, ok (natBytes s.nextObj 4)) := by
  have tenant : byTenant x.sid x.tag = true := by simp [byTenant, own, tagged]
  exact (if_neg (by simp [tenant, inState])).trans (if_neg (by simp [ready]))

/-! ## Unloading (R350, R351) -/

theorem State.objid_of_findObj {s : State} {tag objid : Nat} {o : Obj} (h : s.findObj tag objid = some o) : o.objid = objid := by
  have both := List.find?_some h
  simp only [Bool.and_eq_true, beq_iff_eq] at both
  exact both.1
/-- What an object's record said is gone with it. -/
theorem State.freeObj_putObj (s : State) (o : Obj) : (s.putObj o).freeObj o.objid = s.freeObj o.objid := by
  have objects : (s.objects.map (fun p => if p.objid = o.objid then o else p)).filter (fun p => p.objid != o.objid) =
      s.objects.filter (fun p => p.objid != o.objid) := by
    induction s.objects with
    | nil => rfl
    | cons p r ih =>
      by_cases same : p.objid = o.objid <;> simpa [same] using ih
  simp only [State.freeObj, State.putObj, objects]
@[simp] theorem State.reconfigure_objects (s : State) (tag : Nat) : (s.reconfigure tag).objects = s.objects := by
  unfold State.reconfigure
  split
  · split <;> rfl
  · rfl
theorem State.objid_ne_of_mem_freeObj {s : State} {objid : Nat} {p : Obj} (h : p ∈ (s.freeObj objid).objects) : p.objid ≠ objid := by
  simpa using (List.mem_filter.1 h).2

section
variable {x : CmdObj} {s : State} {o : Obj} (side : ofEither x.sid x.tag) (inState : s.inState x.tag anyState = true)
  (found : s.findObj x.tag x.objid = some o)
include side inState found

theorem doUnload_eq : doUnload x s = if s.pins x.objid = 0 then ((s.freeObj x.objid).reconfigure x.tag, ok [])
    else (s.putObj { o with unloading := true }, .waits (.unload x.objid)) := by
  have num := State.objid_of_findObj found
  have freed : (s.putObj { o with unloading := true }).freeObj x.objid = s.freeObj x.objid :=
    num ▸ s.freeObj_putObj { o with unloading := true }
  have pins : (s.putObj { o with unloading := true }).pins x.objid = s.pins x.objid := rfl
  simp only [doUnload, byOperator_or_byTenant side, inState, found, Bool.not_true, Bool.or_false, Bool.false_eq_true, if_false, freed, pins]
theorem doUnloadForced_eq : doUnloadForced x s = ((s.forceUnload x.objid).reconfigure x.tag, ok []) := by
  simp only [doUnloadForced, byOperator_or_byTenant side, inState, found, Bool.not_true, Bool.or_false, Bool.false_eq_true, if_false]
end

theorem exec_unloadObject {x : CmdObj} {s : State} (may : s.mayAccept x.sid x.tag = true) :
    exec (.unloadObject x) s = hostCommand x.sid x.tag 2 (doUnload x) s :=
  if_neg (by simp [State.waitsFor_of_mayAccept may])
theorem exec_unloadObjectForced {x : CmdObj} {s : State} (stops : s.objStoppable x.objid = true) :
    exec (.unloadObjectForced x) s = hostCommand x.sid x.tag 2 (doUnloadForced x) s := if_pos stops

/-! ## Publication and versions (R346, R347, R349) -/

section
variable {s : State} {o : Obj} {v : Sealed}

theorem exec_translationPublish {x : EvPublish} (object : s.sweepVersions.objOf x.objid = some o) (version : o.findVersion x.base = some v) :
    exec (.translationPublish x) s = .next (s.sweepVersions.publishPart o v x.part) := by
  change execTranslationPublish x s = _
  simp only [execTranslationPublish, object, version]
theorem State.publishText_eq {link : Nat} (may : o.mayPublish v link = true) : s.publishText o v link = match s.reserve o v link with
    | none => s.heapFullAll v link
    | some (a, region) => match o.native (o.bindOf v) link (a + 96) v.stub with
      | some n => State.publish { s with free := s.free + 1 } o.objid v link (a + 96) region n
      | none => s := if_neg (by simp [may])
/-- A record that holds switches its link-table entry and reports nothing; one that does not hold is reported, and switches nothing. -/
theorem State.publish_switches_or_reports (objid link a : Nat) (region : Option (Nat × Nat)) (n : Native) (hm : s.memOk = true) :
    let t := s.publish objid v link a region n
    (t.boot = s.boot ∧ memNat t.mem (v.stub link) 8 = a % 2 ^ 64) ∨
      (t.boot.sealFaults = s.boot.sealFaults + 1 ∧ t.teams = s.teams ∧ t.objects = s.objects) := by
  simp only [State.publish]
  generalize cellsAt (a - 96) _ ++ _ ++ _ = cells
  split
  · exact .inl ⟨rfl, by simpa using memNat_memPut_cellsOf (memPut_wf cells hm) (v.stub link) a 8⟩
  · exact .inr ⟨rfl, rfl, rfl⟩
/-- A new version takes the place of those of its binding for the teams launched later (R346), where the heap has room for its fixed part. -/
theorem exec_retranslation {x : EvVersion} (object : s.sweepVersions.objOf x.objid = some o) (version : o.findVersion x.base = some v) :
    exec (.retranslation x) s = .next (match s.sweepVersions.heapPlace (fixedSize o.procs.length) with
      | none => s
      | some a => State.publishParts
        { s.sweepVersions.addVersion
            { o with versions := o.versions.map (fun w => if w.binding == v.binding then { w with stale := true } else w) }
            (o.freshVersion 1 a v.binding v.scrx v.tcbx) with free := s.sweepVersions.free + 1 } x.objid a o.parts) := by
  change execRetranslation x s = _
  cases place : s.sweepVersions.heapPlace (fixedSize o.procs.length) with
  | none => simp only [execRetranslation, object, version, place]
  | some a => simp only [execRetranslation, object, version, place]
end

/-! ## The statement -/

/-- Settles O51: each command and event by its equation above, on the state that accepted the command. -/
theorem objectCommands : Obligations.ObjectCommands := by
  unfold Obligations.ObjectCommands
  refine ⟨fun x s may own tagged inState ready => ?_, fun x s o may side inState found => ?_,
    fun x s o v link object version part mayPublish => ?_,
    fun s objid v link a region n hm =>
      ⟨State.publish_memOk objid v link a region n hm, State.publish_switches_or_reports objid link a region n hm⟩,
    fun x s o v => exec_retranslation⟩
  · have answer := answers_of_hostCommand (exec_admitObject x s) may
    rw [doAdmit_eq own tagged (by simpa using inState) (by simpa using ready), State.admitFile, State.accept_objects,
      State.accept_nextObj] at answer
    exact answer
  · have unload := answers_of_hostCommand (exec_unloadObject may) may
    rw [doUnload_eq side (by simpa using inState) (by simpa using found), State.accept_pins] at unload
    refine ⟨fun free => by rwa [if_pos free] at unload, fun pinned => by rwa [if_neg pinned] at unload, fun stops => ⟨?_, ?_⟩⟩
    · have forced := answers_of_hostCommand (exec_unloadObjectForced stops) may
      rwa [doUnloadForced_eq side (by simpa using inState) (by simpa using found)] at forced
    · intro p hp
      rw [State.reconfigure_objects] at hp
      exact State.objid_ne_of_mem_freeObj hp
  · rw [exec_translationPublish object version, part]
    exact congrArg _ (State.publishText_eq mayPublish)

end Sys2Proof.Machine
end

section
/-!
SUPPORT. The functions of majors 0x01 to 0x06 on words (R156–R163): each by the exact number, or by the bits, of its result.
-/
namespace Sys2Proof.Machine
open Sys2Proof

/-! ## Results as exact numbers (R156) -/

theorem sub_eq_ofInt (x y : Word) : x - y = BitVec.ofInt 64 ((x.toNat : Int) - y.toNat) := by
  apply BitVec.eq_of_toNat_eq
  rw [BitVec.toNat_sub, BitVec.toNat_ofInt]
  omega
theorem opShl_eq (x : Word) (n : Nat) : opShl x n = BitVec.ofNat 64 (x.toNat * 2 ^ n) := by
  rw [← Nat.shiftLeft_eq]; rfl
theorem opShr_eq (x : Word) (n : Nat) : opShr x n = BitVec.ofNat 64 (x.toNat / 2 ^ n) := by
  rw [opShr, ← Nat.shiftRight_eq_div_pow, ← BitVec.toNat_ushiftRight, BitVec.ofNat_toNat, BitVec.setWidth_eq]
theorem opShra_eq (x : Word) (n : Nat) : opShra x n = BitVec.ofInt 64 (x.toInt / 2 ^ n) := by
  rw [opShra, BitVec.sshiftRight, Int.shiftRight_eq_div_pow, Int.natCast_pow]; rfl
theorem opRotl_eq (x : Word) {n : Nat} (h : n < 64) : opRotl x n = (x <<< n) ||| (x >>> (64 - n)) := by
  rw [opRotl, BitVec.rotateLeft_def, Nat.mod_eq_of_lt h]
theorem opRotr_eq (x : Word) {n : Nat} (h : n < 64) : opRotr x n = (x >>> n) ||| (x <<< (64 - n)) := by
  rw [opRotr, BitVec.rotateRight_def, Nat.mod_eq_of_lt h]

/-- Where equal keys mean equal results, a test by ≤ and a test by < select the same one. -/
theorem ite_le_eq_ite_lt {α β : Type} [LinearOrder α] {x y : α} {a b : β} (tie : x = y → a = b) :
    (if x ≤ y then a else b) = if x < y then a else b := by
  by_cases h : x = y
  · simp [tie h]
  · simp [le_iff_lt_or_eq, h]
theorem opMin_eq (x y : Word) : opMin x y = if x.toInt < y.toInt then x else y := ite_le_eq_ite_lt BitVec.eq_of_toInt_eq
theorem opMinn_eq (x y : Word) : opMinn x y = if x.toNat < y.toNat then x else y := ite_le_eq_ite_lt BitVec.eq_of_toNat_eq
theorem opMax_eq (x y : Word) : opMax x y = if x.toInt < y.toInt then y else x :=
  ite_le_eq_ite_lt (fun tie => (BitVec.eq_of_toInt_eq tie).symm)
theorem opMaxn_eq (x y : Word) : opMaxn x y = if x.toNat < y.toNat then y else x :=
  ite_le_eq_ite_lt (fun tie => (BitVec.eq_of_toNat_eq tie).symm)

/-! ## Division (R157) -/

theorem opDivn_eq {x y : Word} (h : y ≠ 0) : opDivn x y = x / y := by rw [opDivn, if_neg h, BitVec.udiv_def]; rfl
theorem opRemn_eq {x y : Word} (h : y ≠ 0) : opRemn x y = x - y * (x / y) := by
  have whole : y * (x / y) + x % y = x := by
    apply BitVec.eq_of_toNat_eq
    rw [BitVec.toNat_add, BitVec.toNat_mul, BitVec.toNat_udiv, BitVec.toNat_umod]
    rw [Nat.mod_add_mod, Nat.div_add_mod, Nat.mod_eq_of_lt x.isLt]
  rw [opRemn, if_neg h, wNat, ← BitVec.umod_def]
  exact eq_sub_of_add_eq' whole

theorem toInt_opDiv {x y : Word} (h : y ≠ 0) (fits : ¬(x = 0x8000000000000000#64 ∧ y = 0xFFFFFFFFFFFFFFFF#64)) :
    (opDiv x y).toInt = x.toInt.tdiv y.toInt := by
  rw [opDiv, if_neg h]
  have whole : (x.sdiv y).toInt = x.toInt.tdiv y.toInt := BitVec.toInt_sdiv_of_ne_or_ne x y (not_and_or.1 fits)
  change (BitVec.ofInt 64 (x.toInt.tdiv y.toInt)).toInt = _
  rw [← whole, BitVec.ofInt_toInt]
theorem toInt_opRem {x y : Word} (h : y ≠ 0) : (opRem x y).toInt = x.toInt.tmod y.toInt := by
  rw [opRem, if_neg h]
  change (BitVec.ofInt 64 (x.toInt.tmod y.toInt)).toInt = _
  rw [← BitVec.toInt_srem, BitVec.ofInt_toInt]
/-- A remainder that is not zero has the sign of the dividend. -/
theorem tmod_pos_iff {a b : Int} (h : a.tmod b ≠ 0) : 0 < a.tmod b ↔ 0 < a := by
  rcases lt_trichotomy a 0 with neg | rfl | pos
  · have : 0 ≤ (-a).tmod b := Int.tmod_nonneg b (by omega)
    rw [Int.neg_tmod] at this
    omega
  · simp at h
  · have : 0 ≤ a.tmod b := Int.tmod_nonneg b pos.le
    omega

/-! ## Counts of bits (R156) -/

/-- At how many numbers from `n − 1` downwards a predicate is false before it is true: what CLZ and CTZ count, each in its direction. -/
def falseRun (f : Nat → Bool) : Nat → Nat
  | 0 => 0
  | n + 1 => if f n then 0 else falseRun f n + 1
theorem leadingZeros_eq (x : Word) (n : Nat) : leadingZeros x n = falseRun x.getLsbD n := by
  induction n with
  | zero => rfl
  | succ n ih => rw [leadingZeros, falseRun, ih]
theorem trailingZeros_eq (x : Word) (n : Nat) : trailingZeros x n = falseRun (fun k => x.getLsbD (63 - k)) n := by
  induction n with
  | zero => rfl
  | succ n ih => rw [trailingZeros, falseRun, ih]
section
variable (f : Nat → Bool) (n : Nat)
theorem falseRun_le : falseRun f n ≤ n := by
  induction n with
  | zero => exact Nat.le_refl 0
  | succ n ih => rw [falseRun]; split <;> omega
theorem false_of_lt_falseRun : ∀ i < falseRun f n, f (n - 1 - i) = false := by
  induction n with
  | zero => intro i h; cases h
  | succ n ih =>
    cases top : f n with
    | true => simp [falseRun, top]
    | false =>
      rw [falseRun, top, if_neg Bool.false_ne_true]
      rintro (_ | i) h
      · exact top
      · rw [show n + 1 - 1 - (i + 1) = n - 1 - i by omega]
        exact ih i (Nat.lt_of_succ_lt_succ h)
theorem true_at_falseRun : falseRun f n < n → f (n - 1 - falseRun f n) = true := by
  induction n with
  | zero => intro h; cases h
  | succ n ih =>
    cases top : f n with
    | true => simp [falseRun, top]
    | false =>
      rw [falseRun, top, if_neg Bool.false_ne_true, show n + 1 - 1 - (falseRun f n + 1) = n - 1 - falseRun f n by omega]
      exact fun h => ih (Nat.lt_of_succ_lt_succ h)
end
/-- CLZ: the zero bits above the highest set bit. -/
theorem clz_spec (x : Word) : ∃ n, opClz x = BitVec.ofNat 64 n ∧ n ≤ 64 ∧ (∀ i, i < n → x.getMsbD i = false) ∧
    (n < 64 → x.getMsbD n = true) := by
  have msb {i : Nat} (h : i < 64) : x.getMsbD i = x.getLsbD (64 - 1 - i) := by simp [BitVec.getMsbD, h]
  have le := falseRun_le x.getLsbD 64
  refine ⟨falseRun x.getLsbD 64, congrArg wNat (leadingZeros_eq x 64), le, fun i h => ?_, fun h => ?_⟩
  · rw [msb (h.trans_le le)]; exact false_of_lt_falseRun _ _ i h
  · rw [msb h]; exact true_at_falseRun _ _ h
/-- CTZ: the zero bits below the lowest set bit. -/
theorem ctz_spec (x : Word) : ∃ n, opCtz x = BitVec.ofNat 64 n ∧ n ≤ 64 ∧ (∀ i, i < n → x.getLsbD i = false) ∧
    (n < 64 → x.getLsbD n = true) := by
  have le := falseRun_le (fun k => x.getLsbD (63 - k)) 64
  refine ⟨_, congrArg wNat (trailingZeros_eq x 64), le, fun i h => ?_, fun h => ?_⟩
  · have := false_of_lt_falseRun _ _ i h
    rwa [show 63 - (64 - 1 - i) = i by omega] at this
  · have := true_at_falseRun _ _ h
    rwa [show ∀ k < 64, 63 - (64 - 1 - k) = k by omega] at this
    exact h

theorem setBits_eq_countP {w : Nat} (x : BitVec w) (n : Nat) : setBits x n = (List.range n).countP (fun i => x.getLsbD i) := by
  induction n with
  | zero => rfl
  | succ n ih => rw [setBits, ih, List.range_succ, List.countP_append, List.countP_singleton, Nat.add_comm]

/-! ## Bits moved (R156) -/

theorem revBits_lt (x : Word) (n : Nat) : revBits x n < 2 ^ n := by
  induction n with
  | zero => exact Nat.one_pos
  | succ n ih => rw [revBits, Nat.pow_succ]; split <;> omega
theorem revBits_testBit (x : Word) {n i : Nat} (h : i < n) : (revBits x n).testBit i = x.getLsbD (63 - i) := by
  induction n with
  | zero => cases h
  | succ n ih =>
    have sum : revBits x (n + 1) = 2 ^ n * (x.getLsbD (63 - n)).toNat + revBits x n := by
      rw [revBits]; cases x.getLsbD (63 - n) <;> simp
    rw [sum, Nat.testBit_two_pow_mul_add _ (revBits_lt x n)]
    rcases Nat.lt_succ_iff_lt_or_eq.1 h with below | rfl
    · rw [if_pos below, ih below]
    · rw [if_neg (Nat.lt_irrefl _), Nat.sub_self]; cases x.getLsbD (63 - i) <;> rfl
theorem revBytes_lt (x n : Nat) : revBytes x n < 2 ^ (8 * n) := by
  induction n with
  | zero => exact Nat.one_pos
  | succ n ih =>
    have byte : x / 2 ^ (8 * (7 - n)) % 256 ≤ 255 := by omega
    have := Nat.mul_le_mul_right (2 ^ (8 * n)) byte
    rw [revBytes, Nat.mul_succ, Nat.pow_add]
    omega
theorem revBytes_testBit (x : Nat) {n k j : Nat} (hk : k < n) (hj : j < 8) :
    (revBytes x n).testBit (8 * k + j) = x.testBit (8 * (7 - k) + j) := by
  induction n with
  | zero => cases hk
  | succ n ih =>
    rw [revBytes, Nat.mul_comm _ (2 ^ (8 * n)), Nat.testBit_two_pow_mul_add _ (revBytes_lt x n)]
    rcases Nat.lt_succ_iff_lt_or_eq.1 hk with below | rfl
    · rw [if_pos (by omega), ih below]
    · rw [if_neg (by omega), Nat.add_sub_cancel_left, show 256 = 2 ^ 8 from rfl, Nat.testBit_mod_two_pow, Nat.testBit_div_two_pow,
        decide_eq_true hj, Bool.true_and, Nat.add_comm]

theorem opBrev_getLsbD (x : Word) {i : Nat} (h : i < 64) : (opBrev x).getLsbD (63 - i) = x.getLsbD i := by
  rw [opBrev, wNat, BitVec.getLsbD_ofNat, decide_eq_true (by omega), Bool.true_and, revBits_testBit x (by omega),
    show 63 - (63 - i) = i by omega]
theorem opBswap_getLsbD (x : Word) {i j : Nat} (hi : i < 8) (hj : j < 8) :
    (opBswap x).getLsbD (8 * (7 - i) + j) = x.getLsbD (8 * i + j) := by
  rw [opBswap, wNat, BitVec.getLsbD_ofNat, decide_eq_true (by omega), Bool.true_and, revBytes_testBit _ (by omega) hj,
    show 7 - (7 - i) = i by omega]
  rfl

/-! ## Fields of a word (R162) -/

theorem fieldOf_lt (w : Word) (pos len : Nat) : fieldOf w pos len < 2 ^ len := Nat.mod_lt _ (Nat.two_pow_pos len)
theorem testBit_fieldOf (w : Word) (pos len i : Nat) : (fieldOf w pos len).testBit i = (decide (i < len) && w.getLsbD (pos + i)) := by
  rw [fieldOf, fld, Nat.testBit_mod_two_pow, Nat.testBit_div_two_pow, Nat.add_comm]
  rfl
theorem signed_eq_toInt {n x : Nat} (h : x < 2 ^ n) : signed n x = (BitVec.ofNat n x).toInt := by
  rw [signed, BitVec.toInt_eq_toNat_cond, BitVec.toNat_ofNat, Nat.mod_eq_of_lt h, Int.natCast_pow]; rfl
theorem getLsbD_signed {n x i : Nat} (h : x < 2 ^ n) (pos : 1 ≤ n) (hi : i < 64) :
    (wInt (signed n x)).getLsbD i = x.testBit (min i (n - 1)) := by
  rw [signed_eq_toInt h]
  change ((BitVec.ofNat n x).signExtend 64).getLsbD i = _
  rw [BitVec.getLsbD_signExtend, BitVec.msb_eq_getLsbD_last, BitVec.getLsbD_ofNat, BitVec.getLsbD_ofNat, decide_eq_true hi,
    Bool.true_and]
  split
  · rename_i inside; rw [decide_eq_true inside, Bool.true_and, Nat.min_eq_left (by omega)]
  · rename_i outside; rw [decide_eq_true (by omega), Bool.true_and, Nat.min_eq_right (by omega)]
/-- A number is what lies below a field, the field, and what lies above it. -/
theorem fld_parts (n pos len : Nat) : n = 2 ^ pos * (2 ^ len * (n / 2 ^ (pos + len)) + fld n pos len) + n % 2 ^ pos := by
  rw [Nat.pow_add, ← Nat.div_div_eq_div_mul, fld, Nat.div_add_mod, Nat.div_add_mod]
theorem insertField_eq (old src : Word) (pos len : Nat) : insertField old src pos len =
    wNat (2 ^ pos * (2 ^ len * (old.toNat / 2 ^ (pos + len)) + src.toNat % 2 ^ len) + old.toNat % 2 ^ pos) := by
  have parts := fld_parts old.toNat pos len
  rw [insertField, fieldOf]
  congr 1
  rw [Nat.mul_add] at parts ⊢
  rw [Nat.mul_comm _ (2 ^ pos), Nat.mul_comm (src.toNat % 2 ^ len)]
  omega
theorem getLsbD_insertField (old src : Word) (pos len : Nat) {i : Nat} (hi : i < 64) :
    (insertField old src pos len).getLsbD i = if pos ≤ i ∧ i < pos + len then src.getLsbD (i - pos) else old.getLsbD i := by
  rw [insertField_eq, wNat, BitVec.getLsbD_ofNat, decide_eq_true hi, Bool.true_and,
    Nat.testBit_two_pow_mul_add _ (Nat.mod_lt _ (Nat.two_pow_pos pos))]
  by_cases below : i < pos
  · rw [if_pos below, if_neg (by omega), Nat.testBit_mod_two_pow, decide_eq_true below, Bool.true_and]; rfl
  · rw [if_neg below, Nat.testBit_two_pow_mul_add _ (Nat.mod_lt _ (Nat.two_pow_pos len))]
    by_cases inside : i < pos + len
    · rw [if_pos (by omega), if_pos (by omega), Nat.testBit_mod_two_pow, decide_eq_true (by omega : i - pos < len), Bool.true_and]; rfl
    · rw [if_neg (by omega), if_neg (by omega), Nat.testBit_div_two_pow, show i - pos - len + (pos + len) = i by omega]; rfl

/-! ## Constants, comparisons and moves (R158–R163) -/

theorem toInt_sext {n : Nat} (c : BitVec n) (h : n ≤ 64) : (c.signExtend 64).toInt = c.toInt := BitVec.toInt_signExtend_of_le h
theorem shiftLeft_or_eq (x : Word) (n : Nat) (c : BitVec 20) :
    (x <<< n) ||| c.setWidth 64 = BitVec.ofNat 64 (x.toNat * 2 ^ n) ||| BitVec.ofNat 64 c.toNat := by
  rw [← opShl_eq, BitVec.ofNat_toNat]; rfl
theorem beq_eq_decide_toInt (x y : Word) : (x == y) = decide (x.toInt = y.toInt) := by
  rw [decide_eq_decide.2 BitVec.toInt_inj]; rfl
theorem bne_eq_decide_ne (x y : Word) : (x != y) = decide (x ≠ y) := by rw [decide_not]; rfl
theorem getLsbD_eq_decide (x : Word) (n : Nat) : x.getLsbD n = decide (x.toNat / 2 ^ n % 2 = 1) := by
  rw [BitVec.getLsbD, Nat.testBit_eq_decide_div_mod_eq]

/-! ## The shapes of effect, where the guard passes (R110, R154) -/

section
variable {s : State} {v : Word} {b : Bool}

theorem intBin_eq {x : OpGGG} {f : Word → Word → Word} (pass : s.guard x.q = true) (value : f (s.rdG x.a) (s.rdG x.b) = v) :
    intBin f x s = .next ((s.wrG x.d v).done 8) := value ▸ guarded_pass _ pass
theorem intUn_eq {x : OpGG} {f : Word → Word} (pass : s.guard x.q = true) (value : f (s.rdG x.a) = v) :
    intUn f x s = .next ((s.wrG x.d v).done 8) := value ▸ guarded_pass _ pass
theorem intImm_eq {x : OpGGI} {f : Word → Word → Word} (pass : s.guard x.q = true) (value : f (s.rdG x.a) (x.imm.signExtend 64) = v) :
    intImm f x s = .next ((s.wrG x.d v).done 8) := value ▸ guarded_pass _ pass
theorem shiftImm_eq {x : OpGGSh} {f : Word → Nat → Word} (pass : s.guard x.q = true) (value : f (s.rdG x.a) x.n.toNat = v) :
    shiftImm f x s = .next ((s.wrG x.d v).done 8) := value ▸ guarded_pass _ pass
theorem cmpBin_eq {x : OpPGG} {f : Word → Word → Bool} (pass : s.guard x.q = true) (value : f (s.rdG x.a) (s.rdG x.b) = b) :
    cmpBin f x s = .next ((s.wrP x.d b).done 8) := value ▸ guarded_pass _ pass
theorem cmpImm_eq {x : OpPGI} {f : Word → Word → Bool} (pass : s.guard x.q = true) (value : f (s.rdG x.a) (x.imm.signExtend 64) = b) :
    cmpImm f x s = .next ((s.wrP x.d b).done 8) := value ▸ guarded_pass _ pass
theorem predBin_eq {x : OpPPP} {f : Bool → Bool → Bool} (pass : s.guard x.q = true) (value : f (s.rdP x.a) (s.rdP x.b) = b) :
    predBin f x s = .next ((s.wrP x.d b).done 8) := value ▸ guarded_pass _ pass
/-- An instruction that writes one g register, and likewise one that writes a predicate. -/
theorem writesG_eq {q : Guard} {d : GReg} {f : State → Word} (pass : s.guard q = true) (value : f s = v) :
    guarded q 8 s (fun s => complete 8 (s.wrG d (f s))) = .next ((s.wrG d v).done 8) := value ▸ guarded_pass _ pass
theorem writesP_eq {q : Guard} {d : PReg} {f : State → Bool} (pass : s.guard q = true) (value : f s = b) :
    guarded q 8 s (fun s => complete 8 (s.wrP d (f s))) = .next ((s.wrP d b).done 8) := value ▸ guarded_pass _ pass
end

/-! ## The statements -/

/-- Settles O9: each function of INT by the exact number or the bits of its result. -/
theorem scalarArithmetic : Obligations.ScalarArithmetic := by
  unfold Obligations.ScalarArithmetic
  refine ⟨fun x s pass => ?_, fun x s pass => ?_, fun x s pass => ?_⟩
  · have amount_lt : (s.rdG x.b).toNat % 64 < 64 := Nat.mod_lt _ (by omega)
    exact ⟨intBin_eq pass (BitVec.add_def _ _), intBin_eq pass (sub_eq_ofInt _ _), intBin_eq pass rfl, intBin_eq pass rfl,
      intBin_eq pass rfl, intBin_eq pass rfl, intBin_eq pass rfl, intBin_eq pass rfl,
      intBin_eq (f := fun a b => a &&& ~~~b) pass rfl, intBin_eq (f := fun a b => a ||| ~~~b) pass rfl,
      intBin_eq (f := fun a b => opShl a (amount b)) pass (opShl_eq _ _),
      intBin_eq (f := fun a b => opShr a (amount b)) pass (opShr_eq _ _),
      intBin_eq (f := fun a b => opShra a (amount b)) pass (opShra_eq _ _),
      intBin_eq (f := fun a b => opRotl a (amount b)) pass (opRotl_eq _ amount_lt),
      intBin_eq (f := fun a b => opRotr a (amount b)) pass (opRotr_eq _ amount_lt),
      intBin_eq pass (opMin_eq _ _), intBin_eq pass (opMinn_eq _ _), intBin_eq pass (opMax_eq _ _), intBin_eq pass (opMaxn_eq _ _)⟩
  · refine ⟨fun zero => ⟨intBin_eq pass (if_pos zero), intBin_eq pass (if_pos zero), intBin_eq pass (if_pos zero),
      intBin_eq pass (if_pos zero)⟩, fun ⟨least, minusOne⟩ => ⟨intBin_eq pass ?_, intBin_eq pass ?_⟩,
      fun nonzero => ⟨intBin_eq pass (opDivn_eq nonzero), intBin_eq pass (opRemn_eq nonzero)⟩,
      fun nonzero fits => ⟨_, _, intBin_eq pass rfl, intBin_eq pass rfl, ?_⟩⟩
    · rw [least, minusOne]; decide
    · rw [least, minusOne]; decide
    · have divisor : (s.rdG x.b).toInt ≠ 0 := fun zero => nonzero (BitVec.eq_of_toInt_eq zero)
      rw [toInt_opDiv nonzero fits, toInt_opRem nonzero]
      refine ⟨(Int.mul_tdiv_add_tmod _ _).symm, ?_, tmod_pos_iff⟩
      rw [Int.natAbs_tmod]
      exact Nat.mod_lt _ (Int.natAbs_pos.2 divisor)
  · obtain ⟨n, clz, leading⟩ := clz_spec (s.rdG x.a)
    obtain ⟨m, ctz, trailing⟩ := ctz_spec (s.rdG x.a)
    exact ⟨⟨n, intUn_eq pass clz, leading⟩, ⟨m, intUn_eq pass ctz, trailing⟩,
      intUn_eq pass (congrArg wNat (setBits_eq_countP _ _)), ⟨_, intUn_eq pass rfl, fun _ h => opBrev_getLsbD _ h⟩,
      ⟨_, intUn_eq pass rfl, fun _ _ hi hj => opBswap_getLsbD _ hi hj⟩⟩

/-- Settles O10: each form by its result; a field by its bits. -/
theorem scalarForms : Obligations.ScalarForms := by
  unfold Obligations.ScalarForms
  refine ⟨⟨fun x s pass => ?_, fun x s pass => ?_, fun x s pass => ?_⟩, ⟨fun x s pass => ?_, fun x s pass => ?_, fun x s pass => ?_,
    fun x s pass => ?_, fun x s pass => ?_, fun x s pass => ?_⟩, fun x s pass wf => ?_, fun x s pass => ?_, fun x s pass => ?_,
    fun x s => ?_⟩
  · refine ⟨intImm_eq pass rfl, intImm_eq pass rfl, intImm_eq pass rfl, intImm_eq pass rfl, intImm_eq pass rfl,
      intImm_eq pass (opMin_eq _ _), intImm_eq pass (opMax_eq _ _), ?_⟩
    change execLih x s = _
    exact writesG_eq pass (shiftLeft_or_eq _ _ _)
  · exact ⟨shiftImm_eq pass (opShl_eq _ _), shiftImm_eq pass (opShr_eq _ _), shiftImm_eq pass (opShra_eq _ _),
      shiftImm_eq pass (opRotl_eq _ x.n.isLt)⟩
  · change execLi x s = _
    exact writesG_eq pass rfl
  · exact ⟨cmpBin_eq pass (beq_eq_decide _ _), cmpBin_eq pass (bne_eq_decide_ne _ _),
      cmpBin_eq (f := fun a b => decide (sI a < sI b)) pass rfl, cmpBin_eq (f := fun a b => decide (sI a ≤ sI b)) pass rfl,
      cmpBin_eq (f := fun a b => decide (a.toNat < b.toNat)) pass rfl, cmpBin_eq (f := fun a b => decide (a.toNat ≤ b.toNat)) pass rfl⟩
  · have imm := toInt_sext x.imm (by omega)
    refine ⟨cmpImm_eq pass ?_, cmpImm_eq (f := fun a b => decide (sI a < sI b)) pass ?_⟩
    · rw [beq_eq_decide_toInt, imm]
    · rw [sI, sI, imm]
  · change execTbit x s = _
    exact writesP_eq pass (getLsbD_eq_decide _ _)
  · exact ⟨predBin_eq pass rfl, predBin_eq pass rfl, predBin_eq pass rfl, predBin_eq (f := fun a b => a && !b) pass rfl⟩
  · change execPmov x s = _
    exact writesP_eq pass rfl
  · change execGtop x s = _
    exact writesP_eq pass (bne_eq_decide_ne _ _)
  · obtain ⟨len_pos, len_le, fits⟩ : 1 ≤ x.len.toNat ∧ x.len.toNat ≤ 64 ∧ x.pos.toNat + x.len.toNat ≤ 64 := of_decide_eq_true wf
    have ext : execExtS x s = _ := writesG_eq pass rfl
    have extn : execExtn x s = _ := writesG_eq pass rfl
    have ins : execIns x s = _ := writesG_eq pass rfl
    refine ⟨⟨_, ext, fun i hi => ?_⟩, ⟨_, extn, fun i hi => ?_⟩, ⟨_, ins, fun i hi => getLsbD_insertField _ _ _ _ hi⟩⟩
    · rw [getLsbD_signed (fieldOf_lt _ _ _) len_pos hi, testBit_fieldOf, decide_eq_true (by omega), Bool.true_and]
    · rw [wNat, BitVec.getLsbD_ofNat, decide_eq_true hi, Bool.true_and, testBit_fieldOf]
  · change execSel x s = _
    exact writesG_eq pass rfl
  · change execPtog x s = _
    exact writesG_eq pass (by cases s.rdP x.p <;> rfl)
  · change execNop x s = _
    cases pass : s.guard x.q with
    | true => exact guarded_pass _ pass
    | false => exact guarded_skip _ pass

end Sys2Proof.Machine
end

section
/-!
SUPPORT. Pointers, extents and extent checks (R164–R169, R341): the fields of a pointer that was moved, and when a check passes.
-/
namespace Sys2Proof.Machine
open Sys2Proof

/-! ## Pointer arithmetic (R164) -/

theorem addr53_lt (x : Int) : addr53 x < 2 ^ 53 := by unfold addr53; omega
theorem natCast_addr53 (x : Int) : (addr53 x : Int) = x % 2 ^ 53 := Int.toNat_of_nonneg (Int.emod_nonneg x (by omega))
/-- The number an address reduced modulo 2^53 is. -/
theorem addr53_eq {t : Nat} {x : Int} (h : (t : Int) = x % 2 ^ 53) : addr53 x = t := by rw [addr53, ← h, Int.toNat_natCast]
theorem withAddr_toNat (w : Word) {a : Nat} (h : a < 2 ^ 53) : (withAddr w a).toNat = w.toNat / 2 ^ 53 * 2 ^ 53 + a := by
  have := w.isLt
  rw [withAddr, BitVec.toNat_ofNat, Nat.mod_eq_of_lt h, Nat.mod_eq_of_lt (by omega)]
theorem moveBy_above (w : Word) (n : Int) : (moveBy w n).toNat / 2 ^ 53 = w.toNat / 2 ^ 53 := by
  have := addr53_lt (ptrAddr w + n * (ptrFmt w).step)
  rw [moveBy, withAddr_toNat w this]
  omega
theorem moveBy_addr (w : Word) (n : Int) : (((moveBy w n).toNat % 2 ^ 53 : Nat) : Int) = (ptrAddr w + n * (ptrFmt w).step) % 2 ^ 53 := by
  have lt := addr53_lt (ptrAddr w + n * (ptrFmt w).step)
  rw [moveBy, withAddr_toNat w lt, Nat.mul_add_mod_self_right, Nat.mod_eq_of_lt lt, natCast_addr53]

section
variable {s : State}
theorem execAadd_eq {x : OpAAG} (pass : s.guard x.q = true) :
    execAadd x s = .next ((s.wrA x.d (moveBy (s.rdA x.a) (s.rdG x.b).toInt)).done 8) := guarded_pass _ pass
theorem execAaddi_eq {x : OpAAI} (pass : s.guard x.q = true) :
    execAaddi x s = .next ((s.wrA x.d (moveBy (s.rdA x.a) x.imm.toInt)).done 8) := guarded_pass _ pass
theorem execAmov_eq {x : OpAA} (pass : s.guard x.q = true) : execAmov x s = .next ((s.wrA x.d (s.rdA x.a)).done 8) :=
  guarded_pass _ pass
theorem execAdiff_eq {x : OpGAA} (pass : s.guard x.q = true) :
    execAdiff x s = .next ((s.wrG x.d (wInt (((ptrAddr (s.rdA x.a) : Int) - ptrAddr (s.rdA x.b)).tdiv (ptrFmt (s.rdA x.a)).step))).done 8) :=
  guarded_pass _ pass
theorem execAcmplt_eq {x : OpPAA} (pass : s.guard x.q = true) :
    execAcmplt x s = .next ((s.wrP x.d (decide (ptrAddr (s.rdA x.a) < ptrAddr (s.rdA x.b)))).done 8) := guarded_pass _ pass
end

/-! ## Conversions through an extent (R166, R167) -/

section
variable {s : State}
theorem execAfrom_extent {x : OpAFrom} (pass : s.guard x.q = true)
    (h : (s.extent x.ext.toNat).valid = false ∨ (s.extent x.ext.toNat).size < (s.rdG x.a).toNat) :
    execAfrom x s = trapAt codeExtent (extentDetail x.ext.toNat 2 0 0 (s.rdG x.a).toNat) 8 s :=
  (guarded_pass _ pass).trans (if_pos (by simpa using h))
theorem execAfrom_within {x : OpAFrom} (pass : s.guard x.q = true) (valid : (s.extent x.ext.toNat).valid = true)
    (within : (s.rdG x.a).toNat ≤ (s.extent x.ext.toNat).size) :
    execAfrom x s = if blogOk x.fmt x.blog then
        .next ((s.wrA x.d (mkPtr x.fmt x.blog ((s.extent x.ext.toNat).base.toNat + (s.rdG x.a).toNat))).done 8)
      else trapAt codeBadaddr (wNat (OpAFrom.imm20 x)) 8 s := by
  refine (guarded_pass _ pass).trans ((if_neg (by simpa [valid] using within)).trans ?_)
  cases blogOk x.fmt x.blog <;> rfl
theorem execAtog_reserved {x : OpAToG} (pass : s.guard x.q = true) (h : ptrReserved (s.rdA x.a) ≠ 0) :
    execAtog x s = trapAt codeBadaddr (s.rdA x.a) 8 s := (guarded_pass _ pass).trans (if_pos h)
theorem execAtog_clear {x : OpAToG} (pass : s.guard x.q = true) (clear : ptrReserved (s.rdA x.a) = 0) :
    let e := s.extent x.ext.toNat
    let t : Int := ptrAddr (s.rdA x.a) - e.base.toNat
    (e.valid = true → 0 ≤ t ∧ t ≤ (e.size : Int) → execAtog x s = .next ((s.wrG x.d (wInt t)).done 8)) ∧
    (e.valid = false ∨ ¬(0 ≤ t ∧ t ≤ (e.size : Int)) → execAtog x s = trapAt codeExtent (extentDetail x.ext.toNat 3 0 0 t) 8 s) := by
  intro e t
  refine ⟨fun valid within => ?_, fun outside => ?_⟩
  · refine (guarded_pass _ pass).trans ((if_neg (not_not.2 clear)).trans (if_neg ?_))
    simpa [e, t, valid] using within
  · refine (guarded_pass _ pass).trans ((if_neg (not_not.2 clear)).trans (if_pos ?_))
    simp only [Bool.or_eq_true, Bool.not_eq_true', decide_eq_true_eq, or_assoc]
    exact outside.imp_right (fun out => (by omega : t < 0 ∨ (e.size : Int) < t))
theorem mkPtr_ptrAddr (fmt : Fmt) (blog : BitVec 3) (w : Word) :
    mkPtr fmt blog (ptrAddr w) = BitVec.ofNat 64 (fmt.code * 2 ^ 60 + blog.toNat * 2 ^ 57 + ptrAddr w) := by
  rw [mkPtr, ptrAddr, Nat.mod_mod]
theorem execAfmt_allowed {x : OpAFmt} (pass : s.guard x.q = true) (ok : blogOk x.fmt x.blog = true) (clear : ptrReserved (s.rdA x.a) = 0) :
    execAfmt x s =
      .next ((s.wrA x.d (BitVec.ofNat 64 (x.fmt.code * 2 ^ 60 + x.blog.toNat * 2 ^ 57 + ptrAddr (s.rdA x.a)))).done 8) := by
  rw [← mkPtr_ptrAddr]
  exact (guarded_pass _ pass).trans (if_neg (by simp [ok, clear]))
theorem execAfmt_refused {x : OpAFmt} (pass : s.guard x.q = true) (h : blogOk x.fmt x.blog = false ∨ ptrReserved (s.rdA x.a) ≠ 0) :
    execAfmt x s = trapAt codeBadaddr (wNat (OpAFmt.imm20 x)) 8 s := (guarded_pass _ pass).trans (if_pos (by simpa using h))
end

/-! ## Extent checks (R168, R341) -/

/-- The range [first, first + n) is empty, or the extent is valid, holds it and grants the rights. -/
def Extent.Admits (e : Extent) (need : BitVec 4) (first : Int) (n : Nat) : Prop :=
  n = 0 ∨ (e.valid = true ∧ (e.base.toNat : Int) ≤ first ∧ first + n ≤ e.limit.toNat + 1 ∧ e.rights &&& need = need)
theorem Extent.allows_iff (e : Extent) (need : BitVec 4) (first : Int) (n : Nat) : e.allows need first n = true ↔ e.Admits need first n := by
  simp only [Extent.allows, Extent.Admits, Bool.or_eq_true, Bool.and_eq_true, beq_iff_eq, decide_eq_true_eq, and_assoc,
    sub_le_iff_le_add]
/-- Where the footprint of a group's check begins: at its own range, or below it by the index its group names. -/
def CheckGroup.start (g : CheckGroup) (s : State) (base first : Int) : Int :=
  match g.low with | some r => base + (s.rdG r).toInt | none => first
section
variable {s : State} {x src : Nat} {need : BitVec 4} {base first : Int} {n : Nat}
theorem checkExtent_single (alone : s.checkGroup = none) :
    ((s.extent x).Admits need first n → checkExtent x src need base first n s = .next (s.done 8)) ∧
    (¬(s.extent x).Admits need first n → checkExtent x src need base first n s =
      trapAt codeExtent (extentDetail x src need n (first - ((s.extent x).base.toNat : Int))) 8 s) := by
  have passes : s.checkPasses x need base first n = true ↔ (s.extent x).Admits need first n := by
    rw [State.checkPasses, alone, Extent.allows_iff]
  have names : s.checkNames x = x := by rw [State.checkNames, alone]
  rw [checkExtent, names]
  exact ⟨fun h => if_pos (passes.2 h), fun h => if_neg (mt passes.1 h)⟩
theorem checkExtent_group {g : CheckGroup} (grouped : s.checkGroup = some g) :
    let lo := g.start s base first
    let pass := ∃ y ∈ g.exts, (s.extent y).Admits need lo (first + n - lo).toNat
    let named := g.exts.headD x
    (pass → checkExtent x src need base first n s = .next (s.done 8)) ∧
    (¬pass → checkExtent x src need base first n s =
      trapAt codeExtent (extentDetail named src need n (first - ((s.extent named).base.toNat : Int))) 8 s) := by
  intro lo pass named
  have passes : s.checkPasses x need base first n = true ↔ pass := by
    simp only [State.checkPasses, grouped, List.any_eq_true, Extent.allows_iff]
    rfl
  have names : s.checkNames x = named := by rw [State.checkNames, grouped]
  rw [checkExtent, names]
  exact ⟨fun h => if_pos (passes.2 h), fun h => if_neg (mt passes.1 h)⟩
theorem execBchk_reserved {x : OpChk} (pass : s.guard x.q = true) (h : ptrReserved (s.rdA x.a) ≠ 0) :
    execBchk x s = trapAt codeBadaddr (s.rdA x.a) 8 s := (guarded_pass _ pass).trans (if_pos h)
theorem execBchk_clear {x : OpChk} (pass : s.guard x.q = true) (clear : ptrReserved (s.rdA x.a) = 0) :
    execBchk x s = checkExtent x.ext.toNat 0 x.need (ptrAddr (s.rdA x.a)) (ptrAddr (s.rdA x.a)) (s.rdG x.b).toNat s :=
  (guarded_pass _ pass).trans (if_neg (not_not.2 clear))
theorem execBchki_reserved {x : OpChkI} (pass : s.guard x.q = true) (h : ptrReserved (s.rdA x.a) ≠ 0) :
    execBchki x s = trapAt codeBadaddr (s.rdA x.a) 8 s := (guarded_pass _ pass).trans (if_pos h)
theorem execBchki_clear {x : OpChkI} (pass : s.guard x.q = true) (clear : ptrReserved (s.rdA x.a) = 0) :
    execBchki x s =
      checkExtent x.ext.toNat 1 x.need (ptrAddr (s.rdA x.a)) (ptrAddr (s.rdA x.a) + (s.rdG x.b).toInt) x.len.toNat s :=
  (guarded_pass _ pass).trans (if_neg (not_not.2 clear))
end

/-! ## The statement -/

/-- Settles O11: pointers by their fields; conversions by the branches of R166 and R167; both checks by the one check of a range. -/
theorem addressInstructions : Obligations.AddressInstructions := by
  unfold Obligations.AddressInstructions
  refine ⟨⟨fun x s pass => ⟨_, execAadd_eq pass, moveBy_above _ _, moveBy_addr _ _⟩,
      fun x s pass => ⟨_, execAaddi_eq pass, moveBy_above _ _, moveBy_addr _ _⟩, fun x s pass => execAmov_eq pass,
      fun x s pass => execAdiff_eq pass, fun x s pass => execAcmplt_eq pass⟩,
    ⟨fun x s pass => ⟨fun valid within ok => (execAfrom_within pass valid within).trans (if_pos ok),
        fun valid within broken => (execAfrom_within pass valid within).trans (if_neg (by simp [broken])), execAfrom_extent pass⟩,
      fun x s pass => ⟨fun clear => (execAtog_clear pass clear).1, execAtog_reserved pass, fun clear => (execAtog_clear pass clear).2⟩,
      fun x s pass => ⟨execAfmt_allowed pass, execAfmt_refused pass⟩⟩,
    fun x s pass => ⟨execBchk_reserved pass, fun clear alone => ?_, fun g clear grouped => ?_⟩,
    fun x s pass => ⟨execBchki_reserved pass, fun clear alone => ?_, fun g clear grouped => ?_⟩⟩
  · change (_ → execBchk x s = _) ∧ (_ → execBchk x s = _)
    rw [execBchk_clear pass clear]
    exact checkExtent_single alone
  · change (_ → execBchk x s = _) ∧ (_ → execBchk x s = _)
    rw [execBchk_clear pass clear]
    exact checkExtent_group grouped
  · change (_ → execBchki x s = _) ∧ (_ → execBchki x s = _)
    rw [execBchki_clear pass clear]
    exact checkExtent_single alone
  · change (_ → execBchki x s = _) ∧ (_ → execBchki x s = _)
    rw [execBchki_clear pass clear]
    exact checkExtent_group grouped

end Sys2Proof.Machine
end

section
/-!
SUPPORT. Branches and hardware loops (R170–R178, R392): where a branch goes, what the end-of-body step does to the active levels, and what
the end of an instruction leaves of them.
-/
namespace Sys2Proof.Machine
open Sys2Proof

/-! ## What the end of an instruction leaves (R175, R402) -/

@[simp] theorem State.retire_core (s : State) : s.retire.core = { s.core with wait := none } := State.progress_core _
@[simp] theorem State.teamProgress_tile (s : State) (n : Nat) (c : Bool) : (s.teamProgress n c).tile = s.tile := by
  unfold State.teamProgress; split <;> rfl
theorem State.count_tile_eq (s : State) (c k n : Nat) : (s.count c k n).tile = { s.tile with ctr := (s.count c k n).tile.ctr } := by
  unfold State.count
  cases s.onTile <;> rfl
theorem State.progress_tile_eq (s : State) : s.progress.tile = { s.tile with progress := s.progress.tile.progress } := by
  rw [State.progress, State.teamProgress_tile]
  cases s.onTile <;> rfl
/-- A retirement changes the counters of the tile and its time of progress. -/
theorem State.retire_tile_eq (s : State) :
    s.retire.tile = { s.tile with ctr := s.retire.tile.ctr, progress := s.retire.tile.progress } := by
  rw [State.retire, State.progress_tile_eq, State.count_tile_eq]
@[simp] theorem State.retire_loop (s : State) : s.retire.tile.loop = s.tile.loop := by rw [State.retire_tile_eq]
@[simp] theorem State.retire_handler (s : State) : s.retire.tile.handler = s.tile.handler := by rw [State.retire_tile_eq]
@[simp] theorem State.retire_loopTests (s : State) : s.retire.loopTests = s.loopTests := by simp [State.loopTests, State.onMain]
@[simp] theorem State.doneAt_pc (s : State) (t : Nat) : (s.doneAt t).core.pc = BitVec.ofNat 64 t := rfl
@[simp] theorem State.doneAt_handler (s : State) (t : Nat) : (s.doneAt t).tile.handler = s.tile.handler := State.retire_handler s
@[simp] theorem State.rdA_doneAt (s : State) (t : Nat) (r : AReg) : (s.doneAt t).rdA r = s.rdA r := by
  simp only [State.rdA, State.doneAt, State.retire_core]

/-! ## Branches (R170, R171) -/

section
variable {s : State} {t : Nat}
theorem execBr_eq {x : OpBr} (pass : s.guard x.q = true) : execBr x s = branchTo none (s.relTarget x.off) s := guarded_pass _ pass
theorem execBrl_eq {x : OpBrl} (pass : s.guard x.q = true) : execBrl x s = branchTo (some x.ln) (s.relTarget x.off) s := guarded_pass _ pass
theorem execJr_eq {x : OpJr} (pass : s.guard x.q = true) (clear : ptrReserved (s.rdA x.tr) = 0) :
    execJr x s = branchTo none (s.regTarget x.tr x.off) s := (guarded_pass _ pass).trans (if_neg (not_not.2 clear))
theorem execJrl_eq {x : OpJrl} (pass : s.guard x.q = true) (clear : ptrReserved (s.rdA x.tr) = 0) :
    execJrl x s = branchTo (some x.ln) (s.regTarget x.tr x.off) s := (guarded_pass _ pass).trans (if_neg (not_not.2 clear))
/-- A call that is recorded for HEAPFULL changes that record alone, and only a main core records one (R347, R388). -/
theorem State.called_eq (s : State) (t : Nat) : s.called t = { s with tile := { s.tile with call := (s.called t).tile.call } } := by
  unfold State.called
  split <;> rfl
theorem State.called_of_not_main (h : s.onMain = false) : s.called t = s := by simp [State.called, h]
/-- Only a collective engine returns from firmware (R266). -/
theorem State.returns_of_main (h : s.onMain = true) : s.returns t = false := by
  unfold State.returns
  cases cur : s.cur <;> simp_all [State.onMain, columnOf]
/-- A taken branch out of the handler region leaves the handler (R392). -/
theorem branchTo_leaves (main : s.onMain = true) (hin : s.tile.handler.hin = true) (out : s.inHandler t = false) (align : t % 8 = 0)
    (code : s.inCode t = true) (body : s.loopTests = true → LoopState.inBody s.tile.loop (wNat t) = true) :
    branchTo none t s = .next ((s.called t).leaveHandler.doneAt t) := by
  have inside : (s.loopTests && !LoopState.inBody s.tile.loop (wNat t)) = false := by
    cases tests : s.loopTests
    · rfl
    · rw [body tests]; rfl
  simp only [branchTo, State.returns_of_main main, align, code, inside, main, hin, out, Bool.false_eq_true, if_false, ne_eq,
    not_true_eq_false, Bool.not_true, Bool.not_false, Bool.and_self, if_true]
  rfl
theorem State.rdA_leaveHandler (s : State) : s.leaveHandler.rdA 14 = s.tile.handler.xl := State.rdA_wrA_same s 14 _
end

/-! ## The end-of-body step (R175) -/

theorem loopEnd_active_le {k : Nat} (a : Word) : ∀ {l : LoopState}, l.active ≤ k → (loopEnd l a k).1.active ≤ k := by
  induction k with
  | zero => intro l h; exact h
  | succ k ih =>
    intro l h
    rw [loopEnd]
    split
    · split
      · exact Nat.le_refl _
      · exact (ih (Nat.le_refl k)).trans (Nat.le_succ k)
    · exact h
section
variable {l : LoopState} {a : Word}
/-- One active level, at its last instruction with passes left. -/
theorem loopEnd_one_back (at_end : vget l.le 0 0 = a) (left : 1 < (vget l.lc 0 0).toNat) :
    loopEnd l a 1 = ({ l with lc := vset l.lc 0 (vget l.lc 0 0 - 1), active := 1 }, some (vget l.ls 0 0)) := by
  rw [loopEnd, if_pos at_end, if_pos left]
/-- One active level, at its last instruction on the last pass. -/
theorem loopEnd_one_last (at_end : vget l.le 0 0 = a) (last : (vget l.lc 0 0).toNat ≤ 1) :
    loopEnd l a 1 = ({ l with lc := vset l.lc 0 0, active := 0 }, none) := by
  rw [loopEnd, if_pos at_end, if_neg (Nat.not_lt.2 last), loopEnd]
theorem loopEnd_one_within (inside : vget l.le 0 0 ≠ a) : loopEnd l a 1 = (l, none) := by rw [loopEnd, if_neg inside]
end
section
variable {s : State} {n : Nat}
/-- Where the loop tests apply, an instruction that completes takes the end-of-body step at its own address. -/
theorem State.done_loopTests (tests : s.loopTests = true) :
    (s.done n).tile.loop = (loopEnd s.tile.loop s.core.pc s.tile.loop.active).1 ∧
    (s.done n).core.pc = (loopEnd s.tile.loop s.core.pc s.tile.loop.active).2.getD (s.core.pc + BitVec.ofNat 64 n) := by
  simp [State.done, State.advance, State.endOfBody, tests]
end

/-! ## LOOP, LOOPI and LBRK (R174, R176) -/

/-- Execution after a body: no further level is active, and where none is, it continues behind the body's last instruction. -/
theorem continueAfter_next (last : Nat) (s : State) : ∃ t, continueAfter last s = .next t ∧ t.tile.loop.active ≤ s.tile.loop.active ∧
    (s.tile.loop.active = 0 → t.tile.loop = s.tile.loop ∧ t.core.pc = BitVec.ofNat 64 (last + s.lenAt last)) := by
  refine ⟨_, rfl, ?_, fun none_active => ?_⟩
  · rw [State.retire_loop]
    exact loopEnd_active_le _ (Nat.le_refl _)
  · have step : loopEnd s.tile.loop (wNat last) s.tile.loop.active = (s.tile.loop, none) := by rw [none_active, loopEnd]
    simp only [State.retire_loop, State.endOfBody, step]
    exact ⟨trivial, rfl⟩
theorem vget_clearLevels (lv k : Nat) (hk : k < 4) (n : Nat) : ∀ lc : Vector (BitVec 32) 4,
    vget (clearLevels lc lv n) k 0 = if lv ≤ k ∧ k < n then 0 else vget lc k 0 := by
  induction n with
  | zero => intro lc; rw [clearLevels, if_neg (by omega)]
  | succ n ih =>
    intro lc
    rw [clearLevels, ih]
    by_cases here : k = n
    · subst here
      rw [if_neg (by omega)]
      split
      · rw [vget_vset_same _ _ _ _ hk, if_pos (by omega)]
      · rw [if_neg (by omega)]
    · have kept : vget (if lv ≤ n then vset lc n 0 else lc) k 0 = vget lc k 0 := by
        split
        · exact vget_vset_ne _ _ _ _ _ (Ne.symm here)
        · rfl
      rw [kept]
      congr 1
      exact propext ⟨by omega, by omega⟩
section
variable {s : State} {lv len n : Nat}
theorem enterLoop_inBody (h : s.tile.handler.inBody = true ∧ s.tile.loop.active ≠ 0) : enterLoop lv len n s = loopUse 6 lv s :=
  if_pos (by simpa using h)
/-- With no cause 6, LOOP and LOOPI test the level, the count and the enclosing body, and then begin the level or step over the body. -/
theorem enterLoop_eq (h : ¬(s.tile.handler.inBody = true ∧ s.tile.loop.active ≠ 0)) :
    enterLoop lv len n s =
      let l := s.tile.loop
      let first := s.core.pc.toNat + 8
      let last := s.skipCode first (len - 1)
      if l.active ≠ lv then loopUse 1 lv s
      else if 2 ^ 32 ≤ n then loopUse 3 lv s
      else if 0 < lv ∧ (vget l.le (lv - 1) 0).toNat < last then loopUse 2 lv s
      else if n = 0 then continueAfter last s
      else .next (State.doneAt first { s with tile := { s.tile with loop :=
        { lc := vset l.lc lv (BitVec.ofNat 32 n), ls := vset l.ls lv (wNat first), le := vset l.le lv (wNat last), active := lv + 1 } } }) :=
  if_neg (by simpa using h)
end

section
variable {s : State} {x : OpLbrk}
theorem execLbrk_inactive (pass : s.guard x.q = true) (h : s.tile.loop.active ≤ x.lv.toNat) : execLbrk x s = loopUse 4 x.lv.toNat s :=
  (guarded_pass _ pass).trans (if_pos h)
/-- The state in which LBRK has ended its level and those inside it. -/
def State.brokenTo (s : State) (lv : Nat) : State :=
  { s with tile := { s.tile with loop :=
    { s.tile.loop with lc := clearLevels s.tile.loop.lc lv s.tile.loop.active, active := lv } } }
theorem State.teamNum_brokenTo (s : State) (lv : Nat) : (s.brokenTo lv).teamNum = s.teamNum := by
  have tile (n : Nat) : ((s.brokenTo lv).getTile n).team = (s.getTile n).team := by
    by_cases here : n = s.here <;> simp [State.getTile, State.brokenTo, here]
  simp only [State.teamNum, tile]
  rfl
theorem State.lenAt_brokenTo (s : State) (lv a : Nat) : (s.brokenTo lv).lenAt a = s.lenAt a := by
  have team : (s.brokenTo lv).team = s.team := congrArg s.findTeam (s.teamNum_brokenTo lv)
  simp only [State.lenAt, State.codeWord, team]
  rfl
theorem execLbrk_active (pass : s.guard x.q = true) (h : x.lv.toNat < s.tile.loop.active) :
    execLbrk x s = continueAfter (vget s.tile.loop.le x.lv.toNat 0).toNat (s.brokenTo x.lv.toNat) :=
  (guarded_pass _ pass).trans (if_neg (Nat.not_le.2 h))
end

/-! ## The statements -/

/-- Settles O12: each form by the one taken branch; a branch out of the handler by what `leaveHandler` writes. -/
theorem branches : Obligations.Branches := by
  unfold Obligations.Branches
  refine ⟨fun s t align code returns body handler => ⟨fun x pass rel => ?_, fun x pass rel => ?_, fun x pass reg => ?_, fun x pass reg => ?_⟩,
    fun s t => ⟨State.called_eq s t, State.called_of_not_main⟩, fun s x t pass main hin out rel align code body => ?_⟩
  · change execBr x s = _
    rw [execBr_eq pass, State.relTarget, addr53_eq rel]
    exact branchTo_taken returns align code body handler
  · change execBrl x s = _
    rw [execBrl_eq pass, State.relTarget, addr53_eq rel]
    exact branchTo_taken returns align code body handler
  · obtain ⟨clear, target⟩ := reg
    change execJr x s = _
    rw [execJr_eq pass clear, State.regTarget, ptrAddr, addr53_eq target]
    exact branchTo_taken returns align code body handler
  · obtain ⟨clear, target⟩ := reg
    change execJrl x s = _
    rw [execJrl_eq pass clear, State.regTarget, ptrAddr, addr53_eq target]
    exact branchTo_taken returns align code body handler
  · have gone : execBr x s = .next ((s.called t).leaveHandler.doneAt t) := by
      rw [execBr_eq pass, State.relTarget, addr53_eq rel]
      exact branchTo_leaves main hin out align code body
    refine ⟨_, gone, State.doneAt_pc _ _, ?_, State.doneAt_handler _ _⟩
    rw [State.rdA_doneAt, State.rdA_leaveHandler, State.called_handler]

/-- Settles O13: LOOP and LOOPI by the tests of `enterLoop` in turn; LBRK by what follows the body it ends. -/
theorem loops : Obligations.Loops := by
  unfold Obligations.Loops
  refine ⟨fun s lv len n => ?_, fun s x pass => ⟨execLbrk_inactive pass, fun active outermost => ?_, fun active => ?_⟩⟩
  · intro l L first last enters
    have enters_of (i : Instr) (run : exec i s = enterLoop L len.toNat n s) : enters i := by
      refine ⟨fun inBody => run.trans (enterLoop_inBody inBody), fun other => ?_⟩
      have tests := run.trans (enterLoop_eq other)
      refine ⟨fun level => tests.trans (if_pos level),
        fun level many => tests.trans ((if_neg (not_not.2 level)).trans (if_pos many)),
        fun level few longer => tests.trans ((if_neg (not_not.2 level)).trans ((if_neg (Nat.not_le.2 few)).trans (if_pos longer))),
        fun level few fits => ?_⟩
      have count := tests.trans ((if_neg (not_not.2 level)).trans ((if_neg (Nat.not_le.2 few)).trans (if_neg fits)))
      refine ⟨fun some => count.trans (if_neg some.ne'), fun none => ?_⟩
      obtain ⟨t, next, active, outermost⟩ := continueAfter_next last s
      exact ⟨t, (count.trans (if_pos none)).trans next, level ▸ active, fun zero => outermost (level.trans zero)⟩
    exact ⟨fun cnt read => enters_of _ (read ▸ rfl), fun icnt read => enters_of _ (read ▸ rfl)⟩
  · obtain ⟨t, next, -, behind⟩ := continueAfter_next (vget s.tile.loop.le 0 0).toNat (s.brokenTo 0)
    obtain ⟨loop, pc⟩ := behind rfl
    rw [State.lenAt_brokenTo] at pc
    have run := execLbrk_active pass active
    rw [outermost] at run
    refine ⟨t, run.trans next, by rw [loop]; rfl, fun k below hk => ?_, pc⟩
    rw [loop]
    exact (vget_clearLevels 0 k hk _ _).trans (if_pos ⟨Nat.zero_le k, below⟩)
  · obtain ⟨t, next, inner, -⟩ := continueAfter_next (vget s.tile.loop.le x.lv.toNat 0).toNat (s.brokenTo x.lv.toNat)
    exact ⟨t, (execLbrk_active pass active).trans next, inner⟩

/-- Settles O14: the end-of-body step of one level, by its three cases. -/
theorem endOfBody : Obligations.EndOfBody := by
  unfold Obligations.EndOfBody
  intro s n tests one l t
  obtain ⟨loop, pc⟩ : t.tile.loop = (loopEnd l s.core.pc 1).1 ∧ t.core.pc = (loopEnd l s.core.pc 1).2.getD (s.core.pc + BitVec.ofNat 64 n) :=
    one ▸ State.done_loopTests tests
  refine ⟨fun at_end left => ?_, fun at_end last => ?_, fun inside => ?_⟩
  · rw [loop, pc, loopEnd_one_back at_end.symm left]
    exact ⟨rfl, vget_vset_same _ _ _ _ (by omega), rfl⟩
  · rw [loop, pc, loopEnd_one_last at_end.symm last]
    exact ⟨rfl, vget_vset_same _ _ _ _ (by omega), rfl⟩
  · rw [loop, pc, loopEnd_one_within inside.symm]
    exact ⟨rfl, rfl⟩

end Sys2Proof.Machine
end

section
/-!
SUPPORT. A vector register as the number of its lanes (R80): elements side by side, read back one by one.
-/
namespace Sys2Proof

theorem Fmt.width_mul_lanes (et : Fmt) : et.width * et.lanes = 512 := by cases et <;> rfl
theorem Fmt.lanes_pos (et : Fmt) : 0 < et.lanes := by cases et <;> decide

end Sys2Proof
namespace Sys2Proof.Machine
open Sys2Proof

/-! ## Elements side by side -/

theorem lanesOf_eq_map (w x n : Nat) : lanesOf w x n = (List.range n).map (fun k => x / 2 ^ (w * k) % 2 ^ w) := by
  induction n generalizing x with
  | zero => rfl
  | succ n ih =>
    rw [lanesOf, ih, List.range_succ_eq_map, List.map_cons, List.map_map]
    congr 1
    · simp
    · refine List.map_congr_left fun k _ => ?_
      rw [Function.comp_apply, Nat.mul_succ, Nat.add_comm, Nat.pow_add, Nat.div_div_eq_div_mul]
theorem packLanes_lt (w : Nat) (l : List Nat) : packLanes w l < 2 ^ (w * l.length) := by
  induction l with
  | nil => exact Nat.one_pos
  | cons x r ih =>
    have low : x % 2 ^ w < 2 ^ w := Nat.mod_lt _ (Nat.two_pow_pos w)
    have high := Nat.mul_le_mul_left (2 ^ w) (Nat.succ_le_of_lt ih)
    rw [packLanes, List.length_cons, Nat.mul_succ, Nat.add_comm (w * _), Nat.pow_add]
    rw [Nat.mul_succ] at high
    omega
/-- Element `k` of elements side by side. -/
theorem packLanes_lane (w : Nat) (l : List Nat) (k : Nat) : packLanes w l / 2 ^ (w * k) % 2 ^ w = l.getD k 0 % 2 ^ w := by
  induction l generalizing k with
  | nil => simp [packLanes]
  | cons x r ih =>
    cases k with
    | zero => simp [packLanes, Nat.add_mul_mod_self_left]
    | succ k =>
      have low : x % 2 ^ w < 2 ^ w := Nat.mod_lt _ (Nat.two_pow_pos w)
      rw [packLanes, Nat.mul_succ, Nat.add_comm (w * k), Nat.pow_add, ← Nat.div_div_eq_div_mul, Nat.add_mul_div_left _ _ (Nat.two_pow_pos w),
        Nat.div_eq_of_lt low, Nat.zero_add, ih, List.getD_cons_succ]
/-- A number is its first elements side by side, modulo their width. -/
theorem packLanes_lanesOf (w x n : Nat) : packLanes w (lanesOf w x n) = x % 2 ^ (w * n) := by
  induction n generalizing x with
  | zero => simp [lanesOf, packLanes, Nat.mod_one]
  | succ n ih => rw [lanesOf, packLanes, ih, Nat.mod_mod, Nat.mul_succ, Nat.add_comm (w * n), Nat.pow_add, Nat.mod_mul]

/-! ## Lanes of a format -/

/-- The field of a number below some bit of it is the field of the number. -/
theorem field_of_mod {x a w n : Nat} (h : a + w ≤ n) : x % 2 ^ n / 2 ^ a % 2 ^ w = x / 2 ^ a % 2 ^ w := by
  rw [show n = a + (n - a) by omega, Nat.pow_add, Nat.mod_mul_right_div_self]
  exact Nat.mod_mod_of_dvd _ (Nat.pow_dvd_pow 2 (by omega))
theorem lanesIn_eq_map (et : Fmt) (x : Nat) : et.lanesIn x = (List.range et.lanes).map (fun k => x / 2 ^ (et.width * k) % 2 ^ et.width) :=
  lanesOf_eq_map _ _ _
theorem vlane_lt (et : Fmt) (v : Vec) (k : Nat) : vlane et v k < 2 ^ et.width := Nat.mod_lt _ (Nat.two_pow_pos _)
theorem lanesIn_toNat (et : Fmt) (v : Vec) : et.lanesIn v.toNat = (List.range et.lanes).map (vlane et v) := lanesIn_eq_map _ _
/-- A vector reads back, lane by lane, as the elements it was made of. -/
theorem vlane_vecOf {et : Fmt} {k : Nat} (h : k < et.lanes) (l : List Nat) : vlane et (vecOf et l) k = l.getD k 0 % 2 ^ et.width := by
  have inside : et.width * k + et.width ≤ 512 := by
    rw [← et.width_mul_lanes, ← Nat.mul_succ]
    exact Nat.mul_le_mul_left _ h
  rw [vlane, vecOf, BitVec.toNat_ofNat, field_of_mod inside, packLanes_lane]
theorem vlane_vecOf_map {et : Fmt} {k : Nat} (h : k < et.lanes) (f : Nat → Nat) :
    vlane et (vecOf et ((List.range et.lanes).map f)) k = f k % 2 ^ et.width := by
  rw [vlane_vecOf h]
  simp [List.getD, h]

end Sys2Proof.Machine
end

section
/-!
SUPPORT. The sources of a vector instruction where no stream is bound (R112, R180, R209): the bits each reads as, lane by lane.
-/
namespace Sys2Proof.Machine
open Sys2Proof

/-! ## A literal is a code of its format (R112) -/

theorem intCode_lt (w : Nat) (x : Int) : intCode w x < 2 ^ w := by
  have pos : (0 : Int) < 2 ^ w := by positivity
  have := Int.emod_lt_of_pos x pos
  have := Int.emod_nonneg x pos.ne'
  rw [intCode]
  zify
  rwa [Int.toNat_of_nonneg this]
/-- A sign and a magnitude below the sign bit are below twice that bit. -/
theorem FP.signed_lt (f : FP) (neg : Bool) {mag : Nat} (h : mag < f.signBit) : f.signed neg mag < 2 * f.signBit := by
  rw [FP.signed]
  split <;> omega
theorem FP.maxCode_lt (f : FP) : f.maxCode < f.signBit := by
  have inf := f.infCode_lt_signBit
  have pos : 0 < f.signBit := Nat.two_pow_pos _
  rw [signBit] at pos
  unfold maxCode
  split
  · omega
  · rw [signBit]; omega
  · rw [signBit]; omega
theorem FP.round_lt (f : FP) (ftz : Bool) (md : Rounding) (neg : Bool) (m : Nat) (e : Int) :
    (f.round ftz md neg m e).1 < 2 * f.signBit := by
  have zero : 0 < f.signBit := Nat.two_pow_pos _
  unfold round
  dsimp only
  split
  next => exact f.signed_lt neg zero
  split
  next =>
    refine f.signed_lt neg ?_
    split_ifs
    · exact f.infCode_lt_signBit
    · exact f.maxCode_lt
  split
  next => exact f.signed_lt neg zero
  next inRange _ => exact f.signed_lt neg ((not_lt.1 inRange).trans_lt f.maxCode_lt)
theorem twice_signBit {et : Fmt} (int : et.isI = false) (bits : et ≠ .raw) : 2 * (fpOf et).signBit = 2 ^ et.width := by
  revert int bits
  cases et <;> decide
theorem literalCode_lt (et : Fmt) (n : Int) : literalCode et n < 2 ^ et.width := by
  unfold literalCode
  split
  next => exact intCode_lt _ _
  next h =>
    rw [not_or, Bool.not_eq_true] at h
    rw [← twice_signBit h.2 h.1]
    exact FP.round_lt _ _ _ _ _ _

/-! ## What a source reads as -/

/-- The bits a source reads as where no stream is bound. -/
def State.srcVec (s : State) (et : Fmt) (x : Src) : Nat :=
  match x with
  | .v r => (s.rdV r).toNat
  | .g r => spread et ((s.rdG r).toNat % 2 ^ et.width)
  | .k n => (vget s.tile.kbank n.toNat 0).toNat
  | .i n => spread et (literalCode et n.toInt)

theorem spread_lt (et : Fmt) (x : Nat) : spread et x < 2 ^ 512 := by
  unfold spread
  split
  · split
    · exact Nat.sub_lt (Nat.two_pow_pos 512) Nat.one_pos
    · exact Nat.two_pow_pos 512
  · have := packLanes_lt et.width (List.replicate et.lanes x)
    rwa [List.length_replicate, et.width_mul_lanes] at this
theorem spread_lane {et : Fmt} {x k : Nat} (hx : x < 2 ^ et.width) (hk : k < et.lanes) : spread et x / 2 ^ (et.width * k) % 2 ^ et.width = x := by
  unfold spread
  split
  next raw =>
    subst raw
    change x < 2 at hx
    change k < 512 at hk
    change _ / 2 ^ (1 * k) % 2 = _
    rw [Nat.one_mul, Nat.mod_eq_of_lt hx]
    split
    next one =>
      have bit := Nat.testBit_two_pow_sub_one 512 k
      rw [Nat.testBit_eq_decide_div_mod_eq, decide_eq_true hk, decide_eq_true_eq] at bit
      rw [bit, one]
    next zero => simp; omega
  next => rw [packLanes_lane, List.getD_replicate _ hk, Nat.mod_eq_of_lt hx]
theorem State.srcVec_lt (s : State) (et : Fmt) (x : Src) : s.srcVec et x < 2 ^ 512 := by
  cases x with
  | v r => exact BitVec.isLt _
  | g r => exact spread_lt _ _
  | k n => exact BitVec.isLt _
  | i n => exact spread_lt _ _
theorem State.srcVec_lane (s : State) (et : Fmt) (x : Src) {k : Nat} (hk : k < et.lanes) :
    s.srcVec et x / 2 ^ (et.width * k) % 2 ^ et.width = s.srcLane et x k := by
  cases x with
  | v r => rfl
  | g r => exact spread_lane (Nat.mod_lt _ (Nat.two_pow_pos _)) hk
  | k n => rfl
  | i n => exact spread_lane (literalCode_lt _ _) hk
theorem State.lanesIn_srcVec (s : State) (et : Fmt) (x : Src) : et.lanesIn (s.srcVec et x) = (List.range et.lanes).map (s.srcLane et x) := by
  rw [lanesIn_eq_map]
  exact List.map_congr_left fun k hk => s.srcVec_lane et x (List.mem_range.1 hk)
theorem State.srcLane_lt (s : State) (et : Fmt) (x : Src) (k : Nat) : s.srcLane et x k < 2 ^ et.width := by
  cases x with
  | v r => exact vlane_lt _ _ _
  | g r => exact Nat.mod_lt _ (Nat.two_pow_pos _)
  | k n => exact vlane_lt _ _ _
  | i n => exact literalCode_lt _ _
/-- A register or a constant has the same bits in every format. -/
theorem State.srcVec_format (s : State) {x : Src} (h : x.okVK = true) (et ft : Fmt) : s.srcVec et x = s.srcVec ft x := by
  cases x with
  | v r => rfl
  | k n => rfl
  | g r => exact absurd h Bool.false_ne_true
  | i n => exact absurd h Bool.false_ne_true
theorem State.packLanes_srcLane (s : State) (et : Fmt) (x : Src) :
    packLanes et.width ((List.range et.lanes).map (s.srcLane et x)) = s.srcVec et x := by
  rw [← s.lanesIn_srcVec, Fmt.lanesIn, packLanes_lanesOf, et.width_mul_lanes, Nat.mod_eq_of_lt (s.srcVec_lt et x)]

/-! ## The sources of one issue -/

theorem readVecs_unbound {s : State} {rs : List VReg} (free : ∀ r ∈ rs, s.boundSlot r = none) :
    readVecs rs s = .ok (rs.map (fun r => (s.rdV r).toNat)) s := by
  have none : s.slotsOf rs = [] := by
    rw [State.slotsOf, List.filterMap_eq_nil_iff.2 free]
    rfl
  rw [readVecs, none, popAll, resBind, List.zipWith_map, List.zipWith_self]
  congr 1
  exact List.map_congr_left fun r hr => by rw [free r hr]
theorem readVecs_eq {s : State} (free : s.noStreams = true) (rs : List VReg) : readVecs rs s = .ok (rs.map (fun r => (s.rdV r).toNat)) s :=
  readVecs_unbound fun r _ => boundSlot_of_noStreams free r
theorem assoc_zip_map {κ α : Type} [DecidableEq κ] {l : List κ} {k : κ} (f : κ → α) (d : α) (h : k ∈ l) : assoc (l.zip (l.map f)) k d = f k := by
  induction l with
  | nil => cases h
  | cons j r ih =>
    rw [List.map_cons, List.zip_cons_cons, assoc]
    split
    next e => rw [e]
    next e => exact ih (List.mem_of_ne_of_mem (Ne.symm e) h)
theorem mem_srcRegs {l : List Src} {r : VReg} : r ∈ srcRegs l ↔ .v r ∈ l := by
  rw [srcRegs, List.mem_filterMap]
  constructor
  · rintro ⟨x, hx, e⟩
    cases x with
    | v q => exact Option.some.inj e ▸ hx
    | _ => cases e
  · exact fun h => ⟨.v r, h, rfl⟩
theorem sources_unbound {s : State} {l : List Src} (free : ∀ r, .v r ∈ l → s.boundSlot r = none) (et : Fmt)
    (k : List Nat → State → Res Unit) : sources et l s k = k (l.map (s.srcVec et)) s := by
  rw [sources, readVecs_unbound fun r hr => free r (mem_srcRegs.1 hr), resBind]
  congr 1
  refine List.map_congr_left fun x hx => ?_
  cases x with
  | v r => exact assoc_zip_map _ 0 (mem_srcRegs.2 hx)
  | g r => rfl
  | k n => rfl
  | i n => rfl
theorem sources_eq {s : State} (free : s.noStreams = true) (et : Fmt) (l : List Src) (k : List Nat → State → Res Unit) :
    sources et l s k = k (l.map (s.srcVec et)) s :=
  sources_unbound (fun r _ => boundSlot_of_noStreams free r) et k

end Sys2Proof.Machine
end

section
/-!
SUPPORT. A vector instruction where no stream is bound (R109, R179, R209): it completes with what its lanes compute, lane by lane.
-/
namespace Sys2Proof.Machine
open Sys2Proof

/-! ## The shapes of effect -/

/-- The state once an instruction has written a result's lanes, its flags and its draws, and completed. -/
def State.resDone (s : State) (d : VReg) (out : Fmt) (rm : Rm) (r : LaneRes) : State :=
  s.vecDone d (vecOf out r.lanes) r.flags (resolveRm s.core.fpctl rm) r.draws

section
variable {s : State} {i : Instr} (free : s.noStreams = true)
include free

theorem exec_vec1 {x : OpV1} {f : Ctl → Nat → Nat → LaneRes} (pass : s.guard x.q = true) (run : exec i s = vecRun x.q (vec1 f x) s) :
    exec i s = .next (s.resDone x.d x.et x.rm (f (s.ctl x.et x.rm x.wm) (s.srcVec x.et x.a) (s.rdV x.d).toNat)) := by
  refine run.trans (vecRun_of_effect pass ?_)
  rw [vec1, sources_eq free, deliver_of_noStreams free]
  rfl
theorem exec_vec2 {x : OpV2} {f : Ctl → Nat → Nat → Nat → LaneRes} (pass : s.guard x.q = true)
    (run : exec i s = vecRun x.q (vec2 f x) s) :
    exec i s = .next (s.resDone x.d x.et x.rm
      (f (s.ctl x.et x.rm x.wm) (s.srcVec x.et x.a) (s.srcVec x.et x.b) (s.rdV x.d).toNat)) := by
  refine run.trans (vecRun_of_effect pass ?_)
  rw [vec2, sources_eq free, deliver_of_noStreams free]
  rfl
theorem exec_vec3 {x : OpV3} {f : Ctl → Nat → Nat → Nat → Nat → LaneRes} (pass : s.guard x.q = true)
    (run : exec i s = vecRun x.q (vec3 f x) s) :
    exec i s = .next (s.resDone x.d x.et x.rm
      (f (s.ctl x.et x.rm x.wm) (s.srcVec x.et x.a) (s.srcVec x.et x.b) (s.srcVec x.et x.c) (s.rdV x.d).toNat)) := by
  refine run.trans (vecRun_of_effect pass ?_)
  rw [vec3, sources_eq free, deliver_of_noStreams free]
  rfl
theorem exec_vecIdx {x : OpV2} {f : Ctl → Nat → Nat → Nat → LaneRes} (pass : s.guard x.q = true)
    (run : exec i s = vecRun x.q (vecIdx f x) s) :
    exec i s = .next (s.resDone x.d x.et x.rm
      (f (s.ctl x.et x.rm x.wm) (s.srcVec x.et x.a) (s.srcNum x.b) (s.rdV x.d).toNat)) := by
  refine run.trans (vecRun_of_effect pass ?_)
  rw [vecIdx, sources_eq free, deliver_of_noStreams free]
  rfl
theorem exec_lane1 {x : OpV1} {op : Ctl → LaneOp} {rounds : Bool} (pass : s.guard x.q = true)
    (run : exec i s = vecRun x.q (lane1 op rounds x) s) :
    exec i s = .next (s.resDone x.d x.et x.rm (lanewise (s.ctl x.et x.rm x.wm) (op (s.ctl x.et x.rm x.wm)) rounds
      (s.srcVec x.et x.a) 0 0 (s.rdV x.d).toNat)) :=
  exec_vec1 (f := fun c a old => lanewise c (op c) rounds a 0 0 old) free pass run
theorem exec_lane2 {x : OpV2} {op : Ctl → LaneOp} {rounds : Bool} (pass : s.guard x.q = true)
    (run : exec i s = vecRun x.q (lane2 op rounds x) s) :
    exec i s = .next (s.resDone x.d x.et x.rm (lanewise (s.ctl x.et x.rm x.wm) (op (s.ctl x.et x.rm x.wm)) rounds
      (s.srcVec x.et x.a) (s.srcVec x.et x.b) 0 (s.rdV x.d).toNat)) :=
  exec_vec2 (f := fun c a b old => lanewise c (op c) rounds a b 0 old) free pass run
theorem exec_lane3 {x : OpV3} {op : Ctl → LaneOp} {rounds : Bool} (pass : s.guard x.q = true)
    (run : exec i s = vecRun x.q (lane3 op rounds x) s) :
    exec i s = .next (s.resDone x.d x.et x.rm (lanewise (s.ctl x.et x.rm x.wm) (op (s.ctl x.et x.rm x.wm)) rounds
      (s.srcVec x.et x.a) (s.srcVec x.et x.b) (s.srcVec x.et x.c) (s.rdV x.d).toNat)) :=
  exec_vec3 (f := fun c a b d old => lanewise c (op c) rounds a b d old) free pass run
theorem execVcswap_of_ok {x : OpV3} (pass : s.guard x.q = true)
    (ok : cswapOk (s.ctl x.et x.rm x.wm) (s.srcNum x.b) (s.srcNum x.c) = true) :
    execVcswap x s = .next (s.resDone x.d x.et x.rm
      (cswapRes (s.ctl x.et x.rm x.wm) (s.srcVec x.et x.a) (s.srcNum x.b) (s.srcNum x.c))) := by
  refine vecRun_of_effect pass ?_
  rw [doVcswap, sources_eq free, deliver_of_noStreams free, resBind, if_pos ok]
  rfl
theorem execVcswap_of_not_ok {x : OpV3} (pass : s.guard x.q = true)
    (bad : cswapOk (s.ctl x.et x.rm x.wm) (s.srcNum x.b) (s.srcNum x.c) = false) :
    execVcswap x s = trapAt codeIllegal (wNat ((Instr.vcswap x).encode.headD 0)) 8 s := by
  rw [execVcswap, vecRun, guarded_pass _ pass, doVcswap, sources_eq free, deliver_of_noStreams free, resBind,
    if_neg (by rw [bad]; exact Bool.false_ne_true)]
  rfl
end

/-! ## The statement -/

/-- Settles O60: each form is one of the shapes, which complete whatever the lanes compute. -/
theorem vectorFormsComplete : Obligations.VectorFormsComplete := by
  unfold Obligations.VectorFormsComplete
  refine ⟨fun x s pass free => ?_, fun x s pass free => ?_, fun x s pass free => ?_,
    fun x s pass free ok => ⟨_, _, _, execVcswap_of_ok free pass ok⟩,
    fun x s pass free => ⟨_, _, _, exec_vec1 free (x := ⟨x.q, x.d, x.a, x.et, x.rm, x.wm⟩) pass rfl⟩⟩
  · have lanes {op rounds i} (run : exec i s = vecRun x.q (lane2 op rounds x) s) :
        ∃ v fl n, exec i s = .next (s.vecDone x.d v fl (resolveRm s.core.fpctl x.rm) n) := ⟨_, _, _, exec_lane2 free pass run⟩
    have whole {f i} (run : exec i s = vecRun x.q (vec2 f x) s) :
        ∃ v fl n, exec i s = .next (s.vecDone x.d v fl (resolveRm s.core.fpctl x.rm) n) := ⟨_, _, _, exec_vec2 free pass run⟩
    have index {f i} (run : exec i s = vecRun x.q (vecIdx f x) s) :
        ∃ v fl n, exec i s = .next (s.vecDone x.d v fl (resolveRm s.core.fpctl x.rm) n) := ⟨_, _, _, exec_vecIdx free pass run⟩
    simp only [List.forall_mem_cons]
    exact ⟨lanes rfl, lanes rfl, lanes rfl, lanes rfl, lanes rfl, lanes rfl, lanes rfl, lanes rfl, lanes rfl, lanes rfl, lanes rfl,
      lanes rfl, lanes rfl, lanes rfl, lanes rfl, lanes rfl, lanes rfl, lanes rfl, lanes rfl, lanes rfl, whole rfl, whole rfl,
      index rfl, whole rfl, index rfl, List.forall_mem_nil _⟩
  · have lanes {op rounds i} (run : exec i s = vecRun x.q (lane3 op rounds x) s) :
        ∃ v fl n, exec i s = .next (s.vecDone x.d v fl (resolveRm s.core.fpctl x.rm) n) := ⟨_, _, _, exec_lane3 free pass run⟩
    simp only [List.forall_mem_cons]
    exact ⟨lanes rfl, lanes rfl, lanes rfl, List.forall_mem_nil _⟩
  · have lanes {op rounds i} (run : exec i s = vecRun x.q (lane1 op rounds x) s) :
        ∃ v fl n, exec i s = .next (s.vecDone x.d v fl (resolveRm s.core.fpctl x.rm) n) := ⟨_, _, _, exec_lane1 free pass run⟩
    have whole {f i} (run : exec i s = vecRun x.q (vec1 f x) s) :
        ∃ v fl n, exec i s = .next (s.vecDone x.d v fl (resolveRm s.core.fpctl x.rm) n) := ⟨_, _, _, exec_vec1 free pass run⟩
    simp only [List.forall_mem_cons]
    exact ⟨lanes rfl, lanes rfl, lanes rfl, lanes rfl, lanes rfl, lanes rfl, lanes rfl, lanes rfl, lanes rfl, lanes rfl, lanes rfl,
      whole rfl, whole rfl, whole rfl, lanes rfl, whole rfl, whole rfl, List.forall_mem_nil _⟩

end Sys2Proof.Machine
end

section
/-!
SUPPORT. R179's loop (`lanewise`): active lanes take the operation, the others keep the destination's old value, and the flags are those of
the active lanes.
-/
namespace Sys2Proof.Machine
open Sys2Proof

/-! ## Flags gathered along lanes (R67) -/

/-- The flags that any of a list sets. -/
def flagUnion (l : List FlagSet) : FlagSet := l.foldr (fun f g => f ||| g) 0
@[simp] theorem flagUnion_nil : flagUnion [] = 0 := rfl
@[simp] theorem flagUnion_cons (f : FlagSet) (l : List FlagSet) : flagUnion (f :: l) = f ||| flagUnion l := rfl
theorem getLsbD_flagUnion (l : List FlagSet) (b : Nat) : (flagUnion l).getLsbD b = true ↔ ∃ f ∈ l, f.getLsbD b = true := by
  induction l with
  | nil => simp
  | cons f r ih => simp [ih]
/-- Flags that only the lanes of a test set are those of these lanes. -/
theorem getLsbD_flagUnion_range (n : Nat) (act : Nat → Bool) (f : Nat → FlagSet) (b : Nat) :
    (flagUnion ((List.range n).map (fun k => if act k then f k else 0))).getLsbD b = true ↔
      ∃ k, k < n ∧ act k = true ∧ (f k).getLsbD b = true := by
  rw [getLsbD_flagUnion]
  simp only [List.mem_map, List.mem_range]
  constructor
  · rintro ⟨_, ⟨k, hk, rfl⟩, set⟩
    cases active : act k with
    | true => exact ⟨k, hk, active, by simpa [active] using set⟩
    | false => simp [active] at set
  · rintro ⟨k, hk, active, set⟩
    exact ⟨_, ⟨k, hk, rfl⟩, by simpa [active] using set⟩

/-! ## The loop -/

theorem State.ctl_active (s : State) (et : Fmt) (rm : Rm) (wm : WReg) : (s.ctl et rm wm).active = s.actLane et wm := by
  funext k
  unfold Ctl.active State.ctl State.actLane
  by_cases raw : et = .raw <;> simp [raw]
theorem State.actLane_of_ne_raw (s : State) {et : Fmt} (h : et ≠ .raw) (wm : WReg) : s.actLane et wm = (s.rdW wm).getLsbD := by
  funext k
  simp [State.actLane, h]
theorem laneLoop_range' (c : Ctl) (op : LaneOp) (x y z o : Nat → Nat) (i n : Nat) :
    let lane := fun k => if c.active k then op k (x k) (y k) (z k) else (o k, 0)
    laneLoop c op i ((List.range' i n).map x) ((List.range' i n).map y) ((List.range' i n).map z) ((List.range' i n).map o) =
      ((List.range' i n).map (fun k => (lane k).1), flagUnion ((List.range' i n).map (fun k => (lane k).2))) := by
  intro lane
  induction n generalizing i with
  | zero => rfl
  | succ n ih =>
    simp only [List.range'_succ, List.map_cons, laneLoop, flagUnion_cons]
    rw [ih]
theorem laneLoop_range (c : Ctl) (op : LaneOp) (x y z o : Nat → Nat) (n : Nat) :
    laneLoop c op 0 ((List.range n).map x) ((List.range n).map y) ((List.range n).map z) ((List.range n).map o) =
      ((List.range n).map (fun k => if c.active k then (op k (x k) (y k) (z k)).1 else o k),
        flagUnion ((List.range n).map (fun k => if c.active k then (op k (x k) (y k) (z k)).2 else 0))) := by
  rw [List.range_eq_range', laneLoop_range']
  simp only [apply_ite Prod.fst, apply_ite Prod.snd]
theorem lanesIn_zero (et : Fmt) : et.lanesIn 0 = (List.range et.lanes).map (fun _ => 0) := by
  rw [lanesIn_eq_map]
  simp

theorem lanewise_eq {c : Ctl} {x y z old : Nat} {a b e o : Nat → Nat} (op : LaneOp) (rounds : Bool)
    (hx : c.et.lanesIn x = (List.range c.et.lanes).map a) (hy : c.et.lanesIn y = (List.range c.et.lanes).map b)
    (hz : c.et.lanesIn z = (List.range c.et.lanes).map e) (hold : c.et.lanesIn old = (List.range c.et.lanes).map o) :
    lanewise c op rounds x y z old =
      ⟨(List.range c.et.lanes).map (fun k => if c.active k then (op k (a k) (b k) (e k)).1 else o k), c.writtenLanes,
        flagUnion ((List.range c.et.lanes).map (fun k => if c.active k then (op k (a k) (b k) (e k)).2 else 0)),
        if rounds then c.et.lanes else 0⟩ := by
  rw [lanewise, hx, hy, hz, hold, laneLoop_range]

/-! ## R179 -/

/-- What R179 says of an instruction that completes with a lane-wise result. -/
theorem LaneRule.of_lanewise {s : State} {i : Instr} {d : VReg} {et : Fmt} {rm : Rm} {wm : WReg} {rounds : Bool} {op : LaneOp}
    {x y z : Nat} {a b e : Nat → Nat}
    (hx : et.lanesIn x = (List.range et.lanes).map a) (hy : et.lanesIn y = (List.range et.lanes).map b)
    (hz : et.lanesIn z = (List.range et.lanes).map e)
    (run : exec i s = .next (s.resDone d et rm (lanewise (s.ctl et rm wm) op rounds x y z (s.rdV d).toNat))) :
    LaneRule s i d et (s.ctl et rm wm).rm wm (if rounds then et.lanes else 0) (fun k => op k (a k) (b k) (e k)) := by
  rw [lanewise_eq (c := s.ctl et rm wm) op rounds hx hy hz (lanesIn_toNat et (s.rdV d)), s.ctl_active] at run
  refine ⟨_, _, run, fun k hk => (vlane_vecOf_map hk _).trans ?_, fun b _ => getLsbD_flagUnion_range _ _ _ _⟩
  split
  · rfl
  · exact Nat.mod_eq_of_lt (vlane_lt _ _ _)

section
variable {s : State} {i : Instr} {d : VReg} {et : Fmt} {rm : Rm} {wm : WReg} {n : Nat} {op op' : Nat → Nat × FlagSet}

/-- The rule looks at an operation's lanes alone, each modulo the width. -/
theorem LaneRule.congr (h : LaneRule s i d et rm wm n op)
    (same : ∀ k, k < et.lanes → (op k).1 % 2 ^ et.width = (op' k).1 % 2 ^ et.width ∧ (op k).2 = (op' k).2) :
    LaneRule s i d et rm wm n op' := by
  obtain ⟨v, fl, run, lanes, flags⟩ := h
  refine ⟨v, fl, run, fun k hk => ?_, fun b hb => (flags b hb).trans ?_⟩
  · rw [lanes k hk, (same k hk).1]
  · exact exists_congr fun k => and_congr_right fun hk => by rw [(same k hk).2]
/-- Where nothing is drawn the mode does not matter. -/
theorem State.vecDone_undrawn (s : State) (d : VReg) (v : Vec) (fl : FlagSet) (rm rm' : Rm) : s.vecDone d v fl rm 0 = s.vecDone d v fl rm' 0 := by
  simp [State.vecDone, State.draw]
theorem LaneRule.anyMode (h : LaneRule s i d et rm wm 0 op) (rm' : Rm) : LaneRule s i d et rm' wm 0 op := by
  obtain ⟨v, fl, run, rest⟩ := h
  exact ⟨v, fl, s.vecDone_undrawn d v fl rm rm' ▸ run, rest⟩
end

section
variable {s : State} {i : Instr} {op : Ctl → LaneOp} {rounds : Bool} (free : s.noStreams = true)
include free

theorem lane1_rule {x : OpV1} (pass : s.guard x.q = true) (run : exec i s = vecRun x.q (lane1 op rounds x) s) :
    LaneRule s i x.d x.et (s.ctl x.et x.rm x.wm).rm x.wm (if rounds then x.et.lanes else 0)
      (fun k => op (s.ctl x.et x.rm x.wm) k (s.srcLane x.et x.a k) 0 0) :=
  .of_lanewise (s.lanesIn_srcVec _ _) (lanesIn_zero _) (lanesIn_zero _) (exec_lane1 free pass run)
theorem lane2_rule {x : OpV2} (pass : s.guard x.q = true) (run : exec i s = vecRun x.q (lane2 op rounds x) s) :
    LaneRule s i x.d x.et (s.ctl x.et x.rm x.wm).rm x.wm (if rounds then x.et.lanes else 0)
      (fun k => op (s.ctl x.et x.rm x.wm) k (s.srcLane x.et x.a k) (s.srcLane x.et x.b k) 0) :=
  .of_lanewise (s.lanesIn_srcVec _ _) (s.lanesIn_srcVec _ _) (lanesIn_zero _) (exec_lane2 free pass run)
theorem lane3_rule {x : OpV3} (pass : s.guard x.q = true) (run : exec i s = vecRun x.q (lane3 op rounds x) s) :
    LaneRule s i x.d x.et (s.ctl x.et x.rm x.wm).rm x.wm (if rounds then x.et.lanes else 0)
      (fun k => op (s.ctl x.et x.rm x.wm) k (s.srcLane x.et x.a k) (s.srcLane x.et x.b k) (s.srcLane x.et x.c k)) :=
  .of_lanewise (s.lanesIn_srcVec _ _) (s.lanesIn_srcVec _ _) (s.lanesIn_srcVec _ _) (exec_lane3 free pass run)
end

end Sys2Proof.Machine
end

section
/-!
SUPPORT. The lane operations of integers (R184), each by the exact number of its result.
-/
namespace Sys2Proof.Machine
open Sys2Proof

/-! ## Integers of a format (R82) -/

theorem intVal_eq_laneInt (et : Fmt) (x : Nat) : intVal et.isSigned et.width x = laneInt et x := by simp [intVal, laneInt]
theorem intVal_signed (w x : Nat) : intVal true w x = if 2 ^ w ≤ 2 * x then (x : Int) - 2 ^ w else x := by simp [intVal]
theorem toNat_natCast_emod (n w : Nat) : (((n : Nat) : Int) % 2 ^ w).toNat = n % 2 ^ w := by
  rw [← Int.toNat_natCast (n % 2 ^ w)]
  push_cast
  rfl
theorem intClamp_eq (isS : Bool) (w : Nat) (x : Int) :
    intClamp isS w x = if x < intMin isS w then intMin isS w else if intMax isS w < x then intMax isS w else x := by
  have ordered : intMin isS w ≤ intMax isS w := by
    have : (0 : Int) < 2 ^ w := by positivity
    have : (0 : Int) < 2 ^ (w - 1) := by positivity
    unfold intMin intMax
    split <;> omega
  unfold intClamp
  split_ifs <;> omega
theorem popNat_eq_countP (x n : Nat) : popNat x n = (List.range n).countP (fun b => x / 2 ^ b % 2 = 1) := by
  induction n generalizing x with
  | zero => rfl
  | succ n ih =>
    rw [popNat, ih, List.range_succ_eq_map, List.countP_cons, List.countP_map, Nat.add_comm]
    congr 1
    · refine List.countP_congr fun b _ => ?_
      simp [Nat.div_div_eq_div_mul, Nat.pow_succ, Nat.mul_comm]
    · rcases Nat.mod_two_eq_zero_or_one x with e | e <;> simp [e]

/-! ## The statement -/

section
variable {s : State} {x : OpV2} {i : Instr} {op : Ctl → LaneOp} {f : Nat → Int} (pass : s.guard x.q = true) (free : s.noStreams = true)
include pass free

/-- An operation whose lanes are codes of exact numbers. -/
theorem lane2_int (run : exec i s = vecRun x.q (lane2 op false x) s)
    (value : ∀ k, op (s.ctl x.et x.rm x.wm) k (s.srcLane x.et x.a k) (s.srcLane x.et x.b k) 0 = (intCode x.et.width (f k), 0)) :
    LaneRule s i x.d x.et x.rm x.wm 0 (fun k => ((f k % 2 ^ x.et.width).toNat, 0)) :=
  ((lane2_rule free pass run).anyMode x.rm).congr fun k _ => by rw [value k]; exact ⟨rfl, rfl⟩
/-- An operation on bits. -/
theorem lane2_bits {g : Nat → Nat → Nat} (run : exec i s = vecRun x.q (lane2 (fun _ => opBits g) false x) s) :
    LaneRule s i x.d x.et x.rm x.wm 0 (fun k => (g (s.srcLane x.et x.a k) (s.srcLane x.et x.b k), 0)) :=
  (lane2_rule free pass run).anyMode x.rm
end

/-- Settles O15: each function of VINT by the exact number that its lane's code stands for. -/
theorem vectorIntegers : Obligations.VectorIntegers := by
  unfold Obligations.VectorIntegers
  refine ⟨fun x s pass free _ => ?_, fun x s pass free _ => ?_, fun x s pass free _ => ?_, fun x s pass free _ => ?_⟩
  · have int (g : Int → Int → Int) {i : Instr} (run : exec i s = vecRun x.q (lane2 (fun c => opInt c g) false x) s) :
        LaneRule s i x.d x.et x.rm x.wm 0 (fun k =>
          ((g (laneInt x.et (s.srcLane x.et x.a k)) (laneInt x.et (s.srcLane x.et x.b k)) % 2 ^ x.et.width).toNat, 0)) :=
      lane2_int pass free run fun k => by simp only [opInt, State.ctl, intVal_eq_laneInt]
    refine ⟨int (fun a b => a + b) rfl, int (fun a b => a - b) rfl, int (fun a b => a * b) rfl,
      lane2_int (op := opVimulhi) pass free rfl fun k => ?_, int min rfl, int max rfl,
      lane2_int (op := opVshl) pass free rfl fun k => ?_, lane2_int (op := opVshr) pass free rfl fun k => ?_,
      lane2_int (op := opViadds) pass free rfl fun k => ?_⟩
    · simp only [opVimulhi, opInt, State.ctl, intVal_eq_laneInt]
    · rw [intCode, toNat_natCast_emod]; rfl
    · rw [intCode, toNat_natCast_emod, Nat.mod_eq_of_lt (Nat.lt_of_le_of_lt (Nat.div_le_self _ _) (s.srcLane_lt _ _ _))]; rfl
    · simp only [opViadds, opInt, State.ctl, intVal_eq_laneInt, intClamp_eq]; rfl
  · refine lane2_int (op := opVshra) pass free rfl fun k => ?_
    simp only [opVshra, State.ctl, intVal_signed]
  · exact ⟨lane2_bits (g := fun a b => a &&& b) pass free rfl, lane2_bits (g := fun a b => a ||| b) pass free rfl,
      lane2_bits (g := fun a b => a ^^^ b) pass free rfl⟩
  · exact ((lane1_rule (i := .vpopc x) (op := opVpopc) free pass rfl).anyMode x.rm).congr fun k _ =>
      ⟨congrArg (· % 2 ^ x.et.width) (popNat_eq_countP _ _), rfl⟩

end Sys2Proof.Machine
end

section
/-!
SUPPORT. The lane operations of floating-point numbers (R183, R186, R189): the loop of R179 under the resolved mode, and signs as bits.
-/
namespace Sys2Proof.Machine
open Sys2Proof

/-- The sign bit of a format of the vector unit is its highest. -/
theorem fpOf_signBit {et : Fmt} (h : et.isF = true) : (fpOf et).signBit = 2 ^ (et.width - 1) := by
  rcases isF_cases h with e | e | e | e <;> rw [e] <;> rfl
theorem Fmt.width_pos_of_isF {et : Fmt} (h : et.isF = true) : 0 < et.width := by
  rcases isF_cases h with e | e | e | e <;> rw [e] <;> decide
/-- A sign turns by adding the sign bit modulo the width. -/
theorem add_signBit_mod {w a : Nat} (pos : 0 < w) (h : a < 2 ^ w) :
    (a + 2 ^ (w - 1)) % 2 ^ w = if a < 2 ^ (w - 1) then a + 2 ^ (w - 1) else a - 2 ^ (w - 1) := by
  have half : 2 ^ w = 2 ^ (w - 1) + 2 ^ (w - 1) := by rw [← Nat.two_mul, ← Nat.pow_succ', Nat.succ_eq_add_one, Nat.sub_add_cancel pos]
  rw [half] at h ⊢
  split
  next low => exact Nat.mod_eq_of_lt (by omega)
  next high => rw [Nat.mod_eq_sub_mod (by omega), Nat.mod_eq_of_lt (by omega)]; omega

/-- Settles O16: each function is its lane operation under R179. -/
theorem vectorFloats : Obligations.VectorFloats := by
  unfold Obligations.VectorFloats
  refine ⟨fun x s pass free _ => ?_, fun x s pass free _ => ?_, fun x s pass free float => ?_⟩
  · have rounded (op : Ctl → LaneOp) {i : Instr} (run : exec i s = vecRun x.q (lane2 op true x) s) := lane2_rule free pass run
    have plain (op : Ctl → LaneOp) {i : Instr} (run : exec i s = vecRun x.q (lane2 op false x) s) := lane2_rule free pass run
    exact ⟨rounded opVadd rfl, rounded opVsub rfl, rounded opVmul rfl, rounded opVdiv rfl, rounded opVscl rfl, plain opVmin rfl,
      plain opVmax rfl⟩
  · have rounded (op : Ctl → LaneOp) {i : Instr} (run : exec i s = vecRun x.q (lane3 op true x) s) := lane3_rule free pass run
    exact ⟨rounded (opFused false false) rfl, rounded (opFused false true) rfl, rounded (opFused true false) rfl⟩
  · have plain (op : Ctl → LaneOp) {i : Instr} (run : exec i s = vecRun x.q (lane1 op false x) s) := lane1_rule free pass run
    have special (fn : Nat) {i : Instr} (run : exec i s = vecRun x.q (lane1 (fun c => opSpecial c fn) false x) s) := plain _ run
    refine ⟨lane1_rule (op := opVsqrt) (rounds := true) free pass rfl, (plain opVabs (i := .vabs x) rfl).congr fun k _ => ⟨?_, rfl⟩,
      (plain opVneg (i := .vneg x) rfl).congr fun k _ => ⟨?_, rfl⟩, plain classOfLane rfl,
      fun _ => ⟨special 0 rfl, special 1 rfl, special 2 rfl, special 3 rfl, special 4 rfl, special 5 rfl⟩⟩
    · simp only [opVabs, Ctl.fp, State.ctl, fpOf_signBit float]
    · simp only [opVneg, Ctl.fp, State.ctl, fpOf_signBit float, add_signBit_mod (Fmt.width_pos_of_isF float) (s.srcLane_lt _ _ _)]

end Sys2Proof.Machine
end

section
/-!
SUPPORT. Masks from lanes (R185, R188): a bit for each active lane that passes a test, and NV for the signalling NaNs among them.
-/
namespace Sys2Proof.Machine
open Sys2Proof

/-! ## Masks -/

theorem vecRun_pass {s : State} {q : Guard} {f : State → Res Unit} (pass : s.guard q = true) : vecRun q f s = vecEnd s (f s) :=
  guarded_pass _ pass

/-- Bit `k` of a mask is the test of lane `k`, where the mask register lets it act. -/
theorem maskLoop_range' (c : Ctl) (f : Nat → Nat → Bool × FlagSet) (x y : Nat → Nat) (i n : Nat) :
    let lane := fun k => if c.active k then f (x k) (y k) else (false, 0)
    let m := maskLoop c f i ((List.range' i n).map x) ((List.range' i n).map y)
    (∀ k, m.1.testBit k = (decide (k < n) && (lane (i + k)).1)) ∧ m.2 = flagUnion ((List.range' i n).map (fun k => (lane k).2)) := by
  intro lane m
  induction n generalizing i with
  | zero => exact ⟨fun k => by simp [m, maskLoop], rfl⟩
  | succ n ih =>
    obtain ⟨bits, flags⟩ := ih (i + 1)
    have head : m.1 = Nat.bit (lane i).1 (maskLoop c f (i + 1) ((List.range' (i + 1) n).map x) ((List.range' (i + 1) n).map y)).1 := by
      simp only [m, List.range'_succ, List.map_cons, maskLoop, Nat.bit]
      change _ = bif (if c.active i = true then f (x i) (y i) else (false, 0)).1 then _ else _
      cases (if c.active i = true then f (x i) (y i) else (false, 0)).1 <;> simp [Nat.add_comm]
    refine ⟨fun k => ?_, ?_⟩
    · rw [head]
      cases k with
      | zero => simp
      | succ k => rw [Nat.testBit_bit_succ, bits, Nat.add_right_comm, Nat.add_assoc]; simp
    · simp only [m, List.range'_succ, List.map_cons, maskLoop, flagUnion_cons]
      rw [flags]
theorem maskLoop_range (c : Ctl) (f : Nat → Nat → Bool × FlagSet) (x y : Nat → Nat) (n : Nat) :
    let m := maskLoop c f 0 ((List.range n).map x) ((List.range n).map y)
    (∀ k, m.1.testBit k = true ↔ k < n ∧ c.active k = true ∧ (f (x k) (y k)).1 = true) ∧
      m.2 = flagUnion ((List.range n).map (fun k => if c.active k then (f (x k) (y k)).2 else 0)) := by
  obtain ⟨bits, flags⟩ := maskLoop_range' c f x y 0 n
  rw [← List.range_eq_range'] at bits flags
  refine ⟨fun k => ?_, ?_⟩
  · rw [bits, Nat.zero_add]
    cases active : c.active k <;> simp [active]
  · rw [flags]
    simp only [apply_ite Prod.snd]

theorem Fmt.ne_raw_of_isX {et : Fmt} (h : et.isX = true) : et ≠ .raw := by
  rintro rfl
  exact Bool.false_ne_true h

section
variable {s : State} {i : Instr} {x : OpWV2} (free : s.noStreams = true) (pass : s.guard x.q = true)
include free pass

theorem exec_vecMask {f : Ctl → Nat → Nat → MaskWord × FlagSet} (run : exec i s = vecRun x.q (vecMask f x) s) :
    let r := f (s.ctl x.et .rne x.wm) (s.srcVec x.et x.a) (s.srcVec x.et x.b)
    exec i s = .next ((((s.wrW x.d r.1).addFlags r.2).count 0 7 1).done 8) := by
  rw [run, vecRun, guarded_pass _ pass, vecMask, sources_eq free]
  rfl
theorem exec_compare {r : Rel} (run : exec i s = vecRun x.q (vecMask (fun c a b => compareMask c r a b) x) s) :
    let c := s.ctl x.et .rne x.wm
    let m := maskLoop c (compareLane c r) 0 ((List.range x.et.lanes).map (s.srcLane x.et x.a)) ((List.range x.et.lanes).map (s.srcLane x.et x.b))
    exec i s = .next ((((s.wrW x.d (BitVec.ofNat 128 m.1)).addFlags m.2).count 0 7 1).done 8) := by
  rw [← s.lanesIn_srcVec, ← s.lanesIn_srcVec, exec_vecMask (f := fun c a b => compareMask c r a b) free pass run]
  rfl
theorem exec_vmatch :
    let b := (List.range x.et.lanes).map (s.srcLane x.et x.b)
    let m := maskLoop (s.ctl x.et .rne x.wm) (fun a _ => (b.contains a, 0)) 0 ((List.range x.et.lanes).map (s.srcLane x.et x.a)) b
    exec (.vmatch x) s = .next ((((s.wrW x.d (BitVec.ofNat 128 m.1)).addFlags 0).count 0 7 1).done 8) := by
  rw [← s.lanesIn_srcVec, ← s.lanesIn_srcVec]
  exact exec_vecMask (f := fun c a b => (matchMask c a b, 0)) free pass rfl
end
/-- An instruction that writes the mask of a test. -/
theorem MaskRule.of_maskLoop {s : State} {i : Instr} {d : WReg} {et : Fmt} {wm : WReg} {test : Nat → Nat → Bool × FlagSet} {a b : Nat → Nat}
    {p : Nat → Prop} {fl : FlagSet} (isX : et.isX = true)
    (run : exec i s = .next ((((s.wrW d (BitVec.ofNat 128 (maskLoop (s.ctl et .rne wm) test 0 ((List.range et.lanes).map a)
      ((List.range et.lanes).map b)).1)).addFlags fl).count 0 7 1).done 8))
    (holds : ∀ k, (test (a k) (b k)).1 = true ↔ p k) :
    MaskRule s i d et.lanes (fun k => (s.rdW wm).getLsbD k = true ∧ p k) fl := by
  refine ⟨_, run, fun k hk => ?_⟩
  rw [BitVec.getLsbD_ofNat, decide_eq_true hk, Bool.true_and, (maskLoop_range _ _ _ _ _).1, s.ctl_active,
    s.actLane_of_ne_raw (Fmt.ne_raw_of_isX isX), holds]

/-! ## Comparisons (R185) -/

/-- Codes of a format are equal when the integers they stand for are. -/
theorem laneInt_inj {et : Fmt} {x y : Nat} (hx : x < 2 ^ et.width) (hy : y < 2 ^ et.width) : laneInt et x = laneInt et y ↔ x = y := by
  refine ⟨fun h => ?_, fun h => h ▸ rfl⟩
  unfold laneInt at h
  zify at *
  split_ifs at h <;> omega

theorem FVal.sigFlag_eq (v : FVal) : v.sigFlag = if v = .nan true then fNV else 0 := by
  cases v with
  | nan sig => cases sig <;> rfl
  | inf neg => rfl
  | fin neg m e => rfl
theorem FVal.sigFlag_or (v w : FVal) : v.sigFlag ||| w.sigFlag = if v = .nan true ∨ w = .nan true then fNV else 0 := by
  rw [v.sigFlag_eq, w.sigFlag_eq]
  by_cases hv : v = .nan true <;> by_cases hw : w = .nan true <;> simp [hv, hw]
/-- A comparison of integers. -/
theorem compareLane_int {c : Ctl} (h : c.et.isI = true) (r : Rel) (x y : Nat) :
    compareLane c r x y = (r.test (laneInt c.et x - laneInt c.et y).sign, 0) := by
  rw [compareLane, if_pos h, intVal_eq_laneInt, intVal_eq_laneInt]
/-- A comparison of numbers: false where one is no number, and invalid where one is a signalling NaN. -/
theorem compareLane_float {c : Ctl} (h : c.et.isI = false) (r : Rel) (x y : Nat) :
    compareLane c r x y = (!(c.val x).isNan && !(c.val y).isNan && r.test ((c.val x).cmp (c.val y)),
      if c.val x = .nan true ∨ c.val y = .nan true then fNV else 0) := by
  rw [compareLane, if_neg (by rw [h]; exact Bool.false_ne_true)]
  split
  next nan =>
    rw [FVal.sigFlag_or]
    rcases Bool.or_eq_true _ _ ▸ nan with e | e <;> simp [e]
  next numbers =>
    rw [Bool.or_eq_true, not_or, Bool.not_eq_true, Bool.not_eq_true] at numbers
    obtain ⟨hx, hy⟩ := numbers
    rw [if_neg]
    · simp [hx, hy]
    · rintro (e | e)
      · rw [e] at hx; exact Bool.noConfusion hx
      · rw [e] at hy; exact Bool.noConfusion hy
theorem flagUnion_zero {l : List FlagSet} (h : ∀ f ∈ l, f = 0) : flagUnion l = 0 := by
  induction l with
  | nil => rfl
  | cons f r ih =>
    obtain ⟨hf, hr⟩ := List.forall_mem_cons.1 h
    rw [flagUnion_cons, hf, ih hr]
    rfl
/-- Flags of which none but NV is ever set are NV where it is set once. -/
theorem flagUnion_invalid (l : List Nat) (p : Nat → Prop) [DecidablePred p] :
    flagUnion (l.map (fun k => if p k then fNV else 0)) = if ∃ k ∈ l, p k then fNV else 0 := by
  induction l with
  | nil => rfl
  | cons k r ih =>
    rw [List.map_cons, flagUnion_cons, ih]
    by_cases hk : p k <;> by_cases hr : ∃ k ∈ r, p k <;> simp [hk, hr]

section
variable {s : State} {et : Fmt} {wm : WReg} {r : Rel} {n : Nat} {a b : Nat → Nat}

theorem compareMaskFlags_int (int : et.isI = true) :
    (maskLoop (s.ctl et .rne wm) (compareLane (s.ctl et .rne wm) r) 0 ((List.range n).map a) ((List.range n).map b)).2 = 0 := by
  rw [(maskLoop_range _ _ _ _ _).2]
  refine flagUnion_zero fun f hf => ?_
  obtain ⟨k, -, rfl⟩ := List.mem_map.1 hf
  rw [compareLane_int (c := s.ctl et .rne wm) int, ite_self]
theorem compareMaskFlags_float (isX : et.isX = true) (float : et.isI = false) :
    (maskLoop (s.ctl et .rne wm) (compareLane (s.ctl et .rne wm) r) 0 ((List.range n).map a) ((List.range n).map b)).2 =
      if ∃ k ∈ List.range n, (s.rdW wm).getLsbD k = true ∧ ((s.ctl et .rne wm).val (a k) = .nan true ∨ (s.ctl et .rne wm).val (b k) = .nan true)
        then fNV else 0 := by
  rw [(maskLoop_range _ _ _ _ _).2, s.ctl_active, s.actLane_of_ne_raw (Fmt.ne_raw_of_isX isX), ← flagUnion_invalid]
  congr 1
  refine List.map_congr_left fun k _ => ?_
  rw [compareLane_float (c := s.ctl et .rne wm) float, ite_and]
end

section
variable {s : State} {x : OpWV2} {i : Instr} {r : Rel} {p : Nat → Prop} {q : Int → Prop} (pass : s.guard x.q = true) (free : s.noStreams = true)
  (isX : x.et.isX = true) (run : exec i s = vecRun x.q (vecMask (fun c a b => compareMask c r a b) x) s)
include pass free isX run

theorem compare_rule {fl : FlagSet}
    (flags : (maskLoop (s.ctl x.et .rne x.wm) (compareLane (s.ctl x.et .rne x.wm) r) 0 ((List.range x.et.lanes).map (s.srcLane x.et x.a))
      ((List.range x.et.lanes).map (s.srcLane x.et x.b))).2 = fl)
    (holds : ∀ k, (compareLane (s.ctl x.et .rne x.wm) r (s.srcLane x.et x.a k) (s.srcLane x.et x.b k)).1 = true ↔ p k) :
    MaskRule s i x.d x.et.lanes (fun k => (s.rdW x.wm).getLsbD k = true ∧ p k) fl := by
  subst flags
  exact .of_maskLoop isX (exec_compare free pass run) holds
theorem compare_rule_int (int : x.et.isI = true)
    (holds : ∀ k, r.test (laneInt x.et (s.srcLane x.et x.a k) - laneInt x.et (s.srcLane x.et x.b k)).sign = true ↔ p k) :
    MaskRule s i x.d x.et.lanes (fun k => (s.rdW x.wm).getLsbD k = true ∧ p k) 0 :=
  compare_rule pass free isX run (compareMaskFlags_int int) fun k => by
    rw [compareLane_int (c := s.ctl x.et .rne x.wm) int]
    exact holds k
theorem compare_rule_float (float : x.et.isI = false)
    (holds : ∀ t, r.test t = true ↔ q t) :
    let c := s.ctl x.et .rne x.wm
    let a := fun k => c.val (s.srcLane x.et x.a k)
    let b := fun k => c.val (s.srcLane x.et x.b k)
    MaskRule s i x.d x.et.lanes
      (fun k => (s.rdW x.wm).getLsbD k = true ∧ ((a k).isNan = false ∧ (b k).isNan = false) ∧ q ((a k).cmp (b k)))
      (if ∃ k ∈ List.range x.et.lanes, (s.rdW x.wm).getLsbD k = true ∧ (a k = .nan true ∨ b k = .nan true) then fNV else 0) :=
  compare_rule pass free isX run (compareMaskFlags_float isX float) fun k => by
    rw [compareLane_float (c := s.ctl x.et .rne x.wm) float]
    simp [holds]
end

/-! ## The statement -/

/-- Settles O18: a comparison by its test of each lane, the masks by their bits. -/
theorem vectorMasks : Obligations.VectorMasks := by
  unfold Obligations.VectorMasks
  refine ⟨fun x s pass free isX => ⟨fun int => ?_, fun float => ?_, ?_⟩, fun x s pass => ⟨?_, ?_⟩, fun x s pass => ?_⟩
  · refine ⟨compare_rule_int (r := .eq) pass free isX rfl int fun k => ?_, compare_rule_int (r := .lt) pass free isX rfl int fun k => ?_,
      compare_rule_int (r := .le) pass free isX rfl int fun k => ?_⟩
    · rw [← laneInt_inj (s.srcLane_lt _ _ _) (s.srcLane_lt _ _ _)]
      simp [Rel.test, Int.sign_eq_zero_iff_zero, sub_eq_zero]
    · simp [Rel.test, Int.sign_neg_iff]
    · simp [Rel.test, Int.sign_nonpos_iff]
  · refine ⟨_, ?_, ?_, compare_rule_float (r := .eq) (q := fun t => t = 0) pass free isX rfl float fun t => by simp [Rel.test],
      compare_rule_float (r := .lt) (q := fun t => t < 0) pass free isX rfl float fun t => by simp [Rel.test],
      compare_rule_float (r := .le) (q := fun t => t ≤ 0) pass free isX rfl float fun t => by simp [Rel.test]⟩
    · split
      · exact .inr rfl
      · exact .inl rfl
    · simp only [List.mem_range]
      split
      next some => exact ⟨fun _ => some, fun _ => rfl⟩
      next none => exact ⟨fun e => absurd e (by decide), fun some => absurd some none⟩
  · refine MaskRule.of_maskLoop isX (exec_vmatch free pass) fun k => ?_
    simp
  · exact vecRun_pass (f := doWand x) pass
  · exact vecRun_pass (f := doWor x) pass
  · exact vecRun_pass (f := doWnot x) pass

end Sys2Proof.Machine
end

section
/-!
SUPPORT. Selections and permutations of whole lanes (R187, R193, R195, R196).
-/
namespace Sys2Proof.Machine
open Sys2Proof

/-! ## Every lane of a result -/

theorem State.laneAt_srcVec (s : State) (et : Fmt) (x : Src) {k : Nat} (h : k < et.lanes) :
    laneAt (et.lanesIn (s.srcVec et x)) k = s.srcLane et x k := by
  rw [s.lanesIn_srcVec, laneAt]
  simp [List.getD, h]
theorem getD_map_range {n k : Nat} (h : k < n) (f : Nat → Nat) : ((List.range n).map f).getD k 0 = f k := by simp [List.getD, h]
theorem EveryLane.of_lanes {s : State} {i : Instr} {d : VReg} {et : Fmt} {rm : Rm} {r : LaneRes} {f : Nat → Nat}
    (run : exec i s = .next (s.resDone d et rm r)) (flags : r.flags = 0) (draws : r.draws = 0)
    (lanes : ∀ k, k < et.lanes → r.lanes.getD k 0 % 2 ^ et.width = f k) : EveryLane s i d et f := by
  refine ⟨vecOf et r.lanes, ?_, fun k hk => (vlane_vecOf hk _).trans (lanes k hk)⟩
  rw [run, State.resDone, flags, draws, State.vecDone_undrawn _ _ _ _ _ .rne]
/-- The number that a source of kind g or i gives (R193). -/
theorem State.srcNum_eq {s : State} {x : Src} {n : Nat}
    (h : match x with | .g r => n = (s.rdG r).toNat | .i m => n = (m.signExtend 64).toNat | _ => False) : s.srcNum x = n := by
  cases x with
  | v r => exact h.elim
  | g r => exact h.symm
  | k m => exact h.elim
  | i m => exact h.symm

theorem selectLoop_range' (c : Ctl) (x y : Nat → Nat) (i n : Nat) :
    selectLoop c i ((List.range' i n).map x) ((List.range' i n).map y) = (List.range' i n).map (fun k => if c.active k then x k else y k) := by
  induction n generalizing i with
  | zero => rfl
  | succ n ih => simp only [List.range'_succ, List.map_cons, selectLoop, ih]
theorem vselRes_lanes {c : Ctl} {x y : Nat} {a b : Nat → Nat} (hx : c.et.lanesIn x = (List.range c.et.lanes).map a)
    (hy : c.et.lanesIn y = (List.range c.et.lanes).map b) :
    (vselRes c x y).lanes = (List.range c.et.lanes).map (fun k => if c.active k then a k else b k) := by
  rw [vselRes, allLanes, hx, hy, List.range_eq_range', selectLoop_range']

/-! ## The active lanes in their order (R195) -/

theorem activeLanes_range' (c : Ctl) (x : Nat → Nat) (i n : Nat) :
    activeLanes c i ((List.range' i n).map x) = ((List.range' i n).filter c.active).map x := by
  induction n generalizing i with
  | zero => rfl
  | succ n ih =>
    rw [List.range'_succ, List.map_cons, activeLanes, List.filter_cons, ih]
    split <;> rfl
/-- An active number stands in the list of active ones behind as many as lie below it. -/
theorem getD_filter_range {act : Nat → Bool} {n k : Nat} (hk : k < n) (active : act k = true) (x : Nat → Nat) (l : List Nat) :
    (((List.range n).filter act).map x ++ l).getD ((List.range k).countP act) 0 = x k := by
  obtain ⟨m, rfl⟩ : ∃ m, n = k + (m + 1) := ⟨n - (k + 1), by omega⟩
  have split : List.range (k + (m + 1)) = List.range k ++ k :: List.range' (k + 1) m := by
    rw [← List.range'_succ, List.range_eq_range', List.range_eq_range', ← List.range'_append_1, Nat.zero_add]
  rw [split, List.filter_append, List.filter_cons, if_pos active, List.countP_eq_length_filter]
  simp [List.getD]
theorem expandLoop_succ (c : Ctl) (i n : Nat) (l : List Nat) :
    expandLoop c i (n + 1) l = if c.active i then l.headD 0 :: expandLoop c (i + 1) n l.tail else 0 :: expandLoop c (i + 1) n l := by
  cases l <;> rfl
theorem expandLoop_lane (c : Ctl) {i n k : Nat} (l : List Nat) (hk : k < n) :
    (expandLoop c i n l).getD k 0 = if c.active (i + k) then l.getD ((List.range' i k).countP c.active) 0 else 0 := by
  induction n generalizing i k l with
  | zero => cases hk
  | succ n ih =>
    rw [expandLoop_succ]
    cases k with
    | zero => cases c.active i <;> cases l <;> simp
    | succ k =>
      have below : k < n := Nat.lt_of_succ_lt_succ hk
      cases active : c.active i with
      | true =>
        rw [if_pos rfl, List.getD_cons_succ, ih _ below, List.range'_succ, List.countP_cons_of_pos active, Nat.add_assoc, Nat.add_comm 1 k]
        cases l <;> simp
      | false =>
        rw [if_neg Bool.false_ne_true, List.getD_cons_succ, ih _ below, List.range'_succ,
          List.countP_cons_of_neg (by rw [active]; exact Bool.false_ne_true), Nat.add_assoc, Nat.add_comm 1 k]

/-! ## Compare and swap (R196) -/

theorem isPow_iff (d : Nat) : (d ≠ 0 ∧ d = 2 ^ Nat.log2 d) ↔ ∃ n, d = 2 ^ n := by
  constructor
  · rintro ⟨-, h⟩
    exact ⟨_, h⟩
  · rintro ⟨n, rfl⟩
    rw [Nat.log2_two_pow]
    exact ⟨(Nat.two_pow_pos n).ne', rfl⟩
theorem cswapOk_iff (c : Ctl) (d b : Nat) : cswapOk c d b = true ↔
    (∃ n, d = 2 ^ n) ∧ d < c.et.lanes ∧ (b = 0 ∨ ((∃ n, b = 2 ^ n) ∧ b ≤ c.et.lanes)) := by
  rw [← isPow_iff, ← isPow_iff]
  simp only [cswapOk, Bool.and_eq_true, Bool.or_eq_true, bne_iff_ne, beq_iff_eq, decide_eq_true_eq, and_assoc]
  by_cases zero : b = 0 <;> simp [zero]
theorem lanes_pow (et : Fmt) : ∃ m, et.lanes = 2 ^ m := ⟨Nat.log2 et.lanes, by cases et <;> rfl⟩
/-- The partner of a lane in the lower half of its pair lies in the register. -/
theorem partner_lt {n m i : Nat} (h : 2 ^ n < 2 ^ m) (hi : i < 2 ^ m) (low : i / 2 ^ n % 2 = 0) : i + 2 ^ n < 2 ^ m := by
  have lt : n < m := (Nat.pow_lt_pow_iff_right (by omega)).1 h
  obtain ⟨t, rfl⟩ : ∃ t, m = n + (t + 1) := ⟨m - (n + 1), by omega⟩
  rw [Nat.pow_add, Nat.pow_succ] at hi ⊢
  have quotient : i / 2 ^ n < 2 ^ t * 2 := Nat.div_lt_of_lt_mul hi
  have whole := Nat.div_add_mod i (2 ^ n)
  have rest := Nat.mod_lt i (Nat.two_pow_pos n)
  have : 2 ^ n * (i / 2 ^ n + 2) ≤ 2 ^ n * (2 ^ t * 2) := Nat.mul_le_mul_left _ (by omega)
  rw [Nat.mul_add] at this
  omega

theorem State.ctl_et (s : State) (et : Fmt) (rm : Rm) (wm : WReg) : (s.ctl et rm wm).et = et := rfl
theorem totalLess_int {c : Ctl} (int : c.et.isI = true) (x y : Nat) : totalLess c x y = decide (laneInt c.et x < laneInt c.et y) := by
  rw [totalLess, if_pos int, intVal_eq_laneInt, intVal_eq_laneInt]
theorem laneInt_ite_mod {et : Fmt} {u v : Nat} (p : Bool) (hu : u < 2 ^ et.width) (hv : v < 2 ^ et.width) :
    laneInt et ((if p then u else v) % 2 ^ et.width) = if p then laneInt et u else laneInt et v := by
  cases p
  · exact congrArg _ (Nat.mod_eq_of_lt hv)
  · exact congrArg _ (Nat.mod_eq_of_lt hu)
/-- The lanes of VCSWAP of integers: a pair stays, or is exchanged. -/
theorem cswapRes_pair {s : State} {x : OpV3} {d b i : Nat} (int : x.et.isI = true) (pow : ∃ n, d = 2 ^ n) (small : d < x.et.lanes)
    (hi : i < x.et.lanes) (low : i / d % 2 = 0) :
    let r := cswapRes (s.ctl x.et x.rm x.wm) (s.srcVec x.et x.a) d b
    let a := fun k => laneInt x.et (s.srcLane x.et x.a k)
    let up := decide (b = 0) || i / b % 2 == 0
    let swap := (s.rdW x.wm).getLsbD i && (if up then decide (a (i + d) < a i) else decide (a i < a (i + d)))
    i + d < x.et.lanes ∧ r.lanes.getD i 0 = (if swap then s.srcLane x.et x.a (i + d) else s.srcLane x.et x.a i) ∧
      r.lanes.getD (i + d) 0 = (if swap then s.srcLane x.et x.a i else s.srcLane x.et x.a (i + d)) := by
  obtain ⟨n, rfl⟩ := pow
  have partner : i + 2 ^ n < x.et.lanes := by
    obtain ⟨m, e⟩ := lanes_pow x.et
    rw [e] at small hi ⊢
    exact partner_lt small hi low
  have high : (i + 2 ^ n) / 2 ^ n % 2 ≠ 0 := by
    rw [Nat.add_div_right _ (Nat.two_pow_pos n)]
    omega
  have apart : i + 2 ^ n ≠ i := by
    have := Nat.two_pow_pos n
    omega
  have active : (s.ctl x.et x.rm x.wm).active = (s.rdW x.wm).getLsbD := by
    rw [s.ctl_active, s.actLane_of_ne_raw fun raw => by rw [raw] at int; exact Bool.false_ne_true int]
  refine ⟨partner, ?_, ?_⟩ <;>
    rw [cswapRes, allLanes, active] <;>
    simp only [State.ctl_et, totalLess_int (c := s.ctl x.et x.rm x.wm) int]
  · rw [getD_map_range hi]
    simp only [low, if_true, s.laneAt_srcVec _ _ hi, s.laneAt_srcVec _ _ partner, beq_eq_decide, eq_iff_iff, true_iff]
  · rw [getD_map_range partner]
    simp only [if_neg high, Nat.add_sub_cancel, apart, s.laneAt_srcVec _ _ hi, s.laneAt_srcVec _ _ partner, beq_eq_decide, eq_iff_iff,
      false_iff, ite_not]

/-! ## The statement -/

section
variable {s : State} {x : OpV1} (pass : s.guard x.q = true) (free : s.noStreams = true) (typed : x.et ≠ .raw)
include pass free typed

theorem vcompress_lanes : let act := fun k => (s.rdW x.wm).getLsbD k
    let below := fun k => (List.range k).countP act
    ∃ v, exec (.vcompress x) s = .next (s.vecDone x.d v 0 .rne 0) ∧
      (∀ k, k < x.et.lanes → act k = true → vlane x.et v (below k) = s.srcLane x.et x.a k) ∧
      (∀ j, j < x.et.lanes → below x.et.lanes ≤ j → vlane x.et v j = 0) := by
  intro act below
  have run := exec_vec1 (i := .vcompress x) (f := fun c a _ => compressRes c a) free pass rfl
  have order : activeLanes (s.ctl x.et x.rm x.wm) 0 ((s.ctl x.et x.rm x.wm).et.lanesIn (s.srcVec x.et x.a)) =
      ((List.range x.et.lanes).filter act).map (s.srcLane x.et x.a) := by
    rw [State.ctl_et, s.lanesIn_srcVec, List.range_eq_range', activeLanes_range', s.ctl_active, s.actLane_of_ne_raw typed]
  refine ⟨_, run.trans (congrArg _ (s.vecDone_undrawn _ _ _ _ .rne)), fun k hk active => ?_, fun j hj above => ?_⟩
  · have place : below k < x.et.lanes := by
      refine Nat.lt_of_le_of_lt List.countP_le_length ?_
      rwa [List.length_range]
    rw [vlane_vecOf place, compressRes, order]
    exact (congrArg (· % _) (getD_filter_range hk active _ _)).trans (Nat.mod_eq_of_lt (s.srcLane_lt _ _ _))
  · rw [vlane_vecOf hj, compressRes, order]
    change List.getD (_ ++ List.replicate _ 0) j 0 % _ = 0
    have length : (((List.range x.et.lanes).filter act).map (s.srcLane x.et x.a)).length = below x.et.lanes := by
      rw [List.length_map, ← List.countP_eq_length_filter]
    rw [List.getD_append_right _ _ _ _ (length ▸ above), List.getD_replicate]
    · exact Nat.zero_mod _
    · rw [State.ctl_et, length]
      omega
theorem vexpand_lanes : let act := fun k => (s.rdW x.wm).getLsbD k
    EveryLane s (.vexpand x) x.d x.et (fun k => if act k then s.srcLane x.et x.a ((List.range k).countP act) else 0) := by
  intro act
  refine .of_lanes (exec_vec1 (i := .vexpand x) (f := fun c a _ => expandRes c a) free pass rfl) rfl rfl fun k hk => ?_
  have place : (List.range k).countP act < x.et.lanes := by
    refine Nat.lt_of_le_of_lt List.countP_le_length ?_
    rwa [List.length_range]
  rw [expandRes]
  change (expandLoop _ 0 x.et.lanes (x.et.lanesIn _)).getD k 0 % _ = _
  rw [expandLoop_lane _ _ hk, s.ctl_active, s.actLane_of_ne_raw typed, Nat.zero_add, ← List.range_eq_range', s.lanesIn_srcVec]
  change (if act k then ((List.range _).map _).getD ((List.range k).countP act) 0 else 0) % _ = _
  rw [getD_map_range place]
  split
  · exact Nat.mod_eq_of_lt (s.srcLane_lt _ _ _)
  · exact Nat.zero_mod _
end
section
variable {s : State} {x : OpV3} {d b : Nat} (pass : s.guard x.q = true) (free : s.noStreams = true) (hd : s.srcNum x.b = d)
  (hb : s.srcNum x.c = b)
include pass free hd hb

theorem vcswap_lanes (int : x.et.isI = true)
    (valid : (∃ n, d = 2 ^ n) ∧ d < x.et.lanes ∧ (b = 0 ∨ ((∃ n, b = 2 ^ n) ∧ b ≤ x.et.lanes))) :
    let a := fun k => laneInt x.et (s.srcLane x.et x.a k)
    ∃ v, exec (.vcswap x) s = .next (s.vecDone x.d v 0 .rne 0) ∧
      ∀ i, i < x.et.lanes → i / d % 2 = 0 →
        let up := decide (b = 0) || i / b % 2 == 0
        let swap := (s.rdW x.wm).getLsbD i && (if up then decide (a (i + d) < a i) else decide (a i < a (i + d)))
        laneInt x.et (vlane x.et v i) = (if swap then a (i + d) else a i) ∧
        laneInt x.et (vlane x.et v (i + d)) = (if swap then a i else a (i + d)) := by
  subst hd hb
  have ok := (cswapOk_iff (s.ctl x.et x.rm x.wm) _ _).2 valid
  obtain ⟨pow, small, -⟩ := valid
  refine ⟨_, (execVcswap_of_ok free pass ok).trans (congrArg _ (s.vecDone_undrawn _ _ _ _ .rne)), fun i hi low => ?_⟩
  obtain ⟨partner, first, second⟩ := cswapRes_pair (s := s) (b := s.srcNum x.c) int pow small hi low
  constructor
  · rw [vlane_vecOf hi, first]
    exact laneInt_ite_mod _ (s.srcLane_lt _ _ _) (s.srcLane_lt _ _ _)
  · rw [vlane_vecOf partner, second]
    exact laneInt_ite_mod _ (s.srcLane_lt _ _ _) (s.srcLane_lt _ _ _)
theorem vcswap_illegal (invalid : ¬ ((∃ n, d = 2 ^ n) ∧ d < x.et.lanes ∧ (b = 0 ∨ ((∃ n, b = 2 ^ n) ∧ b ≤ x.et.lanes)))) :
    ∃ w, exec (.vcswap x) s = trapAt codeIllegal w 8 s := by
  subst hd hb
  have bad := mt (cswapOk_iff (s.ctl x.et x.rm x.wm) _ _).1 invalid
  exact ⟨_, execVcswap_of_not_ok free pass (Bool.eq_false_iff.2 bad)⟩
end
section
variable {s : State} {x : OpV2} (pass : s.guard x.q = true) (free : s.noStreams = true)
include pass free

theorem vsel_lanes (typed : x.et ≠ .raw) : EveryLane s (.vsel x) x.d x.et
    (fun k => if (s.rdW x.wm).getLsbD k then s.srcLane x.et x.a k else s.srcLane x.et x.b k) := by
  refine .of_lanes (exec_vec2 (i := .vsel x) (f := fun c a b _ => vselRes c a b) free pass rfl) rfl rfl fun k hk => ?_
  rw [vselRes_lanes (c := s.ctl x.et x.rm x.wm) (s.lanesIn_srcVec x.et x.a) (s.lanesIn_srcVec x.et x.b), s.ctl_active, s.actLane_of_ne_raw typed]
  change ((List.range x.et.lanes).map _).getD k 0 % _ = _
  rw [getD_map_range hk]
  split <;> exact Nat.mod_eq_of_lt (s.srcLane_lt _ _ _)
theorem vshuf_rule : LaneRule s (.vshuf x) x.d x.et x.rm x.wm 0
    (fun k => (if s.srcLane x.et x.b k < x.et.lanes then s.srcLane x.et x.a (s.srcLane x.et x.b k) else 0, 0)) := by
  refine ((LaneRule.of_lanewise (s.lanesIn_srcVec _ _) (s.lanesIn_srcVec _ _) (lanesIn_zero _)
    (exec_vec2 (i := .vshuf x) (f := shufRes) free pass rfl)).anyMode x.rm).congr fun k _ => ⟨?_, rfl⟩
  rw [State.ctl_et]
  split
  · next inside => rw [s.laneAt_srcVec _ _ inside]
  · rfl
theorem vbcast_rule {n : Nat} (num : s.srcNum x.b = n) :
    LaneRule s (.vbcast x) x.d x.et x.rm x.wm 0 (fun _ => (s.srcLane x.et x.a (n % x.et.lanes), 0)) := by
  subst num
  refine ((LaneRule.of_lanewise (s.lanesIn_srcVec _ _) (lanesIn_zero _) (lanesIn_zero _)
    (exec_vecIdx (i := .vbcast x) (f := bcastRes) free pass rfl)).anyMode x.rm).congr fun k _ => ⟨?_, rfl⟩
  rw [State.ctl_et, s.laneAt_srcVec _ _ (Nat.mod_lt _ x.et.lanes_pos)]
theorem vrot_rule {n : Nat} (num : s.srcNum x.b = n) :
    LaneRule s (.vrot x) x.d x.et x.rm x.wm 0 (fun k => (s.srcLane x.et x.a ((k + n) % x.et.lanes), 0)) := by
  subst num
  refine ((LaneRule.of_lanewise (s.lanesIn_srcVec _ _) (lanesIn_zero _) (lanesIn_zero _)
    (exec_vecIdx (i := .vrot x) (f := rotRes) free pass rfl)).anyMode x.rm).congr fun k _ => ⟨?_, rfl⟩
  rw [State.ctl_et, s.laneAt_srcVec _ _ (Nat.mod_lt _ x.et.lanes_pos)]
end

/-- Settles O19: each lane by the lane that it takes. -/
theorem vectorPermutes : Obligations.VectorPermutes := by
  unfold Obligations.VectorPermutes
  refine ⟨fun x s pass free typed => ⟨vsel_lanes pass free typed, vshuf_rule pass free, fun n num => ?_⟩, fun x s pass free => ?_,
    fun x s pass free typed => ⟨vcompress_lanes pass free typed, vexpand_lanes pass free typed⟩,
    fun x s d b pass free int dist block => ⟨vcswap_lanes pass free (s.srcNum_eq dist) (s.srcNum_eq block) int,
      vcswap_illegal pass free (s.srcNum_eq dist) (s.srcNum_eq block)⟩⟩
  · exact ⟨vbcast_rule pass free (s.srcNum_eq num), vrot_rule pass free (s.srcNum_eq num)⟩
  · exact (lane1_rule (i := .vmov x) (op := fun _ _ a _ _ => (a, 0)) (rounds := false) free pass rfl).anyMode x.rm

end Sys2Proof.Machine
end

section
/-!
SUPPORT. Reductions, scans and single elements (R191 to R194).
-/
namespace Sys2Proof
theorem Fmt.isI_of_isF {et : Fmt} (h : et.isF = true) : et.isI = false := by
  revert h
  cases et <;> decide
theorem Fmt.width_pos (et : Fmt) : 0 < et.width := by cases et <;> decide
theorem Fmt.lanes_bounds_of_isI {et : Fmt} (h : et.isI = true) : 8 ≤ et.lanes ∧ et.lanes ≤ 64 := by
  revert h
  cases et <;> decide
end Sys2Proof
namespace Sys2Proof.Machine
open Sys2Proof

/-! ## The pairwise tree (R191) -/

section
variable {α : Type} {op : Nat → α → α → α × FlagSet}

theorem treeLevel_length (op : Nat → α → α → α × FlagSet) (k : Nat) (l : List α) : (treeLevel op k l).1.length = (l.length + 1) / 2 := by
  induction k, l using treeLevel.induct (op := op) with
  | case1 k x y r ih => simp only [treeLevel, List.length_cons, ih]; omega
  | case2 k l short =>
    match l, short with
    | [], _ => simp [treeLevel]
    | [x], _ => simp [treeLevel]
    | x :: y :: r, short => exact absurd rfl (short x y r)
/-- What every level keeps the tree keeps. -/
theorem treeFold_keeps {P : List α → Prop} (level : ∀ k l, P l → P (treeLevel op k l).1) (n k : Nat) (l : List α) (f : FlagSet) (h : P l) :
    P (treeFold op n k l f).1 := by
  induction n generalizing k l f with
  | zero => exact h
  | succ n ih =>
    match l with
    | [] => exact h
    | [_] => exact h
    | _ :: _ :: _ => exact ih _ _ _ (level k _ h)
/-- A tree of `n` levels leaves one value of at most `2 ^ n`. -/
theorem treeFold_single {n k : Nat} {l : List α} {f : FlagSet} (some : l ≠ []) (few : l.length ≤ 2 ^ n) :
    ∃ r, (treeFold op n k l f).1 = [r] := by
  induction n generalizing k l f with
  | zero =>
    match l with
    | [] => exact absurd rfl some
    | [r] => exact ⟨r, rfl⟩
    | _ :: _ :: _ => simp at few
  | succ n ih =>
    match l with
    | [] => exact absurd rfl some
    | [r] => exact ⟨r, rfl⟩
    | x :: y :: r =>
      have length := treeLevel_length op k (x :: y :: r)
      refine ih (fun none => ?_) ?_
      · rw [none] at length
        simp only [List.length_nil, List.length_cons] at length
        omega
      · rw [length]
        rw [Nat.pow_succ] at few
        omega
end

theorem treeLevel_sum (M k : Nat) (l : List Nat) :
    (treeLevel (fun _ x y => ((x + y) % M, (0 : FlagSet))) k l).1.sum % M = l.sum % M := by
  induction k, l using treeLevel.induct (op := fun _ x y => ((x + y) % M, (0 : FlagSet))) with
  | case1 k x y r ih =>
    rw [treeLevel, List.sum_cons, List.sum_cons, List.sum_cons, Nat.add_mod, ih, ← Nat.add_mod, ← Nat.add_assoc]
    exact Nat.mod_add_mod _ _ _
  | case2 k l short => rw [treeLevel]; exact fun x y r e => short x y r e
/-- The operation of a choice gives one of its operands, whose key is the greatest. -/
def Chooses (key : Nat → Int) (op : Nat → Nat → Nat) : Prop :=
  ∀ x y, (op x y = x ∨ op x y = y) ∧ key x ≤ key (op x y) ∧ key y ≤ key (op x y)
/-- The values of `l` stand in `us` and reach every key of `us`. -/
def Covers (key : Nat → Int) (us l : List Nat) : Prop := (∀ y ∈ l, y ∈ us) ∧ ∀ x ∈ us, ∃ y ∈ l, key x ≤ key y
theorem treeLevel_covers {key : Nat → Int} {op : Nat → Nat → Nat} (choice : Chooses key op) (k : Nat) (l : List Nat) :
    Covers key l (treeLevel (fun _ x y => (op x y, (0 : FlagSet))) k l).1 := by
  induction k, l using treeLevel.induct (op := fun _ x y => (op x y, (0 : FlagSet))) with
  | case1 k x y r ih =>
    obtain ⟨inside, reach⟩ := ih
    obtain ⟨one, left, right⟩ := choice x y
    rw [treeLevel]
    constructor
    · simp only [List.mem_cons]
      rintro z (rfl | hz)
      · exact one.imp_right .inl
      · exact .inr (.inr (inside z hz))
    · simp only [List.mem_cons, exists_eq_or_imp]
      rintro z (rfl | rfl | hz)
      · exact .inl left
      · exact .inl right
      · exact .inr (reach z hz)
  | case2 k l short =>
    rw [treeLevel]
    · exact ⟨fun _ h => h, fun x h => ⟨x, h, le_refl _⟩⟩
    · exact fun x y r e => short x y r e
theorem Covers.trans {key : Nat → Int} {us l m : List Nat} (h : Covers key us l) (h' : Covers key l m) : Covers key us m := by
  obtain ⟨inside, reach⟩ := h
  obtain ⟨inside', reach'⟩ := h'
  refine ⟨fun y hy => inside y (inside' y hy), fun x hx => ?_⟩
  obtain ⟨y, hy, le⟩ := reach x hx
  obtain ⟨z, hz, le'⟩ := reach' y hy
  exact ⟨z, hz, le.trans le'⟩

section
variable {us : List Nat} (some : us ≠ []) (few : us.length ≤ 64)
include some few

theorem treeFold_sum (M : Nat) :
    (treeFold (fun _ x y => ((x + y) % M, (0 : FlagSet))) 6 0 us 0).1.headD 0 % M = us.sum % M := by
  obtain ⟨r, e⟩ := treeFold_single (op := fun _ x y => ((x + y) % M, (0 : FlagSet))) (n := 6) (k := 0) (f := 0) some few
  have total := treeFold_keeps (op := fun _ x y => ((x + y) % M, (0 : FlagSet))) (P := fun l => l.sum % M = us.sum % M)
    (fun k l h => (treeLevel_sum M k l).trans h) 6 0 us 0 rfl
  rw [e] at total ⊢
  exact total
theorem treeFold_choice {key : Nat → Int} {op : Nat → Nat → Nat} (choice : Chooses key op) :
    let r := (treeFold (fun _ x y => (op x y, (0 : FlagSet))) 6 0 us 0).1.headD 0
    r ∈ us ∧ ∀ x ∈ us, key x ≤ key r := by
  intro r
  obtain ⟨r', e⟩ := treeFold_single (op := fun _ x y => (op x y, (0 : FlagSet))) (n := 6) (k := 0) (f := 0) some few
  obtain ⟨inside, reach⟩ := treeFold_keeps (op := fun _ x y => (op x y, (0 : FlagSet))) (P := Covers key us)
    (fun k l h => h.trans (treeLevel_covers choice k l)) 6 0 us 0 ⟨fun _ h => h, fun x h => ⟨x, h, le_refl _⟩⟩
  have head : r = r' := by simp only [r, e, List.headD_cons]
  rw [e] at inside reach
  refine ⟨head ▸ inside r' (List.mem_singleton_self _), fun x hx => ?_⟩
  obtain ⟨y, hy, le⟩ := reach x hx
  rw [head, ← List.mem_singleton.1 hy]
  exact le
end

/-! ## Lanes with the identity in place of those masked off -/

theorem maskedLanes_range' {α : Type} (c : Ctl) (idv : α) (x : Nat → α) (i n : Nat) :
    maskedLanes c idv i ((List.range' i n).map x) = (List.range' i n).map (fun k => if c.active k then x k else idv) := by
  induction n generalizing i with
  | zero => rfl
  | succ n ih => simp only [List.range'_succ, List.map_cons, maskedLanes, ih]
theorem maskedLanes_range {α : Type} (c : Ctl) (idv : α) (x : Nat → α) (n : Nat) :
    maskedLanes c idv 0 ((List.range n).map x) = (List.range n).map (fun k => if c.active k then x k else idv) := by
  rw [List.range_eq_range', maskedLanes_range']
section
variable (s : State) {et : Fmt} (typed : et ≠ .raw) (rm : Rm) (wm : WReg) (x : Src)
include typed

/-- The lanes of a source, the masked-off ones replaced. -/
theorem State.maskedLanes_srcVec (idv : Nat) :
    maskedLanes (s.ctl et rm wm) idv 0 ((s.ctl et rm wm).et.lanesIn (s.srcVec et x)) =
      (List.range et.lanes).map (fun k => if (s.rdW wm).getLsbD k then s.srcLane et x k else idv) := by
  rw [State.ctl_et, s.lanesIn_srcVec, maskedLanes_range, s.ctl_active, s.actLane_of_ne_raw typed]
/-- The values of a source's lanes, the masked-off ones replaced. -/
theorem State.maskedLanes_values (idv : FVal) (f : Nat → FVal) :
    maskedLanes (s.ctl et rm wm) idv 0 (((s.ctl et rm wm).et.lanesIn (s.srcVec et x)).map f) =
      (List.range et.lanes).map (fun k => if (s.rdW wm).getLsbD k then f (s.srcLane et x k) else idv) := by
  rw [State.ctl_et, s.lanesIn_srcVec, List.map_map, maskedLanes_range, s.ctl_active, s.actLane_of_ne_raw typed]
  rfl
end

/-! ## The result of a reduction -/

/-- A result with a value in lane 0 and zeros above. -/
def headLanes (c : Ctl) (h : Nat) (fl : FlagSet) (n : Nat) : LaneRes := allLanes c (h :: List.replicate (c.et.lanes - 1) 0) fl n
theorem headLanes_done {s : State} {i : Instr} {d : VReg} {et : Fmt} {rm : Rm} {wm : WReg} {h n : Nat} {fl : FlagSet}
    (run : exec i s = .next (s.resDone d et rm (headLanes (s.ctl et rm wm) h fl n))) :
    ∃ v, exec i s = .next (s.vecDone d v fl (s.ctl et rm wm).rm n) ∧ (∀ k, 0 < k → k < et.lanes → vlane et v k = 0) ∧
      vlane et v 0 = h % 2 ^ et.width := by
  refine ⟨_, run, fun k pos hk => ?_, vlane_vecOf et.lanes_pos _⟩
  rw [vlane_vecOf hk]
  obtain ⟨j, rfl⟩ : ∃ j, k = j + 1 := ⟨k - 1, by omega⟩
  change (List.replicate (et.lanes - 1) 0).getD j 0 % _ = _
  rw [List.getD_replicate]
  · exact Nat.zero_mod _
  · omega
/-- A reduction that sets no flag and draws nothing. -/
theorem headLanes_quiet {s : State} {i : Instr} {d : VReg} {et : Fmt} {rm : Rm} {wm : WReg} {h : Nat}
    (run : exec i s = .next (s.resDone d et rm (headLanes (s.ctl et rm wm) h 0 0))) :
    ∃ v, exec i s = .next (s.vecDone d v 0 .rne 0) ∧ (∀ k, 0 < k → k < et.lanes → vlane et v k = 0) ∧
      vlane et v 0 = h % 2 ^ et.width := by
  obtain ⟨v, run, rest⟩ := headLanes_done run
  exact ⟨v, s.vecDone_undrawn d v 0 _ .rne ▸ run, rest⟩

/-! ## Integers -/

theorem redI_add (c : Ctl) (x y : Nat) : redI c .add x y = (x + y) % 2 ^ c.et.width := rfl
theorem redI_max (c : Ctl) (x y : Nat) : redI c .max x y = if laneInt c.et x < laneInt c.et y then y else x := by
  simp only [redI, intVal_eq_laneInt, ← not_lt, ite_not]
theorem redI_min (c : Ctl) (x y : Nat) : redI c .min x y = if laneInt c.et y < laneInt c.et x then y else x := by
  simp only [redI, intVal_eq_laneInt, ← not_lt, ite_not]
theorem redI_or (c : Ctl) (x y : Nat) : redI c .or x y = x ||| y := rfl
theorem redI_lt (c : Ctl) (o : RedOp) {x y : Nat} (hx : x < 2 ^ c.et.width) (hy : y < 2 ^ c.et.width) : redI c o x y < 2 ^ c.et.width := by
  cases o with
  | add => exact Nat.mod_lt _ (Nat.two_pow_pos _)
  | max => rw [redI_max]; split <;> assumption
  | min => rw [redI_min]; split <;> assumption
  | or => exact Nat.or_lt_two_pow hx hy
theorem redIdI_lt (c : Ctl) (o : RedOp) : redIdI c o < 2 ^ c.et.width := by
  cases o with
  | add => exact Nat.two_pow_pos _
  | max => exact intCode_lt _ _
  | min => exact intCode_lt _ _
  | or => exact Nat.two_pow_pos _
theorem chooses_max (c : Ctl) : Chooses (laneInt c.et) (redI c .max) := by
  intro x y
  rw [redI_max]
  split
  · exact ⟨.inr rfl, by omega, le_refl _⟩
  · exact ⟨.inl rfl, le_refl _, by omega⟩
theorem chooses_min (c : Ctl) : Chooses (fun x => -laneInt c.et x) (redI c .min) := by
  intro x y
  rw [redI_min]
  split
  · exact ⟨.inr rfl, by dsimp only; omega, le_refl _⟩
  · exact ⟨.inl rfl, le_refl _, by dsimp only; omega⟩
theorem pow_width_pred (et : Fmt) : 2 ^ et.width = 2 * 2 ^ (et.width - 1) := by
  rw [← Nat.pow_succ', Nat.succ_eq_add_one, Nat.sub_add_cancel et.width_pos]
theorem redIdI_max (c : Ctl) : redIdI c .max = if c.et.isSigned then 2 ^ (c.et.width - 1) else 0 := by
  have double := pow_width_pred c.et
  have pos := Nat.two_pow_pos (c.et.width - 1)
  have cast : ((2 : Int) ^ (c.et.width - 1)) = (2 ^ (c.et.width - 1) : Nat) := by push_cast; rfl
  have cast' : ((2 : Int) ^ c.et.width) = (2 ^ c.et.width : Nat) := by push_cast; rfl
  simp only [redIdI, intCode, intMin]
  split
  · rw [cast, cast', double]
    generalize 2 ^ (c.et.width - 1) = h at pos
    rw [← Int.add_emod_right, Int.emod_eq_of_lt] <;> push_cast <;> omega
  · rfl
theorem redIdI_min (c : Ctl) : redIdI c .min = (if c.et.isSigned then 2 ^ (c.et.width - 1) else 2 ^ c.et.width) - 1 := by
  have double := pow_width_pred c.et
  have pos := Nat.two_pow_pos (c.et.width - 1)
  have max : intMax c.et.isSigned c.et.width = (((if c.et.isSigned then 2 ^ (c.et.width - 1) else 2 ^ c.et.width) - 1 : Nat) : Int) := by
    unfold intMax
    split <;> push_cast [Nat.one_le_two_pow] <;> rfl
  simp only [redIdI, intCode]
  rw [max, toNat_natCast_emod, Nat.mod_eq_of_lt]
  split <;> omega
/-- The identity of a choice has the least key. -/
theorem laneInt_redIdI_max_le {c : Ctl} {x : Nat} (hx : x < 2 ^ c.et.width) : laneInt c.et (redIdI c .max) ≤ laneInt c.et x := by
  have double := pow_width_pred c.et
  have cast : (2 : Int) ^ c.et.width = (2 ^ c.et.width : Nat) := by push_cast; rfl
  rw [redIdI_max, laneInt, laneInt, cast]
  cases c.et.isSigned with
  | false => simp
  | true =>
    simp only [true_and, if_true]
    split_ifs <;> omega
theorem le_laneInt_redIdI_min {c : Ctl} {x : Nat} (hx : x < 2 ^ c.et.width) : laneInt c.et x ≤ laneInt c.et (redIdI c .min) := by
  have double := pow_width_pred c.et
  have cast : (2 : Int) ^ c.et.width = (2 ^ c.et.width : Nat) := by push_cast; rfl
  rw [redIdI_min, laneInt, laneInt, cast]
  cases c.et.isSigned with
  | false =>
    simp only [Bool.false_eq_true, false_and, if_false]
    omega
  | true =>
    simp only [true_and, if_true]
    split_ifs <;> omega

/-- What the tree makes of integer codes. -/
def intTree (c : Ctl) (o : RedOp) (us : List Nat) : Nat := (treeFold (fun _ x y => (redI c o x y, (0 : FlagSet))) 6 0 us 0).1.headD 0
theorem reduce_int {c : Ctl} (int : c.et.isI = true) (o : RedOp) (x : Nat) :
    reduce c o x = headLanes c (intTree c o (maskedLanes c (redIdI c o) 0 (c.et.lanesIn x))) 0 0 := by rw [reduce, if_pos int]; rfl
theorem Fmt.ne_raw_of_isI {et : Fmt} (h : et.isI = true) : et ≠ .raw := by rintro rfl; cases h
theorem Fmt.ne_raw_of_isF {et : Fmt} (h : et.isF = true) : et ≠ .raw := by rintro rfl; cases h
section
variable {et : Fmt} (int : et.isI = true) (f : Nat → Nat)
include int

theorem range_lanes_ne_nil : (List.range et.lanes).map f ≠ [] := by
  have := (Fmt.lanes_bounds_of_isI int).1
  exact List.ne_nil_of_length_pos (by rw [List.length_map, List.length_range]; omega)
theorem range_lanes_length_le : ((List.range et.lanes).map f).length ≤ 64 := by
  rw [List.length_map, List.length_range]
  exact (Fmt.lanes_bounds_of_isI int).2
end

section
variable {s : State} {x : OpV1} {o : RedOp} {i : Instr} (pass : s.guard x.q = true) (free : s.noStreams = true) (int : x.et.isI = true)
include pass free int

/-- A reduction of integers leaves what the tree makes of the active lanes and the identity. -/
theorem reduction_int (run : exec i s = vecRun x.q (vec1 (fun c a _ => reduce c o a) x) s) :
    ∃ v, exec i s = .next (s.vecDone x.d v 0 .rne 0) ∧ (∀ k, 0 < k → k < x.et.lanes → vlane x.et v k = 0) ∧
      vlane x.et v 0 = intTree (s.ctl x.et x.rm x.wm) o ((List.range x.et.lanes).map
        (fun k => if (s.rdW x.wm).getLsbD k then s.srcLane x.et x.a k else redIdI (s.ctl x.et x.rm x.wm) o)) % 2 ^ x.et.width := by
  have done := exec_vec1 (f := fun c a _ => reduce c o a) free pass run
  rw [reduce_int (c := s.ctl x.et x.rm x.wm) int, s.maskedLanes_srcVec (Fmt.ne_raw_of_isI int)] at done
  exact headLanes_quiet done
/-- The active lane that a choice among integers takes. -/
theorem choice_int {key : Nat → Int} (choice : Chooses key (redI (s.ctl x.et x.rm x.wm) o))
    (least : ∀ u, u < 2 ^ x.et.width → key (redIdI (s.ctl x.et x.rm x.wm) o) ≤ key u)
    (inj : ∀ u v, u < 2 ^ x.et.width → v < 2 ^ x.et.width → key u = key v → u = v)
    (run : exec i s = vecRun x.q (vec1 (fun c a _ => reduce c o a) x) s) :
    let act := fun k => (s.rdW x.wm).getLsbD k
    let a := fun k => s.srcLane x.et x.a k
    ∃ v, exec i s = .next (s.vecDone x.d v 0 .rne 0) ∧ (∀ k, 0 < k → k < x.et.lanes → vlane x.et v k = 0) ∧
      (∀ k, k < x.et.lanes → act k = true → key (a k) ≤ key (vlane x.et v 0)) ∧
      ((∃ k, k < x.et.lanes ∧ act k = true) → ∃ k, k < x.et.lanes ∧ act k = true ∧ a k = vlane x.et v 0) ∧
      ((∀ k, k < x.et.lanes → act k = false) → vlane x.et v 0 = redIdI (s.ctl x.et x.rm x.wm) o) := by
  intro act a
  obtain ⟨v, done, zeros, head⟩ := reduction_int pass free int run
  obtain ⟨inside, greatest⟩ := treeFold_choice (range_lanes_ne_nil int fun k => if act k then a k else redIdI (s.ctl x.et x.rm x.wm) o)
    (range_lanes_length_le int _) choice
  have idLt : redIdI (s.ctl x.et x.rm x.wm) o < 2 ^ x.et.width := redIdI_lt _ _
  obtain ⟨k, hk, is⟩ := List.mem_map.1 inside
  have value : vlane x.et v 0 = if act k then a k else redIdI (s.ctl x.et x.rm x.wm) o := by
    rw [head, intTree, ← is]
    refine Nat.mod_eq_of_lt ?_
    split
    · exact s.srcLane_lt _ _ _
    · exact idLt
  have top : ∀ k, k < x.et.lanes → act k = true → key (a k) ≤ key (vlane x.et v 0) := by
    intro j hj active
    rw [value, is]
    exact greatest _ (List.mem_map.2 ⟨j, List.mem_range.2 hj, if_pos active⟩)
  refine ⟨v, done, zeros, top, ?_, fun none => ?_⟩
  · rintro ⟨j, hj, active⟩
    cases chosen : act k with
    | true => exact ⟨k, List.mem_range.1 hk, chosen, by rw [value, if_pos chosen]⟩
    | false =>
      rw [chosen, if_neg Bool.false_ne_true] at value
      refine ⟨j, hj, active, inj _ _ (s.srcLane_lt _ _ _) (value ▸ idLt) (le_antisymm (top j hj active) ?_)⟩
      rw [value]
      exact least _ (s.srcLane_lt _ _ _)
  · rw [value, none k (List.mem_range.1 hk), if_neg Bool.false_ne_true]
end

/-- The tree adds modulo the width. -/
theorem intTree_add {c : Ctl} (int : c.et.isI = true) (f : Nat → Nat) :
    intTree c .add ((List.range c.et.lanes).map f) % 2 ^ c.et.width = ((List.range c.et.lanes).map f).sum % 2 ^ c.et.width :=
  treeFold_sum (range_lanes_ne_nil int f) (range_lanes_length_le int f) _
theorem reduceDot_int {c : Ctl} (int : c.et.isI = true) {x y : Nat} {a b : Nat → Nat}
    (hx : c.et.lanesIn x = (List.range c.et.lanes).map a) (hy : c.et.lanesIn y = (List.range c.et.lanes).map b) :
    reduceDot c x y = headLanes c (intTree c .add ((List.range c.et.lanes).map
      (fun k => if c.active k then a k * b k % 2 ^ c.et.width else 0))) 0 0 := by
  rw [reduceDot, if_pos int, hx, hy, List.zipWith_map, List.zipWith_self, maskedLanes_range]
  rfl
theorem sum_products_mod (M : Nat) (l : List Nat) (act : Nat → Bool) (p : Nat → Nat) :
    (l.map (fun k => if act k then p k % M else 0)).sum % M = (l.map (fun k => if act k then p k else 0)).sum % M := by
  rw [List.sum_nat_mod, List.sum_nat_mod (l.map fun k => if act k then p k else 0), List.map_map, List.map_map]
  congr 3
  funext k
  dsimp only [Function.comp]
  split
  · exact Nat.mod_mod _ _
  · rfl

/-! ## Scans (R192) -/

theorem scan_int {c : Ctl} (int : c.et.isI = true) {o : RedOp} {x u : Nat} {r : List Nat}
    (h : maskedLanes c (redIdI c o) 0 (c.et.lanesIn x) = u :: r) : scan c o x = allLanes c (u :: scanI c o u r) 0 0 := by
  rw [scan, if_pos int, h]
theorem scanI_getD (c : Ctl) (o : RedOp) (u : Nat) {r : List Nat} {k : Nat} (hk : k ≤ r.length) :
    (u :: scanI c o u r).getD k 0 = (r.take k).foldl (redI c o) u := by
  induction r generalizing u k with
  | nil =>
    obtain rfl : k = 0 := Nat.le_zero.1 hk
    rfl
  | cons y r ih =>
    cases k with
    | zero => rfl
    | succ k => exact ih (redI c o u y) (Nat.le_of_succ_le_succ hk)
theorem foldl_redI_lt (c : Ctl) (o : RedOp) {u : Nat} {r : List Nat} (hu : u < 2 ^ c.et.width) (hr : ∀ x ∈ r, x < 2 ^ c.et.width) :
    r.foldl (redI c o) u < 2 ^ c.et.width := by
  induction r generalizing u with
  | nil => exact hu
  | cons y r ih =>
    obtain ⟨hy, hr⟩ := List.forall_mem_cons.1 hr
    exact ih (redI_lt c o hu hy) hr
/-- The lanes of a type, the first apart. -/
theorem map_range_lanes {α : Type} (et : Fmt) (f : Nat → α) :
    (List.range et.lanes).map f = f 0 :: (List.range (et.lanes - 1)).map (fun j => f (j + 1)) := by
  conv => lhs; rw [← Nat.sub_add_cancel et.lanes_pos, List.range_succ_eq_map, List.map_cons, List.map_map]
  rfl

section
variable {s : State} {x : OpScan} (pass : s.guard x.q = true) (free : s.noStreams = true)
include pass free

theorem exec_vscan : exec (.vscan x) s = .next (s.resDone x.d x.et x.rm
    (scan (s.ctl x.et x.rm x.wm) (scanOp x.op) (s.srcVec x.et x.a))) :=
  exec_vec1 (i := .vscan x) (x := ⟨x.q, x.d, x.a, x.et, x.rm, x.wm⟩) (f := fun c a _ => scan c (scanOp x.op) a) free pass rfl
theorem vscan_int (int : x.et.isI = true) :
    let c := s.ctl x.et x.rm x.wm
    let u := fun j => if (s.rdW x.wm).getLsbD j then s.srcLane x.et x.a j else redIdI c (scanOp x.op)
    EveryLane s (.vscan x) x.d x.et (fun k => ((List.range k).map (fun j => u (j + 1))).foldl (redI c (scanOp x.op)) (u 0)) := by
  intro c u
  have lanes : maskedLanes c (redIdI c (scanOp x.op)) 0 (c.et.lanesIn (s.srcVec x.et x.a)) =
      u 0 :: (List.range (x.et.lanes - 1)).map (fun j => u (j + 1)) :=
    (s.maskedLanes_srcVec (Fmt.ne_raw_of_isI int) _ _ _ _).trans (map_range_lanes x.et u)
  have small (k : Nat) : u k < 2 ^ x.et.width := by
    dsimp only [u]
    split
    · exact s.srcLane_lt _ _ _
    · exact redIdI_lt c _
  have run := exec_vscan (x := x) pass free
  rw [scan_int (c := s.ctl x.et x.rm x.wm) int lanes] at run
  refine .of_lanes run rfl rfl fun k hk => ?_
  rw [allLanes, scanI_getD _ _ _ (by rw [List.length_map, List.length_range]; omega), ← List.map_take, List.take_range,
    Nat.min_eq_left (by omega)]
  refine Nat.mod_eq_of_lt (foldl_redI_lt c _ (small 0) fun y hy => ?_)
  obtain ⟨j, -, rfl⟩ := List.mem_map.1 hy
  exact small _
end
/-- The operation and the identity of a scan, by their values. -/
theorem vscan_of {s : State} {x : OpScan} {join : Nat → Nat → Nat} {unit : Nat} (pass : s.guard x.q = true) (free : s.noStreams = true)
    (int : x.et.isI = true) (hjoin : ∀ a b, join a b = redI (s.ctl x.et x.rm x.wm) (scanOp x.op) a b)
    (hunit : unit = redIdI (s.ctl x.et x.rm x.wm) (scanOp x.op)) :
    let u := fun j => if (s.rdW x.wm).getLsbD j then s.srcLane x.et x.a j else unit
    EveryLane s (.vscan x) x.d x.et (fun k => ((List.range k).map (fun j => u (j + 1))).foldl join (u 0)) := by
  obtain rfl : join = redI (s.ctl x.et x.rm x.wm) (scanOp x.op) := funext fun a => funext fun b => hjoin a b
  subst hunit
  exact vscan_int pass free int
theorem scanOp_cases (n : BitVec 2) :
    n = 0 ∧ scanOp n = .add ∨ n = 1 ∧ scanOp n = .max ∨ n = 2 ∧ scanOp n = .min ∨ n = 3 ∧ scanOp n = .or := by
  revert n
  decide

/-! ## Floating-point values -/

theorem reduceF_eq (c : Ctl) (o : RedOp) (us : List FVal) (f : FlagSet) :
    reduceF c o us f = headLanes c (c.fp.code ((treeFold (redF c o) 6 0 us f).1.headD (redIdF o))) (treeFold (redF c o) 6 0 us f).2
      (c.et.lanes - 1) := rfl
section
variable {s : State} {x : OpV1} {o : RedOp} {i : Instr} (pass : s.guard x.q = true) (free : s.noStreams = true) (float : x.et.isF = true)
include pass free float

theorem reduction_float (run : exec i s = vecRun x.q (vec1 (fun c a _ => reduce c o a) x) s) :
    let c := s.ctl x.et x.rm x.wm
    let us := (List.range x.et.lanes).map (fun k => if (s.rdW x.wm).getLsbD k then c.val (s.srcLane x.et x.a k) else redIdF o)
    let t := treeFold (redF c o) 6 0 us 0
    ∃ v, exec i s = .next (s.vecDone x.d v t.2 c.rm (x.et.lanes - 1)) ∧ (∀ k, 0 < k → k < x.et.lanes → vlane x.et v k = 0) ∧
      vlane x.et v 0 = c.fp.code (t.1.headD (redIdF o)) % 2 ^ x.et.width := by
  have done := exec_vec1 (f := fun c a _ => reduce c o a) free pass run
  have notInt : ¬ (s.ctl x.et x.rm x.wm).et.isI = true := by rw [State.ctl_et, Fmt.isI_of_isF float]; exact Bool.false_ne_true
  rw [reduce, if_neg notInt, s.maskedLanes_values (Fmt.ne_raw_of_isF float), reduceF_eq] at done
  exact headLanes_done done
end
theorem scan_float {c : Ctl} (float : c.et.isF = true) {o : RedOp} {x : Nat} {u : FVal} {r : List FVal}
    (h : maskedLanes c (redIdF o) 0 ((c.et.lanesIn x).map c.val) = u :: r) :
    scan c o x = allLanes c ((if c.active 0 then (c.et.lanesIn x).headD 0 else c.fp.code (redIdF o)) :: (scanF c o 0 u r).1)
      (scanF c o 0 u r).2 (c.et.lanes - 1) := by
  rw [scan, if_neg (by rw [Fmt.isI_of_isF float]; exact Bool.false_ne_true), h]
theorem vscan_float {s : State} {x : OpScan} (pass : s.guard x.q = true) (free : s.noStreams = true) (float : x.et.isF = true) :
    let c := s.ctl x.et x.rm x.wm
    let o := scanOp x.op
    let a := s.srcLane x.et x.a
    let u := fun k => if (s.rdW x.wm).getLsbD k then c.val (a k) else redIdF o
    let t := scanF c o 0 (u 0) ((List.range (x.et.lanes - 1)).map (fun j => u (j + 1)))
    ∃ v, exec (.vscan x) s = .next (s.vecDone x.d v t.2 c.rm (x.et.lanes - 1)) ∧
      vlane x.et v 0 = (if (s.rdW x.wm).getLsbD 0 then a 0 else c.fp.code (redIdF o) % 2 ^ x.et.width) ∧
      ∀ k, k + 1 < x.et.lanes → vlane x.et v (k + 1) = t.1.getD k 0 % 2 ^ x.et.width := by
  intro c o a u t
  have typed := Fmt.ne_raw_of_isF float
  have lanes : maskedLanes c (redIdF o) 0 ((c.et.lanesIn (s.srcVec x.et x.a)).map c.val) =
      u 0 :: (List.range (x.et.lanes - 1)).map (fun j => u (j + 1)) :=
    (s.maskedLanes_values typed _ _ _ _ _).trans (map_range_lanes x.et u)
  have run := exec_vscan (x := x) pass free
  rw [scan_float (c := s.ctl x.et x.rm x.wm) float lanes] at run
  refine ⟨_, run, (vlane_vecOf x.et.lanes_pos _).trans ?_, fun k hk => vlane_vecOf hk _⟩
  rw [s.ctl_active, s.actLane_of_ne_raw typed, State.ctl_et, s.lanesIn_srcVec, map_range_lanes]
  change (if (s.rdW x.wm).getLsbD 0 then a 0 else c.fp.code (redIdF o)) % _ = _
  split
  · exact Nat.mod_eq_of_lt (s.srcLane_lt _ _ _)
  · rfl

/-! ## Single elements (R193, R194) -/

section
variable {s : State} {x : OpExtr} (pass : s.guard x.q = true)
include pass

/-- VEXTR writes its number to a general register. -/
theorem exec_vextr {v : Word} (effect : doVextr x s = .ok () (s.wrG x.d v)) :
    exec (.vextr x) s = .next (((s.wrG x.d v).count 0 7 1).done 8) :=
  (vecRun_pass (s := s) (f := doVextr x) pass).trans (by rw [effect]; rfl)
theorem exec_vextr_lane {a b : Src} (free : s.noStreams = true) (lane : x.mode = .lane a b) :
    exec (.vextr x) s = .next (((s.wrG x.d (BitVec.ofInt 64 (laneInt x.et (s.srcLane x.et a (s.srcNum b % x.et.lanes))))).count 0 7 1).done 8) := by
  refine exec_vextr pass ?_
  simp only [doVextr, lane]
  rw [sources_eq free, ← s.laneAt_srcVec _ _ (Nat.mod_lt _ x.et.lanes_pos), ← intVal_eq_laneInt]
  rfl
end
theorem findIdx_map_range (act : Nat → Bool) (L : Nat) : let n := ((List.range L).map act).findIdx id
    n ≤ L ∧ (∀ k, k < n → act k = false) ∧ (n < L → act n = true) := by
  intro n
  have length : ((List.range L).map act).length = L := by rw [List.length_map, List.length_range]
  have bound : n ≤ L := length ▸ List.findIdx_le_length
  refine ⟨bound, fun k hk => ?_, fun hn => ?_⟩
  · have := List.not_of_lt_findIdx hk
    simpa using this
  · have := List.findIdx_getElem (p := id) (xs := (List.range L).map act) (w := by rw [length]; exact hn)
    rwa [List.getElem_map, List.getElem_range] at this
theorem vinsr_lanes {s : State} {x : OpInsr} (pass : s.guard x.q = true) (free : s.noStreams = true) :
    EveryLane s (.vinsr x) x.d x.et (fun k =>
      if k = s.srcNum x.b % x.et.lanes then (s.rdG x.a).toNat % 2 ^ x.et.width else vlane x.et (s.rdV x.d) k) := by
  refine .of_lanes (rm := .rne) (r := insrRes (s.ctl x.et .rne 0) (s.rdG x.a).toNat (s.srcNum x.b) (s.rdV x.d).toNat)
    (vecRun_of_effect (f := doVinsr x) pass (deliver_of_noStreams free)) rfl rfl fun k hk => ?_
  change ((List.range x.et.lanes).map _).getD k 0 % _ = _
  rw [getD_map_range hk, State.ctl_et, lanesIn_toNat, laneAt, getD_map_range hk]
  by_cases here : k = s.srcNum x.b % x.et.lanes
  · rw [if_pos here]
    exact Nat.mod_mod _ _
  · rw [if_neg here]
    exact Nat.mod_eq_of_lt (vlane_lt _ _ _)

/-! ## The statement -/

/-- Settles O20: the tree adds modulo the width and chooses a lane of the greatest key; a scan folds; the rest is the model's own tree. -/
theorem vectorReductions : Obligations.VectorReductions := by
  unfold Obligations.VectorReductions
  refine ⟨⟨fun x s pass free int => ⟨?_, ?_, ?_⟩, fun x s pass free int => ?_, fun x s pass free int => ?_,
    fun x s pass free float => ?_, fun x s pass free float => ?_, fun x s pass free float _ => vscan_float pass free float⟩,
    fun x s pass free isX => ?_, fun x s n pass free isX num => ?_⟩
  · obtain ⟨v, done, zeros, head⟩ := reduction_int (o := .add) (i := .vrsum x) pass free int rfl
    exact ⟨v, done, zeros, head.trans (intTree_add (c := s.ctl x.et x.rm x.wm) int _)⟩
  · obtain ⟨v, done, zeros, top, one, none⟩ := choice_int (o := .max) (i := .vrmax x) pass free int (chooses_max _)
      (fun u hu => laneInt_redIdI_max_le hu) (fun u v hu hv => (laneInt_inj hu hv).1) rfl
    exact ⟨v, done, zeros, top, one, fun h => (none h).trans (redIdI_max _)⟩
  · obtain ⟨v, done, zeros, top, one, none⟩ := choice_int (o := .min) (i := .vrmin x) pass free int (chooses_min _)
      (fun u hu => neg_le_neg (le_laneInt_redIdI_min hu)) (fun u v hu hv e => (laneInt_inj hu hv).1 (neg_injective e)) rfl
    exact ⟨v, done, zeros, fun k hk active => neg_le_neg_iff.1 (top k hk active), one, fun h => (none h).trans (redIdI_min _)⟩
  · have done := exec_vec2 (i := .vrdot x) (f := fun c a b _ => reduceDot c a b) free pass rfl
    rw [reduceDot_int (c := s.ctl x.et x.rm x.wm) int (s.lanesIn_srcVec x.et x.a) (s.lanesIn_srcVec x.et x.b), s.ctl_active,
      s.actLane_of_ne_raw (Fmt.ne_raw_of_isI int)] at done
    obtain ⟨v, done, zeros, head⟩ := headLanes_quiet done
    exact ⟨v, done, zeros, head.trans ((intTree_add (c := s.ctl x.et x.rm x.wm) int _).trans (sum_products_mod _ _ _ _))⟩
  · refine vscan_of pass free int (fun a b => ?_) ?_ <;>
      rcases scanOp_cases x.op with ⟨op, named⟩ | ⟨op, named⟩ | ⟨op, named⟩ | ⟨op, named⟩ <;>
      rw [named, op]
    · exact (redI_add (s.ctl x.et x.rm x.wm) a b).symm
    · exact (redI_max (s.ctl x.et x.rm x.wm) a b).symm
    · exact (redI_min (s.ctl x.et x.rm x.wm) a b).symm
    · exact (redI_or (s.ctl x.et x.rm x.wm) a b).symm
    · rfl
    · exact (redIdI_max (s.ctl x.et x.rm x.wm)).symm
    · exact (redIdI_min (s.ctl x.et x.rm x.wm)).symm
    · rfl
  · intro c o i mem
    simp only [List.mem_cons, Prod.mk.injEq, List.not_mem_nil, or_false] at mem
    rcases mem with ⟨rfl, rfl⟩ | ⟨rfl, rfl⟩ | ⟨rfl, rfl⟩ <;> exact reduction_float pass free float rfl
  · have done := exec_vec2 (i := .vrdot x) (f := fun c a b _ => reduceDot c a b) free pass rfl
    rw [reduceDot, if_neg (by rw [State.ctl_et, Fmt.isI_of_isF float]; exact Bool.false_ne_true), reduceF_eq] at done
    rw [State.ctl_et, s.lanesIn_srcVec, s.lanesIn_srcVec] at done
    exact headLanes_done done
  · dsimp only
    split
    next a r lane => exact exec_vextr_lane (b := .g r) pass free lane
    next a m lane => exact exec_vextr_lane (b := .i m) pass free lane
    next => trivial
    next count =>
      refine exec_vextr pass ?_
      simp only [doVextr, count, maskLanes, List.countP_eq_length_filter]
      rw [List.filter_map, List.length_map]
      rfl
    next first =>
      obtain ⟨bound, below, here⟩ := findIdx_map_range (s.rdW x.wm).getLsbD x.et.lanes
      refine ⟨_, exec_vextr pass ?_, bound, below, here⟩
      simp only [doVextr, first]
      rfl
  · rw [← s.srcNum_eq num]
    exact vinsr_lanes pass free

end Sys2Proof.Machine
end

section
/-!
SUPPORT. REP, REPW and the issue of a pass (R211 to R213).
-/
namespace Sys2Proof.Machine
open Sys2Proof

/-! ## The captured words (R212) -/

theorem State.captured_length (s : State) (a n : Nat) : (s.captured a n).length = n := by
  induction n generalizing a with
  | zero => rfl
  | succ n ih => simp only [captured, List.length_cons, ih]
theorem isVector_iff (w : Word) : isVector w = true ↔ 0x10 ≤ w.toNat / 2 ^ 56 % 64 ∧ w.toNat / 2 ^ 56 % 64 ≤ 0x16 := decide_eq_true_iff
/-- The first word that a test refuses. -/
theorem findIdx_not_eq {α : Type} {p : α → Bool} {l : List α} {k : Nat} {w : α} (at_k : l[k]? = some w) (bad : p w = false)
    (before : ∀ v ∈ l.take k, p v = true) : l.findIdx (fun v => !p v) = k := by
  obtain ⟨hk, rfl⟩ := List.getElem?_eq_some_iff.1 at_k
  rw [List.findIdx_eq hk]
  refine ⟨by rw [bad]; rfl, fun j hj => ?_⟩
  rw [before _ (List.mem_take_iff_getElem.2 ⟨j, by omega, rfl⟩)]
  rfl

section
variable {x : OpRep} {s : State} {count : Nat} {block : List (Word × Word)}
  (hcount : (if x.cnt = 0 then x.icnt.toNat else (s.rdG x.cnt).toNat) = count)
  (hblock : s.captured (s.core.pc.toNat + 8) (x.lenM1.toNat + 1) = block) (empty : s.tile.rep.count = 0)
include hcount empty

theorem execRep_over (many : 2 ^ 32 ≤ count) : execRep x s = trapAt codeRepuse (repuseDetail 3 0) 8 s := by
  subst hcount
  rw [execRep, if_neg (not_not_intro empty), if_pos many]
include hblock
theorem execRep_captures (few : count < 2 ^ 32) (decodes : firstBad block = none) (vector : ∀ w ∈ block.map Prod.fst, isVector w = true)
    (noLoop : s.loopTests = false) :
    execRep x s = .next (({ s with core := { s.core with behind := none }, tile := { s.tile with rep :=
      if count = 0 then Repeat.empty else
        { words := block.map Prod.fst, count := count, pass := 0, next := 0, stag := x.stag,
          at_ := BitVec.ofNat 64 (s.core.pc.toNat + 8), fault := none } } }.count 0 7 1).done (8 + 8 * (x.lenM1.toNat + 1))) := by
  subst hcount hblock
  have length := s.captured_length (s.core.pc.toNat + 8) (x.lenM1.toNat + 1)
  have all : ((s.captured (s.core.pc.toNat + 8) (x.lenM1.toNat + 1)).map Prod.fst).findIdx (fun w => !isVector w) = x.lenM1.toNat + 1 := by
    rw [List.findIdx_eq_length.2 fun w hw => by rw [vector w hw]; rfl, List.length_map, length]
  simp only [execRep, empty, ne_eq, not_true_eq_false, if_false, if_neg (Nat.not_le.2 few), decodes, all, Nat.lt_irrefl, noLoop, Bool.false_and,
    Bool.false_eq_true]
  exact complete_eq _ _
theorem execRep_refuses {k : Nat} {w : Word} (few : count < 2 ^ 32) (decodes : firstBad block = none)
    (at_k : (block.map Prod.fst)[k]? = some w) (bad : isVector w = false) (before : ∀ v ∈ (block.map Prod.fst).take k, isVector v = true) :
    execRep x s = trapAt codeRepuse (repuseDetail 1 k) 8 s := by
  subst hcount hblock
  have inside : k < x.lenM1.toNat + 1 := by
    have := (List.getElem?_eq_some_iff.1 at_k).1
    rwa [List.length_map, s.captured_length] at this
  simp only [execRep, empty, ne_eq, not_true_eq_false, if_false, if_neg (Nat.not_le.2 few), decodes, findIdx_not_eq at_k bad before,
    if_pos inside]
end

theorem execRepw_of_guard {x : OpN} {s : State} (pass : s.guard x.q = true) :
    execRepw x s = if s.tile.rep.count ≠ 0 then stay .sequencer 0 s else complete 8 (s.count 0 7 1) := by
  rw [execRepw, guarded_pass _ pass]

/-! ## One issue of a pass (R213) -/

theorem execRepeatPassIssue_of {s : State} {lcid : Nat} (running : (s.getCore (.main lcid)).running = true)
    (goes : s.pastStop (.main lcid) = false ∨ (s.getTile lcid).handler.entering = true) :
    execRepeatPassIssue ⟨lcid⟩ s = .next (((s.focus (.main lcid)).passIssue).focus s.cur) := by
  unfold execRepeatPassIssue
  rw [if_pos]
  rcases goes with e | e <;> simp [running, e]
section
variable {u : State} {w : Word} {i : Instr} {q : Guard} {f : State → Res Unit} (some_left : u.tile.rep.count ≠ 0)
  (next : u.tile.rep.words[u.tile.rep.next]? = some w)
  (decodes : decodeFor .main (staggered u.tile.rep.stag u.tile.rep.pass w.toNat) 0 = .ok i) (effect : passOf i = some (q, f))
include some_left next decodes effect

theorem State.passIssue_of_guard {t : State} (pass : u.guard q = true) (done : f u = .ok () t) :
    u.passIssue = (((t.setRep t.tile.rep.advance).count 0 0 1).count 0 7 1).progress := by
  simp only [passIssue, next, some_left, if_false, decodes, effect, pass, if_true, done]
theorem State.passIssue_of_not_guard (skip : u.guard q = false) : u.passIssue = ((u.setRep u.tile.rep.advance).count 0 0 1).progress := by
  simp only [passIssue, next, some_left, if_false, decodes, effect, skip, Bool.false_eq_true]
end

/-! ## The statement -/

/-- Settles O24: each clause is a branch of REP's tests, of REPW's, or of the sequencer's issue. -/
theorem repeats : Obligations.Repeats := by
  unfold Obligations.Repeats
  refine ⟨⟨fun x s => ?_, fun x s pass => ⟨fun empty => ?_, fun left => ?_⟩⟩, fun s lcid w i q f t => ?_⟩
  · intro len pc count block ws vector empty
    refine ⟨execRep_over rfl empty, fun few decodes all noLoop => ?_, fun k w few decodes at_k bad before => ?_⟩
    · exact execRep_captures rfl rfl empty few decodes (fun w hw => (isVector_iff w).2 (all w hw)) noLoop
    · exact execRep_refuses rfl rfl empty few decodes at_k (Bool.eq_false_iff.2 (mt (isVector_iff w).1 bad))
        fun v hv => (isVector_iff v).2 (before v hv)
  · exact (execRepw_of_guard pass).trans (if_neg (not_not_intro empty))
  · exact (execRepw_of_guard pass).trans ((if_pos left).trans (stay_eq _ _ _))
  · intro p u r running goes left next decodes effect
    have issue := execRepeatPassIssue_of running goes
    exact ⟨fun pass done => issue.trans (by rw [State.passIssue_of_guard left next decodes effect pass done]),
      fun skip => issue.trans (by rw [State.passIssue_of_not_guard left next decodes effect skip])⟩

end Sys2Proof.Machine
end

section
/-!
SUPPORT. Packing, unpacking, conversion and quantisation of lanes (R198 to R201).
-/
namespace Sys2Proof
theorem Fmt.wider_lanes {et : Fmt} (h : 1 ≤ et.code ∧ et.code ≤ 6) :
    et.wider.lanes = et.lanes / 2 ∧ et.lanes / 2 + et.lanes / 2 = et.lanes := by
  revert h
  cases et <;> decide
theorem Fmt.narrower_lanes {et : Fmt} (h : 3 ≤ et.code ∧ et.code ≤ 8) :
    et.narrower.lanes = et.lanes + et.lanes ∧ et.narrower.isSigned = et.isSigned := by
  revert h
  cases et <;> decide
end Sys2Proof
namespace Sys2Proof.Machine
open Sys2Proof

/-- One half of twice as many lanes. -/
theorem half_range (half : Bool) (L : Nat) (a : Nat → Nat) :
    (if half then ((List.range (L + L)).map a).drop L else (List.range (L + L)).map a).take L =
      (List.range L).map (fun k => a (if half then L + k else k)) := by
  rw [List.range_add, List.map_append, List.map_map]
  have length : ((List.range L).map a).length = L := by rw [List.length_map, List.length_range]
  cases half with
  | false => exact List.take_left' length
  | true =>
    rw [if_pos rfl, List.drop_left' length, List.take_of_length_le (by rw [List.length_map, List.length_range])]
    rfl
section
variable {s : State} (free : s.noStreams = true)
include free

/-! ## Packing and unpacking (R201) -/

theorem exec_vpack {x : OpPack} (pass : s.guard x.q = true) : exec (.vpack x) s =
    .next (s.resDone x.d x.et .rne (packRes (s.ctl x.et .rne 0) x.sat (s.srcVec x.et x.a) (s.srcVec x.et x.b))) := by
  refine vecRun_of_effect (f := doVpack x) pass ?_
  rw [doVpack, sources_eq free, deliver_of_noStreams free]
  rfl
theorem exec_vunpack {x : OpUnpack} (pass : s.guard x.q = true) : exec (.vunpack x) s =
    .next (s.resDone x.d x.et .rne (unpackRes (s.ctl x.et .rne 0) x.half (s.srcVec x.et x.a))) := by
  refine vecRun_of_effect (f := doVunpack x) pass ?_
  rw [doVunpack, sources_eq free, deliver_of_noStreams free]
  rfl
theorem vpack_lanes {x : OpPack} (pass : s.guard x.q = true) (types : 1 ≤ x.et.code ∧ x.et.code ≤ 6) (ha : x.a.okVK = true)
    (hb : x.b.okVK = true) : EveryLane s (.vpack x) x.d x.et (fun k =>
      let v := if k < x.et.lanes / 2 then s.srcLane x.et.wider x.a k else s.srcLane x.et.wider x.b (k - x.et.lanes / 2)
      if x.sat then intCode x.et.width (intClamp x.et.isSigned x.et.width (laneInt x.et.wider v)) else v % 2 ^ x.et.width) := by
  obtain ⟨wide, half⟩ := Fmt.wider_lanes types
  refine .of_lanes (exec_vpack free pass) rfl rfl fun k hk => ?_
  rw [s.srcVec_format ha _ x.et.wider, s.srcVec_format hb _ x.et.wider, packRes, State.ctl_et, s.lanesIn_srcVec, s.lanesIn_srcVec, allLanes]
  simp only [List.map_map, intVal_eq_laneInt, wide]
  by_cases low : k < x.et.lanes / 2
  · rw [List.getD_append _ _ _ _ (by rwa [List.length_map, List.length_range]), getD_map_range low, if_pos low]
    dsimp only [Function.comp]
    split
    · exact Nat.mod_eq_of_lt (intCode_lt _ _)
    · exact Nat.mod_mod _ _
  · rw [List.getD_append_right _ _ _ _ (by rw [List.length_map, List.length_range]; omega), List.length_map, List.length_range,
      getD_map_range (by omega), if_neg low]
    dsimp only [Function.comp]
    split
    · exact Nat.mod_eq_of_lt (intCode_lt _ _)
    · exact Nat.mod_mod _ _
theorem vunpack_lanes {x : OpUnpack} (pass : s.guard x.q = true) (types : 3 ≤ x.et.code ∧ x.et.code ≤ 8) (ha : x.a.okVK = true) :
    EveryLane s (.vunpack x) x.d x.et (fun k =>
      intCode x.et.width (laneInt x.et.narrower (s.srcLane x.et.narrower x.a (if x.half then x.et.lanes + k else k)))) := by
  obtain ⟨narrow, sign⟩ := Fmt.narrower_lanes types
  refine .of_lanes (exec_vunpack free pass) rfl rfl fun k hk => ?_
  rw [s.srcVec_format ha _ x.et.narrower, unpackRes, State.ctl_et, s.lanesIn_srcVec, allLanes, ← sign, narrow]
  rw [half_range, List.map_map, getD_map_range hk]
  dsimp only [Function.comp]
  rw [intVal_eq_laneInt]
  exact Nat.mod_eq_of_lt (intCode_lt _ _)

/-! ## Conversion (R198) -/

theorem exec_vcvt {x : OpCvt} (pass : s.guard x.q = true) : exec (.vcvt x) s =
    .next (s.resDone x.d x.et x.rm (cvtRes (s.ctl x.et x.rm x.wm) x.src x.part.toInt.toNat (s.srcVec x.src x.a) (s.rdV x.d).toNat)) := by
  refine vecRun_of_effect (f := doVcvt x) pass ?_
  rw [doVcvt, sources_eq free, deliver_of_noStreams free]
  rfl
end
/-- The converted element that lane `i` takes and the source lane it comes from, where it takes one. -/
def cvtPick (et src : Fmt) (p i : Nat) : Option (Nat × Nat) :=
  let n := min et.lanes src.lanes
  if src.lanes < et.lanes then (if p * n ≤ i ∧ i < p * n + n then some (i - p * n, i - p * n) else none) else some (i, p * n + i)
/-- Lane `i` of a conversion with its flags. -/
def cvtLane (c : Ctl) (src : Fmt) (xs : List Nat) (o i : Nat) (picked : Option (Nat × Nat)) : Nat × FlagSet :=
  match picked with
  | some (k, j) => if c.active i then convLane c src k (laneAt xs j) else (o, 0)
  | none => (o, 0)
theorem cvtLoop_range' (c : Ctl) (src : Fmt) (xs : List Nat) (pick : Nat → Option (Nat × Nat)) (o : Nat → Nat) (i n : Nat) :
    cvtLoop c src xs pick i ((List.range' i n).map o) = ((List.range' i n).map (fun i => (cvtLane c src xs (o i) i (pick i)).1),
      flagUnion ((List.range' i n).map (fun i => (cvtLane c src xs (o i) i (pick i)).2))) := by
  induction n generalizing i with
  | zero => rfl
  | succ n ih =>
    simp only [List.range'_succ, List.map_cons, cvtLoop, flagUnion_cons]
    rw [ih]
    cases pick i <;> rfl
theorem cvtRes_eq {c : Ctl} {x old : Nat} {o : Nat → Nat} (src : Fmt) (p : Nat)
    (hold : c.et.lanesIn old = (List.range c.et.lanes).map o) :
    let lane := fun i => cvtLane c src (src.lanesIn x) (o i) i (cvtPick c.et src p i)
    (cvtRes c src p x old).lanes = (List.range c.et.lanes).map (fun i => (lane i).1) ∧
      (cvtRes c src p x old).flags = flagUnion ((List.range c.et.lanes).map (fun i => (lane i).2)) ∧
      (cvtRes c src p x old).draws = if c.et.isI && src.isI then 0 else min c.et.lanes src.lanes := by
  have loop := cvtLoop_range' c src (src.lanesIn x) (cvtPick c.et src p) o 0 c.et.lanes
  rw [← List.range_eq_range', ← hold] at loop
  refine ⟨congrArg Prod.fst loop, congrArg Prod.snd loop, ?_⟩
  change (if (!(c.et.isI && src.isI)) = true then _ else _) = _
  cases c.et.isI && src.isI <;> rfl
/-- A part that the selector may name lies within the source. -/
theorem cvtPick_lt {et src : Fmt} {p i k j : Nat} (part : p < max et.lanes src.lanes / min et.lanes src.lanes) (hi : i < et.lanes)
    (h : cvtPick et src p i = some (k, j)) : j < src.lanes := by
  simp only [cvtPick] at h
  split at h
  · next fewer =>
    rw [Nat.min_eq_right fewer.le] at h
    split at h
    · injection h with h
      injection h with h₁ h₂
      omega
    · cases h
  · next more =>
    have le : et.lanes ≤ src.lanes := Nat.not_lt.1 more
    rw [Nat.min_eq_left le] at h part
    rw [Nat.max_eq_right le] at part
    injection h with h
    injection h with h₁ h₂
    have : (p + 1) * et.lanes ≤ src.lanes := Nat.mul_le_of_le_div _ _ _ part
    rw [Nat.add_mul] at this
    omega
theorem vcvt_rule {s : State} (free : s.noStreams = true) {x : OpCvt} (pass : s.guard x.q = true) (typed : x.et ≠ .raw)
    (part : x.part.toInt.toNat < max x.et.lanes x.src.lanes / min x.et.lanes x.src.lanes) :
    let c := s.ctl x.et x.rm x.wm
    let from_ := cvtPick x.et x.src x.part.toInt.toNat
    let act := fun i => (s.rdW x.wm).getLsbD i
    ∃ v fl, exec (.vcvt x) s =
        .next (s.vecDone x.d v fl c.rm (if x.et.isI && x.src.isI then 0 else min x.et.lanes x.src.lanes)) ∧
      (∀ i, i < x.et.lanes → (act i = false ∨ from_ i = none) → vlane x.et v i = vlane x.et (s.rdV x.d) i) ∧
      (∀ i k j, i < x.et.lanes → act i = true → from_ i = some (k, j) →
        vlane x.et v i = (convLane c x.src k (s.srcLane x.src x.a j)).1 % 2 ^ x.et.width) ∧
      (∀ b, b < 5 → (fl.getLsbD b = true ↔ ∃ i k j, i < x.et.lanes ∧ act i = true ∧ from_ i = some (k, j) ∧
        (convLane c x.src k (s.srcLane x.src x.a j)).2.getLsbD b = true)) := by
  intro c from_ act
  obtain ⟨lanes, flags, draws⟩ := cvtRes_eq (c := c) (x := s.srcVec x.src x.a) x.src x.part.toInt.toNat (lanesIn_toNat x.et (s.rdV x.d))
  have active (i : Nat) : c.active i = act i := by rw [s.ctl_active, s.actLane_of_ne_raw typed]
  have kept {i : Nat} (h : act i = false ∨ from_ i = none) (o : Nat) :
      cvtLane c x.src (x.src.lanesIn (s.srcVec x.src x.a)) o i (from_ i) = (o, 0) := by
    rcases h with h | h
    · cases picked : from_ i with
      | none => rfl
      | some q => exact if_neg (by rw [active, h]; exact Bool.false_ne_true)
    · rw [h]
      rfl
  have taken {i k j : Nat} (hi : i < x.et.lanes) (on : act i = true) (picked : from_ i = some (k, j)) (o : Nat) :
      cvtLane c x.src (x.src.lanesIn (s.srcVec x.src x.a)) o i (from_ i) = convLane c x.src k (s.srcLane x.src x.a j) := by
    rw [picked, ← s.laneAt_srcVec _ _ (cvtPick_lt part hi picked)]
    exact if_pos ((active i).trans on)
  have run := exec_vcvt free pass
  rw [State.resDone, lanes, flags, draws] at run
  refine ⟨_, _, run, fun i hi h => ?_, fun i k j hi on picked => ?_, fun b _ => ?_⟩
  · exact (vlane_vecOf_map hi _).trans ((congrArg (fun q => q.1 % _) (kept h _)).trans (Nat.mod_eq_of_lt (vlane_lt _ _ _)))
  · exact (vlane_vecOf_map hi _).trans (congrArg (fun q => q.1 % _) (taken hi on picked _))
  · rw [getLsbD_flagUnion]
    constructor
    · rintro ⟨f, mem, set⟩
      obtain ⟨i, hi, rfl⟩ := List.mem_map.1 mem
      have none_set (h : act i = false ∨ from_ i = none) : False := by
        have := (congrArg (fun q => q.2.getLsbD b) (kept h (vlane x.et (s.rdV x.d) i))).symm.trans set
        simp at this
      cases on : act i with
      | false => exact (none_set (.inl on)).elim
      | true =>
        cases picked : from_ i with
        | none => exact (none_set (.inr picked)).elim
        | some q =>
          have hi := List.mem_range.1 hi
          exact ⟨i, q.1, q.2, hi, on, picked, (congrArg (fun q => q.2.getLsbD b) (taken hi on picked _)).symm.trans set⟩
    · rintro ⟨i, k, j, hi, on, picked, set⟩
      exact ⟨_, List.mem_map.2 ⟨i, List.mem_range.2 hi, rfl⟩, (congrArg (fun q => q.2.getLsbD b) (taken hi on picked _)).trans set⟩

/-! ## Quantisation (R199, R200) -/

theorem exec_quant {s : State} (free : s.noStreams = true) {x : OpQuant} {i : Instr} {out : Fmt} (pass : s.guard x.q = true)
    {f : Ctl → Option (BitVec 16) → Nat → LaneRes} (run : exec i s = vecRun x.q (quantVec f out x) s) :
    exec i s = .next (s.resDone x.d out x.rm
      (f (s.ctl out x.rm 0) (s.bandScale x.fmt) (packLanes 16 ((List.range 32).map (s.srcLane .bf16 x.a))))) := by
  refine run.trans (vecRun_of_effect pass ?_)
  rw [quantVec, sources_eq free, deliver_of_noStreams free, show packLanes 16 ((List.range 32).map (s.srcLane .bf16 x.a)) = _ from
    s.packLanes_srcLane .bf16 x.a]
  rfl

/-! ## The statement -/

/-- Settles O21: what each conversion writes, by its lanes. -/
theorem vectorConversions : Obligations.VectorConversions := by
  unfold Obligations.VectorConversions
  refine ⟨fun x s pass free wf => ?_, fun x s pass free wf => ?_, fun x s pass free wf => ?_, fun x s pass free => ⟨?_, ?_⟩⟩
  · simp only [Instr.wf, Bool.and_eq_true, decide_eq_true_eq] at wf
    obtain ⟨⟨types, ha⟩, hb⟩ := wf
    obtain ⟨v, run, lanes⟩ := vpack_lanes free pass types ha hb
    refine ⟨v, run, fun k hk => (lanes k hk).trans ?_⟩
    simp only [intClamp_eq]
    rfl
  · simp only [Instr.wf, Bool.and_eq_true, decide_eq_true_eq] at wf
    exact vunpack_lanes free pass wf.1 wf.2
  · simp only [Instr.wf, Bool.and_eq_true, decide_eq_true_eq] at wf
    obtain ⟨⟨⟨⟨isX, -⟩, -⟩, -⟩, positive, part⟩ := wf
    have selector : x.part.toInt.toNat = x.part.toNat := by
      rw [BitVec.toInt_eq_toNat_cond] at positive ⊢
      split at positive <;> omega
    have rule := vcvt_rule free pass (Fmt.ne_raw_of_isX isX) part
    rw [selector] at rule
    exact rule
  · exact ⟨_, exec_quant free (i := .vquant x) (f := quantRes) pass rfl, fun k hk => vlane_vecOf (et := .n8) hk _⟩
  · exact ⟨_, exec_quant free (i := .vdeq x) (f := deqRes) pass rfl, fun k hk => vlane_vecOf (et := .bf16) hk _⟩

end Sys2Proof.Machine
end

section
/-!
SUPPORT. What counting leaves as it was (R402, R403): all but counters, and so what a read meets and gives (R222, R241). What the end of an
instruction leaves.
-/
namespace Sys2Proof.Machine
open Sys2Proof

/-- `t` is `s` but for counters of tiles. -/
structure Recounted (s t : State) : Prop where
  tiles : ∀ n, (t.getTile n).uncounted = (s.getTile n).uncounted
  rest : t = { s with tile := t.tile, tiles := t.tiles }

namespace Recounted

theorem refl (s : State) : Recounted s s := ⟨fun _ => rfl, rfl⟩
theorem trans {s t u : State} (h : Recounted s t) (k : Recounted t u) : Recounted s u :=
  ⟨fun n => (k.tiles n).trans (h.tiles n), k.rest.trans (by rw [h.rest])⟩
theorem foldl {α : Type} (f : State → α → State) (hf : ∀ s a, Recounted s (f s a)) (l : List α) (s : State) : Recounted s (l.foldl f s) := by
  induction l generalizing s with
  | nil => exact refl s
  | cons a r ih => exact (hf s a).trans (ih _)
theorem setTile {s : State} {n : Nat} {k : Tile} (h : k.uncounted = (s.getTile n).uncounted) : Recounted s (s.setTile n k) where
  tiles m := by
    rw [State.getTile_setTile]
    split
    · next e => rw [h, e]
    · rfl
  rest := by unfold State.setTile; split <;> rfl

/-! ## What counts -/

theorem countOf (s : State) (p : ProcId) (c k n : Nat) : Recounted s (s.countOf p c k n) := by
  unfold State.countOf
  split
  · exact setTile (Tile.uncounted_count _ _ _ _)
  · exact refl s
theorem countBytes (s : State) (p : ProcId) (k a n : Nat) : Recounted s (s.countBytes p k a n) := by
  have request (s : State) : Recounted s (s.countRequest p a n) := by
    unfold State.countRequest
    split
    · exact refl s
    · exact (countOf _ _ _ _ _).trans (foldl _ (fun s _ => countOf s p _ _ _) _ _)
  have memory (s : State) : Recounted s (s.countMemory p a n) := by
    unfold State.countMemory
    split
    · exact countOf _ _ _ _ _
    · exact countOf _ _ _ _ _
    · exact countOf _ _ _ _ _
    · exact refl s
  exact ((countOf s p 1 k n).trans (request _)).trans (memory _)
theorem countReads (s : State) (n : Nat) (as_ : List Nat) : Recounted s (s.countReads n as_) :=
  foldl (fun t a => t.countBytes s.cur 0 a n) (fun t a => countBytes t s.cur 0 a n) as_ s
theorem atIssue (s : State) (kind : WaitKind) {f : State → State} (hf : ∀ s, Recounted s (f s)) : Recounted s (s.atIssue kind f) := by
  unfold State.atIssue
  split
  · split
    · exact refl s
    · exact hf s
  · exact hf s

/-! ## What stays -/

section
variable {s t : State} (h : Recounted s t)
include h

theorem cur : t.cur = s.cur := by rw [h.rest]
theorem here : t.here = s.here := by rw [h.rest]
theorem core : t.core = s.core := by rw [h.rest]
theorem mem : t.mem = s.mem := by rw [h.rest]
theorem full : t.full = s.full := by rw [h.rest]
theorem eager : t.eager = s.eager := by rw [h.rest]
theorem fabric : t.fabric = s.fabric := by rw [h.rest]
theorem getCore (p : ProcId) : t.getCore p = s.getCore p := by rw [h.rest]; rfl
theorem region (a : Nat) : t.region a = s.region a := by rw [h.rest]; rfl
theorem classOf (p : ProcId) (a : Nat) : t.classOf p a = s.classOf p a := by rw [h.rest]; rfl
theorem uncounted : t.tile.uncounted = s.tile.uncounted := by
  have := h.tiles s.here
  rwa [State.getTile, State.getTile, if_pos h.here.symm, if_pos rfl] at this
theorem team (n : Nat) : (t.getTile n).team = (s.getTile n).team := by
  have := congrArg Tile.team (h.tiles n)
  exact this
theorem tenant (n : Nat) : (t.getTile n).tenant = (s.getTile n).tenant := by
  have := congrArg Tile.tenant (h.tiles n)
  exact this
theorem fenced (n : Nat) : (t.getTile n).fenced = (s.getTile n).fenced := by
  have := congrArg Tile.fenced (h.tiles n)
  exact this
theorem teamOf (p : ProcId) : t.teamOf p = s.teamOf p := by
  have find (n : Nat) : t.findTeam n = s.findTeam n := by rw [h.rest]; rfl
  simp only [State.teamOf, h.team, find]
theorem tagOf (p : ProcId) : t.tagOf p = s.tagOf p := by
  simp only [State.tagOf, h.tenant]

/-! ## What holds an access back (R222, R223, R423) -/

theorem coversSome (p : ProcId) (sc : Scope) (a n : Nat) : t.coversSome p sc a n = s.coversSome p sc a n := by
  simp only [State.coversSome, State.coversLoc, State.coversOf, h.teamOf, h.classOf, h.region]
theorem heldBack (p : ProcId) (b n : Nat) (ord : Ord) (sco : Scope) : t.heldBack p b n ord sco = s.heldBack p b n ord sco := by
  simp only [State.heldBack, State.holds, State.lateHolds, State.coversAt, h.getCore, h.coversSome]
theorem mustWait (as_ : List Nat) (n : Nat) (ord : Ord) (sco : Scope) : t.mustWait as_ n ord sco = s.mustWait as_ n ord sco := by
  have window (a : Nat) : t.inWindow a = s.inWindow a := by rw [h.rest]; rfl
  have ways : t.waysOpen as_ = s.waysOpen as_ := by rw [h.rest]; rfl
  simp only [State.mustWait, h.heldBack, h.cur, window, ways]

/-! ## What a read meets and gives (R241, R353, R361, R393) -/

theorem readFault (p : ProcId) (a n : Nat) : t.readFault p a n = s.readFault p a n := by
  have owned (g : GranuleId) (tag : Nat) : t.owned g tag = s.owned g tag := by rw [h.rest]; rfl
  have lines (u : Team) : t.linesOf u a n = s.linesOf u a n := by rw [h.rest]; rfl
  have units (a n : Nat) : t.badUnits a n = s.badUnits a n := by rw [h.rest]; rfl
  have unready (a n : Nat) : t.unready a n = s.unready a n := by rw [h.rest]; rfl
  have fails (u : Team) : t.sealFails u a n = s.sealFails u a n := by rw [h.rest]; rfl
  have way : t.wayFault a = s.wayFault a := by simp only [State.wayFault, h.region, h.fabric, h.fenced]
  have admits : t.admits p a = s.admits p a := by
    simp only [State.admits, State.admitsTag, State.target, h.tagOf, h.teamOf, h.region, owned, h.team, h.tenant]
  have held : t.badHeld p a n = s.badHeld p a n := by simp only [State.badHeld, State.linesAt, h.teamOf, lines, units, unready]
  have tag : t.tagFails p a n = s.tagFails p a n := by simp only [State.tagFails, h.teamOf, fails]
  rw [State.readFault, State.readFault, way, admits, held, tag]
theorem firstFault (ps : List (Nat × Nat)) : t.firstFault ps = s.firstFault ps := by
  induction ps with
  | nil => rfl
  | cons q r ih => simp only [State.firstFault, h.readFault, h.cur, ih]
theorem byteAt (a : Nat) : t.byteAt a = s.byteAt a := by
  have byte (u : Team) : t.teamByte u a = s.teamByte u a := by rw [h.rest]; rfl
  simp only [State.byteAt, State.byteFor, h.cur, h.region, h.getCore, h.teamOf, h.mem, byte]
theorem readBytes (a n : Nat) : t.readBytes a n = s.readBytes a n :=
  List.map_congr_left fun i _ => h.byteAt (a + i)
end
end Recounted

/-! ## The end of an instruction -/

section
variable (s : State) (n : Nat)

theorem State.advance_tile_eq : (s.advance n).tile = { s.tile with loop := (s.advance n).tile.loop } := by
  unfold State.advance
  split <;> rfl
/-- The end of an instruction changes the loop levels of the tile, its counters and its time of progress. -/
theorem State.done_tile_eq :
    (s.done n).tile = { s.tile with loop := (s.done n).tile.loop, ctr := (s.done n).tile.ctr, progress := (s.done n).tile.progress } := by
  rw [State.done, State.advance_tile_eq, State.retire_tile_eq]
theorem State.done_mem : (s.done n).mem = s.mem := by
  rw [State.done, State.advance]
  split <;> exact State.retire_mem s
theorem State.done_full : (s.done n).full = s.full := by
  rw [State.done, State.advance]
  split <;> exact State.retire_full s
theorem State.done_pend : (s.done n).core.pend = s.core.pend := by
  rw [State.done, State.advance]
  have kept : s.retire.core.pend = s.core.pend := by rw [State.retire_core]
  split <;> exact kept
end

end Sys2Proof.Machine
end

section
/-!
SUPPORT. The pieces of an access (R226, R227): together they are its range, so that the bytes and the cells of the pieces are those of the
access.
-/
namespace Sys2Proof.Machine
open Sys2Proof

/-! ## The range of an access by its pieces -/

/-- The first pieces cover the range up to a boundary of 32 bytes. -/
theorem pieces_range' (a n q j : Nat) (hq : 32 * q ≤ a) (hj : 32 * (q + j) < a + n + 32) (low : a < 32 * q + 32) :
    ((List.range j).map fun i => let lo := max a (32 * (q + i)); (lo, min (a + n) (32 * (q + i + 1)) - lo)).flatMap
      (fun p => List.range' p.1 p.2) = List.range' a (min (a + n) (32 * (q + j)) - a) := by
  induction j with
  | zero =>
    have : min (a + n) (32 * (q + 0)) - a = 0 := by omega
    rw [this]
    rfl
  | succ j ih =>
    rw [List.range_succ, List.map_append, List.flatMap_append, ih (by omega)]
    have start : max a (32 * (q + j)) = a + (min (a + n) (32 * (q + j)) - a) := by omega
    have total : min (a + n) (32 * (q + (j + 1))) - a =
        (min (a + n) (32 * (q + j)) - a) + (min (a + n) (32 * (q + j + 1)) - max a (32 * (q + j))) := by omega
    rw [total, ← List.range'_append_1]
    simp only [List.map_cons, List.map_nil, List.flatMap_cons, List.flatMap_nil, List.append_nil, ← start]
theorem pieces_flatMap_range' (a n : Nat) : (pieces a n).flatMap (fun p => List.range' p.1 p.2) = List.range' a n := by
  rw [pieces]
  split
  · simp
  · rw [pieces_range' a n (a / 32) _ (Nat.mul_div_le a 32) (by omega) (by omega)]
    congr 1
    omega
/-- What is made of every address of every piece is what is made of every address of the access. -/
theorem pieces_flatMap_map {α : Type} (f : Nat → α) (a n : Nat) :
    (pieces a n).flatMap (fun p => (List.range' p.1 p.2).map f) = (List.range' a n).map f := by
  rw [← pieces_flatMap_range', List.map_flatMap]
theorem pieces_within {a n : Nat} {p : Nat × Nat} (h : p ∈ pieces a n) : a ≤ p.1 ∧ p.1 + p.2 ≤ a + n ∨ p.2 = 0 := by
  rw [pieces] at h
  split at h
  · obtain rfl := List.mem_singleton.1 h
    exact .inl ⟨le_refl _, le_refl _⟩
  · obtain ⟨i, -, rfl⟩ := List.mem_map.1 h
    dsimp only
    omega

/-! ## Bytes -/

theorem range'_eq_map (a n : Nat) {α : Type} (f : Nat → α) : (List.range' a n).map f = (List.range n).map (fun i => f (a + i)) := by
  rw [List.range'_eq_map_range, List.map_map]
  rfl
theorem State.readBytes_eq (s : State) (a n : Nat) : s.readBytes a n = (List.range' a n).map s.byteAt := (range'_eq_map a n s.byteAt).symm
/-- The bytes of the pieces of several accesses. -/
theorem State.allPieces_readBytes (s : State) (as_ : List Nat) (n : Nat) :
    (allPieces as_ n).flatMap (fun q => s.readBytes q.1 q.2) = as_.flatMap (fun a => s.readBytes a n) := by
  rw [allPieces, List.flatMap_assoc]
  congr 1
  funext a
  simp only [s.readBytes_eq, pieces_flatMap_map]
theorem State.leNat_readBytes (s : State) (a n : Nat) : leNat (s.readBytes a n) = s.readNat a n := by
  rw [s.readBytes_eq]
  induction n generalizing a with
  | zero => rfl
  | succ n ih => rw [List.range'_succ, List.map_cons, leNat, ih, readNat]
theorem State.readBytes_length (s : State) (a n : Nat) : (s.readBytes a n).length = n := by rw [s.readBytes_eq, List.length_map, List.length_range']
theorem leNat_lt (l : List Byte) : leNat l < 2 ^ (8 * l.length) := by
  induction l with
  | nil => exact Nat.one_pos
  | cons b r ih =>
    rw [leNat, List.length_cons, Nat.mul_add, Nat.pow_add]
    have := b.isLt
    omega
theorem State.readNat_lt (s : State) (a n : Nat) : s.readNat a n < 2 ^ (8 * n) := by
  have := leNat_lt (s.readBytes a n)
  rwa [s.leNat_readBytes, s.readBytes_length] at this
theorem leNat_append (l r : List Byte) : leNat (l ++ r) = leNat l + 2 ^ (8 * l.length) * leNat r := by
  induction l with
  | nil => simp [leNat]
  | cons b l ih =>
    rw [List.cons_append, leNat, leNat, ih, List.length_cons, Nat.mul_add 8, Nat.pow_add]
    ring
/-- A number of several accesses has each one's bytes in its place. -/
theorem State.leNat_accesses (s : State) {n k a : Nat} {as_ : List Nat} (h : as_[k]? = some a) :
    leNat (as_.flatMap (fun a => s.readBytes a n)) / 2 ^ (8 * n * k) % 2 ^ (8 * n) = s.readNat a n := by
  induction as_ generalizing k with
  | nil => cases h
  | cons b r ih =>
    rw [List.flatMap_cons, leNat_append, s.readBytes_length, s.leNat_readBytes]
    cases k with
    | zero =>
      obtain rfl : b = a := Option.some.inj h
      rw [Nat.mul_zero, Nat.pow_zero, Nat.div_one, Nat.add_mul_mod_self_left, Nat.mod_eq_of_lt (s.readNat_lt b n)]
    | succ k =>
      rw [Nat.mul_succ, Nat.add_comm (8 * n * k), Nat.pow_add, ← Nat.div_div_eq_div_mul, Nat.add_mul_div_left _ _ (Nat.two_pow_pos _),
        Nat.div_eq_of_lt (s.readNat_lt b n), Nat.zero_add]
      exact ih h
theorem State.accesses_length (s : State) (as_ : List Nat) (n : Nat) : (as_.flatMap (fun a => s.readBytes a n)).length = n * as_.length := by
  induction as_ with
  | nil => rfl
  | cons a r ih => rw [List.flatMap_cons, List.length_append, ih, s.readBytes_length, List.length_cons, Nat.mul_succ, Nat.add_comm]

/-! ## Cells -/

theorem cellsOf_eq (a x n : Nat) : cellsOf a x n = (List.range' a n).map (fun b => (b, BitVec.ofNat 8 (x / 2 ^ (8 * (b - a))))) := by
  induction n generalizing a x with
  | zero => rfl
  | succ n ih =>
    rw [cellsOf, ih, List.range'_succ, List.map_cons, Nat.sub_self, Nat.mul_zero, Nat.pow_zero, Nat.div_one]
    congr 1
    refine List.map_congr_left fun b hb => ?_
    obtain ⟨i, -, rfl⟩ := List.mem_range'.1 hb
    have : 8 * (a + 1 + 1 * i - a) = 8 + 8 * (a + 1 + 1 * i - (a + 1)) := by omega
    rw [this, Nat.pow_add, Nat.div_div_eq_div_mul]
/-- The cells of a store's pieces are those of the store. -/
theorem storeOf_flatten (a n x : Nat) (ord : Ord) (sco : Scope) : (storeOf a n x ord sco).pieces.flatten = cellsOf a x n := by
  change (List.map _ (pieces a n)).flatten = _
  rw [cellsOf_eq, ← pieces_flatMap_map, List.flatMap_def]
  congr 1
  refine List.map_congr_left fun p hp => ?_
  rw [cellsOf_eq]
  refine List.map_congr_left fun b hb => ?_
  obtain ⟨i, hi, rfl⟩ := List.mem_range'.1 hb
  have inside : a ≤ p.1 := by
    rcases pieces_within hp with h | h
    · exact h.1
    · omega
  have : 8 * (p.1 + 1 * i - a) = 8 * (p.1 - a) + 8 * (p.1 + 1 * i - p.1) := by omega
  rw [this, Nat.pow_add, Nat.div_div_eq_div_mul]

end Sys2Proof.Machine
end

section
/-!
SUPPORT. Loads and stores of the vector unit (R202 to R205).
-/
namespace Sys2Proof.Machine
open Sys2Proof

/-! ## Reading accesses that read at once (R220) -/

theorem spend_eq (s : State) (a : Nat) : s.spend a = { s with fabric := (s.spend a).fabric } := by
  have spends (s : State) (m : Nat) : s.spendTo m = { s with fabric := (s.spendTo m).fabric } := by
    unfold State.spendTo
    dsimp only
    split <;> rfl
  have owe (s : State) (m : Nat) : s.owe m = { s with fabric := (s.owe m).fabric } := by
    unfold State.owe
    dsimp only
    split <;> rfl
  unfold State.spend
  split
  · next m _ =>
    rw [owe, spends]
  · rfl
theorem spendAll_eq (s : State) (as_ : List Nat) : s.spendAll as_ = { s with fabric := (s.spendAll as_).fabric } := by
  induction as_ generalizing s with
  | nil => rfl
  | cons a r ih =>
    change (s.spend a).spendAll r = { s with fabric := ((s.spend a).spendAll r).fabric }
    rw [ih, spend_eq]
theorem reading_now {as_ : List Nat} {n : Nat} {ord : Ord} {sco : Scope} {ea : Option Nat} {len : Nat} {s : State}
    {k : List Byte → State → Out} (now : s.readsNow as_ n ord sco) :
    reading as_ n ord sco ea len s k =
      k (as_.flatMap (fun a => s.readBytes a n)) ((s.atIssue .load (fun t => t.countReads n as_)).spendAll as_) := by
  obtain ⟨eager, free, sound⟩ := now
  have counted : Recounted s (s.atIssue .load (fun t => t.countReads n as_)) := .atIssue s .load fun t => .countReads t n as_
  unfold reading
  dsimp only
  rw [if_pos (counted.eager.trans eager)]
  simp only [counted.mustWait, free, Bool.false_eq_true, if_false, counted.firstFault, sound]
  rw [State.allPieces_readBytes]
  simp only [counted.readBytes]
/-- The number that a vector load of several accesses gives. -/
def State.loadedVec (s : State) (as_ : List Nat) (n : Nat) : Vec := BitVec.ofNat 512 (leNat (as_.flatMap (fun a => s.readBytes a n)))
section
variable (s : State) {as_ : List Nat} {n : Nat} (fits : n * as_.length ≤ 64)
include fits

theorem State.loadedVec_toNat : (s.loadedVec as_ n).toNat = leNat (as_.flatMap (fun a => s.readBytes a n)) ∧
    (s.loadedVec as_ n).toNat < 2 ^ (8 * n * as_.length) := by
  have small := leNat_lt (as_.flatMap (fun a => s.readBytes a n))
  rw [s.accesses_length, ← Nat.mul_assoc] at small
  have total : 2 ^ (8 * n * as_.length) ≤ 2 ^ 512 := Nat.pow_le_pow_right (by omega) (by rw [Nat.mul_assoc]; omega)
  rw [loadedVec, BitVec.toNat_ofNat, Nat.mod_eq_of_lt (Nat.lt_of_lt_of_le small total)]
  exact ⟨rfl, small⟩
theorem State.loadedVec_lane {k a : Nat} (h : as_[k]? = some a) :
    (s.loadedVec as_ n).toNat / 2 ^ (8 * n * k) % 2 ^ (8 * n) = s.readNat a n := by
  rw [(s.loadedVec_toNat fits).1, s.leNat_accesses h]
end

/-! ## The checks of R204 -/

theorem vmemChecked_pass {m : MemOp} {as_ : List Nat} {n : Nat} {aligned : Bool} {s : State} {k : State → Out}
    (base : ptrOk (s.rdA m.ab) = true) (regions : as_.all (fun a => s.vecOk a n) = true)
    (align : aligned = true → as_.all (fun a => a % n == 0) = true) : vmemChecked m as_ n aligned s k = k s := by
  have reached : as_.find? (fun a => !s.vecOk a n) = none :=
    List.find?_eq_none.2 fun a ha => by rw [List.all_eq_true.1 regions a ha]; exact Bool.false_ne_true
  have whole : (if aligned then as_.find? (fun a => a % n != 0) else none) = none := by
    cases aligned with
    | false => rfl
    | true =>
      refine List.find?_eq_none.2 fun a ha => ?_
      have := List.all_eq_true.1 (align rfl) a ha
      simpa using this
  rw [vmemChecked, base]
  simp only [Bool.not_true, Bool.false_eq_true, if_false, reached, whole]

/-! ## Loads (R203) -/

/-- What a vector load leaves that reads at once. -/
theorem loadVec_now {x : OpVmem} {as_ : List Nat} {aligned : Bool} {s : State} (base : ptrOk (s.rdA x.m.ab) = true)
    (regions : as_.all (fun a => s.vecOk a x.asz.bytes) = true) (align : aligned = true → as_.all (fun a => a % x.asz.bytes == 0) = true)
    (now : s.readsNow as_ x.asz.bytes x.ord x.sco) : loadVec x as_ aligned id s =
      .next ((((((s.atIssue .load (fun t => t.countReads x.asz.bytes as_)).spendAll as_).wrV x.d (s.loadedVec as_ x.asz.bytes))).count 0 7 1).done
        8) := by
  rw [loadVec, vmemChecked_pass base regions align, reading_now now]
  rfl

/-! ## Stores (R203) -/

theorem Core.join_alone (c : Core) (a : Access) : (c.join a false).pend = c.pend ++ [{ a with seq := c.seq }] := by
  unfold Core.join
  split
  · next h => cases h
  · rfl
theorem State.issueAccess_alone {s : State} (a : Access) (empty : s.tile.rep.count = 0) :
    (s.issueAccess a).core.pend = s.core.pend ++ [{ a with pc := s.core.pc.toNat, seq := s.core.seq }] := by
  have none : (s.onMain && s.tile.rep.count != 0) = false := by rw [empty]; exact Bool.and_false _
  rw [issueAccess, none]
  exact Core.join_alone _ _
/-- The stores of the lanes from the `i`-th on, one for each address. -/
theorem State.storeLanes_issue {s : State} {n x : Nat} {ord : Ord} {sco : Scope} (as_ : List Nat) (i : Nat) (empty : s.tile.rep.count = 0) :
    ∃ accs, (s.storeLanes n x ord sco i as_).mem = s.mem ∧ (s.storeLanes n x ord sco i as_).full = s.full ∧
      (s.storeLanes n x ord sco i as_).core.pend = s.core.pend ++ accs ∧ accs.map Access.addr = as_ ∧
      ∀ k a, as_[k]? = some a → ∃ c, accs[k]? = some c ∧ c.kind = .store ∧ c.ord = ord ∧ c.sco = sco ∧
        c.pieces.flatten = cellsOf a (x / 2 ^ (8 * n * (i + k)) % 2 ^ (8 * n)) n := by
  induction as_ generalizing s i with
  | nil => exact ⟨[], rfl, rfl, (List.append_nil _).symm, rfl, fun k a h => by cases h⟩
  | cons b r ih =>
    let c : Access := { storeOf b n (fld x (8 * n * i) (8 * n)) ord sco with vec := true }
    have counted := Recounted.countBytes (s.issueAccess c) s.cur 1 b n
    have still : ((s.issueAccess c).countBytes s.cur 1 b n).tile.rep.count = 0 := by
      have := congrArg (fun t => t.rep.count) counted.uncounted
      exact this.trans empty
    obtain ⟨accs, mem, full, pend, addrs, each⟩ := ih (s := (s.issueAccess c).countBytes s.cur 1 b n) (i + 1) still
    refine ⟨{ c with pc := s.core.pc.toNat, seq := s.core.seq } :: accs, mem.trans counted.mem, full.trans counted.full, ?_, ?_, ?_⟩
    · refine pend.trans ?_
      rw [counted.core, State.issueAccess_alone c empty, List.append_assoc]
      rfl
    · rw [List.map_cons, addrs]
      rfl
    · intro k a h
      cases k with
      | zero =>
        obtain rfl : b = a := Option.some.inj h
        exact ⟨_, rfl, rfl, rfl, rfl, storeOf_flatten b n (fld x (8 * n * i) (8 * n)) ord sco⟩
      | succ k =>
        rw [show i + (k + 1) = i + 1 + k by omega]
        exact each k a h
theorem storeVec_issues {x : OpVmem} {as_ : List Nat} {aligned : Bool} {s : State} (base : ptrOk (s.rdA x.m.ab) = true)
    (regions : as_.all (fun a => s.vecOk a x.asz.bytes) = true) (align : aligned = true → as_.all (fun a => a % x.asz.bytes == 0) = true)
    (empty : s.tile.rep.count = 0) :
    ∃ t accs, storeVec x as_ aligned id s = .next t ∧ t.mem = s.mem ∧ t.full = s.full ∧ t.core.pend = s.core.pend ++ accs ∧
      accs.map Access.addr = as_ ∧
      ∀ k a, as_[k]? = some a → ∃ c, accs[k]? = some c ∧ c.kind = .store ∧ c.ord = x.ord ∧ c.sco = x.sco ∧
        c.pieces.flatten = cellsOf a ((s.rdV x.d).toNat / 2 ^ (8 * x.asz.bytes * k) % 2 ^ (8 * x.asz.bytes)) x.asz.bytes := by
  obtain ⟨accs, mem, full, pend, addrs, each⟩ := s.storeLanes_issue (n := x.asz.bytes) (x := (s.rdV x.d).toNat) (ord := x.ord) (sco := x.sco)
    as_ 0 empty
  simp only [Nat.zero_add] at each
  have run : storeVec x as_ aligned id s =
      .next (((s.storeLanes x.asz.bytes (s.rdV x.d).toNat x.ord x.sco 0 as_).count 0 7 1).done 8) := by
    rw [storeVec, vmemChecked_pass base regions align, complete_eq]
    rfl
  exact ⟨_, accs, run, (State.done_mem _ _).trans mem, (State.done_full _ _).trans full, (State.done_pend _ _).trans pend, addrs, each⟩

/-! ## Element addresses (R203) -/

theorem State.ea_eq (s : State) (m : MemOp) (asz : Asz) :
    s.ea m asz = (((ptrAddr (s.rdA m.ab) : Int) + m.off.toInt + (s.rdG m.ix).toInt * (m.isc.factor asz : Int)) % 2 ^ 53).toNat := by
  rw [ea, addr53, sI]
  congr 2
  ring
theorem State.strided_eq (s : State) (m : MemOp) (asz : Asz) : s.strided m asz = (List.range (64 / asz.bytes)).map (fun (i : Nat) =>
    (((ptrAddr (s.rdA m.ab) : Int) + m.off.toInt + i * ((s.rdG m.ix).toInt * (m.isc.factor asz : Int))) % 2 ^ 53).toNat) := by
  refine List.map_congr_left fun i _ => ?_
  rw [addr53, sI, Int.mul_assoc]
theorem lanes_fit (asz : Asz) (f : Nat → Nat) : asz.bytes * ((List.range (64 / asz.bytes)).map f).length ≤ 64 := by
  rw [List.length_map, List.length_range]
  exact Nat.mul_div_le 64 _
theorem single_fits (asz : Asz) (a : Nat) : asz.bytes * [a].length ≤ 64 := by cases asz <;> simp [Asz.bytes]

/-! ## The instructions where no stream is bound -/

theorem dField_free {s : State} (free : s.noStreams = true) (r : VReg) (k : State → Out) : dField r s k = k s := by
  rw [dField, boundSlot_of_noStreams free]
theorem indexed_free {s : State} (free : s.noStreams = true) (x : OpVmem) (k : Nat → (State → State) → State → Out) :
    indexed x s k = k (s.rdV (x.d + 1)).toNat id s := by
  have none : s.slotsOf [x.d + 1] = [] := by
    simp only [State.slotsOf, List.filterMap_cons, boundSlot_of_noStreams free, List.filterMap_nil]
    rfl
  simp only [indexed, readVecs_eq free, none, List.map_cons, List.map_nil, List.headD_cons, List.foldl_nil]
  rfl
section
variable {x : OpVmem} {s : State} (pass : s.guard x.q = true) (free : s.noStreams = true)
include pass free

theorem execVld_free : execVld x s = loadVec x [s.ea x.m x.asz] false id s := by rw [execVld, guarded_pass _ pass, dField_free free]
theorem execVlds_free : execVlds x s = loadVec x (s.strided x.m x.asz) true id s := by rw [execVlds, guarded_pass _ pass, dField_free free]
theorem execVgath_free : execVgath x s = loadVec x (s.gathered x.m x.asz (s.rdV (x.d + 1)).toNat) true id s := by
  rw [execVgath, guarded_pass _ pass, dField_free free, indexed_free free]
theorem execVst_free : execVst x s = storeVec x [s.ea x.m x.asz] false id s := by rw [execVst, guarded_pass _ pass, dField_free free]
theorem execVsts_free : execVsts x s = storeVec x (s.strided x.m x.asz) true id s := by rw [execVsts, guarded_pass _ pass, dField_free free]
theorem execVscat_free : execVscat x s = storeVec x (s.gathered x.m x.asz (s.rdV (x.d + 1)).toNat) true id s := by
  rw [execVscat, guarded_pass _ pass, dField_free free, indexed_free free]
end
/-- The constant bank with an entry replaced (R205). -/
def State.setBank (s : State) (n : Nat) (v : Vec) : State := { s with tile := { s.tile with kbank := vset s.tile.kbank n v } }
theorem execVldk_now {x : OpVldk} {s : State} (pass : s.guard x.q = true) (base : ptrOk (s.rdA x.m.ab) = true)
    (region : s.vecOk (s.ea x.m .v) 64 = true) (now : s.readsNow [s.ea x.m .v] 64 .rlx .self) :
    let u := (s.atIssue .load (fun t => t.countReads 64 [s.ea x.m .v])).spendAll [s.ea x.m .v]
    execVldk x s = .next (((u.setBank x.n.toNat (BitVec.ofNat 512 (s.readNat (s.ea x.m .v) 64))).count 0 7 1).done 8) := by
  have regions : [s.ea x.m .v].all (fun a => s.vecOk a 64) = true := by rw [List.all_cons, region]; rfl
  rw [execVldk, guarded_pass _ pass, vmemChecked_pass base regions (fun h => by cases h), reading_now now, complete_eq, List.flatMap_singleton,
    s.leNat_readBytes]
  rfl
theorem vldk_bank {x : OpVldk} {s : State} (pass : s.guard x.q = true) (base : ptrOk (s.rdA x.m.ab) = true)
    (region : s.vecOk (s.ea x.m .v) 64 = true) (now : s.readsNow [s.ea x.m .v] 64 .rlx .self) :
    ∃ t, execVldk x s = .next t ∧ t.mem = s.mem ∧
      t.tile.kbank = vset s.tile.kbank x.n.toNat (BitVec.ofNat 512 (s.readNat (s.ea x.m .v) 64)) := by
  have counted : Recounted s (s.atIssue .load (fun t => t.countReads 64 [s.ea x.m .v])) := .atIssue s .load fun t => .countReads t 64 _
  have bank : (s.atIssue .load (fun t => t.countReads 64 [s.ea x.m .v])).tile.kbank = s.tile.kbank := by
    have := congrArg Tile.kbank counted.uncounted
    exact this
  refine ⟨_, execVldk_now pass base region now, ?_, ?_⟩
  · rw [State.done_mem, State.count_mem, spendAll_eq]
    exact counted.mem
  · rw [State.done_tile_eq, State.count_tile_eq, spendAll_eq, ← bank]
    rfl

/-! ## The statement -/

/-- Settles O22: each instruction reads or stores at its element addresses. -/
theorem vectorMemory : Obligations.VectorMemory := by
  unfold Obligations.VectorMemory
  refine ⟨⟨fun x s as_ pass free base => ?_, fun x s pass base region now => vldk_bank pass base region now⟩,
    fun x s as_ pass free empty base => ?_⟩
  · intro z from_ idx u now regions loads
    have load {i : Instr} {aligned : Bool} (fits : x.asz.bytes * as_.length ≤ 64)
        (align : aligned = true → as_.all (fun a => a % z == 0) = true) (run : exec i s = loadVec x as_ aligned id s) : loads i :=
      ⟨s.loadedVec as_ z, run.trans (loadVec_now base regions align now), fun k a h => s.loadedVec_lane fits h, (s.loadedVec_toNat fits).2⟩
    refine ⟨fun e => ?_, fun whole => ⟨fun e => ?_, fun e => ?_⟩⟩
    · exact load (aligned := false) (e ▸ single_fits x.asz _) (fun h => by cases h) (e ▸ s.ea_eq x.m x.asz ▸ execVld_free pass free)
    · exact load (aligned := true) (e ▸ lanes_fit x.asz _) (fun _ => whole) (e ▸ s.strided_eq x.m x.asz ▸ execVlds_free pass free)
    · exact load (aligned := true) (e ▸ lanes_fit x.asz _) (fun _ => whole) (e ▸ s.ea_eq x.m x.asz ▸ execVgath_free pass free)
  · intro z from_ idx u regions stores
    have store {i : Instr} {aligned : Bool} (align : aligned = true → as_.all (fun a => a % z == 0) = true)
        (run : exec i s = storeVec x as_ aligned id s) : stores i := by
      obtain ⟨t, accs, issues, rest⟩ := storeVec_issues base regions align empty
      exact ⟨t, accs, run.trans issues, rest⟩
    refine ⟨fun e => ?_, fun whole => ⟨fun e => ?_, fun e => ?_⟩⟩
    · exact store (aligned := false) (fun h => by cases h) (e ▸ s.ea_eq x.m x.asz ▸ execVst_free pass free)
    · exact store (aligned := true) (fun _ => whole) (e ▸ s.strided_eq x.m x.asz ▸ execVsts_free pass free)
    · exact store (aligned := true) (fun _ => whole) (e ▸ s.ea_eq x.m x.asz ▸ execVscat_free pass free)

end Sys2Proof.Machine
end

section
/-!
SUPPORT. The position of a stream (R208): its number goes on by one, in the range of its bounds until the end.
-/
namespace Sys2Proof.Machine
open Sys2Proof

/-! ## Positions by their digits -/

/-- The number of a position of four dimensions, the innermost first. -/
def position (i b : Nat → Nat) : Nat := i 0 + b 0 * (i 1 + b 1 * (i 2 + b 2 * i 3))
theorem digit_lt {i b q m : Nat} (hi : i < b) (hq : q < m) : i + b * q < b * m := by
  calc i + b * q < b * (q + 1) := by rw [Nat.mul_succ]; omega
    _ ≤ b * m := Nat.mul_le_mul_left _ hq
theorem position_lt {i b : Nat → Nat} (h : ∀ k, k < 4 → i k < b k) : position i b < b 0 * (b 1 * (b 2 * b 3)) :=
  digit_lt (h 0 (by decide)) (digit_lt (h 1 (by decide)) (digit_lt (h 2 (by decide)) (h 3 (by decide))))
/-- What carrying makes of the digits of a position. -/
def carriedDigit (i b : Nat → Nat) (k : Nat) : Nat := (carried ((List.range 4).map (fun k => (i k, b k)))).getD k 0
theorem carriedDigit_eq (i b : Nat → Nat) (k : Nat) : carriedDigit i b k =
    (if i 0 + 1 < b 0 then [i 0 + 1, i 1, i 2, i 3] else if i 1 + 1 < b 1 then [0, i 1 + 1, i 2, i 3]
      else if i 2 + 1 < b 2 then [0, 0, i 2 + 1, i 3] else [0, 0, 0, i 3 + 1]).getD k 0 := by
  rw [carriedDigit]
  congr 1
  change carried [(i 0, b 0), (i 1, b 1), (i 2, b 2), (i 3, b 3)] = _
  simp only [carried, List.map_cons, List.map_nil, apply_ite (List.cons 0)]
section
variable {i b : Nat → Nat} (inside : ∀ k, k < 4 → i k < b k)
include inside

theorem position_carried : position (carriedDigit i b) b = position i b + 1 := by
  have h0 := inside 0 (by decide)
  have h1 := inside 1 (by decide)
  have h2 := inside 2 (by decide)
  simp only [position, carriedDigit_eq]
  split_ifs with c0 c1 c2
  · simp only [List.getD_cons_zero, List.getD_cons_succ]
    omega
  · obtain e0 : b 0 = i 0 + 1 := by omega
    simp only [List.getD_cons_zero, List.getD_cons_succ, e0]
    ring
  · obtain e0 : b 0 = i 0 + 1 := by omega
    obtain e1 : b 1 = i 1 + 1 := by omega
    simp only [List.getD_cons_zero, List.getD_cons_succ, e0, e1]
    ring
  · obtain e0 : b 0 = i 0 + 1 := by omega
    obtain e1 : b 1 = i 1 + 1 := by omega
    obtain e2 : b 2 = i 2 + 1 := by omega
    simp only [List.getD_cons_zero, List.getD_cons_succ, e0, e1, e2]
    ring
/-- A carried digit lies below its bound, but for the last one at the end. -/
theorem carriedDigit_cases {k : Nat} (hk : k < 4) :
    carriedDigit i b k < b k ∨ carriedDigit i b k = b k ∧ i 0 + 1 = b 0 ∧ i 1 + 1 = b 1 ∧ i 2 + 1 = b 2 ∧ i 3 + 1 = b 3 := by
  have h0 := inside 0 (by decide)
  have h1 := inside 1 (by decide)
  have h2 := inside 2 (by decide)
  have h3 := inside 3 (by decide)
  have digits : k = 0 ∨ k = 1 ∨ k = 2 ∨ k = 3 := by omega
  rw [carriedDigit_eq]
  split_ifs <;> rcases digits with rfl | rfl | rfl | rfl <;> simp only [List.getD_cons_zero, List.getD_cons_succ] <;> omega
end
/-- At the last position the number is the length less one. -/
theorem position_last {i b : Nat → Nat} (e0 : i 0 + 1 = b 0) (e1 : i 1 + 1 = b 1) (e2 : i 2 + 1 = b 2) (e3 : i 3 + 1 = b 3) :
    position i b + 1 = b 0 * (b 1 * (b 2 * b 3)) := by
  rw [position, ← e0, ← e1, ← e2, ← e3]
  ring

/-! ## Streams -/

section
variable {c : Stream}

theorem Stream.number_eq (c : Stream) : c.number = position c.ix c.bd := rfl
theorem Stream.length_eq (c : Stream) : c.length = c.bd 0 * (c.bd 1 * (c.bd 2 * c.bd 3)) := by rw [length]; ring
theorem Stream.next_bd (c : Stream) : c.next.bd = c.bd := rfl
theorem Stream.bd_lt (c : Stream) (k : Nat) : c.bd k < 2 ^ 32 := BitVec.isLt _
variable (inside : ∀ k, k < 4 → c.ix k < c.bd k)
include inside

theorem Stream.next_ix {k : Nat} (hk : k < 4) : c.next.ix k = carriedDigit c.ix c.bd k := by
  have small : carriedDigit c.ix c.bd k < 2 ^ 32 := by
    have := c.bd_lt k
    rcases carriedDigit_cases inside hk with h | ⟨h, -⟩ <;> omega
  have index : c.next.ix k = (BitVec.ofNat 32 (carriedDigit c.ix c.bd k)).toNat := by
    have digits : k = 0 ∨ k = 1 ∨ k = 2 ∨ k = 3 := by omega
    rcases digits with rfl | rfl | rfl | rfl <;> rfl
  rw [index, BitVec.toNat_ofNat, Nat.mod_eq_of_lt small]
theorem Stream.next_number : c.next.number = c.number + 1 := by
  rw [number_eq, number_eq, ← position_carried inside]
  simp only [position, c.next_bd, next_ix inside (by decide : 0 < 4), next_ix inside (by decide : 1 < 4), next_ix inside (by decide : 2 < 4),
    next_ix inside (by decide : 3 < 4)]
theorem Stream.next_done : c.next.done = true ↔ c.number + 1 = c.length := by
  have below : c.number < c.length := by
    rw [c.number_eq, c.length_eq]
    exact position_lt inside
  rw [done, decide_eq_true_iff, next_number inside]
  change c.length ≤ _ ↔ _
  omega
theorem Stream.next_inside (more : c.next.done = false) {k : Nat} (hk : k < 4) : c.next.ix k < c.next.bd k := by
  rw [next_ix inside hk, c.next_bd]
  rcases carriedDigit_cases inside hk with h | ⟨-, e0, e1, e2, e3⟩
  · exact h
  · refine absurd ((next_done inside).2 ?_) (by rw [more]; exact Bool.false_ne_true)
    rw [c.number_eq, c.length_eq, position_last e0 e1 e2 e3]
end
theorem Stream.addr_eq (c : Stream) : (c.addr : Int) = ((c.base.toNat % 2 ^ 53 : Nat) + ((Fmt.ofCode (c.base.toNat / 2 ^ 60)).step : Int) *
    (c.ix 0 * (vget c.stride 0 0).toInt + c.ix 1 * (vget c.stride 1 0).toInt + c.ix 2 * (vget c.stride 2 0).toInt
      + c.ix 3 * (vget c.stride 3 0).toInt)) % 2 ^ 53 := by
  rw [addr, natCast_addr53, Int.mul_comm ((Fmt.ofCode _).step : Int)]
  rfl

end Sys2Proof.Machine
end

section
/-!
SUPPORT. The slots of streams: their configuration (R206, R207), pops and pushes (R209).
-/
namespace Sys2Proof.Machine
open Sys2Proof

/-! ## Configuration -/

section
variable {s : State}

theorem scfg_cases {x : OpScfg} (pass : s.guard x.q = true) :
    (ptrOk (s.rdA x.a) = false → execScfg x s = trapAt codeBadaddr (s.rdA x.a) 8 s) ∧
    (ptrOk (s.rdA x.a) = true → (s.slot x.slot.toNat).isBound = true → execScfg x s = trapAt codeStream (streamDetail 5 x.slot.toNat) 8 s) ∧
    (ptrOk (s.rdA x.a) = true → (s.slot x.slot.toNat).isBound = false → execScfg x s = .next (((s.setSlot x.slot.toNat
      { Stream.empty with base := s.rdA x.a, bound := Vector.replicate 4 1, configured := true, push := x.push }).count 0 7 1).done 8)) := by
  rw [execScfg, guarded_pass _ pass]
  refine ⟨fun bad => ?_, fun ok bound => ?_, fun ok free => ?_⟩
  · simp only [bad, Bool.not_false, if_true]
  · simp only [ok, bound, Bool.not_true, Bool.false_eq_true, if_false, if_true]
  · simp only [ok, free, Bool.not_true, Bool.false_eq_true, if_false, complete_eq]
theorem sdim_cases {x : OpSdim} (pass : s.guard x.q = true) :
    let y := s.slot x.slot.toNat
    let b := s.rdG x.bound
    let t := (s.rdG x.stride).toInt
    (y.isBound = true → execSdim x s = trapAt codeStream (streamDetail 5 x.slot.toNat) 8 s) ∧
    (y.isBound = false → b.toNat < 2 ^ 32 ∧ -2 ^ 31 ≤ t ∧ t < 2 ^ 31 → execSdim x s = .next (((s.setSlot x.slot.toNat
      { y with bound := vset y.bound x.dim.toNat (b.setWidth 32),
               stride := vset y.stride x.dim.toNat ((s.rdG x.stride).setWidth 32) }).count 0 7 1).done 8)) ∧
    (y.isBound = false → ¬ (b.toNat < 2 ^ 32 ∧ -2 ^ 31 ≤ t ∧ t < 2 ^ 31) →
      execSdim x s = trapAt codeStream (streamDetail 6 x.slot.toNat) 8 s) := by
  intro y b t
  have range : (decide (2 ^ 32 ≤ b.toNat) || decide (t < -2 ^ 31) || decide (t ≥ 2 ^ 31)) = true ↔
      ¬ (b.toNat < 2 ^ 32 ∧ -2 ^ 31 ≤ t ∧ t < 2 ^ 31) := by
    simp only [Bool.or_eq_true, decide_eq_true_eq]
    omega
  rw [execSdim, guarded_pass _ pass]
  refine ⟨fun bound => if_pos bound, fun free fits => ?_, fun free beyond => ?_⟩
  · refine (if_neg (by rw [free]; exact Bool.false_ne_true)).trans ((if_neg ?_).trans (complete_eq _ _))
    exact fun h => range.1 h fits
  · exact (if_neg (by rw [free]; exact Bool.false_ne_true)).trans (if_pos (range.2 beyond))
theorem son_cases {x : OpSlot} (pass : s.guard x.q = true) :
    ((s.slot x.slot.toNat).configured = true → execSon x s =
      .next (((s.setSlot x.slot.toNat { s.slot x.slot.toNat with isBound := true }).count 0 7 1).done 8)) ∧
    ((s.slot x.slot.toNat).configured = false → execSon x s = trapAt codeStream (streamDetail 4 x.slot.toNat) 8 s) := by
  rw [execSon, guarded_pass _ pass]
  exact ⟨fun ready => if_pos ready, fun bare => if_neg (by rw [bare]; exact Bool.false_ne_true)⟩
theorem soff_eq {x : OpSlot} (pass : s.guard x.q = true) : execSoff x s =
    .next (((s.setSlot x.slot.toNat { s.slot x.slot.toNat with isBound := false, ahead := [], lost := [] }).count 0 7 1).done 8) := by
  rw [execSoff, guarded_pass _ pass, complete_eq]
theorem swait_cases {x : OpSlot} (pass : s.guard x.q = true) (lazy : s.eager = false) :
    ((∀ a ∈ (s.getCore s.cur).pend, a.slot ≠ some x.slot) → execSwait x s = .next ((s.count 0 7 1).done 8)) ∧
    ((∃ a ∈ (s.getCore s.cur).pend, a.slot = some x.slot) → execSwait x s = .next (s.waits .other 0)) := by
  have acked : s.allAcked s.cur (Access.ofSlot x.slot) = true ↔ ∀ a ∈ (s.getCore s.cur).pend, a.slot ≠ some x.slot := by
    simp [State.allAcked, Access.ofSlot]
  rw [execSwait, guarded_pass _ pass, State.settledAcks_lazy lazy]
  refine ⟨fun none => if_pos (acked.2 none), fun ⟨a, ha, e⟩ => ?_⟩
  exact (if_neg fun h => acked.1 h a ha e).trans (stay_eq _ _ _)
end

end Sys2Proof.Machine
end

section
/-!
SUPPORT. The slots of streams: pops and pushes (R209).
-/
namespace Sys2Proof.Machine
open Sys2Proof

/-! ## The slot of a register -/

theorem slotOf_stream {n : Nat} (h : n < 4) : slotOf (BitVec.ofNat 5 (28 + n)) = some n := by
  revert n
  decide
theorem boundSlot_stream {s : State} {n : Nat} (h : n < 4) (bound : (s.slot n).isBound = true) :
    s.boundSlot (BitVec.ofNat 5 (28 + n)) = some n := by
  rw [State.boundSlot, slotOf_stream h]
  exact if_pos bound
theorem boundSlot_low (s : State) {r : VReg} (h : r.toNat < 28) : s.boundSlot r = none := by
  rw [State.boundSlot, slotOf, if_neg (Nat.not_le.2 h)]

/-! ## What the end of an instruction leaves -/

/-- The state once the flags and the draws of a vector instruction are taken and it has completed. -/
def State.vecEnded (s : State) (fl : FlagSet) (rm : Rm) (n : Nat) : State := (((s.addFlags fl).draw rm n).count 0 7 1).done 8
section
variable (s : State) (fl : FlagSet) (rm : Rm) (n : Nat)

theorem State.draw_eq : s.draw rm n = { s with core := { s.core with seed := (s.draw rm n).core.seed } } := by
  unfold State.draw
  split <;> rfl
theorem State.vecEnded_mem : (s.vecEnded fl rm n).mem = s.mem := by
  rw [vecEnded, State.done_mem, State.count_mem, State.draw_eq]
  rfl
theorem State.vecEnded_pend : (s.vecEnded fl rm n).core.pend = s.core.pend := by
  rw [vecEnded, State.done_pend, State.count_core, State.draw_eq]
  rfl
theorem State.vecEnded_slot (k : Nat) : (s.vecEnded fl rm n).slot k = s.slot k := by
  rw [slot, vecEnded, State.done_tile_eq, State.count_tile_eq, State.draw_eq]
  rfl
theorem State.vecEnded_rdV (r : VReg) : (s.vecEnded fl rm n).rdV r = s.rdV r := by
  rw [rdV, vecEnded, State.done_tile_eq, State.count_tile_eq, State.draw_eq]
  rfl
end

/-! ## Pops -/

theorem Recounted.slot {s t : State} (h : Recounted s t) (k : Nat) : t.slot k = s.slot k := by
  have := congrArg (fun t => vget t.streams k Stream.empty) h.uncounted
  exact this
theorem State.slot_setSlot (s : State) {n : Nat} (h : n < 4) (x : Stream) : (s.setSlot n x).slot n = x := vget_vset_same _ _ _ _ h
theorem State.popped_slot (s : State) {n : Nat} (h : n < 4) : (s.popped n).slot n = (s.slot n).next := by
  unfold State.popped
  exact ((Recounted.countBytes _ _ _ _ _).slot n).trans (State.slot_setSlot _ h _)

/-- The parts of one access of 64 B that has read nothing. -/
theorem loadParts_one (a : Nat) : loadParts [a] 64 = (pieces a 64).map (fun q => ⟨q.1, q.2, 0, a, 64, none⟩) := by
  simp [loadParts]
section
variable {s : State} {n : Nat} (reads : (s.slot n).push = false)
include reads

theorem popSlot_done (last : (s.slot n).done = true) : popSlot n s = .trap codeStream (streamDetail 1 n) := by
  simp only [popSlot, reads, last, Bool.false_eq_true, if_false, if_true]
theorem popSlot_outside (more : (s.slot n).done = false) (outside : s.vecOk (s.slot n).addr 64 = false) :
    popSlot n s = .trap codeBadaddr (BitVec.ofNat 64 (s.slot n).addr) := by
  simp only [popSlot, reads, more, outside, Bool.false_eq_true, if_false, Bool.not_false, if_true]
  rfl
/-- A pop of a vector not fetched before, on a machine whose read performs at once. -/
theorem popSlot_now (more : (s.slot n).done = false) (reached : s.vecOk (s.slot n).addr 64 = true) (fresh : (s.slot n).ahead = [])
    (kept : (s.slot n).lost = []) (now : s.readsNow [(s.slot n).addr] 64 .rlx .self) :
    popSlot n s = .ok (s.readNat (s.slot n).addr 64) (s.popped n) := by
  obtain ⟨eager, free, sound⟩ := now
  have held : (s.slot n).held 0 = (pieces (s.slot n).addr 64).map (fun q => ⟨q.1, q.2, 0, (s.slot n).addr, 64, none⟩) := by
    rw [Stream.held, fresh, ← loadParts_one]
    rfl
  have left : partsLeft ((s.slot n).held 0) = pieces (s.slot n).addr 64 := by
    have all : (pieces (s.slot n).addr 64).filter (fun _ => true) = pieces (s.slot n).addr 64 := List.filter_true _
    rw [held, partsLeft, List.filter_map, List.map_map]
    exact (List.map_id' _).trans all
  have bytes : s.partBytes ((s.slot n).held 0) = s.readBytes (s.slot n).addr 64 := by
    have one := s.allPieces_readBytes [(s.slot n).addr] 64
    rw [allPieces, List.flatMap_singleton, List.flatMap_singleton] at one
    rw [held, State.partBytes, List.flatMap_map]
    exact one
  rw [allPieces, List.flatMap_singleton] at sound
  simp only [popSlot, reads, more, reached, left, kept, List.find?_nil, free, sound, eager, bytes, s.leNat_readBytes, Bool.not_true,
    Bool.false_eq_true, if_false, Bool.and_false]
end
theorem popSlot_push {s : State} {n : Nat} (push : (s.slot n).push = true) : popSlot n s = .trap codeStream (streamDetail 3 n) := by
  simp only [popSlot, push, if_true]

/-! ## Sources that name a stream -/

section
variable {s : State} {r : VReg} {n : Nat} (bound : s.boundSlot r = some n) (et : Fmt)
include bound

/-- A register named twice is popped once. -/
theorem sources_twice {u : State} {v : Nat} (k : List Nat → State → Res Unit) (pop : popSlot n s = .ok v u) :
    sources et [.v r, .v r] s k = k [v, v] u := by
  have slots : s.slotsOf [r, r] = [n] := by
    simp only [State.slotsOf, List.filterMap_cons, bound, List.filterMap_nil]
    simp
  have read : readVecs [r, r] s = .ok [v, v] u := by
    simp only [readVecs, slots, popAll, pop, resBind, List.map_cons, List.map_nil, bound, List.zipWith_cons_cons, List.zipWith_nil_left, assoc,
      if_true]
  have regs : srcRegs [.v r, .v r] = [r, r] := rfl
  simp only [sources, regs, read, resBind, List.zip_cons_cons, List.zip_nil_left, List.map_cons, List.map_nil, State.srcBits, assoc, if_true]
theorem sources_trap {c : BitVec 8} {d : Word} (k : List Nat → State → Res Unit) (pop : popSlot n s = .trap c d) :
    sources et [.v r] s k = .trap c d := by
  have slots : s.slotsOf [r] = [n] := by
    simp only [State.slotsOf, List.filterMap_cons, bound, List.filterMap_nil]
    simp
  have regs : srcRegs [.v r] = [r] := rfl
  simp only [sources, regs, readVecs, slots, popAll, pop, resBind]
end

/-! ## Results -/

theorem deliver_unbound {d : VReg} {out : Fmt} {c : Ctl} {r : LaneRes} {s : State} (h : s.boundSlot d = none) :
    deliver d out c r s = .ok () (((s.wrV d (vecOf out r.lanes)).addFlags r.flags).draw c.rm r.draws) := by
  simp only [deliver, h]
theorem deliver_bound {d : VReg} {out : Fmt} {c : Ctl} {r : LaneRes} {s : State} {n : Nat} (h : s.boundSlot d = some n) (whole : out.width ≠ 4) :
    deliver d out c r s = resBind (pushSlot n (pushBytes out r (fun i => s.byteAt ((s.slot n).addr + i))) s)
      fun _ t => .ok () ((t.addFlags r.flags).draw c.rm r.draws) := by
  have bytes : halfByte out r = false := by simp [halfByte, whole]
  simp only [deliver, h, bytes, Bool.false_and, Bool.false_eq_true, if_false]
/-- A vector of lanes has the bits of these lanes. -/
theorem vecOf_lanesIn {et : Fmt} {v : Nat} (h : v < 2 ^ 512) : (vecOf et (et.lanesIn v)).toNat = v := by
  rw [vecOf, Fmt.lanesIn, packLanes_lanesOf, et.width_mul_lanes, BitVec.toNat_ofNat, Nat.mod_mod, Nat.mod_eq_of_lt h]
/-- Under w0 every lane acts. -/
theorem State.ctl_all (s : State) (et : Fmt) (rm : Rm) {k : Nat} (h : k < 128) (typed : et ≠ .raw) : (s.ctl et rm 0).active k = true := by
  rw [s.ctl_active, s.actLane_of_ne_raw typed, State.rdW, if_pos rfl, BitVec.getLsbD_allOnes, decide_eq_true h]
theorem Fmt.lanes_le_of_isI {et : Fmt} (h : et.isI = true) {k : Nat} (hk : k < et.lanes) : k < 128 := by
  have := (Fmt.lanes_bounds_of_isI h).2
  omega
/-- A lane operation under w0 that gives back its first operand. -/
theorem lanewise_same {s : State} {et : Fmt} {rm : Rm} {op : LaneOp} {v y z : Nat} {b e : Nat → Nat} (old : Vec) (int : et.isI = true)
    (hy : et.lanesIn y = (List.range et.lanes).map b) (hz : et.lanesIn z = (List.range et.lanes).map e)
    (same : ∀ k, k < et.lanes → op k (v / 2 ^ (et.width * k) % 2 ^ et.width) (b k) (e k) = (v / 2 ^ (et.width * k) % 2 ^ et.width, 0)) :
    let r := lanewise (s.ctl et rm 0) op false v y z old.toNat
    r.lanes = et.lanesIn v ∧ (∀ k, k < et.lanes → r.written.getD k false = true) ∧ r.draws = 0 := by
  have all (k : Nat) (hk : k < et.lanes) : (s.ctl et rm 0).active k = true :=
    s.ctl_all et rm (Fmt.lanes_le_of_isI int hk) (Fmt.ne_raw_of_isI int)
  rw [lanewise_eq (c := s.ctl et rm 0) op false (lanesIn_eq_map et v) hy hz (lanesIn_toNat et old)]
  refine ⟨?_, fun k hk => ?_, rfl⟩
  · rw [lanesIn_eq_map]
    refine List.map_congr_left fun k hk => ?_
    have hk := List.mem_range.1 hk
    rw [all k hk, if_pos rfl, same k hk]
  · change ((List.range et.lanes).map _).getD k false = true
    simp only [List.getD, List.getElem?_map, List.getElem?_range hk, Option.map_some, Option.getD_some, all k hk]

/-! ## Pops of a source named twice -/

theorem vand_pops {x : OpV2} {s : State} {n : Nat} {r : VReg} (pass : s.guard x.q = true) (int : x.et.isI = true) (mask : x.wm = 0)
    (hn : n < 4) (ha : x.a = .v r) (hb : x.b = .v r) (hd : x.d.toNat < 28) (bound : s.boundSlot r = some n)
    (pop : popSlot n s = .ok (s.readNat (s.slot n).addr 64) (s.popped n)) :
    ∃ t, execVand x s = .next t ∧ (t.rdV x.d).toNat = s.readNat (s.slot n).addr 64 ∧ t.slot n = (s.slot n).next := by
  have same := lanewise_same (s := s.popped n) (rm := x.rm) (op := opBits (fun a b => a &&& b)) (v := s.readNat (s.slot n).addr 64)
    ((s.popped n).rdV x.d) int (lanesIn_eq_map _ _) (lanesIn_zero _) fun k _ => by rw [opBits, Nat.and_self]
  have effect : doVand x s = .ok () ((((s.popped n).wrV x.d (vecOf x.et (x.et.lanesIn (s.readNat (s.slot n).addr 64)))).addFlags
      (lanewise ((s.popped n).ctl x.et x.rm 0) (opBits (fun a b => a &&& b)) false (s.readNat (s.slot n).addr 64)
        (s.readNat (s.slot n).addr 64) 0 ((s.popped n).rdV x.d).toNat).flags).draw ((s.popped n).ctl x.et x.rm 0).rm 0) := by
    rw [doVand, lane2, vec2, ha, hb, sources_twice bound x.et _ pop, deliver_unbound (boundSlot_low _ hd), mask]
    obtain ⟨lanes, -, draws⟩ := same
    rw [← lanes, ← draws]
    rfl
  have run : execVand x s = .next (((s.popped n).wrV x.d _).vecEnded _ _ 0) :=
    (vecRun_pass (f := doVand x) pass).trans (congrArg (vecEnd s) effect)
  refine ⟨_, run, ?_, ?_⟩
  · rw [State.vecEnded_rdV, State.rdV_wrV_same, vecOf_lanesIn (s.readNat_lt _ 64)]
  · rw [State.vecEnded_slot]
    exact s.popped_slot hn

/-! ## Pushes -/

theorem Fmt.width_of_isI {et : Fmt} (h : et.isI = true) : et.width = 8 ∨ et.width = 16 ∨ et.width = 32 ∨ et.width = 64 := by
  revert h
  cases et <;> decide
theorem Fmt.width_ne_four {et : Fmt} (h : et.isI = true) : et.width ≠ 4 := by
  have := Fmt.width_of_isI h
  omega
/-- The bytes that a push of whole lanes stores are those of the vector. -/
theorem pushBytes_lanes {et : Fmt} (int : et.isI = true) {r : LaneRes} {v : Nat} (lanes : r.lanes = et.lanesIn v)
    (written : ∀ k, k < et.lanes → r.written.getD k false = true) (old : Nat → Byte) :
    pushBytes et r old = (List.range 64).map (fun i => some (BitVec.ofNat 8 (v / 2 ^ (8 * i)))) := by
  have widths := Fmt.width_of_isI int
  have total := et.width_mul_lanes
  refine List.map_congr_left fun i hi => ?_
  have hi := List.mem_range.1 hi
  have lane : 8 * i / et.width < et.lanes := by
    rw [Nat.div_lt_iff_lt_mul et.width_pos, Nat.mul_comm et.lanes, total]
    omega
  have room : 8 * i % et.width + 8 ≤ et.width := by rcases widths with w | w | w | w <;> rw [w] <;> omega
  rw [if_neg (by omega), if_neg (by omega)]
  dsimp only
  rw [if_pos (written _ lane), lanes, lanesIn_eq_map, laneAt, getD_map_range lane]
  congr 1
  apply BitVec.eq_of_toNat_eq
  rw [BitVec.toNat_ofNat, BitVec.toNat_ofNat, field_of_mod room, Nat.div_div_eq_div_mul, ← Nat.pow_add, Nat.div_add_mod]
theorem pushCells_eq (a v : Nat) : (List.range 64).filterMap (fun i =>
    (((List.range 64).map (fun i => some (BitVec.ofNat 8 (v / 2 ^ (8 * i))))).getD i none).map (fun b => (a + i, b))) = cellsOf a v 64 := by
  rw [cellsOf_eq, range'_eq_map]
  refine (List.filterMap_congr fun i hi => ?_).trans
    (congrFun (List.filterMap_eq_map (f := fun i => (a + i, BitVec.ofNat 8 (v / 2 ^ (8 * (a + i - a)))))) _)
  simp only [List.getD, List.getElem?_map, List.getElem?_range (List.mem_range.1 hi), Option.map_some, Option.getD_some, Function.comp,
    Nat.add_sub_cancel_left]
/-- The state once a push of a whole vector has issued one store of its bytes, and the position has gone on. -/
def State.pushed (s : State) (n v : Nat) : State :=
  let a := (s.slot n).addr
  ((s.setSlot n (s.slot n).next).issueAccess (storeCells a 64 (cellsOf a v 64) (some (BitVec.ofNat 2 n)))).countBytes s.cur 1 a
    (cellsOf a v 64).length
section
variable {s : State} {n : Nat} (writes : (s.slot n).push = true)
include writes

theorem pushSlot_done (bytes : List (Option Byte)) (last : (s.slot n).done = true) :
    pushSlot n bytes s = .trap codeStream (streamDetail 2 n) := by
  simp only [pushSlot, writes, last, Bool.not_true, Bool.false_eq_true, if_false, if_true]
theorem pushSlot_outside (bytes : List (Option Byte)) (more : (s.slot n).done = false) (outside : s.vecOk (s.slot n).addr 64 = false) :
    pushSlot n bytes s = .trap codeBadaddr (BitVec.ofNat 64 (s.slot n).addr) := by
  simp only [pushSlot, writes, more, outside, Bool.not_true, Bool.not_false, Bool.false_eq_true, if_false, if_true]
  rfl
theorem pushSlot_whole (more : (s.slot n).done = false) (reached : s.vecOk (s.slot n).addr 64 = true) (v : Nat) :
    pushSlot n ((List.range 64).map (fun i => some (BitVec.ofNat 8 (v / 2 ^ (8 * i))))) s = .ok () (s.pushed n v) := by
  have some_cells : cellsOf (s.slot n).addr v 64 ≠ [] := by rintro h; cases h
  simp only [pushSlot, writes, more, reached, Bool.not_true, Bool.false_eq_true, if_false, pushCells_eq, some_cells]
  rfl
end
theorem pushSlot_pop {s : State} {n : Nat} (reads : (s.slot n).push = false) (bytes : List (Option Byte)) :
    pushSlot n bytes s = .trap codeStream (streamDetail 3 n) := by
  simp only [pushSlot, reads, Bool.not_false, if_true]
/-- Empty parts do not matter to the whole. -/
theorem flatten_filter {α : Type} {p : List α → Bool} (h : ∀ x, p x = false → x = []) (l : List (List α)) : (l.filter p).flatten = l.flatten := by
  induction l with
  | nil => rfl
  | cons x r ih =>
    rw [List.filter_cons]
    split
    · rw [List.flatten_cons, List.flatten_cons, ih]
    · next out => rw [ih, List.flatten_cons, h x (Bool.eq_false_iff.2 out), List.nil_append]
/-- The part of a range between two of its addresses. -/
theorem filter_range' {a n lo len : Nat} (h : a ≤ lo ∧ lo + len ≤ a + n ∨ len = 0) :
    (List.range' a n).filter (fun b => decide (lo ≤ b ∧ b < lo + len)) = List.range' lo len := by
  rcases h with ⟨first, last⟩ | rfl
  · obtain ⟨i, rfl⟩ : ∃ i, lo = a + i := ⟨lo - a, by omega⟩
    obtain ⟨j, rfl⟩ : ∃ j, n = i + (len + j) := ⟨n - (i + len), by omega⟩
    rw [← List.range'_append_1, ← List.range'_append_1, List.filter_append, List.filter_append, List.filter_eq_nil_iff.2,
      List.filter_eq_self.2, List.filter_eq_nil_iff.2, List.nil_append, List.append_nil]
    all_goals
      intro b hb
      obtain ⟨k, hk, rfl⟩ := List.mem_range'.1 hb
      simp only [decide_eq_true_eq]
      omega
  · refine List.filter_eq_nil_iff.2 fun b _ => ?_
    simp only [decide_eq_true_eq]
    omega
theorem storeCells_flatten (a v n : Nat) (slot : Option (BitVec 2)) : (storeCells a n (cellsOf a v n) slot).pieces.flatten = cellsOf a v n := by
  change (List.filter (fun x => x != []) (List.map _ (pieces a n))).flatten = _
  rw [flatten_filter (fun x h => by simpa using h), cellsOf_eq]
  conv => rhs; rw [← pieces_flatMap_map, List.flatMap_def]
  congr 1
  refine List.map_congr_left fun p hp => ?_
  rw [List.filter_map, ← filter_range' (pieces_within hp)]
  rfl
section
variable (s : State) (n v : Nat)

theorem State.pushed_mem : (s.pushed n v).mem = s.mem := (Recounted.countBytes _ _ _ _ _).mem
theorem State.pushed_slot (h : n < 4) : (s.pushed n v).slot n = (s.slot n).next :=
  ((Recounted.countBytes _ _ _ _ _).slot n).trans (s.slot_setSlot h _)
theorem State.pushed_pend (empty : s.tile.rep.count = 0) : ∃ acc, (s.pushed n v).core.pend = s.core.pend ++ [acc] ∧
    acc.slot = some (BitVec.ofNat 2 n) ∧ acc.pieces.flatten = cellsOf (s.slot n).addr v 64 :=
  ⟨_, (congrArg Core.pend (Recounted.countBytes _ _ _ _ _).core).trans
    (State.issueAccess_alone (s := s.setSlot n (s.slot n).next) _ empty), rfl, storeCells_flatten _ _ _ (some (BitVec.ofNat 2 n))⟩
end

/-! ## VMOV with a stream in one of its fields -/

section
variable {x : OpV1} {s : State} {n : Nat}

theorem doVmov_unbound (free : ∀ r, x.a = .v r → s.boundSlot r = none) : doVmov x s =
    deliver x.d x.et (s.ctl x.et x.rm x.wm) (lanewise (s.ctl x.et x.rm x.wm) (fun _ a _ _ => (a, 0)) false (s.srcVec x.et x.a) 0 0
      (s.rdV x.d).toNat) s := by
  rw [doVmov, lane1, vec1, sources_unbound fun r hr => free r (List.mem_singleton.1 hr).symm]
  rfl
theorem vmov_pushes {r : VReg} (pass : s.guard x.q = true) (empty : s.tile.rep.count = 0) (int : x.et.isI = true) (mask : x.wm = 0)
    (hn : n < 4) (ha : x.a = .v r) (low : r.toNat < 28) (bound : s.boundSlot x.d = some n) (writes : (s.slot n).push = true)
    (more : (s.slot n).done = false) (reached : s.vecOk (s.slot n).addr 64 = true) :
    ∃ t acc, execVmov x s = .next t ∧ t.mem = s.mem ∧ t.slot n = (s.slot n).next ∧ t.core.pend = s.core.pend ++ [acc] ∧
      acc.slot = some (BitVec.ofNat 2 n) ∧ acc.pieces.flatten = cellsOf (s.slot n).addr (s.rdV r).toNat 64 := by
  have free (q : VReg) (hq : x.a = .v q) : s.boundSlot q = none := by
    obtain rfl : r = q := Src.v.inj (ha.symm.trans hq)
    exact boundSlot_low s low
  have effect : ∃ fl rm k, doVmov x s = .ok () (((s.pushed n (s.rdV r).toNat).addFlags fl).draw rm k) := by
    obtain ⟨lanes, written, -⟩ := lanewise_same (s := s) (rm := x.rm) (op := fun _ a _ _ => (a, 0)) (v := (s.rdV r).toNat) (s.rdV x.d) int
      (lanesIn_zero _) (lanesIn_zero _) fun k _ => rfl
    have delivered := doVmov_unbound free
    rw [ha, mask, deliver_bound bound (Fmt.width_ne_four int)] at delivered
    change _ = resBind (pushSlot n (pushBytes x.et (lanewise (s.ctl x.et x.rm 0) _ false (s.rdV r).toNat 0 0 _) _) s) _ at delivered
    rw [pushBytes_lanes int lanes written, pushSlot_whole writes more reached] at delivered
    exact ⟨_, _, _, delivered⟩
  obtain ⟨fl, rm, k, effect⟩ := effect
  have run : execVmov x s = .next ((s.pushed n (s.rdV r).toNat).vecEnded fl rm k) :=
    (vecRun_pass (f := doVmov x) pass).trans (congrArg (vecEnd s) effect)
  obtain ⟨acc, pend, slot, cells⟩ := s.pushed_pend n (s.rdV r).toNat empty
  exact ⟨_, acc, run, (State.vecEnded_mem _ _ _ _).trans (s.pushed_mem _ _), (State.vecEnded_slot _ _ _ _ _).trans (s.pushed_slot _ _ hn),
    (State.vecEnded_pend _ _ _ _).trans pend, slot, cells⟩
variable (pass : s.guard x.q = true)
include pass

/-- An effect that traps is the trap of its instruction. -/
theorem vmov_traps {c : BitVec 8} {d : Word} (effect : doVmov x s = .trap c d) (code : c ≠ codeBackstop) : execVmov x s = trapAt c d 8 s := by
  rw [execVmov, vecRun_pass pass, effect, vecEnd, raise, if_neg code]
theorem vmov_source_traps {r : VReg} {c : BitVec 8} {d : Word} (ha : x.a = .v r) (bound : s.boundSlot r = some n)
    (pop : popSlot n s = .trap c d) (code : c ≠ codeBackstop) : execVmov x s = trapAt c d 8 s := by
  refine vmov_traps pass ?_ code
  rw [doVmov, lane1, vec1, ha, sources_trap bound x.et _ pop]
theorem vmov_dest_traps {c : BitVec 8} {d : Word} (int : x.et.isI = true) (free : ∀ r, x.a = .v r → s.boundSlot r = none)
    (bound : s.boundSlot x.d = some n) (push : ∀ bytes, pushSlot n bytes s = .trap c d) (code : c ≠ codeBackstop) :
    execVmov x s = trapAt c d 8 s := by
  refine vmov_traps pass ?_ code
  rw [doVmov_unbound free, deliver_bound bound (Fmt.width_ne_four int), push]
  rfl
end

/-! ## The d field of a vector load or store -/

theorem dField_bound {s : State} {r : VReg} {n : Nat} (bound : s.boundSlot r = some n) (k : State → Out) :
    dField r s k = trapAt codeStream (streamDetail 3 n) 8 s := by rw [dField, bound]
theorem vmem_dField {x : OpVmem} {s : State} {n : Nat} (pass : s.guard x.q = true) (bound : s.boundSlot x.d = some n) :
    ∀ i ∈ [Instr.vld x, .vst x, .vlds x, .vsts x, .vgath x, .vscat x], exec i s = trapAt codeStream (streamDetail 3 n) 8 s := by
  have traps {i : Instr} {k : State → Out} (run : exec i s = guarded x.q 8 s fun s => dField x.d s k) :
      exec i s = trapAt codeStream (streamDetail 3 n) 8 s := by rw [run, guarded_pass _ pass, dField_bound bound]
  simp only [List.forall_mem_cons]
  exact ⟨traps rfl, traps rfl, traps rfl, traps rfl, traps rfl, traps rfl, List.forall_mem_nil _⟩

/-! ## The statement -/

/-- Settles O23: each clause is a case of the slot's own operation. -/
theorem streams : Obligations.Streams := by
  unfold Obligations.Streams
  refine ⟨⟨fun x s pass => scfg_cases pass, fun x s pass => ?_, fun x s pass => ?_⟩,
    ⟨fun x s n pass int mask hn ha hb hd => ?_, fun x s n r pass empty int mask hn hd ha low => ?_, fun x s n pass int hn bound => ?_,
      fun x s n pass hn hd bound => ?_⟩, fun c inside => ?_⟩
  · obtain ⟨bound, fits, beyond⟩ := sdim_cases (x := x) pass
    refine ⟨bound, fun free few low high => ?_, beyond⟩
    have stride : BitVec.ofInt 32 (s.rdG x.stride).toInt = (s.rdG x.stride).setWidth 32 :=
      BitVec.signExtend_eq_setWidth_of_le (s.rdG x.stride) (by decide)
    rw [BitVec.ofNat_toNat, stride]
    exact fits free ⟨few, low, high⟩
  · obtain ⟨ready, bare⟩ := son_cases (x := x) pass
    exact ⟨ready, bare, soff_eq pass, fun lazy => (swait_cases pass lazy).1, fun lazy => (swait_cases pass lazy).2⟩
  · intro c a bound reads more reached fresh kept now
    exact vand_pops pass int mask hn ha hb hd (boundSlot_stream hn bound) (popSlot_now reads more reached fresh kept now)
  · intro c a bound writes more reached
    exact vmov_pushes pass empty int mask hn ha low (hd ▸ boundSlot_stream hn bound) writes more reached
  · intro c a detail
    have named := boundSlot_stream hn bound
    refine ⟨fun ha => ⟨fun push => ?_, fun reads last => ?_, fun reads more outside => ?_⟩, fun hd low => ?_⟩
    · exact vmov_source_traps pass ha named (popSlot_push push) (by decide)
    · exact vmov_source_traps pass ha named (popSlot_done reads last) (by decide)
    · exact vmov_source_traps pass ha named (popSlot_outside reads more outside) (by decide)
    · have dest : s.boundSlot x.d = some n := hd ▸ named
      have free (r : VReg) (h : x.a = .v r) : s.boundSlot r = none := boundSlot_low s (low r h)
      refine ⟨fun reads => ?_, fun writes last => ?_, fun writes more outside => ?_⟩
      · exact vmov_dest_traps pass int free dest (pushSlot_pop reads) (by decide)
      · exact vmov_dest_traps pass int free dest (fun bytes => pushSlot_done writes bytes last) (by decide)
      · exact vmov_dest_traps pass int free dest (fun bytes => pushSlot_outside writes bytes more outside) (by decide)
  · exact vmem_dField pass (hd ▸ boundSlot_stream hn bound)
  · exact ⟨c.addr_eq, Stream.next_number inside, rfl, Stream.next_done inside, fun more k hk => Stream.next_inside inside more hk⟩

end Sys2Proof.Machine
end

section
/-!
SUPPORT. Memory in its canonical form (R222, R226): what an outcome leaves, and what choices, lists of steps and the writes of cells keep.
-/
namespace Sys2Proof.Machine
open Sys2Proof

/-- The memory an outcome leaves, where it leaves a state, is in the canonical form. -/
def Canonical : Out → Prop
  | .next t => Memory.wf t.mem
  | .fault _ | .refused _ => True
/-- The same of a result of the vector pipe. -/
def CanonicalRes {α : Type} : Res α → Prop
  | .ok _ t => Memory.wf t.mem
  | .trap _ _ | .wait => True

variable {s : State}

@[simp] theorem canonical_next (t : State) : Canonical (.next t) ↔ Memory.wf t.mem := Iff.rfl
@[simp] theorem canonical_fault (f : Fault) : Canonical (.fault f) := trivial
@[simp] theorem canonical_refused (r : Refusal) : Canonical (.refused r) := trivial
@[simp] theorem canonicalRes_ok {α : Type} (x : α) (t : State) : CanonicalRes (.ok x t) ↔ Memory.wf t.mem := Iff.rfl
@[simp] theorem canonicalRes_trap {α : Type} (c : BitVec 8) (d : Word) : CanonicalRes (.trap c d : Res α) := trivial
@[simp] theorem canonicalRes_wait {α : Type} : CanonicalRes (.wait : Res α) := trivial
theorem wf_of_next {o : Out} {t : State} (ho : Canonical o) (e : o = .next t) : Memory.wf t.mem := by subst e; exact ho
theorem wf_of_ok {α : Type} {r : Res α} {x : α} {t : State} (hr : CanonicalRes r) (e : r = .ok x t) : Memory.wf t.mem := by subst e; exact hr

@[simp] theorem State.mem_ite (c : Prop) [Decidable c] (s t : State) : (if c then s else t).mem = if c then s.mem else t.mem := apply_ite _ _ _ _
@[simp] theorem fst_ite {α : Type} (c : Prop) [Decidable c] (x y : State × α) :
    (if c then x else y).1 = if c then x.1 else y.1 := apply_ite _ _ _ _
@[simp] theorem wf_ite (c : Prop) [Decidable c] (m n : List Host.Cell) :
    Memory.wf (if c then m else n) = if c then Memory.wf m else Memory.wf n := apply_ite _ _ _ _
@[simp] theorem canonical_ite (c : Prop) [Decidable c] (o p : Out) : Canonical (if c then o else p) = if c then Canonical o else Canonical p :=
  apply_ite _ _ _ _
@[simp] theorem canonicalRes_ite {α : Type} (c : Prop) [Decidable c] (r q : Res α) :
    CanonicalRes (if c then r else q) = if c then CanonicalRes r else CanonicalRes q := apply_ite _ _ _ _
@[simp] theorem wf_memPut {cells m : List Host.Cell} (h : Memory.wf m) : Memory.wf (memPut m cells) := memPut_wf cells h
@[simp] theorem wf_dropCells {a n : Nat} {m : List Host.Cell} (h : Memory.wf m) : Memory.wf (dropCells m a n) := dropCells_wf a n h
@[simp] theorem wf_filter {f : Host.Cell → Bool} {m : List Host.Cell} (h : Memory.wf m) : Memory.wf (m.filter f) := filter_wf f h
/-- Steps that leave memory as it was, one for each element of a list. -/
@[simp] theorem State.mem_foldl {α : Type} {f : State → α → State} (hf : ∀ s a, (f s a).mem = s.mem)
    (l : List α) (s : State) : (l.foldl f s).mem = s.mem :=
  foldl_mem f hf l s
/-- Steps that keep memory canonical, one for each element of a list. -/
theorem foldl_wf {α : Type} {f : State → α → State} {l : List α}
    (hf : ∀ s a, Memory.wf s.mem → Memory.wf (f s a).mem) (h : Memory.wf s.mem) :
    Memory.wf (l.foldl f s).mem := foldl_memOk f hf l h

end Sys2Proof.Machine
end

section
/-!
SUPPORT. Faults, traps and single writes keep memory canonical (R222, R226).
-/
namespace Sys2Proof.Machine
open Sys2Proof

variable {s : State}

/-! ## Processors and tiles -/

@[simp] theorem State.focus_mem (p) : (s.focus p).mem = s.mem := by
  unfold State.focus
  split <;> simp

/-! ## Sealed lines of protected teams (R361, R362) -/

@[simp] theorem State.teamPut_wf {t cells} (h : Memory.wf s.mem) : Memory.wf (s.teamPut t cells).mem := State.teamPut_memOk t cells h

/-! ## Progress and the end of an instruction -/

@[simp] theorem State.progressOf_mem (p) : (s.progressOf p).mem = s.mem := by
  unfold State.progressOf
  split <;> simp
@[simp] theorem State.endOfBody_mem (at_) : (s.endOfBody at_).1.mem = s.mem := rfl
@[simp] theorem State.advance_mem (len) : (s.advance len).mem = s.mem := by simp [State.advance]
@[simp] theorem complete_canonical {len} (h : Memory.wf s.mem) : Canonical (complete len s) := by simp [complete, h]
@[simp] theorem completeAt_canonical {target} (h : Memory.wf s.mem) : Canonical (completeAt target s) := by simp [completeAt, h]
@[simp] theorem stay_canonical {kind limit} (h : Memory.wf s.mem) : Canonical (stay kind limit s) := by
  unfold stay
  split <;> simp [h]
theorem guarded_canonical {q len body} (h : Memory.wf s.mem)
    (hb : ∀ u, Memory.wf u.mem → Canonical (body u)) : Canonical (guarded q len s body) := by
  unfold guarded
  split
  · exact hb s h
  · exact complete_canonical h

/-! ## Trap codes (R387) -/

@[simp] theorem State.failTeam_mem (num faultw faulta lcid) : (s.failTeam num faultw faulta lcid).mem = s.mem := by simp [State.failTeam]

/-! ## Faults on the way and at the home (R241, R393, R423) -/

@[simp] theorem State.spendTo_mem (m) : (s.spendTo m).mem = s.mem := by simp [State.spendTo]
@[simp] theorem State.owe_mem (m) : (s.owe m).mem = s.mem := by simp [State.owe]
@[simp] theorem State.spend_mem (a) : (s.spend a).mem = s.mem := by
  unfold State.spend
  split <;> simp
@[simp] theorem State.sendTo_mem (m tag c bytes) : (s.sendTo m tag c bytes).mem = s.mem := by simp [State.sendTo]
@[simp] theorem State.payPiece_mem (l q) : (s.payPiece l q).mem = s.mem := by simp [State.payPiece]

/-! ## Events (R63, R69, R292) -/

@[simp] theorem State.event_mem (lcid k) : (s.event lcid k).mem = s.mem := by simp [State.event]
@[simp] theorem State.eventStage_mem (lcid k) : (s.eventStage lcid k).mem = s.mem := by simp [State.eventStage]
@[simp] theorem State.logFor_mem (t e) : (s.logFor t e).mem = s.mem := rfl
@[simp] theorem State.logEntry_mem (lcid e) : (s.logEntry lcid e).mem = s.mem := by
  unfold State.logEntry
  split <;> rfl

/-! ## Writing bytes -/

@[simp] theorem State.mendCells_wf {a cells} (h : Memory.wf s.mem) : Memory.wf (s.mendCells a cells).mem := by simp [State.mendCells, h]
@[simp] theorem State.putCells_wf {p a cells} (h : Memory.wf s.mem) : Memory.wf (s.putCells p a cells).mem := State.putCells_memOk p a cells h
@[simp] theorem State.landBy_wf {sender a bytes put} (h : Memory.wf s.mem) (hput : ∀ u, Memory.wf u.mem → Memory.wf (put u).mem) :
    Memory.wf (s.landBy sender a bytes put).mem := by
  unfold State.landBy
  split
  · simp [h, hput]
  · exact hput s h
@[simp] theorem State.landCells_wf {p a cells} (h : Memory.wf s.mem) : Memory.wf (s.landCells p a cells).mem :=
  State.landBy_wf h fun _ h => State.putCells_wf h

/-! ## Counting at issue (R402, R403) -/

@[simp] theorem State.countFlits_mem (p a n) : (s.countFlits p a n).mem = s.mem := by simp [State.countFlits]
@[simp] theorem State.countRequest_mem (p a n) : (s.countRequest p a n).mem = s.mem := by simp [State.countRequest]
@[simp] theorem State.countMemory_mem (p a n) : (s.countMemory p a n).mem = s.mem := by
  unfold State.countMemory
  split <;> simp
@[simp] theorem State.countBytes_mem (p k a n) : (s.countBytes p k a n).mem = s.mem := by simp [State.countBytes]
@[simp] theorem State.countAmo_mem (p a n) : (s.countAmo p a n).mem = s.mem := by simp [State.countAmo]

/-! ## Trace records and team faults (R388, R415) -/

@[simp] theorem State.putTrace_wf {t lcid a cells} (h : Memory.wf s.mem) : Memory.wf (s.putTrace t lcid a cells).mem :=
  State.putTrace_memOk t lcid a cells h
@[simp] theorem State.traceOn_wf {lcid kind tid} (h : Memory.wf s.mem) : Memory.wf (s.traceOn lcid kind tid).mem :=
  State.traceOn_memOk lcid kind tid h
@[simp] theorem State.traceFault_wf {lcid} (h : Memory.wf s.mem) : Memory.wf (s.traceFault lcid).mem := by simp [State.traceFault, h]
@[simp] theorem State.backstop_wf {p pc a} (h : Memory.wf s.mem) : Memory.wf (s.backstop p pc a).mem := by
  unfold State.backstop
  split <;> simp [h]
@[simp] theorem State.countFault_wf {num tile} (h : Memory.wf s.mem) : Memory.wf (s.countFault num tile).mem := by simp [State.countFault, h]
@[simp] theorem State.teamFault_wf {num code detail tile lcid} (h : Memory.wf s.mem) : Memory.wf (s.teamFault num code detail tile lcid).mem :=
  by simp [State.teamFault, h]

/-! ## Traps -/

@[simp] theorem State.trace_wf {kind} (h : Memory.wf s.mem) : Memory.wf (s.trace kind).mem := State.trace_memOk kind h
@[simp] theorem State.raiseTrap_wf {tr} (h : Memory.wf s.mem) : Memory.wf (s.raiseTrap tr).mem := State.raiseTrap_memOk tr h
@[simp] theorem State.trapEnds_wf {tr} (h : Memory.wf s.mem) : Memory.wf (s.trapEnds tr).mem := by simp [State.trapEnds_mem, h]
@[simp] theorem State.trapBegins_wf {tr} (h : Memory.wf s.mem) : Memory.wf (s.trapBegins tr).mem := by simp [State.trapBegins, h]
@[simp] theorem State.trapEnters_wf {tr} (h : Memory.wf s.mem) : Memory.wf (s.trapEnters tr).mem := by simp [State.trapEnters_mem, h]
@[simp] theorem takeTrap_canonical {tr} (h : Memory.wf s.mem) : Canonical (takeTrap tr s) := by simp [takeTrap, h]
@[simp] theorem trapAt_canonical {code detail len} (h : Memory.wf s.mem) : Canonical (trapAt code detail len s) := by simp [trapAt, h]
@[simp] theorem trapAfter_canonical {code detail async eng len} (h : Memory.wf s.mem) : Canonical (trapAfter code detail async eng len s) :=
  by simp [trapAfter, h]
@[simp] theorem trapHeld_canonical {code detail eng len} (h : Memory.wf s.mem) : Canonical (trapHeld code detail eng len s) := by simp [trapHeld, h]
@[simp] theorem State.leaveHandler_mem : s.leaveHandler.mem = s.mem := rfl

/-! ## Fetching -/

@[simp] theorem fetchFails_canonical (h : Memory.wf s.mem) : Canonical (fetchFails s) := by simp [fetchFails, h]

end Sys2Proof.Machine
end

section
/-!
SUPPORT. The task engine, the steps of accesses, loads, stores, atomics and queues keep memory canonical (R222, R226).
-/
namespace Sys2Proof.Machine
open Sys2Proof

variable {s : State}

/-! ## References and checks (R42, R388) -/

@[simp] theorem State.engineStop_wf {t code detail lcid} (h : Memory.wf s.mem) : Memory.wf (s.engineStop t code detail lcid).mem :=
  by simp [State.engineStop, h]

/-! ## Ready work (R41, R43, R46) -/

@[simp] theorem State.makeReady_mem (t from_ a) : (s.makeReady t from_ a).mem = s.mem := by simp [State.makeReady]
@[simp] theorem State.decrement_wf {p team lcid a detail} (h : Memory.wf s.mem) : Memory.wf (s.decrement p team lcid a detail).mem := by
  unfold State.decrement
  (repeat' split) <;> simp [h]
@[simp] theorem State.decrementHome_wf {team lcid a detail} (h : Memory.wf s.mem) : Memory.wf (s.decrementHome team lcid a detail).mem := by
  unfold State.decrementHome
  split <;> simp [h]
@[simp] theorem State.decrementList_wf {team lcid a n} (h : Memory.wf s.mem) : Memory.wf (s.decrementList team lcid a n).mem := by
  induction n generalizing s a with
  | zero => exact h
  | succ n ih =>
    unfold State.decrementList
    split <;> simp [h, ih]
@[simp] theorem State.decrementAll_wf {team lcid a} (h : Memory.wf s.mem) : Memory.wf (s.decrementAll team lcid a).mem := by
  unfold State.decrementAll
  split
  · exact h
  · split <;> simp [h]

/-! ## The live count (R45, R280) -/

@[simp] theorem State.stopTile_mem (n) : (s.stopTile n).mem = s.mem := by simp [State.stopTile]
@[simp] theorem State.endTeam_mem (t) : (s.endTeam t).mem = s.mem := by simp [State.endTeam]
@[simp] theorem State.retireTask_mem (team) : (s.retireTask team).mem = s.mem := by
  unfold State.retireTask
  split <;> simp
@[simp] theorem State.addTask_mem (team) : (s.addTask team).mem = s.mem := by
  unfold State.addTask
  split <;> rfl

/-! ## Commands by handle, and the return of the collective firmware (R262, R266) -/

@[simp] theorem State.putCmd_mem (p c) : (s.putCmd p c).mem = s.mem := by simp [State.putCmd]
@[simp] theorem State.firmwareReturn_mem (cl) : (s.firmwareReturn cl).mem = s.mem := by
  unfold State.firmwareReturn
  simp only
  (repeat' split) <;> simp

/-! ## At the home -/

@[simp] theorem State.keyStep_wf {lcid op bin value put} (h : Memory.wf s.mem) (hput : ∀ a cells, Memory.wf (put s a cells).mem) :
    Memory.wf (s.keyStep lcid op bin value put).mem := by simp [State.keyStep, h, hput]
@[simp] theorem State.keyLand_wf {p lcid op bin value} (h : Memory.wf s.mem) : Memory.wf (s.keyLand p lcid op bin value).mem :=
  State.keyStep_wf h fun _ _ => State.putCells_wf h
@[simp] theorem State.setQueue_mem (k l) : (s.setQueue k l).mem = s.mem := rfl
@[simp] theorem State.stepHome_mem (handle place) : (s.stepHome handle place).mem = s.mem := rfl
@[simp] theorem State.queuePop_mem (k rest) : (s.queuePop k rest).mem = s.mem := rfl
@[simp] theorem State.stepTaken_mem (p a) : (s.stepTaken p a).mem = s.mem := by
  unfold State.stepTaken
  split <;> rfl
@[simp] theorem State.pcntHome_wf {p addr} (h : Memory.wf s.mem) : Memory.wf (s.pcntHome p addr).mem := by
  unfold State.pcntHome
  split <;> simp [h]
@[simp] theorem State.atHome_wf {p a addr cells} (h : Memory.wf s.mem) : Memory.wf (s.atHome p a addr cells).1.mem := by
  unfold State.atHome
  (repeat' split) <;> simp [h]
@[simp] theorem State.setPend_mem (p i a) : (s.setPend p i a).mem = s.mem := by simp [State.setPend]
@[simp] theorem State.sendAccess_mem (p i m) : (s.sendAccess p i m).mem = s.mem := by simp [State.sendAccess]
@[simp] theorem State.accepted_mem (p a) : (s.accepted p a).mem = s.mem := by simp [State.accepted]
@[simp] theorem State.performPiece_wf {p i k} (h : Memory.wf s.mem) : Memory.wf (s.performPiece p i k).mem := by
  simp only [State.performPiece]
  (repeat' split) <;> simp [h]
@[simp] theorem State.performAccess_wf {p i} (h : Memory.wf s.mem) : Memory.wf (s.performAccess p i).mem :=
  foldl_wf (fun _ _ h => State.performPiece_wf h) h
@[simp] theorem State.drain_wf {p} (h : Memory.wf s.mem) : Memory.wf (s.drain p).mem := foldl_wf (fun _ _ h => State.performAccess_wf h) h
@[simp] theorem State.stopCore_mem (p) : (s.stopCore p).mem = s.mem := by simp [State.stopCore]
@[simp] theorem State.stopContext_mem (p) : (s.stopContext p).mem = s.mem := by
  unfold State.stopContext
  split <;> simp
@[simp] theorem State.ackAll_mem (p) : (s.ackAll p).mem = s.mem := by simp [State.ackAll]
@[simp] theorem State.issueAccess_mem (a) : (s.issueAccess a).mem = s.mem := rfl

/-! ## The steps of the opcode table -/

theorem execStoreStep_canonical {x} (h : Memory.wf s.mem) : Canonical (execStoreStep x s) := by
  unfold execStoreStep
  split <;> simp [h]
theorem execAckStep_canonical {x} (h : Memory.wf s.mem) : Canonical (execAckStep x s) := by
  simp only [execAckStep]
  (repeat' split) <;> simp [h]
theorem execQueuePushStep_canonical {x} (h : Memory.wf s.mem) : Canonical (execQueuePushStep x s) := by
  unfold execQueuePushStep
  split <;> simp [h]
theorem execQpushResend_canonical {x} (h : Memory.wf s.mem) : Canonical (execQpushResend x s) := by
  simp only [execQpushResend]
  (repeat' split) <;> simp [h]
theorem execSevSet_canonical {x} (h : Memory.wf s.mem) : Canonical (execSevSet x s) := by
  unfold execSevSet
  split <;> simp [h]
theorem execKsendDelivery_canonical {x} (h : Memory.wf s.mem) : Canonical (execKsendDelivery x s) := by
  unfold execKsendDelivery
  split <;> simp [h]
theorem execPcntDecrement_canonical {x} (h : Memory.wf s.mem) : Canonical (execPcntDecrement x s) := by
  unfold execPcntDecrement
  split <;> simp [h]

/-! ## Checks before an access (R240, R70, R81) -/

@[simp] theorem raise_canonical {code detail len} (h : Memory.wf s.mem) : Canonical (raise code detail len s) := by
  unfold raise
  (repeat' split) <;> simp [h]
@[simp] theorem memTrap_canonical {code ea len} (h : Memory.wf s.mem) : Canonical (memTrap code ea len s) := by simp [memTrap, h]
theorem checked_canonical {m asz ok aligned k} (h : Memory.wf s.mem) (hk : ∀ ea u, Memory.wf u.mem → Canonical (k ea u)) :
    Canonical (checked m asz ok aligned s k) := by simp [checked, h, hk]

/-! ## Reading (R220, R222, R446) -/

@[simp] theorem State.spendAll_mem (as_) : (s.spendAll as_).mem = s.mem := by simp [State.spendAll]
@[simp] theorem State.settled_wf (h : Memory.wf s.mem) : Memory.wf s.settled.mem := by simp [State.settled, h]
@[simp] theorem State.atIssue_wf {kind f} (h : Memory.wf s.mem) (hf : Memory.wf (f s).mem) : Memory.wf (s.atIssue kind f).mem := by
  unfold State.atIssue
  split
  · simp [h, hf]
  · exact hf
@[simp] theorem State.countReads_mem (n as_) : (s.countReads n as_).mem = s.mem := by simp [State.countReads]
theorem reading_canonical {as_ n ord sco ea len k} (h : Memory.wf s.mem) (hk : ∀ bytes u, Memory.wf u.mem → Canonical (k bytes u)) :
    Canonical (reading as_ n ord sco ea len s k) := by
  have hu : Memory.wf (s.atIssue .load (fun t => t.countReads n as_)).mem := by simp [h]
  unfold reading
  generalize s.atIssue .load (fun t => t.countReads n as_) = u at hu
  dsimp only
  split
  · generalize hv : (if u.mustWait as_ n ord sco then u.settled else u) = v
    have hv : Memory.wf v.mem := by rw [← hv]; simp [hu]
    (repeat' split) <;> simp [hv, hk]
  · (repeat' split) <;> simp [hu, hk]
@[simp] theorem State.loadPiece_mem (p k) : (s.loadPiece p k).mem = s.mem := by
  unfold State.loadPiece
  simp only
  (repeat' split) <;> simp

/-! ## Reads that are not held for (R220, R446) -/

@[simp] theorem State.issueLate_mem (kind a n ord sco) : (s.issueLate kind a n ord sco).mem = s.mem := rfl

/-! ## Loads and stores (R244, R245) -/

@[simp] theorem State.loaded_mem (d ext n x) : (s.loaded d ext n x).mem = s.mem := by
  unfold State.loaded
  split <;> simp
theorem execLd_canonical {x} (h : Memory.wf s.mem) : Canonical (execLd x s) :=
  guarded_canonical h fun _ h => checked_canonical h fun _ _ h => by
    dsimp only
    split
    · simp [h]
    · exact reading_canonical h fun _ _ h => by simp [h]
theorem execSt_canonical {x} (h : Memory.wf s.mem) : Canonical (execSt x s) :=
  guarded_canonical h fun _ h => checked_canonical h fun _ _ h => by simp [h]

/-! ## Full-empty bits (R246, R247) -/

@[simp] theorem State.readUnit_mem (ea) : (s.readUnit ea).mem = s.mem := rfl
theorem execLds_canonical {x} (h : Memory.wf s.mem) : Canonical (execLds x s) :=
  guarded_canonical h fun _ h => checked_canonical h fun _ _ h => by
    extract_lets u v
    have hu : Memory.wf u.mem := by simp [u, h]
    have hv : Memory.wf v.mem := by simp [v, hu]
    (repeat' split) <;> simp [hu, hv]
theorem fullStep_canonical {kind x} (h : Memory.wf s.mem) : Canonical (fullStep kind x s) :=
  guarded_canonical h fun _ h => checked_canonical h fun _ _ h => by simp [h]
theorem relaxedStep_canonical {ea ord sco k} (h : Memory.wf s.mem) (hk : ∀ u, Memory.wf u.mem → Canonical (k u)) :
    Canonical (relaxedStep ea ord sco s k) := by
  simp only [relaxedStep]
  (repeat' split) <;> simp [h, hk]
theorem execFepoll_canonical {x} (h : Memory.wf s.mem) : Canonical (execFepoll x s) :=
  guarded_canonical h fun _ h => checked_canonical h fun _ _ h => by
    dsimp only
    split
    · simp [h]
    · exact relaxedStep_canonical (by simp [h]) fun _ h => by simp [h]

/-! ## Atomics (R248, R249) -/

@[simp] theorem State.amoStep_wf {op d ext ea n v w} (h : Memory.wf s.mem) : Memory.wf (s.amoStep op d ext ea n v w).mem := by
  simp only [State.amoStep]
  (repeat' split) <;> simp [h]
@[simp] theorem State.amoRefused_wf {d ea} (h : Memory.wf s.mem) : Memory.wf (s.amoRefused d ea).mem := by simp [State.amoRefused, h]
@[simp] theorem amoHome_canonical {op x ea} (h : Memory.wf s.mem) : Canonical (amoHome op x ea s) := by
  unfold amoHome
  (repeat' split) <;> simp [h]
theorem amo_canonical {op x} (h : Memory.wf s.mem) : Canonical (amo op x s) :=
  guarded_canonical h fun _ h => checked_canonical h fun _ _ h => by
    extract_lets n y z u c v w sent d
    have hu : Memory.wf u.mem := by simp [u, h]
    have hv : Memory.wf v.mem := by simp [v, hu]
    have hw : Memory.wf w.mem := by simp [w, hu]
    have hsent : Memory.wf sent.mem := by simp [sent, hw]
    (repeat' split) <;> simp [hu, hv, hw, hsent]

/-! ## Tile queues (R252, R253, R447) -/

theorem queueChecked_canonical {ab ix isc own k} (h : Memory.wf s.mem) (hk : ∀ ea q u, Memory.wf u.mem → Canonical (k ea q u)) :
    Canonical (queueChecked ab ix isc own s k) := by
  simp only [queueChecked]
  (repeat' split) <;> simp [h, hk]
theorem execQpush_canonical {x} (h : Memory.wf s.mem) : Canonical (execQpush x s) :=
  guarded_canonical h fun _ h => queueChecked_canonical h fun _ _ _ h => by
    extract_lets sent u v
    have hv : Memory.wf v.mem := by simp [v, u, h]
    split <;> simp [hv]
theorem popStep_canonical {kind x} (h : Memory.wf s.mem) : Canonical (popStep kind x s) :=
  guarded_canonical h fun _ h => queueChecked_canonical h fun _ _ _ h => by
    split
    · exact memTrap_canonical h
    · extract_lets u
      have hu : Memory.wf u.mem := by simp [u, h]
      (repeat' split) <;> simp [hu]
theorem execQtry_canonical {x} (h : Memory.wf s.mem) : Canonical (execQtry x s) :=
  guarded_canonical h fun _ h => queueChecked_canonical h fun _ _ _ h => by
    split
    · simp [h]
    split
    · exact memTrap_canonical h
    · extract_lets u
      have hu : Memory.wf u.mem := by simp [u, h]
      (repeat' split) <;> simp [hu]
theorem execQcnt_canonical {x} (h : Memory.wf s.mem) : Canonical (execQcnt x s) :=
  guarded_canonical h fun _ h => queueChecked_canonical h fun _ _ _ h => by
    split
    · simp [h]
    · exact relaxedStep_canonical h fun _ h => by simp [h]
theorem execQueuePopStep_canonical {x} (h : Memory.wf s.mem) : Canonical (execQueuePopStep x s) := by
  have focused : Memory.wf (s.focus x.p).mem := by simp [h]
  have popped {kind y} : Canonical (popStep kind y (s.focus x.p)) := popStep_canonical focused
  unfold execQueuePopStep
  dsimp only
  split
  · split
    · split
      · split
        · exact popped
        · exact popped
        · exact h
      · exact h
    · exact h
  · exact h

/-! ## The LOAD step of a read that is not held for (R220, R446) -/

@[simp] theorem State.landLate_wf {l bytes} (h : Memory.wf s.mem) : Memory.wf (s.landLate l bytes).mem := by
  unfold State.landLate
  (repeat' split) <;> simp [h]
@[simp] theorem lateStep_canonical {j k} (h : Memory.wf s.mem) : Canonical (lateStep j k s) := by
  unfold lateStep
  (repeat' split) <;> simp [h]
@[simp] theorem State.lateRefused_wf {p j code} (h : Memory.wf s.mem) : Memory.wf (s.lateRefused p j code).mem := by
  unfold State.lateRefused
  dsimp only
  split
  · exact h
  split
  · split
    · simp [h]
    split
    next e => simpa using wf_of_next (memTrap_canonical (by simp [h])) e
    · exact h
  · split
    next e => simpa using wf_of_next (memTrap_canonical (by simp [h])) e
    · exact h

/-! ## Results that stop and results that go on -/

theorem resBind_canonical {α β : Type} {r : Res α} {k : α → State → Res β} (h : CanonicalRes r)
    (hk : ∀ x t, Memory.wf t.mem → CanonicalRes (k x t)) : CanonicalRes (resBind r k) := by
  cases r with
  | ok x t => exact hk x t h
  | trap c d => trivial
  | wait => trivial
theorem vecEnd_canonical {r : Res Unit} (h : Memory.wf s.mem) (hr : CanonicalRes r) : Canonical (vecEnd s r) := by
  cases r with
  | ok _ t => exact complete_canonical (by simpa using hr)
  | trap c d => exact raise_canonical h
  | wait => exact stay_canonical (State.settled_wf h)

/-! ## Slots (R206–R209) -/

@[simp] theorem State.setSlot_mem (n x) : (s.setSlot n x).mem = s.mem := rfl
@[simp] theorem State.popped_mem (n) : (s.popped n).mem = s.mem := by simp [State.popped]
@[simp] theorem popSlot_canonical {n} (h : Memory.wf s.mem) : CanonicalRes (popSlot n s) := by
  simp only [popSlot]
  (repeat' split) <;> simp [h]
@[simp] theorem pushSlot_canonical {n bytes} (h : Memory.wf s.mem) : CanonicalRes (pushSlot n bytes s) := by
  simp only [pushSlot]
  (repeat' split) <;> simp [h]

/-! ## Reading and writing vector registers -/

theorem popAll_canonical {l} (h : Memory.wf s.mem) : CanonicalRes (popAll l s) := by
  induction l generalizing s with
  | nil => exact h
  | cons n r ih => exact resBind_canonical (popSlot_canonical h) fun _ _ h => resBind_canonical (ih h) fun _ _ h => h
theorem readVecs_canonical {rs} (h : Memory.wf s.mem) : CanonicalRes (readVecs rs s) :=
  resBind_canonical (popAll_canonical h) fun _ _ h => h

/-! ## STRM (R206, R207) -/

@[simp] theorem State.settledAcks_wf (h : Memory.wf s.mem) : Memory.wf s.settledAcks.mem := by simp [State.settledAcks, h]

/-! ## VMEM (R202–R205) -/

theorem dField_canonical {r k} (h : Memory.wf s.mem) (hk : ∀ u, Memory.wf u.mem → Canonical (k u)) : Canonical (dField r s k) := by
  unfold dField
  split <;> simp [h, hk]
theorem vmemChecked_canonical {m as_ n aligned k} (h : Memory.wf s.mem) (hk : ∀ u, Memory.wf u.mem → Canonical (k u)) :
    Canonical (vmemChecked m as_ n aligned s k) := by
  unfold vmemChecked
  (repeat' split) <;> simp [h, hk]
@[simp] theorem State.storeLanes_mem (n x ord sco i l) : (s.storeLanes n x ord sco i l).mem = s.mem := by
  induction l generalizing s i with
  | nil => rfl
  | cons a r ih => simp [State.storeLanes, ih]
theorem loadVec_canonical {x as_ aligned fin} (h : Memory.wf s.mem) (hf : ∀ u, (fin u).mem = u.mem) : Canonical (loadVec x as_ aligned fin s) :=
  vmemChecked_canonical h fun _ h => reading_canonical h fun _ _ h => by simp [h, hf]
theorem storeVec_canonical {x as_ aligned fin} (h : Memory.wf s.mem) (hf : ∀ u, (fin u).mem = u.mem) : Canonical (storeVec x as_ aligned fin s) :=
  vmemChecked_canonical h fun _ h => by simp [h, hf]
theorem indexed_canonical {x k} (h : Memory.wf s.mem)
    (hk : ∀ n fin, (∀ u, (fin u).mem = u.mem) → Canonical (k n fin s)) : Canonical (indexed x s k) := by
  unfold indexed
  dsimp only
  split
  · exact hk _ _ fun u => by simp
  · exact raise_canonical h
  · exact stay_canonical (State.settled_wf h)
theorem execVld_canonical {x} (h : Memory.wf s.mem) : Canonical (execVld x s) :=
  guarded_canonical h fun _ h => dField_canonical h fun _ h => loadVec_canonical h fun _ => rfl
theorem execVst_canonical {x} (h : Memory.wf s.mem) : Canonical (execVst x s) :=
  guarded_canonical h fun _ h => dField_canonical h fun _ h => storeVec_canonical h fun _ => rfl
theorem execVlds_canonical {x} (h : Memory.wf s.mem) : Canonical (execVlds x s) :=
  guarded_canonical h fun _ h => dField_canonical h fun _ h => loadVec_canonical h fun _ => rfl
theorem execVsts_canonical {x} (h : Memory.wf s.mem) : Canonical (execVsts x s) :=
  guarded_canonical h fun _ h => dField_canonical h fun _ h => storeVec_canonical h fun _ => rfl
theorem execVgath_canonical {x} (h : Memory.wf s.mem) : Canonical (execVgath x s) :=
  guarded_canonical h fun _ h => dField_canonical h fun _ h => indexed_canonical h fun _ _ hf => loadVec_canonical h hf
theorem execVscat_canonical {x} (h : Memory.wf s.mem) : Canonical (execVscat x s) :=
  guarded_canonical h fun _ h => dField_canonical h fun _ h => indexed_canonical h fun _ _ hf => storeVec_canonical h hf
theorem execVldk_canonical {x} (h : Memory.wf s.mem) : Canonical (execVldk x s) :=
  guarded_canonical h fun _ h => vmemChecked_canonical h fun _ h => reading_canonical h fun _ _ h => by simp [h]

/-! ## LOAD (R220) -/

@[simp] theorem State.fetchAhead_mem (lcid n k i) : (s.fetchAhead lcid n k i).mem = s.mem := by
  unfold State.fetchAhead
  simp only
  (repeat' split) <;> simp
theorem execLoadStep_canonical {x} (h : Memory.wf s.mem) : Canonical (execLoadStep x s) := by
  unfold execLoadStep
  split
  · simp [h]
  · split
    next e => simpa using wf_of_next (lateStep_canonical (by simp [h])) e
    · exact lateStep_canonical (by simp [h])
  · split <;> simp [h]

end Sys2Proof.Machine
end

section
/-!
SUPPORT. The vector pipe and its sequencer keep memory canonical (R222, R226).
-/
namespace Sys2Proof.Machine
open Sys2Proof

variable {s : State}

/-! ## Sources (R112, R180) -/

theorem sources_canonical {et l k} (h : Memory.wf s.mem) (hk : ∀ x u, Memory.wf u.mem → CanonicalRes (k x u)) : CanonicalRes (sources et l s k) :=
  resBind_canonical (readVecs_canonical h) fun _ _ h => hk _ _ h

/-! ## Results -/

@[simp] theorem State.addFlags_mem (f) : (s.addFlags f).mem = s.mem := rfl
@[simp] theorem State.draw_mem (rm n) : (s.draw rm n).mem = s.mem := by simp [State.draw]
theorem deliver_canonical {d out c r} (h : Memory.wf s.mem) : CanonicalRes (deliver d out c r s) := by
  unfold deliver
  dsimp only
  split
  · simp [h]
  · split
    · trivial
    · exact resBind_canonical (pushSlot_canonical h) fun _ _ h => by simp [h]

/-! ## Shapes of effect -/

theorem vec1_canonical {f x} (h : Memory.wf s.mem) : CanonicalRes (vec1 f x s) := sources_canonical h fun _ _ h => deliver_canonical h
theorem vec2_canonical {f x} (h : Memory.wf s.mem) : CanonicalRes (vec2 f x s) := sources_canonical h fun _ _ h => deliver_canonical h
theorem vec3_canonical {f x} (h : Memory.wf s.mem) : CanonicalRes (vec3 f x s) := sources_canonical h fun _ _ h => deliver_canonical h
theorem vecIdx_canonical {f x} (h : Memory.wf s.mem) : CanonicalRes (vecIdx f x s) := by
  unfold vecIdx
  exact sources_canonical h fun _ _ h => deliver_canonical h
theorem lane1_canonical {op rounds x} (h : Memory.wf s.mem) : CanonicalRes (lane1 op rounds x s) := vec1_canonical h
theorem lane2_canonical {op rounds x} (h : Memory.wf s.mem) : CanonicalRes (lane2 op rounds x s) := vec2_canonical h
theorem lane3_canonical {op rounds x} (h : Memory.wf s.mem) : CanonicalRes (lane3 op rounds x s) := vec3_canonical h
theorem vecMask_canonical {f x} (h : Memory.wf s.mem) : CanonicalRes (vecMask f x s) := sources_canonical h fun _ _ h => by simp [h]
theorem vecRun_canonical {q f} (h : Memory.wf s.mem) (hf : ∀ u, Memory.wf u.mem → CanonicalRes (f u)) : Canonical (vecRun q f s) :=
  guarded_canonical h fun u h => vecEnd_canonical h (hf u h)

/-! ## VCVT (R198–R201) -/

theorem quantVec_canonical {f out x} (h : Memory.wf s.mem) : CanonicalRes (quantVec f out x s) := sources_canonical h fun _ _ h => deliver_canonical h
/-- Every effect a pass issues keeps memory canonical (R212). -/
theorem passOf_canonical {i q f} (hp : passOf i = some (q, f)) (h : Memory.wf s.mem) : CanonicalRes (f s) := by
  cases i with
  | vadd x | vsub x | vmul x | vmin x | vmax x | vdiv x | vscl x | viadd x | visub x | vimul x | vimulhi x | vimin x | vimax x
  | vand x | vor x | vxor x | vshl x | vshr x | vshra x | viadds x =>
    cases hp
    exact lane2_canonical h
  | vsel x | vrdot x | vshuf x =>
    cases hp
    exact vec2_canonical h
  | vfma x | vfms x | vfnma x =>
    cases hp
    exact lane3_canonical h
  | vabs x | vneg x | vsqrt x | vpopc x | vclass x | vexp2 x | vlog2 x | vrcp x | vrsq x | vtanh x | vsigm x | vmov x =>
    cases hp
    exact lane1_canonical h
  | vrsum x | vrmax x | vrmin x | vscan x | vcompress x | vexpand x =>
    cases hp
    exact vec1_canonical h
  | vcmpeq x | vcmplt x | vcmple x | vmatch x =>
    cases hp
    exact vecMask_canonical h
  | vbcast x | vrot x =>
    cases hp
    exact vecIdx_canonical h
  | vquant x | vdeq x =>
    cases hp
    exact quantVec_canonical h
  | wand x | wor x | wnot x =>
    cases hp
    exact (canonicalRes_ok _ _).2 (by simp [h])
  | vinsr x =>
    cases hp
    exact deliver_canonical h
  | vcvt x | vpack x | vunpack x =>
    cases hp
    exact sources_canonical h fun _ _ h => deliver_canonical h
  | vextr x =>
    cases hp
    unfold doVextr
    split
    · exact sources_canonical h fun _ _ h => by simp [h]
    · simp [h]
    · simp [h]
  | vcswap x =>
    cases hp
    exact resBind_canonical (sources_canonical h fun _ _ h => deliver_canonical h) fun _ _ h => by simp [h]
  | _ => cases hp

/-! ## REP (R211, R212) -/

theorem execRep_canonical {x} (h : Memory.wf s.mem) : Canonical (execRep x s) := by
  simp only [execRep]
  (repeat' split) <;> simp [h]

/-! ## A pass (R213) -/

@[simp] theorem State.setRep_mem (r) : (s.setRep r).mem = s.mem := rfl
@[simp] theorem State.repFails_mem (code detail) : (s.repFails code detail).mem = s.mem := rfl
@[simp] theorem State.passIssue_wf (h : Memory.wf s.mem) : Memory.wf s.passIssue.mem := by
  unfold State.passIssue
  extract_lets r
  split
  · exact h
  split
  · exact h
  extract_lets w'
  split
  · simp [h]
  split
  · simp [h]
  next q f hp =>
    split
    · split
      next e => simpa using wf_of_ok (passOf_canonical hp h) e
      · simp [h]
      · simp [h]
    · simp [h]
theorem execRepeatPassIssue_canonical {x} (h : Memory.wf s.mem) : Canonical (execRepeatPassIssue x s) := by simp [execRepeatPassIssue, h]

/-! ## What waits (R214, R154) -/

@[simp] theorem takeRepFault_canonical {f len} (h : Memory.wf s.mem) : Canonical (takeRepFault f len s) := by
  unfold takeRepFault
  (repeat' split) <;> simp [h]
@[simp] theorem waitSequencer_canonical {len} (h : Memory.wf s.mem) : Canonical (waitSequencer len s) := by
  unfold waitSequencer
  (repeat' split) <;> simp [h]

/-! ## The end of handler entry (R390) -/

@[simp] theorem enterStep_canonical (h : Memory.wf s.mem) : Canonical (enterStep s) := by
  unfold enterStep
  (repeat' split) <;> simp [h]

end Sys2Proof.Machine
end

section
/-!
SUPPORT. Engines, collectives, fences, keys and the weight store keep memory canonical (R222, R226).
-/
namespace Sys2Proof.Machine
open Sys2Proof

variable {s : State}

/-! ## Commands of a processor -/

@[simp] theorem State.addCmd_mem (w st) : (s.addCmd w st).mem = s.mem := by simp [State.addCmd]
@[simp] theorem State.engineFaulted_mem (p r) : (s.engineFaulted p r).mem = s.mem := by
  unfold State.engineFaulted
  simp only
  (repeat' split) <;> simp

/-! ## Checks at issue (R260) -/

@[simp] theorem accept_mem (d w need needD) : (accept d w need needD s).mem = s.mem := by
  unfold accept
  (repeat' split) <;> simp

/-! ## Engine steps (R230, R231) -/

@[simp] theorem State.engineRead_mem (p handle k) : (s.engineRead p handle k).mem = s.mem := by
  unfold State.engineRead
  (repeat' split) <;> simp
@[simp] theorem State.fullSet_mem (a) : (s.fullSet a).mem = s.mem := by
  unfold State.fullSet
  (repeat' split) <;> simp
@[simp] theorem State.engineAck_mem (p c u mark) : (s.engineAck p c u mark).mem = s.mem := by simp [State.engineAck]
@[simp] theorem State.putUnit_wf {p c u} (h : Memory.wf s.mem) : Memory.wf (s.putUnit p c u).mem := by
  unfold State.putUnit
  split <;> simp [h]
@[simp] theorem State.engineWrite_wf {p handle k} (h : Memory.wf s.mem) : Memory.wf (s.engineWrite p handle k).mem := by
  unfold State.engineWrite
  dsimp only
  (repeat' split) <;> simp [h]
@[simp] theorem State.releaseColl_mem (p c) : (s.releaseColl p c).mem = s.mem := by
  unfold State.releaseColl
  split
  · dsimp only
    split
    · exact foldl_mem _ (fun s m => by split <;> simp) _ _
    · rfl
  · rfl
@[simp] theorem State.engineDone_mem (p handle) : (s.engineDone p handle).mem = s.mem := by
  unfold State.engineDone
  dsimp only
  (repeat' split) <;> simp
@[simp] theorem State.unspecified_wf {p c} (h : Memory.wf s.mem) : Memory.wf (s.unspecified p c).mem := by
  unfold State.unspecified
  split
  · exact foldl_wf (fun _ _ h => State.putCells_wf h) h
  · exact h
@[simp] theorem State.faultCmd_wf {p c code a} (h : Memory.wf s.mem) : Memory.wf (s.faultCmd p c code a).mem := by simp [State.faultCmd, h]
@[simp] theorem State.unitsLost_mem (p c blk a) : (s.unitsLost p c blk a).mem = s.mem := by simp [State.unitsLost]
@[simp] theorem State.engineRefused_wf {p a code} (h : Memory.wf s.mem) : Memory.wf (s.engineRefused p a code).mem := by
  simp only [State.engineRefused]
  (repeat' split) <;> simp [h]
@[simp] theorem State.engineFault_wf {p handle code a} (h : Memory.wf s.mem) : Memory.wf (s.engineFault p handle code a).mem := by
  unfold State.engineFault
  split <;> simp [h]
@[simp] theorem State.ackUnits_mem (p handle) : (s.ackUnits p handle).mem = s.mem := by simp [State.ackUnits]
@[simp] theorem State.readAll_mem (p handle) : (s.readAll p handle).mem = s.mem := by
  unfold State.readAll
  split <;> simp
@[simp] theorem State.writeAll_wf {p handle} (h : Memory.wf s.mem) : Memory.wf (s.writeAll p handle).mem := by
  unfold State.writeAll
  split
  · exact h
  · rw [State.ackUnits_mem]
    exact foldl_wf (fun _ _ h => State.engineWrite_wf (State.engineWrite_wf h)) h
@[simp] theorem State.failCmd_wf {p handle} (h : Memory.wf s.mem) : Memory.wf (s.failCmd p handle).mem := by
  unfold State.failCmd
  (repeat' split) <;> simp [h]
@[simp] theorem State.runCmd_wf {p handle} (h : Memory.wf s.mem) : Memory.wf (s.runCmd p handle).mem := by
  unfold State.runCmd
  split
  · exact h
  next c _ =>
    have all : Memory.wf ((s.partners p c).foldl (fun s q => s.failCmd q.1 q.2) ((s.partners p c).foldl (fun s q => s.writeAll q.1 q.2)
        ((s.partners p c).foldl (fun s q => s.readAll q.1 q.2) s))).mem :=
      foldl_wf (fun _ _ h => State.failCmd_wf h) (foldl_wf (fun _ _ h => State.writeAll_wf h) (by simp [h]))
    dsimp only
    split
    · exact all
    · split <;> simp [all]
@[simp] theorem State.runCmds_wf {p} (h : Memory.wf s.mem) : Memory.wf (s.runCmds p).mem := foldl_wf (fun _ _ h => State.runCmd_wf h) h
theorem execEngineDone_canonical {x} (h : Memory.wf s.mem) : Canonical (execEngineDone x s) := by simp [execEngineDone, h]
theorem execEngineWrite_canonical {x} (h : Memory.wf s.mem) : Canonical (execEngineWrite x s) := State.engineWrite_wf h
theorem execEngineFault_canonical {x} (h : Memory.wf s.mem) : Canonical (execEngineFault x s) := State.engineFault_wf h

/-! ## The collective firmware (R266) -/

@[simp] theorem State.startFirmware_mem (p c) : (s.startFirmware p c).mem = s.mem := by
  unfold State.startFirmware
  split <;> simp
theorem execEngineRead_canonical {x} (h : Memory.wf s.mem) : Canonical (execEngineRead x s) := by
  unfold execEngineRead
  (repeat' split) <;> simp [h]

/-! ## ENG (R259–R263) -/

theorem ptrsOk_canonical {dst src len k} (h : Memory.wf s.mem)
    (hk : ∀ u, Memory.wf u.mem → Canonical (k u)) : Canonical (ptrsOk dst src len s k) := by
  simp [ptrsOk, h, hk]
theorem whenRoom_canonical {k} (h : Memory.wf s.mem) (hk : ∀ u, Memory.wf u.mem → Canonical (k u)) : Canonical (whenRoom s k) := by
  simp [whenRoom, h, hk]
theorem copyCmd_canonical {d dst src len rows sstr dstr weights word} (h : Memory.wf s.mem) :
    Canonical (copyCmd d dst src len rows sstr dstr weights word s) := by
  unfold copyCmd
  extract_lets pd ps w noBytes
  exact ptrsOk_canonical h fun u hu => by
    extract_lets bad
    have room (k : State → Out) (hk : ∀ u, Memory.wf u.mem → Canonical (k u)) : Canonical (whenRoom u k) := whenRoom_canonical hu hk
    cases bad <;> simp +contextual [hu, room]
theorem execCpy_canonical {x} (h : Memory.wf s.mem) : Canonical (execCpy x s) := guarded_canonical h fun _ h => copyCmd_canonical h
theorem execCpy2_canonical {x} (h : Memory.wf s.mem) : Canonical (execCpy2 x s) := guarded_canonical h fun _ h => copyCmd_canonical h
theorem execCpyw_canonical {x} (h : Memory.wf s.mem) : Canonical (execCpyw x s) := guarded_canonical h fun _ h => copyCmd_canonical h
@[simp] theorem State.statusRead_mem (c) : (s.statusRead c).mem = s.mem := by
  unfold State.statusRead
  split <;> simp
theorem acquired_canonical {k} (h : Memory.wf s.mem) (hk : ∀ u, Memory.wf u.mem → Canonical (k u)) : Canonical (acquired s k) := by
  simp [acquired, h, hk]
theorem readStatus_canonical {x} (h : Memory.wf s.mem) : Canonical (readStatus x s) :=
  guarded_canonical h fun _ h => acquired_canonical h fun _ h => by simp [h]
theorem awaitStatus_canonical {x} (h : Memory.wf s.mem) : Canonical (awaitStatus x s) :=
  guarded_canonical h fun _ h => acquired_canonical h fun _ h => by
    extract_lets handle u c
    have hu : Memory.wf u.mem := by
      simp only [u]
      split <;> simp [h]
    cases c with
    | none => simp [hu]
    | some k =>
      dsimp only
      split <;> simp [hu]

/-! ## COL (R264–R266) -/

theorem execColl_canonical {x} (h : Memory.wf s.mem) : Canonical (execColl x s) :=
  guarded_canonical h fun _ h => by
    extract_lets
    split
    · simp [h]
    · exact ptrsOk_canonical h fun _ h => by
        extract_lets
        split
        · simp [h]
        · exact whenRoom_canonical h fun _ h => by simp [h]

/-! ## Fault records (R251) -/

@[simp] theorem reported_canonical {sc peer} (h : Memory.wf s.mem) : Canonical (reported sc peer s) := by
  unfold reported
  split <;> simp [h]

/-! ## FENCE and FENCEE (R225) -/

@[simp] theorem State.settledMarkers_mem : s.settledMarkers.mem = s.mem := by simp [State.settledMarkers]
@[simp] theorem State.fenceStep_wf (h : Memory.wf s.mem) : Memory.wf s.fenceStep.mem := by
  unfold State.fenceStep
  split <;> simp [h]
theorem fenced_canonical {sc k} (h : Memory.wf s.mem) (hk : ∀ u, Memory.wf u.mem → Canonical (k u)) : Canonical (fenced sc s k) := by
  simp [fenced, h, hk]
theorem execFence_canonical {x} (h : Memory.wf s.mem) : Canonical (execFence x s) :=
  guarded_canonical h fun _ h => fenced_canonical h fun _ h => reported_canonical h

/-! ## KEY (R254–R257) -/

theorem execKcfg_canonical {x} (h : Memory.wf s.mem) : Canonical (execKcfg x s) :=
  guarded_canonical h fun u h => by
    split
    · simp [h]
    · extract_lets arriving v
      have hv : Memory.wf v.mem := by
        simp only [v]
        split
        · exact foldl_wf (fun _ _ h => State.drain_wf h) h
        · exact h
      split <;> simp [hv]
@[simp] theorem State.sendKeys_mem (level op nb size m i ks vs) : (s.sendKeys level op nb size m i ks vs).mem = s.mem := by
  induction ks generalizing s i vs with
  | nil => rfl
  | cons k ks ih =>
    cases vs with
    | nil => rfl
    | cons v vs => simp [State.sendKeys, ih]
theorem doKsend_canonical {x} (h : Memory.wf s.mem) : CanonicalRes (doKsend x s) := sources_canonical h fun _ _ h => by simp [h]
theorem execKsend_canonical {x} (h : Memory.wf s.mem) : Canonical (execKsend x s) :=
  guarded_canonical h fun u h => by
    split
    next e => exact complete_canonical (wf_of_ok (doKsend_canonical h) e)
    · simp [h]
    · simp [h]

/-! ## WST (R268–R271) -/

@[simp] theorem wldWrite_canonical {d n x} (h : Memory.wf s.mem) : CanonicalRes (wldWrite d n x s) := by
  unfold wldWrite
  (repeat' split) <;> simp [h]
theorem wldDst_canonical {x k} (h : Memory.wf s.mem) (hk : ∀ u, Memory.wf u.mem → Canonical (k u)) : Canonical (wldDst x s k) := by
  unfold wldDst
  (repeat' split) <;> simp [h, hk]
theorem execWld_canonical {x} (h : Memory.wf s.mem) : Canonical (execWld x s) :=
  guarded_canonical h fun _ h => checked_canonical h fun _ _ h => by
    extract_lets n
    split
    · simp [h]
    · exact wldDst_canonical h fun _ h => by
        split
        · simp [h]
        · exact reading_canonical h fun bytes u h => by
            split
            next e => exact complete_canonical (wf_of_ok (wldWrite_canonical h) e)
            · simp [h]
            · simp [h]
theorem execIwin_canonical {x} (h : Memory.wf s.mem) : Canonical (execIwin x s) :=
  guarded_canonical h fun _ h => checked_canonical h fun _ _ h => by simp [h]
theorem execIntercalaryWindowEnd_canonical {x} (h : Memory.wf s.mem) : Canonical (execIntercalaryWindowEnd x s) :=
  by simp [execIntercalaryWindowEnd, h]

/-! ## FAB (R272–R275) -/

@[simp] theorem State.endSingle_mem : s.endSingle.mem = s.mem := rfl
theorem execXwaitTimeout_canonical {x} (h : Memory.wf s.mem) : Canonical (execXwaitTimeout x s) := by
  unfold execXwaitTimeout
  split <;> simp [h]
@[simp] theorem State.recordEpoch_mem (m e) : (s.recordEpoch m e).mem = s.mem := by simp [State.recordEpoch]
theorem execDrainMarker_canonical {x} (h : Memory.wf s.mem) : Canonical (execDrainMarker x s) := by simp [execDrainMarker, h]

end Sys2Proof.Machine
end

section
/-!
SUPPORT. Tasks, barriers, gates and events keep memory canonical (R222, R226).
-/
namespace Sys2Proof.Machine
open Sys2Proof

variable {s : State}

/-! ## TSPAWN and TDEC (R278, R279) -/

theorem tcbPointer_canonical {r k} (h : Memory.wf s.mem) (hk : ∀ a u, Memory.wf u.mem → Canonical (k a u)) : Canonical (tcbPointer r s k) := by
  simp [tcbPointer, h, hk]
@[simp] theorem State.spawned_wf {t a} (h : Memory.wf s.mem) : Memory.wf (s.spawned t a).mem := by
  unfold State.spawned
  split <;> simp [h]
theorem execTspawn_canonical {x} (h : Memory.wf s.mem) : Canonical (execTspawn x s) :=
  guarded_canonical h fun _ h => tcbPointer_canonical h fun _ _ h => fenced_canonical h fun _ h => by
    split
    · simp [h]
    · extract_lets u v
      have hu : Memory.wf u.mem := by simp [u, h]
      have hv : Memory.wf v.mem := by simp [v, hu]
      (repeat' split) <;> simp [hu, hv]
theorem execTdec_canonical {x} (h : Memory.wf s.mem) : Canonical (execTdec x s) :=
  guarded_canonical h fun _ h => tcbPointer_canonical h fun _ _ h => by simp [h]

/-! ## TEND (R281, R282) -/

@[simp] theorem State.finish_wf (h : Memory.wf s.mem) : Memory.wf s.finish.mem := by
  unfold State.finish
  split <;> simp [h]
@[simp] theorem State.unbind_mem : s.unbind.mem = s.mem := rfl
@[simp] theorem State.endTask_mem : s.endTask.mem = s.mem := rfl
@[simp] theorem State.retireRunning_wf (h : Memory.wf s.mem) : Memory.wf s.retireRunning.mem := by
  unfold State.retireRunning
  split <;> simp [h]
theorem execTend_canonical {x} (h : Memory.wf s.mem) : Canonical (execTend x s) :=
  guarded_canonical h fun _ h => by
    extract_lets u v
    have hu : Memory.wf u.mem := by simp [u, h]
    have hv : Memory.wf v.mem := by simp [v, hu]
    (repeat' split) <;> simp [hu, hv]
theorem execStageTend_canonical {x} (h : Memory.wf s.mem) : Canonical (execStageTend x s) :=
  guarded_canonical h fun _ h => by
    extract_lets u v c
    have hu : Memory.wf u.mem := by simp [u, h]
    (repeat' split) <;> simp [hu, v]

/-! ## Continuations (R48–R50, R283, R284) -/

@[simp] theorem State.park_wf {pc w} (h : Memory.wf s.mem) : Memory.wf (s.park pc w).mem := by
  unfold State.park
  split <;> simp [h]
@[simp] theorem State.yieldNow_wf {w} (h : Memory.wf s.mem) : Memory.wf (s.yieldNow w).mem := by
  simp only [State.yieldNow]
  (repeat' split) <;> simp [h]
theorem execYieldTimeout_canonical {x} (h : Memory.wf s.mem) : Canonical (execYieldTimeout x s) := by
  simp only [execYieldTimeout]
  (repeat' split) <;> simp [h]
theorem execContinuationReady_canonical {x} (h : Memory.wf s.mem) : Canonical (execContinuationReady x s) := by
  simp only [execContinuationReady]
  (repeat' split) <;> simp [h]
@[simp] theorem atStub_canonical {i} (h : Memory.wf s.mem) : Canonical (atStub i s) := by
  unfold atStub
  split <;> simp [h]

/-! ## Dispatch (R46, R75) -/

@[simp] theorem State.traceAt_wf {lcid kind} (h : Memory.wf s.mem) : Memory.wf (s.traceAt lcid kind).mem := by simp [State.traceAt, h]
@[simp] theorem State.codeGone_wf {t lcid pc} (h : Memory.wf s.mem) : Memory.wf (s.codeGone t lcid pc).mem := by simp [State.codeGone, h]
@[simp] theorem State.place_mem (t lcid) : (s.place t lcid).mem = s.mem := by
  unfold State.place
  simp only
  (repeat' split) <;> simp
@[simp] theorem State.startTask_wf {t lcid tcb named home} (h : Memory.wf s.mem) : Memory.wf (s.startTask t lcid tcb named home).mem := by
  unfold State.startTask
  (repeat' split) <;> simp [h]
@[simp] theorem State.startCont_wf {t lcid id} (h : Memory.wf s.mem) : Memory.wf (s.startCont t lcid id).mem := by
  simp only [State.startCont]
  (repeat' split) <;> simp [h]
theorem execDispatch_canonical {x} (h : Memory.wf s.mem) : Canonical (execDispatch x s) := by
  unfold execDispatch
  (repeat' split) <;> simp [h]

/-! ## Migration (R51, R284) and CLOAD (R24) -/

theorem execCloadRefresh_canonical {x} (h : Memory.wf s.mem) : Canonical (execCloadRefresh x s) := by simp [execCloadRefresh, h]
theorem execContinuationMigrate_canonical {x} (h : Memory.wf s.mem) : Canonical (execContinuationMigrate x s) := by
  simp only [execContinuationMigrate]
  (repeat' split) <;> simp [h]
@[simp] theorem State.storeCont_mem (lcid c) : (s.storeCont lcid c).mem = s.mem := by simp [State.storeCont]
@[simp] theorem State.endMigration_mem (lcid) : (s.endMigration lcid).mem = s.mem := by simp [State.endMigration]
theorem execMigrationArrival_canonical {x} (h : Memory.wf s.mem) : Canonical (execMigrationArrival x s) := by
  unfold execMigrationArrival
  split <;> simp [h]
theorem execMigrationReturn_canonical {x} (h : Memory.wf s.mem) : Canonical (execMigrationReturn x s) := by
  unfold execMigrationReturn
  split <;> simp [h]

/-! ## The launch entry (R47) and the stage cores (R334) -/

@[simp] theorem State.launchTcb_wf {num a} (h : Memory.wf s.mem) : Memory.wf (s.launchTcb num a).mem := by
  unfold State.launchTcb
  (repeat' split) <;> simp [h]
theorem execStageStart_canonical {x} (h : Memory.wf s.mem) : Canonical (execStageStart x s) := by
  simp only [execStageStart]
  (repeat' split) <;> simp [h]

/-! ## Barrier state (R74, R285) -/

@[simp] theorem State.putBar_wf {lcid lv b} (h : Memory.wf s.mem) : Memory.wf (s.putBar lcid lv b).mem := by simp [State.putBar, h]

/-! ## BAR and BARW (R285, R286) -/

@[simp] theorem State.completeBarrier_wf {lcid lv} (h : Memory.wf s.mem) : Memory.wf (s.completeBarrier lcid lv).mem :=
  foldl_wf (fun _ _ h => by simp [h]) h
@[simp] theorem State.arrivalAway_mem (x e) : (s.arrivalAway x e).mem = s.mem := by
  unfold State.arrivalAway
  (repeat' split) <;> simp
theorem execBarrierComplete_canonical {x} (h : Memory.wf s.mem) : Canonical (execBarrierComplete x s) := by
  unfold execBarrierComplete
  split <;> simp [h]
@[simp] theorem State.arrive_wf {lv} (h : Memory.wf s.mem) : Memory.wf (s.arrive lv).mem := by simp [State.arrive, h]
theorem barrier_canonical {lv word kind limit fin late} (h : Memory.wf s.mem) (hf : ∀ u, (fin u).mem = u.mem) (hl : ∀ u, (late u).mem = u.mem) :
    Canonical (barrier lv word kind limit fin late s) := by
  have after (u : State) (h : Memory.wf u.mem) : Canonical
      (if (u.myBar lv.toNat).done then
          reported (levelScope lv.toNat) false (fin { u with tile := u.tile.setBar lv.toNat { u.myBar lv.toNat with done := false } })
      else if u.timedOut then complete 8 (late { u with tile := u.tile.setBar lv.toNat { u.myBar lv.toNat with arrived := false } })
      else stay kind limit u) := by simp [h, hf, hl]
  unfold barrier
  extract_lets l after' v
  have hv : Memory.wf v.mem := by simp [v, h]
  split
  · simp [h]
  split
  · exact after s h
  split
  · simp [h, hl]
  split
  · exact after _ (by simp [hv])
  · simp [hv]
theorem execBar_canonical {x} (h : Memory.wf s.mem) : Canonical (execBar x s) :=
  guarded_canonical h fun _ h => barrier_canonical h (fun _ => rfl) fun _ => rfl
theorem execBarw_canonical {x} (h : Memory.wf s.mem) : Canonical (execBarw x s) :=
  guarded_canonical h fun _ h => barrier_canonical h (fun _ => by simp) fun _ => by simp
theorem execBarwTimeout_canonical {x} (h : Memory.wf s.mem) : Canonical (execBarwTimeout x s) := by
  unfold execBarwTimeout
  split <;> simp [h]

/-! ## The superstep gate (R235, R287) -/

@[simp] theorem State.stepTransfer_mem (t lv x) : (s.stepTransfer t lv x).mem = s.mem := by simp [State.stepTransfer]
@[simp] theorem State.stepTransfers_mem (lv n) : (s.stepTransfers lv n).mem = s.mem := by
  unfold State.stepTransfers
  split <;> simp
@[simp] theorem State.gateArrive_mem (lcid lv) : (s.gateArrive lcid lv).mem = s.mem := by simp [State.gateArrive]
@[simp] theorem State.gateDepart_wf {lcid lv} (h : Memory.wf s.mem) : Memory.wf (s.gateDepart lcid lv).mem := by simp [State.gateDepart, h]
theorem execGateArrive_canonical {x} (h : Memory.wf s.mem) : Canonical (execGateArrive x s) := by
  simp only [execGateArrive]
  (repeat' split) <;> simp [h]
theorem execGateDepart_canonical {x} (h : Memory.wf s.mem) : Canonical (execGateDepart x s) := by
  unfold execGateDepart
  split <;> simp [h]
@[simp] theorem State.gateSteps_wf {lv} (h : Memory.wf s.mem) : Memory.wf (s.gateSteps lv).mem := by
  simp only [State.gateSteps]
  (repeat' split) <;> simp [h]
theorem sstepEnd_canonical {x} (h : Memory.wf s.mem) : Canonical (sstepEnd x s) := by
  unfold sstepEnd
  extract_lets l u b v
  have hu : Memory.wf u.mem := by simp [u, h]
  split <;> simp [hu, v]
theorem execSstep_canonical {x} (h : Memory.wf s.mem) : Canonical (execSstep x s) :=
  guarded_canonical h fun _ h => by simp [h, sstepEnd_canonical]

/-! ## Events and time (R290–R293) -/

@[simp] theorem State.clearLatch_mem : s.clearLatch.mem = s.mem := rfl
theorem execWfedTimeout_canonical {x} (h : Memory.wf s.mem) : Canonical (execWfedTimeout x s) := by
  unfold execWfedTimeout
  split <;> simp [h]

/-! ## Special registers -/

@[simp] theorem State.flagsSettled_wf {idx} (h : Memory.wf s.mem) : Memory.wf (s.flagsSettled idx).mem := by simp [State.flagsSettled, h]

end Sys2Proof.Machine
end

section
/-!
SUPPORT. Rings, fills and the matrix unit keep memory canonical (R222, R226).
-/
namespace Sys2Proof.Machine
open Sys2Proof

variable {s : State}

/-! ## Rings (R300, R301) -/

@[simp] theorem State.setRing_mem (m r) : (s.setRing m r).mem = s.mem := rfl
theorem inOrder_canonical {m rank k} (h : Memory.wf s.mem) (hk : ∀ u, Memory.wf u.mem → Canonical (k u)) : Canonical (inOrder m rank s k) := by
  simp [inOrder, h, hk]
@[simp] theorem State.useMatrix_mem : s.useMatrix.mem = s.mem := by simp [State.useMatrix]
@[simp] theorem matrixTrap_canonical {code detail len} (h : Memory.wf s.mem) : Canonical (matrixTrap code detail len s) := by simp [matrixTrap, h]
@[simp] theorem ringUse_canonical {cause m len} (h : Memory.wf s.mem) : Canonical (ringUse cause m len s) := by simp [ringUse, h]
@[simp] theorem matrixDone_canonical {len} (h : Memory.wf s.mem) : Canonical (matrixDone len s) := by simp [matrixDone, h]

/-! ## Publication of fills (R301, R310) -/

@[simp] theorem State.released_mem (lcid handle) : (s.released lcid handle).mem = s.mem := by
  unfold State.released
  split <;> simp
@[simp] theorem State.publishFill_mem (lcid m) : (s.publishFill lcid m).mem = s.mem := by
  unfold State.publishFill
  simp only
  (repeat' split) <;> simp
theorem execFillPublish_canonical {x} (h : Memory.wf s.mem) : Canonical (execFillPublish x s) := by simp [execFillPublish, h]
@[simp] theorem State.pumpFills_wf {m} (h : Memory.wf s.mem) : Memory.wf (s.pumpFills m).mem := by simp [State.pumpFills, h]

/-! ## RING (R304–R309) -/

theorem execRcfg_canonical {x} (h : Memory.wf s.mem) : Canonical (execRcfg x s) :=
  guarded_canonical h fun _ h => by
    extract_lets w u
    have hu : Memory.wf u.mem := by simp [u, h]
    have order (k : State → Out) (hk : ∀ u, Memory.wf u.mem → Canonical (k u)) : Canonical (inOrder x.m u.cfgRank u k) :=
      inOrder_canonical hu hk
    (repeat' split) <;> simp +contextual [h, hu, order]
theorem execRtol_canonical {x} (h : Memory.wf s.mem) : Canonical (execRtol x s) :=
  guarded_canonical h fun _ h => by
    dsimp only
    split
    · simp [h]
    · exact inOrder_canonical h fun _ h => by simp [h]
theorem execRget_canonical {x} (h : Memory.wf s.mem) : Canonical (execRget x s) :=
  guarded_canonical h fun _ h => inOrder_canonical h fun _ h => by simp [h]
theorem execRadv_canonical {x} (h : Memory.wf s.mem) : Canonical (execRadv x s) :=
  guarded_canonical h fun _ h => inOrder_canonical h fun _ h => by simp [h]
theorem execRwait_canonical {x} (h : Memory.wf s.mem) : Canonical (execRwait x s) :=
  guarded_canonical h fun _ h => inOrder_canonical h fun _ h => by
    dsimp only
    split
    · simp [h]
    split
    · simp [h]
    · exact acquired_canonical h fun _ h => by simp [h]

/-! ## FILL (R311–R315) -/

@[simp] theorem acceptFill_mem (d w need) : (acceptFill d w need s).mem = s.mem := by
  unfold acceptFill
  split <;> simp
theorem claimed_canonical {m k} (h : Memory.wf s.mem) (hk : ∀ dst u, Memory.wf u.mem → Canonical (k dst u)) : Canonical (claimed m s k) := by
  unfold claimed
  extract_lets u
  have hu : Memory.wf u.mem := by simp [u, h]
  split
  · simp [hu]
  · exact whenRoom_canonical hu fun _ h => inOrder_canonical h fun _ h => hk _ _ (by simp [h])
theorem fillChecks_canonical {m src a str w ok bad fits word k} (h : Memory.wf s.mem) (hk : ∀ u, Memory.wf u.mem → Canonical (k u)) :
    Canonical (fillChecks m src a str w ok bad fits word s k) := by
  unfold fillChecks
  split
  · simp [h]
  split
  · simp [h]
  split
  · simp [h]
  · exact inOrder_canonical h fun _ h => by simp [h, hk]
theorem execRquant_canonical {x} (h : Memory.wf s.mem) : Canonical (execRquant x s) :=
  guarded_canonical h fun _ h => fillChecks_canonical h fun _ h => claimed_canonical h fun _ _ h => by simp [h]
theorem rawFill_canonical {x ok need word} (h : Memory.wf s.mem) : Canonical (rawFill x ok need word s) :=
  guarded_canonical h fun _ h => fillChecks_canonical h fun _ h => claimed_canonical h fun _ _ h => by simp [h]

/-! ## Accumulator sets (R62) -/

@[simp] theorem State.setAcc_mem (c x) : (s.setAcc c x).mem = s.mem := rfl

/-! ## The commit (R320) -/

@[simp] theorem State.popRing_mem (m) : (s.popRing m).mem = s.mem := rfl
@[simp] theorem State.countMma_mem (v) : (s.countMma v).mem = s.mem := by
  unfold State.countMma
  split <;> rfl
@[simp] theorem State.commit_mem (c ma mb l v) : (s.commit c ma mb l v).mem = s.mem := by
  unfold State.commit
  split <;> simp

/-! ## The matrix unit's steps (R317, R321) -/

@[simp] theorem State.setMmas_mem (l) : (s.setMmas l).mem = s.mem := rfl
@[simp] theorem State.setPending_mem (c l) : (s.setPending c l).mem = s.mem := rfl
@[simp] theorem State.dropMmas_mem : s.dropMmas.mem = s.mem := rfl
@[simp] theorem State.begin_mem (k c ma mb skipA skipB) : (s.begin k c ma mb skipA skipB).1.mem = s.mem := by
  unfold State.begin
  split <;> rfl
@[simp] theorem State.widen_mem (x) : (s.widen x).mem = s.mem := by
  unfold State.widen
  split <;> rfl

/-! ## MMA, MMAF and MSR (R316, R317, R324, R325) -/

@[simp] theorem State.countSpans_mem (l) : (s.countSpans l).mem = s.mem := by simp [State.countSpans]
@[simp] theorem runMma_canonical {k c ma mb} (h : Memory.wf s.mem) : Canonical (runMma k c ma mb s) := by
  simp only [runMma]
  (repeat' split) <;> simp [h]
@[simp] theorem State.beginYounger_mem (old) : (s.beginYounger old).mem = s.mem := by
  unfold State.beginYounger
  (repeat' split) <;> simp
theorem matrixOp_canonical {k c ma mb} (h : Memory.wf s.mem) : Canonical (matrixOp k c ma mb s) := by
  unfold matrixOp
  extract_lets u r
  have pumped : Memory.wf ((s.pumpFills ma).pumpFills mb).mem := State.pumpFills_wf (State.pumpFills_wf h)
  have hu : Memory.wf u.mem := by simp [u, h, pumped]
  (repeat' split) <;> simp [h, hu, r]
theorem execMma_canonical {x} (h : Memory.wf s.mem) : Canonical (execMma x s) := guarded_canonical h fun _ h => matrixOp_canonical h
theorem execMmaf_canonical {x} (h : Memory.wf s.mem) : Canonical (execMmaf x s) := guarded_canonical h fun _ h => matrixOp_canonical h
theorem execMsr_canonical {x} (h : Memory.wf s.mem) : Canonical (execMsr x s) := guarded_canonical h fun _ h => matrixOp_canonical h

/-! ## The refetch's steps (R322, R323) -/

theorem execAnchorRefetch_canonical {x} (h : Memory.wf s.mem) : Canonical (execAnchorRefetch x s) := by
  unfold execAnchorRefetch
  dsimp only
  split
  · exact h
  split
  · exact h
  split
  · exact h
  split
  · split
    next e => simpa using wf_of_next (trapAt_canonical (by simp [h])) e
    · exact trapAt_canonical (by simp [h])
  · simp [h]
theorem execMmaCommit_canonical {x} (h : Memory.wf s.mem) : Canonical (execMmaCommit x s) := by
  simp only [execMmaCommit]
  (repeat' split) <;> simp [h]

/-! ## MDRAIN and MLOAD (R329–R331) -/

theorem bankChecked_canonical {r g z word len k} (h : Memory.wf s.mem) (hk : ∀ base stride u, Memory.wf u.mem → Canonical (k base stride u)) :
    Canonical (bankChecked r g z word len s k) := by simp [bankChecked, h, hk]
@[simp] theorem State.drew_mem (rm n) : (s.drew rm n).mem = s.mem := by simp [State.drew]
@[simp] theorem State.storeBank_mem (x f rm base stride) : (s.storeBank x f rm base stride).mem = s.mem := by simp [State.storeBank]
theorem execMdrain_canonical {x} (h : Memory.wf s.mem) : Canonical (execMdrain x s) :=
  guarded_canonical h fun _ h => by
    extract_lets
    split
    · exact bankChecked_canonical h fun _ _ _ h => by
        extract_lets sent u v
        have hv : Memory.wf v.mem := by simp [v, u, h]
        split <;> simp [hv]
    · extract_lets
      split
      · simp [h]
      · split
        next e => exact matrixDone_canonical (by simpa using wf_of_ok (pushSlot_canonical h) e)
        · simp [h]
        · simp [h]
theorem execMload_canonical {x} (h : Memory.wf s.mem) : Canonical (execMload x s) :=
  guarded_canonical h fun _ h => bankChecked_canonical h fun _ _ _ h => reading_canonical (by simp [h]) fun _ _ h => by simp [h]

end Sys2Proof.Machine
end

section
/-!
SUPPORT. Time, placement, stops, saves and restores keep memory canonical (R222, R226).
-/
namespace Sys2Proof.Machine
open Sys2Proof

variable {s : State}

@[simp] theorem State.tick_mem : s.tick.mem = s.mem := rfl

/-! ## Clearing and placing a tile (R64, R360) -/

@[simp] theorem State.wipe_wf {lcid} (h : Memory.wf s.mem) : Memory.wf (s.wipe lcid).mem := by simp [State.wipe, h]
@[simp] theorem State.orphanFlits_mem (gone) : (s.orphanFlits gone).mem = s.mem := rfl
@[simp] theorem State.keepStore_mem (c) : (s.keepStore c).mem = s.mem := by
  unfold State.keepStore
  split <;> rfl
@[simp] theorem State.dropMigrations_mem (c) : (s.dropMigrations c).mem = s.mem := rfl
@[simp] theorem State.placeTile_wf {t lcid} (h : Memory.wf s.mem) : Memory.wf (s.placeTile t lcid).mem := by
  rw [State.placeTile_mem]
  exact memPut_wf _ (State.wipe_wf h)

/-! ## The calendar (R53, R54) -/

@[simp] theorem State.nameStop_mem (cl) : (s.nameStop cl).mem = s.mem := by
  unfold State.nameStop
  split <;> simp
@[simp] theorem State.recallStop_mem (cl) : (s.recallStop cl).mem = s.mem := by
  unfold State.recallStop
  split <;> simp
@[simp] theorem State.renameStops_mem (mask) : (s.renameStops mask).mem = s.mem := foldl_mem _ (fun _ _ => by simp) _ _
@[simp] theorem State.fullClock_mem (t) : (s.fullClock t).mem = s.mem := by
  unfold State.fullClock
  split
  · exact foldl_mem _ (fun _ _ => by simp) _ _
  · rfl
@[simp] theorem State.coolDown_mem (t) : (s.coolDown t).mem = s.mem := foldl_mem _ (fun _ _ => by simp) _ _
/-- A tile that no team holds is wiped. -/
theorem State.clearTile_wf {lcid} (h : Memory.wf s.mem) : Memory.wf (s.clearTile lcid).mem := by
  rw [State.clearTile_mem]
  exact State.wipe_wf h
@[simp] theorem State.clearCluster_wf {c} (h : Memory.wf s.mem) : Memory.wf (s.clearCluster c).mem := by
  have tiles (u : State) (h : Memory.wf u.mem) : Memory.wf ((List.range 16).foldl (fun s t => s.clearTile (tileOfCluster c t)) u).mem :=
    foldl_wf (fun _ _ h => State.clearTile_wf h) h
  simp [State.clearCluster, h, tiles]
@[simp] theorem State.takeClusters_wf {t} (h : Memory.wf s.mem) : Memory.wf (s.takeClusters t).mem := by
  refine foldl_wf (fun u c h => ?_) h
  have hc := State.clearCluster_wf (c := c.1) h
  simp [h, hc]
@[simp] theorem State.claimTile_mem (t lcid) : (s.claimTile t lcid).mem = s.mem := by
  unfold State.claimTile
  split <;> simp
@[simp] theorem State.beginSlice_wf {t} (h : Memory.wf s.mem) : Memory.wf (s.beginSlice t).mem := by
  have place (u : State) (h : Memory.wf u.mem) : Memory.wf (t.tiles.foldl (fun s n => s.placeTile t n) u).mem :=
    foldl_wf (fun _ _ h => State.placeTile_wf h) h
  unfold State.beginSlice
  dsimp only
  split <;> simp [h, place]
@[simp] theorem State.tryBegin_wf {t} (h : Memory.wf s.mem) : Memory.wf (s.tryBegin t).mem := by
  unfold State.tryBegin
  split <;> simp [h]
@[simp] theorem State.postLaunch_wf {t} (h : Memory.wf s.mem) : Memory.wf (s.postLaunch t).mem := by
  simp only [State.postLaunch]
  (repeat' split) <;> simp [h]
theorem execSliceBoundary_canonical {x} (h : Memory.wf s.mem) : Canonical (execSliceBoundary x s) := by
  simp only [execSliceBoundary]
  (repeat' split) <;> simp [h]
theorem execLaunchEntryArrival_canonical {x} (h : Memory.wf s.mem) : Canonical (execLaunchEntryArrival x s) := by
  unfold execLaunchEntryArrival
  split
  · extract_lets u
    have hu : Memory.wf u.mem := by simp [u, h]
    split
    · split
      · exact hu
      · exact foldl_wf (fun _ _ h => by simp [h]) (by simp [hu])
    · exact hu
  · exact h

/-! ## The stop (R394) -/

@[simp] theorem State.haltCore_mem (p) : (s.haltCore p).mem = s.mem := by simp [State.haltCore]
@[simp] theorem State.finishPushes_wf {t} (h : Memory.wf s.mem) : Memory.wf (s.finishPushes t).mem := foldl_wf (fun _ _ h => by simp [h]) h
@[simp] theorem State.failStopped_mem (t) : (s.failStopped t).mem = s.mem := by simp [State.failStopped]
@[simp] theorem State.stash_wf {t} (h : Memory.wf s.mem) : Memory.wf (s.stash t).mem := by simp [State.stash, h]
@[simp] theorem State.stopNow_wf {t} (h : Memory.wf s.mem) : Memory.wf (s.stopNow t).mem := by
  unfold State.stopNow
  dsimp only
  split <;> simp [h]
theorem execSolsticeStop_canonical {x} (h : Memory.wf s.mem) : Canonical (execSolsticeStop x s) := by
  unfold execSolsticeStop
  split
  · split
    · simp [h]
    · split
      · simp [h]
      · exact h
  · exact h

/-! ## The save (R395, R398) -/

@[simp] theorem State.saveCells_wf {a n cells} (h : Memory.wf s.mem) : Memory.wf (s.saveCells a n cells).mem := State.saveCells_memOk a n cells h
@[simp] theorem State.countSave_wf {num code lcid} (h : Memory.wf s.mem) : Memory.wf (s.countSave num code lcid).mem := by simp [State.countSave, h]
@[simp] theorem State.failSave_wf {s0 num code d lcid tiles} (h : Memory.wf s0.mem) : Memory.wf (State.failSave s0 num code d lcid tiles).mem := by
  unfold State.failSave
  extract_lets u
  have hu : Memory.wf u.mem := State.countSave_wf h
  have frozen : (tiles.foldl State.freezeTile u).mem = u.mem := foldl_mem _ (fun _ _ => by simp) _ _
  split <;> simp [hu, frozen]
@[simp] theorem State.saveContext_wf {u t i lcid seq} (h : Memory.wf u.mem) : Memory.wf (s.saveContext u t i lcid seq).mem := by
  unfold State.saveContext
  extract_lets a
  split
  · exact State.saveCells_wf h
  · extract_lets n
    split
    · exact h
    · exact State.saveCells_wf h
@[simp] theorem State.saveNow_wf {t} (h : Memory.wf s.mem) : Memory.wf (s.saveNow t).mem := by
  have contexts (seq : Nat) : Memory.wf ((t.tiles.zipIdx).foldl (fun u (q : Nat × Nat) => s.saveContext u t q.2 q.1 seq) s).mem :=
    foldl_wf (fun _ _ h => State.saveContext_wf h) h
  unfold State.saveNow
  dsimp only
  (repeat' split) <;> simp [contexts]
theorem execContextSave_canonical {x} (h : Memory.wf s.mem) : Canonical (execContextSave x s) := by
  unfold execContextSave
  split <;> simp [h]

/-! ## Fencing (R17, R399) -/

@[simp] theorem State.fenceTile_wf {t lcid n} (h : Memory.wf s.mem) : Memory.wf (s.fenceTile t lcid n).mem := by
  have cleared := State.wipe_wf (lcid := lcid) h
  unfold State.fenceTile
  dsimp only
  split <;> simp [cleared]
@[simp] theorem State.placeSpare_wf {t lcid} (h : Memory.wf s.mem) : Memory.wf (s.placeSpare t lcid).mem := by simp [State.placeSpare, h]
@[simp] theorem State.refence_wf {t x} (h : Memory.wf s.mem) : Memory.wf (s.refence t x).mem := by
  unfold State.refence
  split <;> simp [h]
@[simp] theorem State.remap_wf {lcid} (h : Memory.wf s.mem) : Memory.wf (s.remap lcid).mem := by
  simp only [State.remap]
  (repeat' split) <;> simp [h]

/-! ## The restore (R78, R79, R359, R397) -/

@[simp] theorem State.restoreTile_wf {t i x} (h : Memory.wf s.mem) : Memory.wf (s.restoreTile t i x).mem := by
  have wiped := State.wipe_wf (lcid := x.lcid) h
  have queues (f : Nat → List Word) (u : State) : ((List.range 8).foldl (fun s k => s.setQueue (8 * x.lcid + k) (f k)) u).mem = u.mem :=
    foldl_mem _ (fun _ _ => by simp) _ _
  simp [State.restoreTile, wiped, queues]
@[simp] theorem State.reinject_wf {moves f} (h : Memory.wf s.mem) : Memory.wf (s.reinject moves f).mem := by
  unfold State.reinject
  split <;> simp [h]
@[simp] theorem State.replay_wf {e} (h : Memory.wf s.mem) : Memory.wf (s.replay e).mem := by
  unfold State.replay
  split
  · simp [h]
  · exact foldl_wf (fun _ _ h => by simp [h]) h
  · simp [h]
  · simp [h]
@[simp] theorem State.failRestore_wf {t code lcid a} (h : Memory.wf s.mem) : Memory.wf (s.failRestore t code lcid a).mem :=
  by simp [State.failRestore, h]
@[simp] theorem State.restoreColl_mem (t x) : (s.restoreColl t x).mem = s.mem := by simp [State.restoreColl]
@[simp] theorem State.restoreNow_wf {t} (h : Memory.wf s.mem) : Memory.wf (s.restoreNow t).mem := by
  have tiles : Memory.wf ((t.snaps.zipIdx).foldl (fun s q => s.restoreTile t q.2 q.1) s).mem := foldl_wf (fun _ _ h => State.restoreTile_wf h) h
  unfold State.restoreNow
  split
  · simp [h]
  · extract_lets s1 s2 s3 s4 s5 s6
    have h2 : Memory.wf s2.mem := foldl_wf (fun _ _ h => by simp [h]) tiles
    have h4 : Memory.wf s4.mem := foldl_wf (fun _ _ h => State.reinject_wf h) (by simp [s3, h2])
    have h5 : Memory.wf (t.log.foldl State.replay s4).mem := foldl_wf (fun _ _ h => State.replay_wf h) h4
    have h6 : Memory.wf s6.mem := foldl_wf (fun _ _ h => by split <;> simp [h]) (by simp [s5, h5])
    (repeat' split) <;> simp [h6]
theorem execRestore_canonical {x} (h : Memory.wf s.mem) : Canonical (execRestore x s) := by
  unfold execRestore
  split <;> simp [h]

/-! ## Vigil (R399) -/

theorem execVigilExpiry_canonical {x} (h : Memory.wf s.mem) : Canonical (execVigilExpiry x s) := by
  simp only [execVigilExpiry]
  (repeat' split) <;> simp [h]

end Sys2Proof.Machine
end

section
/-!
SUPPORT. Host commands keep memory canonical (R222, R226).
-/
namespace Sys2Proof.Machine
open Sys2Proof

variable {s : State}

/-! ## Records by their names -/

@[simp] theorem State.putSession_mem (x) : (s.putSession x).mem = s.mem := rfl
@[simp] theorem State.putTenant_mem (x) : (s.putTenant x).mem = s.mem := rfl
@[simp] theorem State.putObj_mem (x) : (s.putObj x).mem = s.mem := rfl

/-! ## Acceptance (R370, R372) -/

@[simp] theorem State.accept_mem (sid) : (s.accept sid).mem = s.mem := by
  unfold State.accept
  split <;> rfl

/-! ## Responses (R371) -/

@[simp] theorem State.respond_mem (sid opc cseq status result) : (s.respond sid opc cseq status result).mem = s.mem := by
  unfold State.respond
  split <;> rfl
@[simp] theorem State.endSession_mem (sid) : (s.endSession sid).mem = s.mem := rfl
@[simp] theorem State.conclude_wf {sid tag opc cseq e} (h : Memory.wf e.1.mem) : Memory.wf (State.conclude sid tag opc cseq e).mem := by
  unfold State.conclude
  split <;> simp [h]
theorem hostCommand_canonical {sid tag opc body} (h : Memory.wf s.mem)
    (hb : ∀ u, Memory.wf u.mem → Memory.wf (body u).1.mem) :
    Canonical (hostCommand sid tag opc body s) := by
  unfold hostCommand
  split
  · exact State.conclude_wf (hb _ (by simp [h]))
  · exact h
theorem hostCommand_when {c : Prop} [Decidable c] {sid tag opc body} (h : Memory.wf s.mem)
    (hb : ∀ u, Memory.wf u.mem → Memory.wf (body u).1.mem) :
    Canonical (if c then hostCommand sid tag opc body s else .next s) := by
  split
  · exact hostCommand_canonical h hb
  · exact h

/-! ## Sealed result blocks (R369, R377) -/

@[simp] theorem State.putHost_wf {a l} (h : Memory.wf s.mem) : Memory.wf (s.putHost a l).mem := State.putHost_memOk a l h
@[simp] theorem State.writeResult_wf {sid raddr rlen block} (h : Memory.wf s.mem) : Memory.wf (s.writeResult sid raddr rlen block).1.mem := by
  unfold State.writeResult
  split <;> simp [h]

/-! ## The tenant's configuration (R384) -/

@[simp] theorem State.reconfigure_mem (tag) : (s.reconfigure tag).mem = s.mem := by
  unfold State.reconfigure
  split <;> simp

/-! ## Halting a team (R37, R394, R395) -/

@[simp] theorem State.stopAndSave_wf {t r} (h : Memory.wf s.mem) : Memory.wf (s.stopAndSave t r).mem := by
  simp only [State.stopAndSave]
  (repeat' split) <;> simp [h]
@[simp] theorem State.haltTeam_wf {r num} (h : Memory.wf s.mem) : Memory.wf (s.haltTeam r num).mem := by
  unfold State.haltTeam
  (repeat' split) <;> simp [h]
@[simp] theorem State.haltTeams_wf {r l} (h : Memory.wf s.mem) : Memory.wf (s.haltTeams r l).mem := foldl_wf (fun _ _ h => State.haltTeam_wf h) h
@[simp] theorem State.enterError_wf {tag} (h : Memory.wf s.mem) : Memory.wf (s.enterError tag).mem := by
  unfold State.enterError
  split <;> simp [h]

/-! ## Releasing a team (R37, R416) -/

@[simp] theorem State.dropReady_mem (num n) : (s.dropReady num n).mem = s.mem := by simp [State.dropReady]
@[simp] theorem State.leaveTile_mem (n) : (s.leaveTile n).mem = s.mem := by simp [State.leaveTile]
@[simp] theorem State.leaveCluster_mem (num c) : (s.leaveCluster num c).mem = s.mem := by simp [State.leaveCluster]
@[simp] theorem State.dropTeam_mem (t) : (s.dropTeam t).mem = s.mem := rfl
@[simp] theorem State.releaseTeam_mem (num) : (s.releaseTeam num).mem = s.mem := by
  unfold State.releaseTeam
  split <;> simp

/-! ## Versions -/

@[simp] theorem State.addVersion_wf {o v} (h : Memory.wf s.mem) : Memory.wf (s.addVersion o v).mem := State.addVersion_memOk o v h
@[simp] theorem State.sweepVersions_mem : s.sweepVersions.mem = s.mem := rfl

/-! ## Publication (R347) -/

@[simp] theorem State.publish_wf {objid v link a region n} (h : Memory.wf s.mem) : Memory.wf (s.publish objid v link a region n).mem :=
  State.publish_memOk objid v link a region n h
@[simp] theorem State.heapFull_wf {link} (h : Memory.wf s.mem) : Memory.wf (s.heapFull link).mem := trapAt_canonical h
@[simp] theorem State.heapFullAll_wf {v link} (h : Memory.wf s.mem) : Memory.wf (s.heapFullAll v link).mem :=
  foldl_wf (fun _ _ h => foldl_wf (fun _ _ h => by simp [h]) h) h
@[simp] theorem State.publishText_wf {o v link} (h : Memory.wf s.mem) : Memory.wf (s.publishText o v link).mem := by
  unfold State.publishText
  (repeat' split) <;> simp [h]
@[simp] theorem State.publishPart_wf {o v part} (h : Memory.wf s.mem) : Memory.wf (s.publishPart o v part).mem := by
  unfold State.publishPart
  (repeat' split) <;> simp [h]
theorem execTranslationPublish_canonical {x} (h : Memory.wf s.mem) : Canonical (execTranslationPublish x s) := by
  simp only [execTranslationPublish]
  (repeat' split) <;> simp [h]
@[simp] theorem State.publishParts_wf {objid base l} (h : Memory.wf s.mem) : Memory.wf (s.publishParts objid base l).mem :=
  foldl_wf (fun _ _ h => by (repeat' split) <;> simp [h]) h
theorem execRetranslation_canonical {x} (h : Memory.wf s.mem) : Canonical (execRetranslation x s) := by
  simp only [execRetranslation]
  (repeat' split) <;> simp [h]

/-! ## Pin counts and unloading (R350, R351) -/

@[simp] theorem State.freeObj_mem (objid) : (s.freeObj objid).mem = s.mem := rfl
@[simp] theorem doUnload_mem (x) : (doUnload x s).1.mem = s.mem := by
  unfold doUnload
  (repeat' split) <;> simp
@[simp] theorem State.markGone_wf {num} (h : Memory.wf s.mem) : Memory.wf (s.markGone num).mem := by
  unfold State.markGone
  split <;> simp [h]
@[simp] theorem State.forceUnload_wf {objid} (h : Memory.wf s.mem) : Memory.wf (s.forceUnload objid).mem := by
  unfold State.forceUnload
  rw [State.freeObj_mem]
  exact foldl_wf (fun _ _ h => State.markGone_wf h) (State.haltTeams_wf h)
@[simp] theorem doUnloadForced_wf {x} (h : Memory.wf s.mem) : Memory.wf (doUnloadForced x s).1.mem := by
  unfold doUnloadForced
  (repeat' split) <;> simp [h]

/-! ## The journal (R376, R385) -/

@[simp] theorem State.keepJournal_wf {l} (h : Memory.wf s.mem) : Memory.wf (s.keepJournal l).mem := State.keepJournal_memOk l h
@[simp] theorem State.closeJournal_wf {tag} (h : Memory.wf s.mem) : Memory.wf (s.closeJournal tag).mem := State.closeJournal_memOk tag h

/-! ## CREATE_TENANT (R378) -/

@[simp] theorem State.registerTenant_mem (tag key) : (s.registerTenant tag key).mem = s.mem := rfl
@[simp] theorem State.rekeyTenant_wf {tag key} (h : Memory.wf s.mem) : Memory.wf (s.rekeyTenant tag key).mem :=
  foldl_wf (fun _ _ h => State.forceUnload_wf h) h
@[simp] theorem doCreate_wf {x} (h : Memory.wf s.mem) : Memory.wf (doCreate x s).1.mem := by
  unfold doCreate
  (repeat' split) <;> simp [h]

/-! ## SET_EXTENTS (R337, R379) -/

@[simp] theorem State.grant_mem (tag g) : (s.grant tag g).mem = s.mem := by simp [State.grant]
@[simp] theorem doSetExtents_mem (x) : (doSetExtents x s).1.mem = s.mem := by
  unfold doSetExtents
  simp only
  (repeat' split) <;> simp

/-! ## Dependence on an extent (R345) -/

@[simp] theorem State.putExtent_mem (tag i e) : (s.putExtent tag i e).mem = s.mem := rfl

/-! ## REVOKE_EXTENT (R357) -/

@[simp] theorem State.dropStashes_wf {tag base limit} (h : Memory.wf s.mem) : Memory.wf (s.dropStashes tag base limit).mem :=
  by simp [State.dropStashes, h]
@[simp] theorem State.clearOwnership_mem (tag x ext) : (s.clearOwnership tag x ext).mem = s.mem := rfl
@[simp] theorem State.revoke_wf {t i} (h : Memory.wf s.mem) : Memory.wf (s.revoke t i).mem := by
  unfold State.revoke
  extract_lets e b l deps s1 s2 s3 s4
  have h2 : Memory.wf s2.mem := State.dropStashes_wf (State.haltTeams_wf (by simp [s1, h]))
  have h3 : Memory.wf s3.mem := by simp [s3, h2]
  split <;> simp [s4, h3]
@[simp] theorem doRevoke_wf {x} (h : Memory.wf s.mem) : Memory.wf (doRevoke x s).1.mem := by
  unfold doRevoke
  (repeat' split) <;> simp [h]
theorem execRevokeExtent_canonical {x} (h : Memory.wf s.mem) : Canonical (execRevokeExtent x s) := hostCommand_when h fun _ h => doRevoke_wf h

/-! ## MOVE_EXTENT (R358, R359, R365) -/

@[simp] theorem State.relocateTeams_mem (l nums) : (s.relocateTeams l nums).mem = s.mem := rfl
@[simp] theorem State.markSealed_mem (tag base n) : (s.markSealed tag base n).mem = s.mem := rfl
@[simp] theorem State.moveExtent_wf {t tag i e base} (h : Memory.wf s.mem) : Memory.wf (s.moveExtent t tag i e base).mem := by
  unfold State.moveExtent
  extract_lets old lim l run s1 n s2 s2' s3 s4
  have h1 : Memory.wf s1.mem := State.haltTeams_wf h
  have h4 : Memory.wf s4.mem := by simp [s4, s3, s2', s2, h1]
  exact foldl_wf (fun _ _ h => by (repeat' split) <;> simp [h]) h4
@[simp] theorem doMove_wf {x} (h : Memory.wf s.mem) : Memory.wf (doMove x s).1.mem := by
  simp only [doMove]
  (repeat' split) <;> simp [h]
theorem execMoveExtent_canonical {x} (h : Memory.wf s.mem) : Canonical (execMoveExtent x s) := hostCommand_when h fun _ h => doMove_wf h

/-! ## STOP_TEAM (R380) -/

@[simp] theorem State.nameHalt_mem (t at_) : (s.nameHalt t at_).mem = s.mem := rfl
@[simp] theorem doStop_mem (x) : (doStop x s).1.mem = s.mem := by
  unfold doStop
  (repeat' split) <;> simp
@[simp] theorem doResume_mem (x) : (doResume x s).1.mem = s.mem := by
  unfold doResume
  (repeat' split) <;> simp

/-! ## RESET_TENANT (R400, R416, R418) -/

@[simp] theorem State.clearTeam_wf {t} (h : Memory.wf s.mem) : Memory.wf (s.clearTeam t).mem := by
  unfold State.clearTeam
  rw [State.coolDown_mem]
  refine foldl_wf (fun u c h => ?_) h
  have hc := State.clearCluster_wf (c := c.1) h
  simp [h, hc]
@[simp] theorem State.resetTenant_wf {x mig} (h : Memory.wf s.mem) : Memory.wf (s.resetTenant x mig).mem := by
  unfold State.resetTenant
  extract_lets l s1 s2 s3 s3' mine t host
  have h2 : Memory.wf s2.mem := foldl_wf (fun _ _ h => State.clearTeam_wf h) (State.haltTeams_wf h)
  have h3 : Memory.wf s3.mem := foldl_wf (fun _ _ h => by simp [h]) h2
  simp [t, s3', h3]
@[simp] theorem State.nameReset_mem (tag at_) : (s.nameReset tag at_).mem = s.mem := rfl
@[simp] theorem doReset_wf {x} (h : Memory.wf s.mem) : Memory.wf (doReset x s).1.mem := by
  unfold doReset
  (repeat' split) <;> simp [h]

/-! ## Commands that wait (R350, R380, R400) -/

theorem State.waitOver_wf {w e} (h : Memory.wf s.mem) (he : s.waitOver w = some e) : Memory.wf e.1.mem := by
  unfold State.waitOver at he
  (repeat' split at he) <;> cases he <;> simp [h]
@[simp] theorem State.settleOne_wf {w} (h : Memory.wf s.mem) : Memory.wf (s.settleOne w).mem := by
  unfold State.settleOne
  split
  next e he => exact State.conclude_wf (State.waitOver_wf h he)
  · exact h
@[simp] theorem State.settle_wf (h : Memory.wf s.mem) : Memory.wf s.settle.mem := foldl_wf (fun _ _ h => State.settleOne_wf h) h
theorem hostCommand_unless {c : Prop} [Decidable c] {sid tag opc body} (h : Memory.wf s.mem)
    (hb : ∀ u, Memory.wf u.mem → Memory.wf (body u).1.mem) :
    Canonical (if c then .next s.settle else hostCommand sid tag opc body s) := by
  split
  · exact State.settle_wf h
  · exact hostCommand_canonical h hb
theorem execUnloadObject_canonical {x} (h : Memory.wf s.mem) : Canonical (execUnloadObject x s) := hostCommand_unless h fun _ h => by simp [h]
theorem execUnloadObjectForced_canonical {x} (h : Memory.wf s.mem) : Canonical (execUnloadObjectForced x s) :=
  hostCommand_when h fun _ h => doUnloadForced_wf h
theorem execStopTeam_canonical {x} (h : Memory.wf s.mem) : Canonical (execStopTeam x s) := hostCommand_unless h fun _ h => by simp [h]
theorem execResetTenant_canonical {x} (h : Memory.wf s.mem) : Canonical (execResetTenant x s) := hostCommand_unless h fun _ h => doReset_wf h

/-! ## Zeroing (R400 step 5) -/

theorem execGranuleZeroed_canonical {x} (h : Memory.wf s.mem) : Canonical (execGranuleZeroed x s) := by simp [execGranuleZeroed, h]

/-! ## SET_CALENDAR (R53, R32) -/

@[simp] theorem State.setSlots_mem (mask slots) : (s.setSlots mask slots).mem = s.mem := foldl_mem _ (fun _ _ => by simp) _ _
@[simp] theorem State.withShares_mem : s.withShares.mem = s.mem := rfl
@[simp] theorem doSetCalendar_mem (x) : (doSetCalendar x s).1.mem = s.mem := by simp [doSetCalendar]

/-! ## LOCK and UNLOCK (R375, R384) -/

@[simp] theorem doLock_mem (x) : (doLock x s).1.mem = s.mem := by
  unfold doLock
  (repeat' split) <;> simp
@[simp] theorem State.unlockTenant_wf {x} (h : Memory.wf s.mem) : Memory.wf (s.unlockTenant x).mem := by simp [State.unlockTenant, h]
@[simp] theorem doUnlock_wf {x} (h : Memory.wf s.mem) : Memory.wf (doUnlock x s).1.mem := by
  unfold doUnlock
  (repeat' split) <;> simp [h]
theorem execUnlock_canonical {x} (h : Memory.wf s.mem) : Canonical (execUnlock x s) := hostCommand_when h fun _ h => doUnlock_wf h

/-! ## ATTEST (R384) -/

@[simp] theorem doAttest_wf {x} (h : Memory.wf s.mem) : Memory.wf (doAttest x s).1.mem := by
  unfold doAttest
  (repeat' split) <;> simp [h]

/-! ## Admission (R150) -/

@[simp] theorem State.admitFile_mem (tag f) : (s.admitFile tag f).mem = s.mem := rfl
@[simp] theorem doAdmit_mem (x) : (doAdmit x s).1.mem = s.mem := by
  unfold doAdmit
  (repeat' split) <;> simp

/-! ## The launch (R47, R144, R145) -/

theorem State.launchVersion_wf {o x v} (h : Memory.wf s.mem) (hv : s.launchVersion o x = some v) : Memory.wf v.1.mem := by
  unfold State.launchVersion at hv
  split at hv
  · cases hv; exact h
  · obtain ⟨b, -, rfl⟩ := Option.map_eq_some_iff.1 hv
    simp [h]
@[simp] theorem State.claimSlots_mem (t) : (s.claimSlots t).mem = s.mem := by
  unfold State.claimSlots
  exact foldl_mem _ (fun _ _ => by simp) _ _
@[simp] theorem State.markProt_mem (t) : (s.markProt t).mem = s.mem := by
  unfold State.markProt
  split
  · exact foldl_mem _ (fun _ _ => by simp) _ _
  · rfl
@[simp] theorem State.launch_wf {t o x v num} (h : Memory.wf s.mem) : Memory.wf (s.launch t o x v num).mem := by simp [State.launch, h]
@[simp] theorem doLaunch_wf {x} (h : Memory.wf s.mem) : Memory.wf (doLaunch x s).1.mem := by
  unfold doLaunch
  dsimp only
  split
  · exact h
  split
  · exact h
  split
  · exact h
  split
  · exact h
  split
  · exact h
  split
  · exact h
  next hv =>
    have := State.launchVersion_wf (s := s.sweepVersions) h hv
    split <;> simp_all

/-! ## COUNTER_COPY (R404) -/

theorem execCounterCopy_canonical {x} (h : Memory.wf s.mem) : Canonical (execCounterCopy x s) := by simp [execCounterCopy, h]

/-! ## COUNTER_RELEASE (R406–R409, R416) -/

@[simp] theorem State.releaseView_mem : s.releaseView.mem = s.mem := rfl
theorem execCounterRelease_canonical {x} (h : Memory.wf s.mem) : Canonical (execCounterRelease x s) := by
  simp only [execCounterRelease]
  (repeat' split) <;> simp [h]

/-! ## READ_COUNTERS (R405, R409) -/

@[simp] theorem onTeam_wf {sid tag team op ten} (h : Memory.wf s.mem) (ho : ∀ t, Memory.wf (op t).1.mem) (ht : ∀ t, Memory.wf (ten t).1.mem) :
    Memory.wf (onTeam sid tag team s op ten).1.mem := by
  unfold onTeam
  (repeat' split) <;> simp [h, ho, ht]
@[simp] theorem doReadCounters_wf {x} (h : Memory.wf s.mem) : Memory.wf (doReadCounters x s).1.mem := by simp [doReadCounters, h]

/-! ## READ_FAULTS (R389, R414) -/

@[simp] theorem doReadFaults_wf {x} (h : Memory.wf s.mem) : Memory.wf (doReadFaults x s).1.mem := by simp [doReadFaults, h]

/-! ## The commands -/

@[simp] theorem State.withItem_wf {sid raddr rlen item f} (h : Memory.wf s.mem) (hf : ∀ u, Memory.wf u.mem → Memory.wf (f u).mem) :
    Memory.wf (s.withItem sid raddr rlen item f).1.mem := by
  have hw := State.writeResult_wf (sid := sid) (raddr := raddr) (rlen := rlen) (block := item) h
  unfold State.withItem
  split
  next s1 r e => exact hf s1 (by simpa [e] using hw)
  · exact hw
@[simp] theorem onTenant_wf {sid tag f} (h : Memory.wf s.mem) (hf : ∀ t, Memory.wf (f t).1.mem) : Memory.wf (onTenant sid tag s f).1.mem := by
  unfold onTenant
  (repeat' split) <;> simp [h, hf]
@[simp] theorem doOffer_wf {x} (h : Memory.wf s.mem) : Memory.wf (doOffer x s).1.mem := by simp [doOffer, h]
@[simp] theorem State.sendBlobs_wf {t x secret} (h : Memory.wf s.mem) : Memory.wf (s.sendBlobs t x secret).1.mem := by
  unfold State.sendBlobs
  dsimp only
  split
  next s2 _ e =>
    have h2 : Memory.wf s2.mem := by
      have := congrArg (fun e => Memory.wf e.1.mem) e
      exact this ▸ State.writeResult_wf (by simp [h])
    split
    next s3 _ e =>
      have h3 : Memory.wf s3.mem := by
        have := congrArg (fun e => Memory.wf e.1.mem) e
        exact this ▸ State.writeResult_wf h2
      simp [h3]
    · exact h
  · exact h
@[simp] theorem doSend_wf {x} (h : Memory.wf s.mem) : Memory.wf (doSend x s).1.mem :=
  onTenant_wf h fun _ => by (repeat' split) <;> simp [h]
theorem execMigrateOutSend_canonical {x} (h : Memory.wf s.mem) : Canonical (execMigrateOutSend x s) := hostCommand_when h fun _ h => doSend_wf h
@[simp] theorem State.completeImport_wf {t g} (h : Memory.wf s.mem) : Memory.wf (s.completeImport t g).mem := by
  unfold State.completeImport
  extract_lets s1 s2 y s3
  have h1 : Memory.wf s1.mem := by simp [s1, h]
  have h3 : Memory.wf s3.mem := foldl_wf (fun _ _ h => by simp [h]) (by simp [s2, h1])
  simp [h3]
@[simp] theorem State.endImport_wf {t x g source nonce digest} (h : Memory.wf s.mem) : Memory.wf (s.endImport t x g source nonce digest).1.mem :=
  State.withItem_wf h fun _ h => State.completeImport_wf h
@[simp] theorem State.importBlob_wf {t x plain g} (h : Memory.wf s.mem) : Memory.wf (s.importBlob t x plain g).1.mem := by
  unfold State.importBlob
  dsimp only
  split
  · exact h
  split
  · exact h
  · exact State.withItem_wf h fun _ h => by simp [h]
@[simp] theorem doImport_wf {x} (h : Memory.wf s.mem) : Memory.wf (doImport x s).1.mem :=
  onTenant_wf h fun _ => by (repeat' split) <;> simp [h]
theorem execMigrateInImport_canonical {x} (h : Memory.wf s.mem) : Canonical (execMigrateInImport x s) := hostCommand_when h fun _ h => doImport_wf h
@[simp] theorem doCommit_wf {x} (h : Memory.wf s.mem) : Memory.wf (doCommit x s).1.mem :=
  onTenant_wf h fun _ => by
    (repeat' split) <;> simp only [h]
    exact State.withItem_wf h fun _ h => State.resetTenant_wf h
theorem execMigrateOutCommit_canonical {x} (h : Memory.wf s.mem) : Canonical (execMigrateOutCommit x s) := hostCommand_when h fun _ h => doCommit_wf h
@[simp] theorem doConfirm_wf {x} (h : Memory.wf s.mem) : Memory.wf (doConfirm x s).1.mem :=
  onTenant_wf h fun _ => by (repeat' split) <;> simp [h]
theorem execMigrateInConfirm_canonical {x} (h : Memory.wf s.mem) : Canonical (execMigrateInConfirm x s) :=
  hostCommand_when h fun _ h => doConfirm_wf h
@[simp] theorem doClose_wf {x} (h : Memory.wf s.mem) : Memory.wf (doClose x s).1.mem := by simp [doClose, h]
@[simp] theorem State.rejoin_mem (tag) : (s.rejoin tag).mem = s.mem := rfl
@[simp] theorem doAbortOut_wf {x} (h : Memory.wf s.mem) : Memory.wf (doAbortOut x s).1.mem := by simp [doAbortOut, h]
@[simp] theorem doAbortIn_wf {x} (h : Memory.wf s.mem) : Memory.wf (doAbortIn x s).1.mem := by simp [doAbortIn, h]
@[simp] theorem doResumeIn_wf {x} (h : Memory.wf s.mem) : Memory.wf (doResumeIn x s).1.mem :=
  onTenant_wf h fun _ => by (repeat' split) <;> simp [h]
theorem execMigrateInResume_canonical {x} (h : Memory.wf s.mem) : Canonical (execMigrateInResume x s) := hostCommand_when h fun _ h => doResumeIn_wf h
@[simp] theorem doEscrow_wf {x} (h : Memory.wf s.mem) : Memory.wf (doEscrow x s).1.mem :=
  onTenant_wf h fun _ => by (repeat' split) <;> simp [h]
theorem execMigrateInEscrow_canonical {x} (h : Memory.wf s.mem) : Canonical (execMigrateInEscrow x s) := hostCommand_when h fun _ h => doEscrow_wf h

end Sys2Proof.Machine
end

section
/-!
SUPPORT. The fabric, sessions, the command link and starts keep memory canonical (R222, R226).
-/
namespace Sys2Proof.Machine
open Sys2Proof

variable {s : State}

/-! ## FABRIC_CONFIG (R426, R427) -/

@[simp] theorem State.answer_mem (m tag c bytes) : (s.answer m tag c bytes).mem = s.mem := by simp [State.answer]
@[simp] theorem State.flushHeld_mem : s.flushHeld.mem = s.mem := by simp [State.flushHeld]
@[simp] theorem State.nackTo_mem (src tag) : (s.nackTo src tag).mem = s.mem := by simp [State.nackTo]
@[simp] theorem State.lostWrite_mem (p i) : (s.lostWrite p i).mem = s.mem := by simp [State.lostWrite]
@[simp] theorem State.loseFlight_mem (x) : (s.loseFlight x).mem = s.mem := by
  unfold State.loseFlight
  (repeat' split) <;> simp
@[simp] theorem State.publishFabric_mem (d) : (s.publishFabric d).mem = s.mem := by simp [State.publishFabric]
@[simp] theorem State.answerFabric_wf {d} (h : Memory.wf s.mem) : Memory.wf (s.answerFabric d).mem := foldl_wf (fun _ _ h => State.conclude_wf h) h
@[simp] theorem State.tryPublish_wf (h : Memory.wf s.mem) : Memory.wf s.tryPublish.mem := by
  unfold State.tryPublish
  split <;> simp [h]
@[simp] theorem State.goDark_mem (x) : (s.goDark x).mem = s.mem := rfl
@[simp] theorem doFabric_mem (x) : (doFabric x s).1.mem = s.mem := by simp [doFabric]
theorem execFabricConfig_canonical {x} (h : Memory.wf s.mem) : Canonical (execFabricConfig x s) := by
  unfold execFabricConfig
  split
  · exact h
  · have hc : Canonical (hostCommand x.sid 0 0x12 (doFabric x) s) := hostCommand_canonical h fun _ h => by simp [h]
    split <;> simp_all

/-! ## The steps of a dark interval -/

@[simp] theorem State.setDark_mem (d) : (s.setDark d).mem = s.mem := rfl
theorem execLaneLock_canonical {x} (h : Memory.wf s.mem) : Canonical (execLaneLock x s) := by
  unfold execLaneLock
  split <;> simp [h]
@[simp] theorem State.clearPorts_mem : s.clearPorts.mem = s.mem := rfl
theorem execLaneLockTimeout_canonical {x} (h : Memory.wf s.mem) : Canonical (execLaneLockTimeout x s) := by
  unfold execLaneLockTimeout
  split <;> simp [h]
theorem execPortHandshake_canonical {x} (h : Memory.wf s.mem) : Canonical (execPortHandshake x s) := by
  unfold execPortHandshake
  split <;> simp [h]

/-! ## Arriving flits (R422, R423, R354) -/

@[simp] theorem State.landHere_wf {src tag a l} (h : Memory.wf s.mem) : Memory.wf (s.landHere src tag a l).mem := by
  unfold State.landHere
  split
  · exact h
  · exact State.landBy_wf h fun _ h => by simp [h]
@[simp] theorem State.landFlit_wf {src tag a l} (h : Memory.wf s.mem) : Memory.wf (s.landFlit src tag a l).mem := by
  unfold State.landFlit
  (repeat' split) <;> simp [h]
@[simp] theorem State.refusedWrite_wf {p i code} (h : Memory.wf s.mem) : Memory.wf (s.refusedWrite p i code).mem := by simp [State.refusedWrite, h]
@[simp] theorem State.refusedFlit_wf {p a code} (h : Memory.wf s.mem) : Memory.wf (s.refusedFlit p a code).mem := by
  simp only [State.refusedFlit]
  (repeat' split) <;> simp [h]
@[simp] theorem State.deliver_wf {x} (h : Memory.wf s.mem) : Memory.wf (s.deliver x).mem := by
  unfold State.deliver
  split
  · simp [h]
  · extract_lets old u
    have hu : Memory.wf u.mem := by
      simp only [u]
      split <;> simp [h]
    simp [hu]
  · simp [h]
  · simp [h]
  · extract_lets a
    split
    · exact h
    · exact State.keyStep_wf h fun _ _ => by simp [h]
  · simp [h]
  · simp [h]
@[simp] theorem State.forward_mem (x) : (s.forward x).mem = s.mem := by simp [State.forward]
theorem execFabricFlitReceive_canonical {x} (h : Memory.wf s.mem) : Canonical (execFabricFlitReceive x s) := by
  unfold execFabricFlitReceive
  split <;> simp [h]
theorem execFecReplay_canonical {x} (h : Memory.wf s.mem) : Canonical (execFecReplay x s) := by simp [execFecReplay, h]

/-! ## Allowances and time (R424, R425) -/

theorem execAllowanceReturn_canonical {x} (h : Memory.wf s.mem) : Canonical (execAllowanceReturn x s) := by
  unfold execAllowanceReturn
  split <;> simp [h]
theorem execTimestampExchange_canonical {x} (h : Memory.wf s.mem) : Canonical (execTimestampExchange x s) := by simp [execTimestampExchange, h]

/-! ## Answers -/

@[simp] theorem State.plainAnswer_mem (cseq m) : (s.plainAnswer cseq m).mem = s.mem := rfl
@[simp] theorem State.spdmAnswer_mem (sid cseq m) : (s.spdmAnswer sid cseq m).mem = s.mem := by
  unfold State.spdmAnswer
  split <;> simp

/-! ## Opening, renewing and ending a session -/

@[simp] theorem State.recordOperator_mem (key) : (s.recordOperator key).mem = s.mem := by
  unfold State.recordOperator
  split <;> rfl
@[simp] theorem State.beginSession_mem (sid key secret) : (s.beginSession sid key secret).mem = s.mem := rfl
@[simp] theorem State.keyExchange_mem (sid key nonce) : (s.keyExchange sid key nonce).1.mem = s.mem := by simp [State.keyExchange]
@[simp] theorem State.finishExchange_mem (sid signature) : (s.finishExchange sid signature).1.mem = s.mem := by
  unfold State.finishExchange
  split <;> simp
@[simp] theorem State.spdmEffect_mem (code sid key nonce) : (s.spdmEffect code sid key nonce).1.mem = s.mem := by
  unfold State.spdmEffect
  (repeat' split) <;> simp
@[simp] theorem State.spdmServe_mem (code sid cseq key nonce) : (s.spdmServe code sid cseq key nonce).mem = s.mem := by simp [State.spdmServe]
@[simp] theorem State.spdmPlain_mem (code sid cseq key nonce) : (s.spdmPlain code sid cseq key nonce).mem = s.mem := by simp [State.spdmPlain]

/-! ## The messages as steps -/

@[simp] theorem spdmMessage_canonical {code x} (h : Memory.wf s.mem) : Canonical (spdmMessage code x s) := by
  unfold spdmMessage
  split <;> simp [h]
@[simp] theorem spdmOpening_canonical {code x} (h : Memory.wf s.mem) : Canonical (spdmOpening code x s) := by simp [spdmOpening, h]
@[simp] theorem spdmInSession_canonical {code x} (h : Memory.wf s.mem) : Canonical (spdmInSession code x s) := by simp [spdmInSession, h]
theorem execKeyUpdate_canonical {x} (h : Memory.wf s.mem) : Canonical (execKeyUpdate x s) := by simp [execKeyUpdate, h]

/-! ## The plaintext of a command (R371, R377–R383) -/

@[simp] theorem whole_wf {good e} (h : Memory.wf s.mem) (he : Memory.wf e.1.mem) : Memory.wf (whole good s e).1.mem := by simp [whole, h, he]
@[simp] theorem byRef_wf {p f} (h : Memory.wf s.mem) (hf : ∀ b, Memory.wf (f b).1.mem) : Memory.wf (byRef p s f).1.mem := by simp [byRef, h, hf]
@[simp] theorem cmdSetExtents_wf {sid tag b} (h : Memory.wf s.mem) : Memory.wf (cmdSetExtents sid tag b s).1.mem := by simp [cmdSetExtents, h]
@[simp] theorem cmdLaunch_wf {sid tag b} (h : Memory.wf s.mem) : Memory.wf (cmdLaunch sid tag b s).1.mem := by simp [cmdLaunch, h]
@[simp] theorem cmdFabric_mem (sid b) : (cmdFabric sid b s).1.mem = s.mem := by simp [cmdFabric]
@[simp] theorem cmdMigrateOut_wf {sid tag sub p} (h : Memory.wf s.mem) : Memory.wf (cmdMigrateOut sid tag sub p s).1.mem := by
  unfold cmdMigrateOut
  split
  · exact whole_wf h (byRef_wf h fun _ => doSend_wf h)
  · exact whole_wf h (byRef_wf h fun _ => doCommit_wf h)
  · exact whole_wf h (byRef_wf h fun _ => doClose_wf h)
  · exact whole_wf h (doAbortOut_wf h)
  · exact h
@[simp] theorem cmdMigrateIn_wf {sid tag sub p} (h : Memory.wf s.mem) : Memory.wf (cmdMigrateIn sid tag sub p s).1.mem := by
  unfold cmdMigrateIn
  split
  · exact whole_wf h (doOffer_wf h)
  · exact whole_wf h (byRef_wf h fun _ => doImport_wf h)
  · exact whole_wf h (byRef_wf h fun _ => doConfirm_wf h)
  · exact whole_wf h (doAbortIn_wf h)
  · exact whole_wf h (doResumeIn_wf h)
  · exact whole_wf h (byRef_wf h fun _ => doEscrow_wf h)
  · exact h
@[simp] theorem runCommand_wf {sid p} (h : Memory.wf s.mem) : Memory.wf (runCommand sid p s).1.mem := by
  have extents (b) : Memory.wf (cmdSetExtents sid (cmdTag p) b s).1.mem := cmdSetExtents_wf h
  have launch (b) : Memory.wf (cmdLaunch sid (cmdTag p) b s).1.mem := cmdLaunch_wf h
  unfold runCommand
  (repeat' split) <;> simp [h, extents, launch]

/-! ## A command entry (R369, R370) -/

@[simp] theorem State.rejectPlain_mem (cseq status) : (s.rejectPlain cseq status).mem = s.mem := rfl
@[simp] theorem State.setResync_mem (sid) : (s.setResync sid).mem = s.mem := by
  unfold State.setResync
  split <;> rfl
@[simp] theorem State.takeSpdm_mem (x p) : (s.takeSpdm x p).mem = s.mem := by
  unfold State.takeSpdm
  split <;> simp
theorem State.takeEntry_wf {e t} (h : Memory.wf s.mem) (ht : s.takeEntry e = some t) : Memory.wf t.mem := by
  have ran (opc : Nat) (sid : Nat) (seq : Nat) (p : List Byte) :
      Memory.wf (State.conclude sid (cmdTag p) opc seq (runCommand sid p (s.accept sid))).tryPublish.mem :=
    State.tryPublish_wf (State.conclude_wf (runCommand_wf (by simp [h])))
  unfold State.takeEntry at ht
  dsimp only at ht
  (repeat' split at ht) <;> cases ht
  all_goals simp [h, ran]

/-! ## The rings (R367, R368) -/

@[simp] theorem State.wakeTranslators_mem : s.wakeTranslators.mem = s.mem := by simp [State.wakeTranslators]
@[simp] theorem State.readOne_wf (h : Memory.wf s.mem) : Memory.wf s.readOne.mem := by
  unfold State.readOne
  dsimp only
  split
  · split
    · exact h
    split
    next s1 e => exact State.putHost_wf (State.takeEntry_wf (by exact h) e)
    · exact h
  · exact h
@[simp] theorem State.readPending_wf (h : Memory.wf s.mem) : Memory.wf s.readPending.mem := by
  unfold State.readPending
  split
  · exact foldl_wf (fun _ _ h => State.readOne_wf h) h
  · exact h
@[simp] theorem State.ignoreWrite_mem : s.ignoreWrite.mem = s.mem := rfl
@[simp] theorem State.initRings_mem (value) : (s.initRings value).mem = s.mem := by
  rw [State.initRings, State.wakeTranslators_mem]
  exact foldl_mem _ (fun _ _ => by simp) _ _
theorem execDoorbellInit_canonical {x} (h : Memory.wf s.mem) : Canonical (execDoorbellInit x s) := by
  unfold execDoorbellInit
  split <;> simp [h]
@[simp] theorem State.moveTail_wf {r value} (h : Memory.wf s.mem) : Memory.wf (s.moveTail r value).mem := by simp [State.moveTail, h]
theorem execDoorbellTail_canonical {x} (h : Memory.wf s.mem) : Canonical (execDoorbellTail x s) := by
  unfold execDoorbellTail
  (repeat' split) <;> simp [h]

/-! ## Responses (R368, R371) -/

@[simp] theorem State.post_wf {r x} (h : Memory.wf s.mem) : Memory.wf (s.post r x).mem := by simp [State.post, h]
theorem execResponsePost_canonical {x} (h : Memory.wf s.mem) : Canonical (execResponsePost x s) := by
  have settled := State.settle_wf h
  unfold execResponsePost
  dsimp only
  split
  · have posted (r x) : Memory.wf (s.settle.post r x).mem := State.post_wf settled
    simp [settled, posted]
  · exact State.readPending_wf settled

/-! ## Starts (R435, R437, R440) -/

@[simp] theorem State.coldStart_wf (h : Memory.wf s.mem) : Memory.wf s.coldStart.mem := filter_wf _ h
@[simp] theorem State.warmStart_wf {selfTest} (h : Memory.wf s.mem) : Memory.wf (s.warmStart selfTest).mem := by
  unfold State.warmStart
  rw [foldl_mem]
  · exact filter_wf _ h
  · intro s t; simp
@[simp] theorem State.reload_wf {i} (h : Memory.wf s.mem) : Memory.wf (s.reload i).mem := by simp [State.reload, h]
theorem execPowerOn_canonical {x} (h : Memory.wf s.mem) : Canonical (execPowerOn x s) := by simp [execPowerOn, h]
theorem execStartCold_canonical {x} (h : Memory.wf s.mem) : Canonical (execStartCold x s) := by
  unfold execStartCold
  split <;> simp [h]
theorem execStartWarm_canonical {x} (h : Memory.wf s.mem) : Canonical (execStartWarm x s) := by
  unfold execStartWarm
  (repeat' split) <;> simp [h]

/-! ## Steps and attempts (R437, R438) -/

theorem execHostPortTraining_canonical {x} (h : Memory.wf s.mem) : Canonical (execHostPortTraining x s) := by simp [execHostPortTraining, h]
@[simp] theorem State.nominal_mem : s.nominal.mem = s.mem := by
  unfold State.nominal
  exact foldl_mem _ (fun _ _ => by simp) _ _
theorem execPowerManagerStart_canonical {x} (h : Memory.wf s.mem) : Canonical (execPowerManagerStart x s) := by
  unfold execPowerManagerStart
  split <;> simp [h]
@[simp] theorem State.clearKeys_mem : s.clearKeys.mem = s.mem := rfl
theorem execTrustTileStart_canonical {x} (h : Memory.wf s.mem) : Canonical (execTrustTileStart x s) := by simp [execTrustTileStart, h]
@[simp] theorem State.zeroUnit_wf {u} (h : Memory.wf s.mem) : Memory.wf (s.zeroUnit u).mem := by simp [State.zeroUnit, h]
@[simp] theorem State.trainUnit_wf {n u x} (h : Memory.wf s.mem) : Memory.wf (s.trainUnit n u x).mem := by
  simp only [State.trainUnit]
  (repeat' split) <;> simp [h]
theorem execHbmStackTraining_canonical {x} (h : Memory.wf s.mem) : Canonical (execHbmStackTraining x s) := by simp [execHbmStackTraining, h]
theorem execLpddrTraining_canonical {x} (h : Memory.wf s.mem) : Canonical (execLpddrTraining x s) := by simp [execLpddrTraining, h]
@[simp] theorem State.mapOut_mem (lcid) : (s.mapOut lcid).mem = s.mem := by
  unfold State.mapOut
  split <;> simp
@[simp] theorem State.dieUp_mem (x) : (s.dieUp x).mem = s.mem := by simp [State.dieUp]
theorem execDieTraining_canonical {x} (h : Memory.wf s.mem) : Canonical (execDieTraining x s) := by simp [execDieTraining, h]
@[simp] theorem State.ownHeap_mem : s.ownHeap.mem = s.mem := rfl
theorem execVarpenStart_canonical {x} (h : Memory.wf s.mem) : Canonical (execVarpenStart x s) := by simp [execVarpenStart, h]

/-! ## Power (R441–R443) -/

@[simp] theorem State.setClock_mem (c n) : (s.setClock c n).mem = s.mem := rfl
@[simp] theorem State.raise_mem (c) : (s.raise c).mem = s.mem := by simp [State.raise]
@[simp] theorem State.lower_mem (c) : (s.lower c).mem = s.mem := by simp [State.lower]
@[simp] theorem State.govern_mem (x) : (s.govern x).mem = s.mem := by
  unfold State.govern
  dsimp only
  split
  · exact foldl_mem _ (fun _ _ => State.lower_mem _) _ _
  · exact foldl_mem _ (fun _ _ => State.raise_mem _) _ _
theorem execRailMeasurement_canonical {x} (h : Memory.wf s.mem) : Canonical (execRailMeasurement x s) := by
  unfold execRailMeasurement
  split
  · refine (canonical_next _).2 ?_
    rw [State.govern_mem]
    dsimp only
    exact foldl_wf (f := fun s c => s.setCluster c { s.getCluster c with power := x.power.getD c 0 }) (fun _ _ h => by simp [h]) h
  · exact h

/-! ## Monitors (R444, R445) -/

theorem execDroop_canonical {x} (h : Memory.wf s.mem) : Canonical (execDroop x s) := by simp [execDroop, h]
@[simp] theorem State.noteHeat_mem (c temp) : (s.noteHeat c temp).mem = s.mem := by simp [State.noteHeat]
@[simp] theorem State.heat_mem (c temp) : (s.heat c temp).mem = s.mem := rfl
theorem execTempThreshold_canonical {x} (h : Memory.wf s.mem) : Canonical (execTempThreshold x s) := by simp [execTempThreshold, h]
theorem execThermalStep_canonical {x} (h : Memory.wf s.mem) : Canonical (execThermalStep x s) := by simp [execThermalStep, h]
@[simp] theorem State.nameTrip_mem : s.nameTrip.mem = s.mem := rfl
@[simp] theorem State.trip_mem : s.trip.mem = s.mem := rfl
theorem execThermalTrip_canonical {x} (h : Memory.wf s.mem) : Canonical (execThermalTrip x s) := by
  unfold execThermalTrip
  split <;> simp [h]

end Sys2Proof.Machine
end

section
/-!
SUPPORT. Every instruction, every event and every step keeps memory canonical (R222, R226).
-/
namespace Sys2Proof.Machine
open Sys2Proof

variable {s : State}

/-! ## Shapes of effect -/

theorem intBin_canonical {f x} (h : Memory.wf s.mem) : Canonical (intBin f x s) := guarded_canonical h fun _ h => by simp [h]
theorem intUn_canonical {f x} (h : Memory.wf s.mem) : Canonical (intUn f x s) := guarded_canonical h fun _ h => by simp [h]
theorem intImm_canonical {f x} (h : Memory.wf s.mem) : Canonical (intImm f x s) := guarded_canonical h fun _ h => by simp [h]
theorem shiftImm_canonical {f x} (h : Memory.wf s.mem) : Canonical (shiftImm f x s) := guarded_canonical h fun _ h => by simp [h]
theorem cmpBin_canonical {f x} (h : Memory.wf s.mem) : Canonical (cmpBin f x s) := guarded_canonical h fun _ h => by simp [h]
theorem cmpImm_canonical {f x} (h : Memory.wf s.mem) : Canonical (cmpImm f x s) := guarded_canonical h fun _ h => by simp [h]
theorem predBin_canonical {f x} (h : Memory.wf s.mem) : Canonical (predBin f x s) := guarded_canonical h fun _ h => by simp [h]

/-! ## CHK (R168, R169) -/

@[simp] theorem checkExtent_canonical {x src need base first n} (h : Memory.wf s.mem) : Canonical (checkExtent x src need base first n s) :=
  by simp [checkExtent, h]

/-! ## BR (R170–R172) -/

@[simp] theorem branchTo_canonical {link t} (h : Memory.wf s.mem) : Canonical (branchTo link t s) := by
  unfold branchTo
  (repeat' split) <;> simp [h]

/-! ## LOOP (R173–R178) -/

@[simp] theorem loopUse_canonical {cause lv} (h : Memory.wf s.mem) : Canonical (loopUse cause lv s) := by simp [loopUse, h]
@[simp] theorem continueAfter_canonical {last} (h : Memory.wf s.mem) : Canonical (continueAfter last s) := by simp [continueAfter, h]
@[simp] theorem enterLoop_canonical {lv len n} (h : Memory.wf s.mem) : Canonical (enterLoop lv len n s) := by
  simp only [enterLoop]
  (repeat' split) <;> simp [h]

/-! ## Every instruction and every event -/

/-- A pass issues its effect. -/
theorem exec_of_passOf {i q f} (hp : passOf i = some (q, f)) : exec i s = vecRun q f s := by
  cases i with
  | vadd _ | vsub _ | vmul _ | vfma _ | vfms _ | vfnma _ | vmin _ | vmax _ | vabs _ | vneg _ | vdiv _ | vsqrt _ | vscl _ | viadd _ | visub _
  | vimul _ | vimulhi _ | vimin _ | vimax _ | vand _ | vor _ | vxor _ | vshl _ | vshr _ | vshra _ | vpopc _ | viadds _ | vcmpeq _ | vcmplt _
  | vcmple _ | vclass _ | vsel _ | wand _ | wor _ | wnot _ | vexp2 _ | vlog2 _ | vrcp _ | vrsq _ | vtanh _ | vsigm _ | vrsum _ | vrmax _
  | vrmin _ | vrdot _ | vscan _ | vmov _ | vbcast _ | vshuf _ | vrot _ | vextr _ | vinsr _ | vcompress _ | vexpand _ | vcswap _ | vmatch _
  | vcvt _ | vquant _ | vdeq _ | vpack _ | vunpack _ =>
    cases hp
    rfl
  | _ => cases hp
theorem pass_canonical {i q f} (hp : passOf i = some (q, f)) (h : Memory.wf s.mem) : Canonical (exec i s) := by
  rw [exec_of_passOf hp]
  exact vecRun_canonical h fun _ h => passOf_canonical hp h
/-- Every instruction and every event keeps memory canonical. -/
theorem exec_canonical (i : Instr) (h : Memory.wf s.mem) : Canonical (exec i s) := by
  cases hp : passOf i with
  | some y => exact pass_canonical hp h
  | none =>
    unfold exec
    cases i with
    | add _ | subG _ | mul _ | mulhi _ | mulhn _ | div _ | divn _ | remS _ | remn _ | andG _ | orG _ | xorG _ | andn _ | orn _ | shl _ | shr _
    | shra _ | rotl _ | rotr _ | minS _ | minn _ | maxS _ | maxn _ =>
      exact intBin_canonical h
    | clz _ | ctz _ | popc _ | brev _ | bswap _ =>
      exact intUn_canonical h
    | addi _ | muli _ | andi _ | ori _ | xori _ | mini _ | maxi _ =>
      exact intImm_canonical h
    | shli _ | shri _ | shrai _ | rotli _ =>
      exact shiftImm_canonical h
    | li _ | lih _ | tbit _ | pmov _ | extS _ | extn _ | ins _ | sel _ | ptog _ | gtop _ | aadd _ | aaddi _ | amov _ | afrom _ | atog _ | afmt _
    | adiff _ | acmplt _ | bchk _ | bchki _ | br _ | brl _ | jr _ | jrl _ | lbrk _ | scfg _ | sdim _ | son _ | soff _ | swait _ | repw _ | fencee _
    | kflush _ | xmark _ | xwait _ | xpeer _ | tyield _ | thint _ | wfe _ | wfed _ | sev _ | gtime _ | srr _ | srw _ | trapI _ | tret _ | nop _
    | brk _ | mzero _ | mverd _ | mstat _ =>
      exact guarded_canonical h fun _ h => by simp [h]
    | cmpeq _ | cmpne _ | cmplt _ | cmple _ | cmpltn _ | cmplen _ =>
      exact cmpBin_canonical h
    | cmpeqi _ | cmplti _ =>
      exact cmpImm_canonical h
    | pand _ | por _ | pxor _ | pandn _ =>
      exact predBin_canonical h
    | loop _ | loopi _ =>
      exact enterLoop_canonical h
    | vadd _ | vsub _ | vmul _ | vfma _ | vfms _ | vfnma _ | vmin _ | vmax _ | vabs _ | vneg _ | vdiv _ | vsqrt _ | vscl _ | viadd _ | visub _
    | vimul _ | vimulhi _ | vimin _ | vimax _ | vand _ | vor _ | vxor _ | vshl _ | vshr _ | vshra _ | vpopc _ | viadds _ | vcmpeq _ | vcmplt _
    | vcmple _ | vclass _ | vsel _ | wand _ | wor _ | wnot _ | vexp2 _ | vlog2 _ | vrcp _ | vrsq _ | vtanh _ | vsigm _ | vrsum _ | vrmax _
    | vrmin _ | vrdot _ | vscan _ | vmov _ | vbcast _ | vshuf _ | vrot _ | vextr _ | vinsr _ | vcompress _ | vexpand _ | vcswap _ | vmatch _
    | vcvt _ | vquant _ | vdeq _ | vpack _ | vunpack _ =>
      cases hp
    | vld _ => exact execVld_canonical h
    | vst _ => exact execVst_canonical h
    | vlds _ => exact execVlds_canonical h
    | vsts _ => exact execVsts_canonical h
    | vgath _ => exact execVgath_canonical h
    | vscat _ => exact execVscat_canonical h
    | vldk _ => exact execVldk_canonical h
    | rep _ => exact execRep_canonical h
    | repeatPassIssue _ => exact execRepeatPassIssue_canonical h
    | ld _ => exact execLd_canonical h
    | st _ => exact execSt_canonical h
    | lds _ => exact execLds_canonical h
    | feset _ | feclr _ =>
      exact fullStep_canonical h
    | fepoll _ => exact execFepoll_canonical h
    | amoadd _ | amoand _ | amoor _ | amoxor _ | amomin _ | amomax _ | amominn _ | amomaxn _ | amoswp _ | amocas _ | amofadd _ | amoinc _ =>
      exact amo_canonical h
    | fence _ => exact execFence_canonical h
    | qpush _ => exact execQpush_canonical h
    | qpop _ | qpopw _ =>
      exact popStep_canonical h
    | qtry _ => exact execQtry_canonical h
    | qcnt _ => exact execQcnt_canonical h
    | ksend _ => exact execKsend_canonical h
    | kcfg _ => exact execKcfg_canonical h
    | cpy _ => exact execCpy_canonical h
    | cpy2 _ => exact execCpy2_canonical h
    | cpyw _ => exact execCpyw_canonical h
    | estat _ | cstat _ =>
      exact readStatus_canonical h
    | ewait _ | cwait _ =>
      exact awaitStatus_canonical h
    | coll _ => exact execColl_canonical h
    | wld _ => exact execWld_canonical h
    | iwin _ => exact execIwin_canonical h
    | tspawn _ => exact execTspawn_canonical h
    | tdec _ => exact execTdec_canonical h
    | tend _ => exact execTend_canonical h
    | stageTend _ => exact execStageTend_canonical h
    | bar _ => exact execBar_canonical h
    | barw _ => exact execBarw_canonical h
    | sstep _ => exact execSstep_canonical h
    | rcfg _ => exact execRcfg_canonical h
    | rtol _ => exact execRtol_canonical h
    | rget _ => exact execRget_canonical h
    | radv _ => exact execRadv_canonical h
    | rwait _ => exact execRwait_canonical h
    | rquant _ => exact execRquant_canonical h
    | rfill _ | rfillw _ =>
      exact rawFill_canonical h
    | fillPublish _ => exact execFillPublish_canonical h
    | mma _ => exact execMma_canonical h
    | mmaf _ => exact execMmaf_canonical h
    | msr _ => exact execMsr_canonical h
    | mdrain _ => exact execMdrain_canonical h
    | mload _ => exact execMload_canonical h
    | anchorRefetch _ => exact execAnchorRefetch_canonical h
    | mmaCommit _ => exact execMmaCommit_canonical h
    | loadStep _ => exact execLoadStep_canonical h
    | storeStep _ => exact execStoreStep_canonical h
    | ackStep _ => exact execAckStep_canonical h
    | queuePushStep _ => exact execQueuePushStep_canonical h
    | qpushResend _ => exact execQpushResend_canonical h
    | queuePopStep _ => exact execQueuePopStep_canonical h
    | sevSet _ => exact execSevSet_canonical h
    | ksendDelivery _ => exact execKsendDelivery_canonical h
    | engineRead _ => exact execEngineRead_canonical h
    | engineWrite _ => exact execEngineWrite_canonical h
    | engineDone _ => exact execEngineDone_canonical h
    | engineFault _ => exact execEngineFault_canonical h
    | gateArrive _ => exact execGateArrive_canonical h
    | gateDepart _ => exact execGateDepart_canonical h
    | barrierComplete _ => exact execBarrierComplete_canonical h
    | barwTimeout _ => exact execBarwTimeout_canonical h
    | wfedTimeout _ => exact execWfedTimeout_canonical h
    | xwaitTimeout _ => exact execXwaitTimeout_canonical h
    | drainMarker _ => exact execDrainMarker_canonical h
    | yieldTimeout _ => exact execYieldTimeout_canonical h
    | continuationReady _ => exact execContinuationReady_canonical h
    | dispatch _ => exact execDispatch_canonical h
    | continuationMigrate _ => exact execContinuationMigrate_canonical h
    | migrationReturn _ => exact execMigrationReturn_canonical h
    | pcntDecrement _ => exact execPcntDecrement_canonical h
    | launchEntryArrival _ => exact execLaunchEntryArrival_canonical h
    | stageStart _ => exact execStageStart_canonical h
    | cloadRefresh _ => exact execCloadRefresh_canonical h
    | sliceBoundary _ => exact execSliceBoundary_canonical h
    | solsticeStop _ => exact execSolsticeStop_canonical h
    | contextSave _ => exact execContextSave_canonical h
    | restore _ => exact execRestore_canonical h
    | vigilExpiry _ => exact execVigilExpiry_canonical h
    | intercalaryWindowEnd _ => exact execIntercalaryWindowEnd_canonical h
    | translationPublish _ => exact execTranslationPublish_canonical h
    | retranslation _ => exact execRetranslation_canonical h
    | counterCopy _ => exact execCounterCopy_canonical h
    | counterRelease _ => exact execCounterRelease_canonical h
    | doorbellInit _ => exact execDoorbellInit_canonical h
    | doorbellTail _ => exact execDoorbellTail_canonical h
    | responsePost _ => exact execResponsePost_canonical h
    | getVersion _ | getCapabilities _ | negotiateAlgorithms _ | getDigests _ | getCertificate _ | challenge _ | getMeasurements _ =>
      exact spdmMessage_canonical h
    | keyExchange _ | finish _ =>
      exact spdmOpening_canonical h
    | keyUpdate _ => exact execKeyUpdate_canonical h
    | heartbeat _ | endSession _ =>
      exact spdmInSession_canonical h
    | admitObject _ | createTenant _ | setExtents _ | launchTeam _ | stopTeamResume _ | setCalendar _ | readCounters _ | readFaults _ | lock _
    | attest _ | migrateInOffer _ | migrateOutClose _ | migrateOutAbort _ | migrateInAbort _ =>
      exact hostCommand_canonical h fun _ h => by simp [h]
    | unloadObject _ => exact execUnloadObject_canonical h
    | unloadObjectForced _ => exact execUnloadObjectForced_canonical h
    | revokeExtent _ => exact execRevokeExtent_canonical h
    | moveExtent _ => exact execMoveExtent_canonical h
    | stopTeam _ => exact execStopTeam_canonical h
    | resetTenant _ => exact execResetTenant_canonical h
    | granuleZeroed _ => exact execGranuleZeroed_canonical h
    | unlock _ => exact execUnlock_canonical h
    | migrateOutSend _ => exact execMigrateOutSend_canonical h
    | migrateInImport _ => exact execMigrateInImport_canonical h
    | migrateOutCommit _ => exact execMigrateOutCommit_canonical h
    | migrateInConfirm _ => exact execMigrateInConfirm_canonical h
    | migrateInResume _ => exact execMigrateInResume_canonical h
    | migrateInEscrow _ => exact execMigrateInEscrow_canonical h
    | fabricConfig _ => exact execFabricConfig_canonical h
    | laneLock _ => exact execLaneLock_canonical h
    | laneLockTimeout _ => exact execLaneLockTimeout_canonical h
    | portHandshake _ => exact execPortHandshake_canonical h
    | fabricFlitReceive _ => exact execFabricFlitReceive_canonical h
    | fecReplay _ => exact execFecReplay_canonical h
    | allowanceReturn _ => exact execAllowanceReturn_canonical h
    | timestampExchange _ => exact execTimestampExchange_canonical h
    | powerOn _ => exact execPowerOn_canonical h
    | startCold _ => exact execStartCold_canonical h
    | startWarm _ => exact execStartWarm_canonical h
    | hostPortTraining _ => exact execHostPortTraining_canonical h
    | powerManagerStart _ => exact execPowerManagerStart_canonical h
    | trustTileStart _ => exact execTrustTileStart_canonical h
    | hbmStackTraining _ => exact execHbmStackTraining_canonical h
    | lpddrTraining _ => exact execLpddrTraining_canonical h
    | dieTraining _ => exact execDieTraining_canonical h
    | varpenStart _ => exact execVarpenStart_canonical h
    | railMeasurement _ => exact execRailMeasurement_canonical h
    | droop _ => exact execDroop_canonical h
    | tempThreshold _ => exact execTempThreshold_canonical h
    | thermalStep _ => exact execThermalStep_canonical h
    | thermalTrip _ => exact execThermalTrip_canonical h
    | migrationArrival _ => exact execMigrationArrival_canonical h

/-! ## A step -/

theorem issue_canonical (h : Memory.wf s.mem) : Canonical (issue s) := by
  unfold issue
  (repeat' split) <;> simp [h, exec_canonical]
theorem move_canonical (h : Memory.wf s.mem) : Canonical (move s) := by
  unfold move
  split
  · exact issue_canonical h
  · exact issue_canonical (by simpa using h)
  · split
    · exact exec_canonical _ h
    · exact h
/-- Settles O6: each instruction, event and unit writes memory through `memPut`, `dropCells` or a filter, and each of these keeps the canonical
form. -/
theorem stepKeepsMemory : Obligations.StepKeepsMemory := by
  unfold Obligations.StepKeepsMemory
  intro s t h ht
  have moved := move_canonical (s := s) h
  unfold step at ht
  split at ht
  next u hu =>
    cases ht
    simpa [State.memOk] using wf_of_next moved hu
  all_goals cases ht

end Sys2Proof.Machine
end

section
/-!
SUPPORT. LOAD and acknowledgement steps (R220, R364), and fences (R225, R250, R251, R257).
-/
namespace Sys2Proof.Machine
open Sys2Proof

variable {s : State}

/-! ## A stopped context (R364) -/

theorem State.getCore_stopCore (p q : ProcId) :
    (s.stopCore p).getCore q = if q = p then { s.getCore p with running := false } else s.getCore q :=
  State.getCore_setCore _ _ _ _
/-- Of the core that a mark reaches, only that it runs changes. -/
theorem State.getCore_stopContext_same (p : ProcId) : (s.stopContext p).getCore p = { s.getCore p with running := false } := by
  cases p <;> simp [State.stopContext, State.getCore_stopCore]
/-- A mark on either core of a tile stops both. -/
theorem State.running_stopContext_of_tile {p : ProcId} {n : Nat} (hp : p = .main n ∨ p = .stage n) :
    ((s.stopContext p).getCore (.main n)).running = false ∧ ((s.stopContext p).getCore (.stage n)).running = false := by
  rcases hp with rfl | rfl <;> simp [State.stopContext, State.getCore_stopCore]

/-! ## LOAD and ACK (R220) -/

/-- LOAD of a piece that nothing holds back and that meets no fault reads its bytes (R220). -/
theorem loadPiece_eq {p : ProcId} {k : Nat} {l : Load} {q : LoadPart} (hl : (s.getCore p).load = some l) (hq : l.parts[k]? = some q)
    (unread : q.bytes = none) (free : s.partHeld p l k q = false) (way : s.messageOpen (paidPiece l.parts q) q.addr = true)
    (window : s.inWindow q.addr = false) (sound : s.readFault p q.addr q.len = none) :
    s.loadPiece p k = (s.payPiece l.parts q).setCore p { s.getCore p with
      load := some { l with parts := setAt l.parts k { q with bytes := some (s.bytesFor p q.addr q.len) } } } := by
  simp [State.loadPiece, hl, hq, unread, free, way, window, sound]
theorem execAckStep_marked {p : ProcId} {i : Nat} {a : Access} (ha : (s.getCore p).pend[i]? = some a) (performed : a.performed = true)
    (mark : a.marked = true) : exec (.ackStep ⟨p, i⟩) s = .next (s.stopContext p) := by
  show execAckStep ⟨p, i⟩ s = _
  simp [execAckStep, ha, performed, mark]
theorem execAckStep_unmarked {p : ProcId} {i : Nat} {a : Access} (ha : (s.getCore p).pend[i]? = some a) (performed : a.performed = true)
    (mark : a.marked = false) :
    exec (.ackStep ⟨p, i⟩) s = .next ((s.setCore p { s.getCore p with pend := dropAt (s.getCore p).pend i }).progressOf p) := by
  show execAckStep ⟨p, i⟩ s = _
  simp [execAckStep, ha, performed, mark]

/-- Settles O27: the LOAD step by `loadPiece_eq`, the acknowledgement by its two cases. -/
theorem loadAndAckSteps : Obligations.LoadAndAckSteps := by
  unfold Obligations.LoadAndAckSteps
  refine ⟨?_, ?_, ?_⟩
  · intro s p k l q hl hq unread free way window sound
    exact ⟨s.loadPiece p k, rfl, by simp [loadPiece_eq hl hq unread free way window sound]⟩
  · intro s p i a ha performed mark
    exact execAckStep_unmarked ha performed mark
  · intro s p i a ha performed mark
    refine ⟨s.stopContext p, execAckStep_marked ha performed mark, ?_, ?_, State.stopContext_mem _,
      fun n hp => State.running_stopContext_of_tile hp⟩
    all_goals rw [State.getCore_stopContext_same]

/-! ## What a fence reports (R251) -/

theorem reported_of_none {sc : Scope} {peer : Bool} (h : s.report sc peer = none) : reported sc peer s = .next (s.done 8) := by
  rw [reported, h]
  exact complete_eq 8 s
/-- The engine record comes first. -/
theorem reported_of_engRec {sc : Scope} {peer : Bool} {r : EngRec} (h : s.core.engRec = some r) :
    reported sc peer s = trapAfter r.code r.detail true true 8 { s with core := { s.core with engRec := none } } := by
  simp [reported, State.report, h]

/-! ## Waiting on a machine that is not eager -/

theorem State.fenceStep_lazy (lazy : s.eager = false) : s.fenceStep = s := by
  simp [State.fenceStep, State.settledAcks_lazy lazy, State.settledMarkers, lazy]
theorem fenced_of_fenceDone {sc : Scope} {k : State → Out} (done : s.fenceDone sc = true) : fenced sc s k = k s := by
  simp [fenced, done]
theorem fenced_lazy {sc : Scope} {k : State → Out} (lazy : s.eager = false) (left : s.fenceDone sc = false) :
    fenced sc s k = .next (s.waits .other 0) := by
  simp [fenced, left, State.fenceStep_lazy lazy, stay_eq]

/-! ## The three fences -/

section
variable {x : OpFence} (pass : s.guard x.q = true)
include pass
theorem execFence_of_fenceDone (done : s.fenceDone x.sco = true) :
    execFence x s = reported x.sco (x.sco == .fabric || x.sco == .system) s := by
  rw [execFence, guarded_pass _ pass, fenced_of_fenceDone done]
theorem execFence_waits (lazy : s.eager = false) (left : s.fenceDone x.sco = false) : execFence x s = .next (s.waits .other 0) := by
  rw [execFence, guarded_pass _ pass, fenced_lazy lazy left]
theorem execFencee_of_cmdsDone (done : s.cmdsDone x.sco = true) : execFencee x s = reported x.sco false s := by
  rw [execFencee, guarded_pass _ pass]
  simp [done]
theorem execFencee_waits (lazy : s.eager = false) (left : s.cmdsDone x.sco = false) : execFencee x s = .next (s.waits .other 0) := by
  rw [execFencee, guarded_pass _ pass]
  simp [lazy, left, stay_eq]
end
section
variable {x : OpN} (pass : s.guard x.q = true)
include pass
theorem execKflush_of_allAcked (acked : s.allAcked s.cur Access.isKsend = true) : execKflush x s = .next (s.done 8) := by
  rw [execKflush, guarded_pass _ pass]
  simp [acked, complete_eq]
theorem execKflush_waits (lazy : s.eager = false) (left : s.allAcked s.cur Access.isKsend = false) :
    execKflush x s = .next (s.waits .kflush 0) := by
  rw [execKflush, guarded_pass _ pass]
  simp [left, State.settledAcks_lazy lazy, stay_eq]
end

/-- Settles O31: a fence whose accesses are gone ends as `State.report` says; one that must wait changes its wait alone. -/
theorem fences : Obligations.Fences := by
  unfold Obligations.Fences
  refine ⟨fun x s pass => ⟨?_, ?_, ?_, ?_, ?_⟩, fun x s pass => ⟨?_, ?_⟩⟩
  · exact fun done clear => (execFence_of_fenceDone pass done).trans (reported_of_none clear)
  · exact execFence_waits pass
  · exact fun done clear => (execFencee_of_cmdsDone pass done).trans (reported_of_none clear)
  · exact execFencee_waits pass
  · exact fun done r held => (execFence_of_fenceDone pass done).trans (reported_of_engRec held)
  · exact execKflush_of_allAcked pass
  · exact execKflush_waits pass

end Sys2Proof.Machine
end

section
/-!
SUPPORT. The steps of an engine (R230, R231, R261, R361, R393, R423).
-/
namespace Sys2Proof.Machine
open Sys2Proof

variable {s : State} {p : ProcId} {h : BitVec 16} {c d : Cmd} {u : Span} {k : Nat}

/-! ## Commands by handle (R262) -/

theorem State.handle_of_findCmd (found : s.findCmd p h = some c) : c.handle = h := by
  simpa using List.find?_some found
theorem State.findCmd_of_cmds {t : State} (same : (t.getCore p).cmds = (s.getCore p).cmds) : t.findCmd p h = s.findCmd p h := by
  rw [State.findCmd, State.findCmd, same]
theorem State.getCore_putCmd : (s.putCmd p d).getCore p = (s.getCore p).putCmd d := State.getCore_setCore_same _ _ _
/-- A command replaced under its handle is found there. -/
theorem State.findCmd_putCmd (found : s.findCmd p h = some c) (same : d.handle = h) : (s.putCmd p d).findCmd p h = some d := by
  subst same
  rw [State.findCmd, State.getCore_putCmd, Core.putCmd]
  rw [State.findCmd] at found
  generalize (s.getCore p).cmds = l at found
  induction l with
  | nil => cases found
  | cons e r ih =>
    by_cases he : e.handle = d.handle
    · simp [he]
    · simpa [he] using ih (by simpa [he] using found)

/-! ## What the parts of a step leave of a processor -/

theorem State.getCore_spend (a : Nat) : (s.spend a).getCore p = s.getCore p := by
  rw [spend_eq]
  rfl
theorem State.getCore_sendTo (m tag : Nat) (x : Cargo) (bytes : List Byte) : (s.sendTo m tag x bytes).getCore p = s.getCore p := by
  unfold State.sendTo State.spendTo
  dsimp only
  split <;> rfl
theorem State.getCore_teamProgress (n : Nat) (b : Bool) : (s.teamProgress n b).getCore p = s.getCore p := by
  unfold State.teamProgress
  split <;> rfl
theorem State.getCore_progressOf (q : ProcId) : (s.progressOf q).getCore p = s.getCore p := by
  cases q <;> simp [State.progressOf, State.getCore_teamProgress]
/-- An event sets the latch of a core at most (R63). -/
theorem State.event_core {α : Type} (f : Core → α) (latch : ∀ x n, f (Core.latched x n) = f x) (l n : Nat) :
    f ((s.event l n).getCore p) = f (s.getCore p) := by
  unfold State.event
  dsimp only
  split
  · rw [State.getCore_setCore]
    split
    next e => rw [latch, e]
    · rfl
  · rfl
theorem State.eventStage_core {α : Type} (f : Core → α) (latch : ∀ x n, f (Core.latched x n) = f x) (l n : Nat) :
    f ((s.eventStage l n).getCore p) = f (s.getCore p) := by
  unfold State.eventStage
  dsimp only
  split
  · rw [State.getCore_setCore]
    split
    next e => rw [latch, e]
    · rfl
  · rfl
theorem State.fullSet_core {α : Type} (f : Core → α) (latch : ∀ x n, f (Core.latched x n) = f x) (a : Nat) :
    f ((s.fullSet a).getCore p) = f (s.getCore p) := by
  unfold State.fullSet
  split
  · dsimp only
    split
    · split
      · rw [State.eventStage_core f latch, State.event_core f latch]
        rfl
      · rfl
    · rfl
  · rfl
theorem Core.latched_cmds (x : Core) (n : Nat) : (x.latched n).cmds = x.cmds := by
  unfold Core.latched
  split <;> rfl
theorem Core.latched_memerrRec (x : Core) (n : Nat) : (x.latched n).memerrRec = x.memerrRec := by
  unfold Core.latched
  split <;> rfl

/-! ## Full bits (R232) -/

theorem mem_setIn (l : List Nat) (a : Nat) : a ∈ setIn l a := by
  induction l with
  | nil => simp [setIn]
  | cons b r ih =>
    unfold setIn
    split_ifs with below same
    · simp
    · simp [same]
    · simp [ih]
@[simp] theorem State.event_full (l n : Nat) : (s.event l n).full = s.full := by
  unfold State.event
  dsimp only
  split <;> simp
@[simp] theorem State.eventStage_full (l n : Nat) : (s.eventStage l n).full = s.full := by
  unfold State.eventStage
  dsimp only
  split <;> simp
theorem State.fullSet_full {a : Nat} (scratch : (s.region a).isScratch = true) : (s.fullSet a).full = setIn s.full (a / 8) := by
  unfold State.fullSet
  split
  · dsimp only
    split
    · split <;> simp
    · rfl
  next other =>
    cases hr : s.region a <;> simp_all [Region.isScratch]

/-! ## ENGINE_READ -/

/-- The read of a piece that nothing holds back and that meets no fault. -/
theorem State.engineRead_eq {q : Span} (found : s.findCmd p h = some c) (pending : c.status = .pending) (open_ : s.engineOpen p = true)
    (piece : c.pieces[k]? = some q) (unread : k ∉ c.reads) (free : s.cmdHeld p c = false)
    (way : s.messageOpen (Cmd.paid c.reads c.pieces q) q.addr = true) (window : s.inWindow q.addr = false)
    (sound : s.readFault p q.addr q.len = none) :
    s.engineRead p h k = (if Cmd.paid c.reads c.pieces q then s else s.spend q.addr).putCmd p
      { c with reads := k :: c.reads, buf := memPut c.buf (cellsAt q.off (s.bytesFor p q.addr q.len)) } := by
  simp [State.engineRead, found, pending, open_, piece, unread, free, way, window, sound]

/-! ## ENGINE_DONE and ENGINE_FAULT -/

section
variable {src dst len rows : Nat} {ss ds : Int} (copy : c.work = .copy src dst len rows ss ds)
include copy
theorem execEngineRead_of_copy (found : s.findCmd p h = some c) : execEngineRead ⟨p, h, k⟩ s = .next (s.engineRead p h k) := by
  simp [execEngineRead, found, copy]
theorem State.engineDone_eq (found : s.findCmd p h = some c) (pending : c.status = .pending) (open_ : s.engineOpen p = true)
    (written : c.allWritten = true) (read : c.allRead = true) (acked : s.unitsAcked p h = true) :
    ∃ n, s.engineDone p h =
      ((s.putCmd p { c with status := .done, csat := min 0xFFFF n, buf := [] }).countOf p 3 7 n).progressOf p := by
  refine ⟨(s.collOutput p c).2, ?_⟩
  simp [State.engineDone, found, pending, open_, written, read, acked, State.mayRun, State.peersRead, State.peersWritten,
    State.releaseColl, CmdWork.isColl, copy]
theorem State.faultCmd_eq {code : BitVec 8} {a : Nat} (other : code ≠ codeEngext) :
    s.faultCmd p c code a = ((s.putCmd p { c with status := .faulted code (engineDetail c.handle a), buf := [] }).engineFaulted p
      ⟨c.handle, code, engineDetail c.handle a⟩).progressOf p := by
  simp [State.faultCmd, other, State.unspecified, State.releaseColl, CmdWork.isColl, copy]
theorem State.engineFault_eq {code : BitVec 8} {a : Nat} (found : s.findCmd p h = some c) (pending : c.status = .pending)
    (open_ : s.engineOpen p = true) (met : (s.cmdFaults p c).contains (code, a) = true) (held : code ≠ codeBackstop) (other : code ≠ codeEngext) :
    s.engineFault p h code a = ((s.putCmd p { c with status := .faulted code (engineDetail c.handle a), buf := [] }).engineFaulted p
      ⟨c.handle, code, engineDetail c.handle a⟩).progressOf p := by
  have member : (code, a) ∈ s.cmdFaults p c := by simpa using met
  rw [← State.faultCmd_eq copy other]
  simp [State.engineFault, found, pending, open_, member, held]
end
/-- An empty engine record takes the fault (R251). -/
theorem State.engineFaulted_of_none {r : EngRec} (first : (s.getCore p).engRec = none) :
    s.engineFaulted p r = s.setCore p { s.getCore p with engRec := some r } := by
  simp [State.engineFaulted, first]

/-- A copy reads a piece (R230). -/
theorem execEngineRead_step {src dst len rows : Nat} {ss ds : Int} (copy : c.work = .copy src dst len rows ss ds) {q : Span}
    (found : s.findCmd p h = some c) (pending : c.status = .pending) (open_ : s.engineOpen p = true)
    (piece : c.pieces[k]? = some q) (unread : k ∉ c.reads) (free : s.cmdHeld p c = false)
    (way : s.messageOpen (Cmd.paid c.reads c.pieces q) q.addr = true) (window : s.inWindow q.addr = false)
    (sound : s.readFault p q.addr q.len = none) :
    ∃ t d, execEngineRead ⟨p, h, k⟩ s = .next t ∧ t.mem = s.mem ∧ t.findCmd p h = some d ∧ d.reads = k :: c.reads ∧
      d.buf = memPut c.buf (cellsAt q.off (s.bytesFor p q.addr q.len)) := by
  have core (b : Bool) : ((if b then s else s.spend q.addr).getCore p) = s.getCore p := by
    cases b
    · exact State.getCore_spend _
    · rfl
  refine ⟨s.engineRead p h k, { c with reads := k :: c.reads, buf := memPut c.buf (cellsAt q.off (s.bytesFor p q.addr q.len)) },
    execEngineRead_of_copy copy found, State.engineRead_mem _ _ _, ?_, rfl, rfl⟩
  rw [State.engineRead_eq found pending open_ piece unread free way window sound]
  exact State.findCmd_putCmd ((State.findCmd_of_cmds (by rw [core])).trans found) (State.handle_of_findCmd (c := c) found)
/-- A copy ends (R231). -/
theorem execEngineDone_of_copy {src dst len rows : Nat} {ss ds : Int} (copy : c.work = .copy src dst len rows ss ds)
    (found : s.findCmd p h = some c) (pending : c.status = .pending) (open_ : s.engineOpen p = true)
    (written : c.allWritten = true) (read : c.allRead = true) (acked : s.unitsAcked p h = true) :
    ∃ t d, execEngineDone ⟨p, h⟩ s = .next t ∧ t.mem = s.mem ∧ t.findCmd p h = some d ∧ d.status = .done := by
  obtain ⟨n, e⟩ := State.engineDone_eq copy found pending open_ written read acked
  refine ⟨s.engineDone p h, { c with status := .done, csat := min 0xFFFF n, buf := [] }, rfl, State.engineDone_mem _ _, ?_, rfl⟩
  rw [e, State.findCmd_of_cmds (s := s.putCmd p { c with status := .done, csat := min 0xFFFF n, buf := [] })]
  · exact State.findCmd_putCmd found (d := { c with status := .done, csat := min 0xFFFF n, buf := [] }) (State.handle_of_findCmd (c := c) found)
  · rw [State.getCore_progressOf, (Recounted.countOf _ _ _ _ _).getCore]
/-- A copy faults with an address (R231, R263). -/
theorem execEngineFault_of_copy {src dst len rows : Nat} {ss ds : Int} (copy : c.work = .copy src dst len rows ss ds)
    {code : BitVec 8} {a : Nat} (found : s.findCmd p h = some c) (pending : c.status = .pending)
    (open_ : s.engineOpen p = true) (met : (s.cmdFaults p c).contains (code, a) = true) (held : code ≠ codeBackstop) (other : code ≠ codeEngext)
    (first : (s.getCore p).engRec = none) :
    ∃ t d, execEngineFault ⟨p, h, code, a⟩ s = .next t ∧ t.mem = s.mem ∧ t.findCmd p h = some d ∧
      d.status = .faulted code (engineDetail h a) ∧ (t.getCore p).engRec = some ⟨h, code, engineDetail h a⟩ := by
  obtain rfl := State.handle_of_findCmd found
  have e := State.engineFault_eq copy found pending open_ met held other
  rw [State.engineFaulted_of_none (by rw [State.getCore_putCmd]; exact first)] at e
  refine ⟨s.engineFault p c.handle code a, { c with status := .faulted code (engineDetail c.handle a), buf := [] }, rfl, ?_, ?_, rfl, ?_⟩
  · rw [e]
    simp
  · rw [e, State.findCmd_of_cmds (s := s.putCmd p { c with status := .faulted code (engineDetail c.handle a), buf := [] })]
    · exact State.findCmd_putCmd found rfl
    · rw [State.getCore_progressOf, State.getCore_setCore_same]
  · rw [e, State.getCore_progressOf, State.getCore_setCore_same]

/-! ## The parts of a unit (R230, R261) -/

theorem addr_div_of_mem_chunks {a n b : Nat} {q : Nat × Nat} (hq : q ∈ chunks 8 a n)
    (low : q.1 ≤ b) (high : b < q.1 + q.2) : b / 8 = q.1 / 8 := by
  unfold chunks at hq
  split at hq
  · simp at hq
  · obtain ⟨i, -, rfl⟩ := List.mem_map.1 hq
    dsimp only at low high ⊢
    omega
theorem exists_chunk_of_mem_spansOf {n o : Nat} {l : List (Nat × Nat)} {x : Span} (hx : x ∈ spansOf n o l) :
    ∃ r ∈ l, (x.addr, x.len) ∈ chunks n r.1 r.2 := by
  induction l generalizing o with
  | nil => simp [spansOf] at hx
  | cons r l ih =>
    rcases List.mem_append.1 hx with hx | hx
    · obtain ⟨q, hq, rfl⟩ := List.mem_map.1 hx
      exact ⟨r, List.mem_cons_self, hq⟩
    · obtain ⟨r', hr, hq⟩ := ih hx
      exact ⟨r', List.mem_cons_of_mem _ hr, hq⟩
/-- Every byte of a part lies in the unit of its group. -/
theorem Cmd.addr_div_of_mem_group {v : Span × Nat} {b : Nat} (hv : v ∈ c.group u) (low : v.1.addr ≤ b) (high : b < v.1.addr + v.1.len) :
    b / 8 = u.addr / 8 := by
  obtain ⟨unit, same⟩ := List.mem_filter.1 hv
  obtain ⟨r, -, hq⟩ := exists_chunk_of_mem_spansOf (List.fst_mem_of_mem_zipIdx unit)
  rw [addr_div_of_mem_chunks hq low high]
  simpa using same

/-! ## The cells of a copy's unit (R261) -/

/-- The bytes that the rows of a copy have for a unit. -/
def Cmd.groupCells (c : Cmd) (u : Span) : List Host.Cell := (c.group u).flatMap (fun v => cellsAt v.1.addr (memBytes c.buf v.1.off v.1.len))
/-- A cell holds the byte of one of the parts at its address. -/
theorem mem_memBytes {m : List Host.Cell} {a n j : Nat} {x : Byte} : (memBytes m a n)[j]? = some x ↔ j < n ∧ x = memGet m (a + j) := by
  by_cases hj : j < n <;> simp [memBytes, hj, eq_comm]
theorem Cmd.mem_groupCells {x : Host.Cell} : x ∈ c.groupCells u ↔
    ∃ v ∈ c.group u, v.1.addr ≤ x.1 ∧ x.1 < v.1.addr + v.1.len ∧ x.2 = memGet c.buf (v.1.off + (x.1 - v.1.addr)) := by
  simp only [Cmd.groupCells, List.mem_flatMap, mem_cellsAt, mem_memBytes]
  refine exists_congr fun v => and_congr_right fun _ => ?_
  constructor
  · rintro ⟨j, ⟨below, byte⟩, at_⟩
    have offset : x.1 - v.1.addr = j := by omega
    exact ⟨by omega, by omega, by rw [offset, byte]⟩
  · rintro ⟨low, high, byte⟩
    exact ⟨x.1 - v.1.addr, ⟨by omega, byte⟩, by omega⟩
theorem mem_of_overlapped {n a : Nat} {l : List Host.Cell} {x : Host.Cell} (hx : overlapped n a l = some x) : x ∈ l := by
  match l with
  | [] => cases hx
  | [y] => exact List.mem_of_mem_head? hx
  | y :: z :: r =>
    have below : Config.overlap n a % (r.length + 2) < (y :: z :: r).length := Nat.mod_lt _ (Nat.succ_pos _)
    obtain rfl : (y :: z :: r).getD (Config.overlap n a % (r.length + 2)) y = x := Option.some.inj hx
    rw [List.getD_eq_getElem _ _ below]
    exact List.getElem_mem below
theorem exists_overlapped {n a : Nat} {l : List Host.Cell} {x : Host.Cell} (hx : x ∈ l) : ∃ y, overlapped n a l = some y := by
  match l with
  | [y] => exact ⟨y, rfl⟩
  | y :: z :: r => exact ⟨_, rfl⟩
/-- The cells that a copy's unit takes: at each address of the unit one of those that its rows have there. -/
theorem State.mem_unitCells_of_copy {src dst len rows : Nat} {ss ds : Int} (copy : c.work = .copy src dst len rows ss ds) {x : Host.Cell} :
    x ∈ s.unitCells p c u ↔ x.1 / 8 = u.addr / 8 ∧ overlapped c.seq x.1 ((c.groupCells u).filter (fun y => y.1 == x.1)) = some x := by
  have output (v : Span × Nat) : s.cmdOutput p c v.1.off v.1.len = memBytes c.buf v.1.off v.1.len := by simp [State.cmdOutput, copy]
  simp only [State.unitCells, output, List.mem_filterMap, List.mem_range]
  constructor
  · rintro ⟨i, hi, hx⟩
    obtain ⟨-, at_⟩ := List.mem_filter.1 (mem_of_overlapped hx)
    obtain at_ : x.1 = u.addr / 8 * 8 + i := by simpa using at_
    exact ⟨by omega, by rw [at_]; exact hx⟩
  · rintro ⟨unit, hx⟩
    refine ⟨x.1 % 8, Nat.mod_lt _ (by omega), ?_⟩
    have at_ : u.addr / 8 * 8 + x.1 % 8 = x.1 := by omega
    rw [at_]
    exact hx
section
variable {src dst len rows : Nat} {ss ds : Int} (copy : c.work = .copy src dst len rows ss ds)
include copy
/-- They come from the command alone. -/
theorem State.unitCells_of_copy (t : State) : s.unitCells p c u = t.unitCells p c u := by
  simp [State.unitCells, State.cmdOutput, copy]
/-- Each of them is some part's byte at its address. -/
theorem State.part_of_mem_unitCells {x : Host.Cell} (hx : x ∈ s.unitCells p c u) :
    ∃ v ∈ c.group u, v.1.addr ≤ x.1 ∧ x.1 < v.1.addr + v.1.len ∧ x.2 = memGet c.buf (v.1.off + (x.1 - v.1.addr)) :=
  Cmd.mem_groupCells.1 (List.mem_filter.1 (mem_of_overlapped ((State.mem_unitCells_of_copy copy).1 hx).2)).1
/-- Every byte of a part is written. -/
theorem State.exists_mem_unitCells {b : Nat} {v : Span × Nat} (hv : v ∈ c.group u) (low : v.1.addr ≤ b) (high : b < v.1.addr + v.1.len) :
    ∃ x, (b, x) ∈ s.unitCells p c u := by
  have offered : (b, memGet c.buf (v.1.off + (b - v.1.addr))) ∈ (c.groupCells u).filter (fun y => y.1 == b) :=
    List.mem_filter.2 ⟨Cmd.mem_groupCells.2 ⟨v, hv, low, high, rfl⟩, by simp⟩
  obtain ⟨⟨b', x⟩, hx⟩ := exists_overlapped (n := c.seq) (a := b) offered
  obtain rfl : b' = b := by simpa using (List.mem_filter.1 (mem_of_overlapped hx)).2
  exact ⟨x, (State.mem_unitCells_of_copy copy).2 ⟨Cmd.addr_div_of_mem_group hv low high, hx⟩⟩
/-- No address is written twice. -/
theorem State.unitCells_unique {x y : Host.Cell} (hx : x ∈ s.unitCells p c u) (hy : y ∈ s.unitCells p c u) (same : x.1 = y.1) : x = y := by
  have ex := ((State.mem_unitCells_of_copy copy).1 hx).2
  have ey := ((State.mem_unitCells_of_copy copy).1 hy).2
  rw [same, ey] at ex
  exact (Option.some.inj ex).symm
/-- What a unit's cells leave: bytes outside its parts as they were, and in a part the byte of a part there (R261, log entry 3). -/
theorem State.memGet_memPut_unitCells (canonical : s.memOk = true) (b : Nat) :
    ((∀ v ∈ c.group u, ¬ (v.1.addr ≤ b ∧ b < v.1.addr + v.1.len)) → memGet (memPut s.mem (s.unitCells p c u)) b = memGet s.mem b) ∧
    ((∃ v ∈ c.group u, v.1.addr ≤ b ∧ b < v.1.addr + v.1.len) → ∃ v ∈ c.group u, v.1.addr ≤ b ∧ b < v.1.addr + v.1.len ∧
      memGet (memPut s.mem (s.unitCells p c u)) b = memGet c.buf (v.1.off + (b - v.1.addr))) := by
  refine ⟨fun outside => ?_, fun ⟨v, hv, low, high⟩ => ?_⟩
  · refine memGet_memPut_of_not_mem _ canonical b fun x hx e => ?_
    obtain ⟨v, hv, low, high, -⟩ := State.part_of_mem_unitCells copy hx
    exact outside v hv (e ▸ ⟨low, high⟩)
  · obtain ⟨x, hx⟩ := State.exists_mem_unitCells (s := s) (p := p) copy hv low high
    obtain ⟨w, hw, low, high, byte⟩ := State.part_of_mem_unitCells copy hx
    refine ⟨w, hw, low, high, ?_⟩
    rw [memGet_memPut_of_mem canonical hx fun y hy e => by rw [State.unitCells_unique copy hy hx e]]
    exact byte
end

/-! ## What a write leaves in a fault record (R251) -/

theorem Cls.index_lt (x : Cls) : x.index < 6 := by cases x <;> decide
theorem State.dropped_memerr (a : Nat) (empty : vget (s.getCore p).memerrRec (s.classOf p (a % 2 ^ 53)).index none = none) :
    vget ((s.dropped p codeMemerr a).getCore p).memerrRec (s.classOf p (a % 2 ^ 53)).index none = some a := by
  unfold State.dropped
  dsimp only
  rw [if_neg (by decide), if_neg (by decide), if_pos (by rw [empty]; rfl), State.getCore_setCore_same]
  exact vget_vset_same _ _ _ _ (Cls.index_lt _)
theorem State.dropped_peerlost (a : Nat) (empty : (s.getCore p).peerRec = none) :
    ((s.dropped p codePeerlost a).getCore p).peerRec = some a := by
  unfold State.dropped
  dsimp only
  rw [if_pos rfl, if_pos (by rw [empty]; rfl), State.getCore_setCore_same]

/-! ## The home's part of a unit (R232, R361, R393) -/

section
variable {cells : List Host.Cell} {a : Nat}
/-- Over part of a failing unit, or before the memory is ready, the write is dropped. -/
theorem State.putCells_dropped (plain : s.linesAt p a cells.length = [])
    (bad : s.unready a cells.length = true ∨ s.keptOut a cells.length ≠ []) : s.putCells p a cells = s.dropped p codeMemerr a := by
  rw [State.putCells, plain]
  exact if_pos bad
theorem State.putCells_plain (plain : s.linesAt p a cells.length = []) (ready : s.unready a cells.length = false)
    (whole : s.keptOut a cells.length = []) :
    s.putCells p a cells = { s with mem := memPut s.mem cells, bad := s.mended a cells.length } := by
  rw [State.putCells, plain]
  simp [State.putPlain, State.mendCells, ready, whole]
/-- A write into a single sealed line leaves every byte outside it (R362). -/
theorem State.putCells_sealed {l : Nat} (lines : s.linesAt p a cells.length = [l])
    (canonical : s.memOk = true) {b : Nat} (outside : b < l ∨ l + 64 ≤ b) :
    memGet (s.putCells p a cells).mem b = memGet s.mem b := by
  rw [State.putCells, lines]
  change memGet (s.putSealed p a cells l).mem b = _
  unfold State.putSealed
  split
  · rfl
  · split_ifs
    · rw [State.dropped_mem]
    · exact State.putLine_memGet _ _ _ _ _ canonical outside
    · rw [State.dropped_mem]
    · rw [State.dropped_mem]
    · exact State.putLine_memGet _ _ _ _ _ canonical outside
end
/-- Where a unit's cells start. -/
def unitStart (u : Span) : List Host.Cell → Nat
  | [] => u.addr
  | x :: _ => x.1
section
variable {src dst len rows : Nat} {ss ds : Int} (copy : c.work = .copy src dst len rows ss ds) {cells : List Host.Cell} {a : Nat}
  (made : s.unitCells p c u = cells) (start : unitStart u cells = a)
include copy made start
theorem State.putUnit_eq : s.putUnit p c u =
    let t := (s.putCells p a cells).stepHome (.unit (u.addr / 8)) fillPlace
    if s.keptOut a cells.length = [] then t.fullSet u.addr else t := by
  subst start made
  simp only [State.putUnit, copy]
  rfl
theorem State.putUnit_mem : (s.putUnit p c u).mem = (s.putCells p a cells).mem := by
  rw [State.putUnit_eq copy made start]
  dsimp only
  split <;> simp
theorem State.putUnit_core {α : Type} (f : Core → α) (latch : ∀ x n, f (Core.latched x n) = f x) :
    f ((s.putUnit p c u).getCore p) = f ((s.putCells p a cells).getCore p) := by
  rw [State.putUnit_eq copy made start]
  dsimp only
  split
  · exact State.fullSet_core f latch _
  · rfl
/-- A whole unit of a scratchpad becomes full. -/
theorem State.mem_putUnit_full (plain : s.linesAt p a cells.length = []) (ready : s.unready a cells.length = false)
    (whole : s.keptOut a cells.length = []) (scratch : (s.region u.addr).isScratch = true) :
    u.addr / 8 ∈ (s.putUnit p c u).full := by
  rw [State.putUnit_eq copy made start, State.putCells_plain plain ready whole]
  dsimp only
  rw [if_pos whole, State.fullSet_full]
  · exact mem_setIn _ _
  · exact scratch
theorem State.putUnit_cmds : ((s.putUnit p c u).getCore p).cmds = (s.getCore p).cmds :=
  (State.putUnit_core copy made start Core.cmds Core.latched_cmds).trans (congrArg Core.cmds ((SameWork.putCells s p a cells).core p) :)
end

/-! ## Peers (R423) -/

theorem State.peerAt_of_lost {a : Nat} (lost : s.wayFault a = some codePeerlost) : s.peerAt a = none := by
  unfold State.wayFault at lost
  unfold State.peerAt
  split
  next m e =>
    simp only [e] at lost
    split at lost
    · cases lost
    · exact if_neg ‹_›
  · rfl
theorem State.valid_of_peerAt {a m : Nat} (peer : s.peerAt a = some m) : (vget s.fabric.peers m Peer.empty).valid = true := by
  unfold State.peerAt at peer
  split at peer
  next n _ =>
    split at peer
    next valid =>
      cases peer
      exact valid
    · cases peer
  · cases peer
/-- A message to a valid peer stands in a replay buffer. -/
theorem State.exists_flight_sendTo {m : Nat} (valid : (vget s.fabric.peers m Peer.empty).valid = true) (tag : Nat) (x : Cargo) (bytes : List Byte) :
    ∃ f ∈ (s.sendTo m tag x bytes).fabric.flights, f.peer = m ∧ f.cargo = x := by
  simp [State.sendTo, valid, Fabric.send]

/-! ## ENGINE_WRITE -/

/-- The state once the parts of a unit count as written: they are acknowledged in a later step (R230). -/
def State.unitWritten (s : State) (p : ProcId) (c : Cmd) (u : Span) : State :=
  (s.engineAck p c u false).putCmd p { c with writes := (c.group u).map Prod.snd ++ c.writes }
/-- The state once the home has taken the message of a unit (R422). -/
def State.unitTaken (s : State) (p : ProcId) (c : Cmd) (u : Span) : State := { s with fabric := s.fabric.accept (c.cargo p u) }
@[simp] theorem State.unitWritten_mem : (s.unitWritten p c u).mem = s.mem := by simp [State.unitWritten]
@[simp] theorem State.unitWritten_full : (s.unitWritten p c u).full = s.full := by simp [State.unitWritten, State.putCmd, State.engineAck]
theorem State.getCore_engineAck (m : Bool) : ∃ l, (s.engineAck p c u m).getCore p = { s.getCore p with pend := l } :=
  ⟨_, State.getCore_setCore_same _ _ _⟩
theorem State.unitWritten_memerrRec : ((s.unitWritten p c u).getCore p).memerrRec = (s.getCore p).memerrRec := by
  obtain ⟨l, e⟩ := State.getCore_engineAck (s := s) (p := p) (c := c) (u := u) false
  rw [State.unitWritten, State.getCore_putCmd, e]
  rfl
theorem State.unitWritten_peerRec : ((s.unitWritten p c u).getCore p).peerRec = (s.getCore p).peerRec := by
  obtain ⟨l, e⟩ := State.getCore_engineAck (s := s) (p := p) (c := c) (u := u) false
  rw [State.unitWritten, State.getCore_putCmd, e]
  rfl
theorem State.findCmd_unitWritten (found : s.findCmd p h = some c) :
    (s.unitWritten p c u).findCmd p h = some { c with writes := (c.group u).map Prod.snd ++ c.writes } := by
  refine State.findCmd_putCmd (c := c) ?_ (State.handle_of_findCmd (c := c) found)
  rw [← found]
  obtain ⟨l, e⟩ := State.getCore_engineAck (s := s) (p := p) (c := c) (u := u) false
  exact State.findCmd_of_cmds (by rw [e])
/-- What a step that writes leaves, by what the home's part leaves. -/
theorem writes_unitWritten {t : State} (found : s.findCmd p h = some c) (same : (t.getCore p).cmds = (s.getCore p).cmds) :
    ∃ d, (t.unitWritten p c u).findCmd p h = some d ∧ d.writes = (c.group u).map Prod.snd ++ c.writes :=
  ⟨_, State.findCmd_unitWritten ((State.findCmd_of_cmds same).trans found), rfl⟩
section
variable (found : s.findCmd p h = some c) (unit : c.units[k]? = some u) (opened : s.unitOpen p c u k = true) (sound : s.writeFault p u.addr = none)
include found unit opened sound
/-- Towards another module the message leaves first (R423). -/
theorem State.engineWrite_sends {m : Nat} (unsent : s.unitSent p c u = false) (peer : s.peerAt u.addr = some m) :
    s.engineWrite p h k = s.sendTo m (s.tagOf p) (c.cargo p u) ((s.unitCells p c u).map Prod.snd) := by
  simp [State.engineWrite, found, unit, opened, sound, unsent, peer]
/-- Towards a lost peer it is dropped and recorded. -/
theorem State.engineWrite_lost (unsent : s.unitSent p c u = false) (lost : s.wayFault u.addr = some codePeerlost) :
    s.engineWrite p h k = (s.dropped p codePeerlost u.addr).unitWritten p c u := by
  have gone := State.peerAt_of_lost lost
  simp [State.engineWrite, found, unit, opened, sound, unsent, lost, gone, State.unitWritten]
theorem State.engineWrite_writes (way : s.unitSent p c u = true ∨ (s.wayFault u.addr = none ∧ s.peerAt u.addr = none)) :
    s.engineWrite p h k = ((s.unitTaken p c u).putUnit p c u).unitWritten p c u := by
  rcases way with sent | ⟨clear, here⟩
  · simp [State.engineWrite, found, unit, opened, sound, sent, State.unitWritten, State.unitTaken]
  · simp [State.engineWrite, found, unit, opened, sound, clear, here, State.unitWritten, State.unitTaken]
end
section
variable {src dst len rows : Nat} {ss ds : Int} (copy : c.work = .copy src dst len rows ss ds) {cells : List Host.Cell} {a : Nat}
  (found : s.findCmd p h = some c) (unit : c.units[k]? = some u) (opened : s.unitOpen p c u k = true) (sound : s.writeFault p u.addr = none)
  (way : s.unitSent p c u = true ∨ (s.wayFault u.addr = none ∧ s.peerAt u.addr = none))
  (made : s.unitCells p c u = cells) (start : unitStart u cells = a)
include copy found unit opened sound way made start
/-- The step of a copy's unit that is not lost, by the write of its cells at the home. -/
theorem State.engineWrite_parts :
    (∃ d, (s.engineWrite p h k).findCmd p h = some d ∧ d.writes = (c.group u).map Prod.snd ++ c.writes) ∧
    (s.engineWrite p h k).mem = ((s.unitTaken p c u).putCells p a cells).mem ∧
    ((s.engineWrite p h k).getCore p).memerrRec =
      (((s.unitTaken p c u).putCells p a cells).getCore p).memerrRec ∧
    (s.linesAt p a cells.length = [] → s.unready a cells.length = false → s.keptOut a cells.length = [] →
      (s.region u.addr).isScratch = true → u.addr / 8 ∈ (s.engineWrite p h k).full) := by
  rw [State.engineWrite_writes found unit opened sound way]
  have made' : (s.unitTaken p c u).unitCells p c u = cells := (State.unitCells_of_copy copy s).trans made
  refine ⟨writes_unitWritten found (State.putUnit_cmds copy made' start), ?_, ?_, fun plain ready whole scratch => ?_⟩
  · rw [State.unitWritten_mem, State.putUnit_mem copy made' start]
  · rw [State.unitWritten_memerrRec, State.putUnit_core copy made' start Core.memerrRec Core.latched_memerrRec]
  · rw [State.unitWritten_full]
    exact State.mem_putUnit_full copy made' start plain ready whole scratch
end

/-- Settles O36: each engine step by its equation, the write of a unit by what `State.putCells` does with the unit's cells. -/
theorem engineSteps : Obligations.EngineSteps := by
  unfold Obligations.EngineSteps
  intro s p h k c found pending opened
  refine ⟨fun src dst len rows ss ds copy => ⟨?_, ?_, ?_⟩, ?_⟩
  · intro q piece unread free way window sound
    exact execEngineRead_step copy found pending opened piece unread free way window sound
  · intro u canonical unit open_ sound sent cells a cls writes
    refine ⟨fun m unsent peer => ?_, fun unsent lost empty => ?_, fun way => ?_⟩
    · refine ⟨s.engineWrite p h k, rfl, ?_⟩
      rw [State.engineWrite_sends found unit open_ sound unsent peer]
      exact ⟨State.sendTo_mem _ _ _ _, (State.findCmd_of_cmds (by rw [State.getCore_sendTo])).trans found,
        State.exists_flight_sendTo (State.valid_of_peerAt peer) _ _ _⟩
    · refine ⟨s.engineWrite p h k, rfl, ?_⟩
      rw [State.engineWrite_lost found unit open_ sound unsent lost]
      exact ⟨writes_unitWritten found (congrArg Core.cmds ((SameWork.dropped s p codePeerlost u.addr).core p) :), by simp,
        State.unitWritten_peerRec.trans (State.dropped_peerlost _ empty)⟩
    · obtain ⟨written, mem, record, full⟩ :=
        State.engineWrite_parts copy found unit open_ sound way (cells := cells) (a := a) rfl rfl
      refine ⟨fun plain bad => ?_, fun l lines => ?_, fun plain ready whole => ?_⟩
      · refine ⟨s.engineWrite p h k, rfl, written, ?_⟩
        rw [mem, record, State.putCells_dropped (s := s.unitTaken p c u) plain bad]
        exact ⟨State.dropped_mem _ _ _ _, State.dropped_memerr (s := s.unitTaken p c u) a⟩
      · refine ⟨s.engineWrite p h k, rfl, written, fun b outside => ?_⟩
        rw [mem]
        exact State.putCells_sealed (s := s.unitTaken p c u) lines canonical outside
      · refine ⟨s.engineWrite p h k, rfl, written, ?_⟩
        rw [mem, State.putCells_plain (s := s.unitTaken p c u) plain ready whole]
        exact ⟨fun b => (State.memGet_memPut_unitCells copy canonical b).1, fun b => (State.memGet_memPut_unitCells copy canonical b).2,
          full plain ready whole⟩
  · exact execEngineDone_of_copy copy found pending opened
  · intro src dst len rows ss ds code a copy met held other first
    exact execEngineFault_of_copy copy found pending opened met held other first

end Sys2Proof.Machine
end

section
/-!
SUPPORT. Loads and full bits (R240, R244 to R247): the checks of an access that pass, and reads that perform at once.
-/
namespace Sys2Proof.Machine
open Sys2Proof

variable {s t : State}

/-! ## The checks of R240 -/

theorem checked_pass {m : MemOp} {asz : Asz} {ok : Region → Bool} {aligned : Bool} (k : Nat → State → Out) (reach : s.reaches m asz ok)
    (align : aligned = true → s.ea m asz % asz.bytes = 0) : checked m asz ok aligned s k = k (s.ea m asz) s := by
  obtain ⟨base, first, last⟩ := reach
  have whole : (aligned && s.ea m asz % asz.bytes != 0) = false := by
    cases aligned with
    | false => rfl
    | true => simp [align rfl]
  simp [checked, base, first, last, whole]
theorem extended_eq_loadedAs (ext : Bool) (n x : Nat) : extended ext n x = loadedAs ext n x := by
  cases ext with
  | false => simp [extended, loadedAs, wNat]
  | true =>
    rw [extended, if_pos rfl, intVal_signed, loadedAs, wInt]
    by_cases top : 2 ^ (8 * n) ≤ 2 * x
    · simp [top]
    · simp [top, BitVec.ofInt_natCast]

/-! ## What counting leaves -/

namespace Recounted
theorem countRequest (s : State) (p : ProcId) (a n : Nat) : Recounted s (s.countRequest p a n) := by
  unfold State.countRequest
  split
  · exact refl s
  · exact (countOf _ _ _ _ _).trans (foldl _ (fun s _ => countOf s p _ _ _) _ _)
section
variable (h : Recounted s t)
include h
theorem onMain : t.onMain = s.onMain := by rw [State.onMain, State.onMain, h.cur]
theorem goesOn : t.goesOn = s.goesOn := by rw [State.goesOn, State.goesOn, h.onMain, h.eager]
theorem isFull (a : Nat) : t.isFull a = s.isFull a := by rw [State.isFull, State.isFull, h.full]
theorem wayBlocked (a n : Nat) : t.wayBlocked a n = s.wayBlocked a n := by rw [State.wayBlocked, State.wayBlocked, h.cur, h.readFault]
theorem readNat (a n : Nat) : t.readNat a n = s.readNat a n := by rw [← State.leNat_readBytes, h.readBytes, State.leNat_readBytes]
end
end Recounted
theorem recounted_reads (s : State) (a n : Nat) : Recounted s (s.atIssue .load (fun t => t.countReads n [a])) :=
  .atIssue s .load fun t => .countReads t n [a]

/-! ## LD -/

theorem State.goesOn_eager (eager : s.eager = true) : s.goesOn = false := by simp [State.goesOn, eager]
/-- A read of one access that performs at once gives its number. -/
theorem reading_one {a n : Nat} {ord : Ord} {sco : Scope} {ea : Option Nat} {len : Nat} {k : List Byte → State → Out}
    (now : s.readsNow [a] n ord sco) :
    reading [a] n ord sco ea len s k = k (s.readBytes a n) ((s.atIssue .load (fun t => t.countReads n [a])).spendAll [a]) := by
  rw [reading_now now, List.flatMap_singleton]
section
variable {x : OpLd} (pass : s.guard x.q = true) (reach : s.reaches x.m x.asz Region.ldOk)
include pass reach
theorem execLd_now (now : s.readsNow [s.ea x.m x.asz] x.asz.bytes x.ord x.sco) :
    execLd x s = .next ((((s.atIssue .load (fun t => t.countReads x.asz.bytes [s.ea x.m x.asz])).spendAll [s.ea x.m x.asz]).loaded x.d x.ext
      x.asz.bytes (s.readNat (s.ea x.m x.asz) x.asz.bytes)).done 8) := by
  rw [execLd, guarded_pass _ pass, checked_pass _ reach (by simp)]
  simp only [State.goesOn_eager now.1, Bool.false_eq_true, if_false, reading_one now, State.leNat_readBytes, complete_eq]
theorem execLd_goesOn (late : s.goesOn = true) :
    execLd x s = .next (((s.countBytes s.cur 0 (s.ea x.m x.asz) x.asz.bytes).issueLate (.ld x.d x.ext none) (s.ea x.m x.asz) x.asz.bytes
      x.ord x.sco).done 8) := by
  rw [execLd, guarded_pass _ pass, checked_pass _ reach (by simp)]
  simp only [late, if_true, complete_eq]
end

/-- Settles O25: a read that performs at once writes its number, by `reading_one`; one that is not held for joins the pending reads. -/
theorem loadResult : Obligations.LoadResult := by
  unfold Obligations.LoadResult
  intro x s pass reach
  refine ⟨fun now => (execLd_now pass reach now).trans ?_, execLd_goesOn pass reach⟩
  cases x.d with
  | g r => rw [State.loaded, extended_eq_loadedAs]
  | a r => rfl

/-! ## Reads that meet no fault -/

theorem State.wayBlocked_of_sound {a n : Nat} (sound : s.readFault s.cur a n = none) : s.wayBlocked a n = none := by
  rw [State.wayBlocked, sound]
theorem relaxedStep_now {a : Nat} {ord : Ord} {sco : Scope} (k : State → Out) (sound : s.readFault s.cur a 8 = none)
    (free : s.heldBack s.cur a 8 ord sco = false) : relaxedStep a ord sco s k = k s := by
  simp [relaxedStep, State.wayBlocked_of_sound sound, sound, free]
theorem State.isFull_iff {a : Nat} : s.isFull a = true ↔ a / 8 ∈ s.full := by rw [State.isFull, List.contains_iff_mem]

/-! ## LDS -/

/-- The issue of an instruction counts for the processor that issues it. -/
theorem State.atIssue_countBytes (kind : WaitKind) (k a n : Nat) :
    s.atIssue kind (fun t => t.countBytes t.cur k a n) = s.atIssue kind (fun t => t.countBytes s.cur k a n) := rfl
theorem State.atIssue_countRequest (kind : WaitKind) (a n : Nat) :
    s.atIssue kind (fun t => t.countRequest t.cur a n) = s.atIssue kind (fun t => t.countRequest s.cur a n) := rfl
theorem recounted_lds (s : State) (a n : Nat) : Recounted s (s.atIssue .lds (fun t => t.countBytes s.cur 0 a n)) :=
  .atIssue s .lds fun t => .countBytes t s.cur 0 a n
section
variable {x : OpMemG} (pass : s.guard x.q = true) (reach : s.reaches x.m x.asz Region.isScratch) (align : s.ea x.m x.asz % x.asz.bytes = 0)
  (clear : s.wayBlocked (s.ea x.m x.asz) x.asz.bytes = none)
  (free : s.heldBack s.cur (s.ea x.m x.asz) x.asz.bytes x.ord x.sco = false)
include pass reach align clear free
theorem execLds_full (full : s.ea x.m x.asz / 8 ∈ s.full) (sound : s.readFault s.cur (s.ea x.m x.asz) x.asz.bytes = none) :
    execLds x s = .next ((((s.atIssue .lds (fun t => t.countBytes s.cur 0 (s.ea x.m x.asz) x.asz.bytes)).readUnit (s.ea x.m x.asz)).wrG x.d
      (loadedAs x.ext x.asz.bytes (s.readNat (s.ea x.m x.asz) x.asz.bytes))).done 8) := by
  have counted := recounted_lds s (s.ea x.m x.asz) x.asz.bytes
  rw [execLds, guarded_pass _ pass, checked_pass _ reach fun _ => align]
  have set : s.isFull (s.ea x.m x.asz) = true := State.isFull_iff.2 full
  simp only [State.atIssue_countBytes, counted.wayBlocked, clear, counted.cur, counted.heldBack, free, counted.isFull, set, counted.readFault, sound, counted.readNat,
    Bool.false_eq_true, if_false, Bool.not_true, Bool.or_false, extended_eq_loadedAs, complete_eq]
theorem execLds_waits (empty : s.ea x.m x.asz / 8 ∉ s.full) :
    execLds x s = .next ((s.atIssue .lds (fun t => t.countBytes s.cur 0 (s.ea x.m x.asz) x.asz.bytes)).waits .lds 0) := by
  have counted := recounted_lds s (s.ea x.m x.asz) x.asz.bytes
  rw [execLds, guarded_pass _ pass, checked_pass _ reach fun _ => align]
  have unset : s.isFull (s.ea x.m x.asz) = false := Bool.eq_false_iff.2 (mt State.isFull_iff.1 empty)
  simp only [State.atIssue_countBytes, counted.wayBlocked, clear, counted.cur, counted.heldBack, free, counted.isFull, unset, Bool.false_eq_true, if_false,
    Bool.not_false, Bool.true_or, if_true, stay_eq]
end

/-! ## FESET, FECLR and FEPOLL -/

theorem fullStep_issues {x : OpFe} (kind : AccKind) (pass : s.guard x.q = true) (reach : s.reaches x.m .d Region.isScratch)
    (align : s.ea x.m .d % 8 = 0) :
    fullStep kind x s = .next (((s.issueAccess (oneStep kind (s.ea x.m .d) 8 x.ord x.sco)).countRequest s.cur (s.ea x.m .d) 8).done 8) := by
  rw [fullStep, guarded_pass _ pass, checked_pass _ reach fun _ => align, complete_eq]
section
variable {x : OpFepoll} (pass : s.guard x.q = true) (reach : s.reaches x.m .d Region.isScratch) (align : s.ea x.m .d % 8 = 0)
include pass reach align
theorem execFepoll_now (here : s.goesOn = false) (sound : s.readFault s.cur (s.ea x.m .d) 8 = none)
    (free : s.heldBack s.cur (s.ea x.m .d) 8 x.ord x.sco = false) :
    execFepoll x s = .next ((((s.atIssue .load (fun t => t.countRequest s.cur (s.ea x.m .d) 8)).readUnit (s.ea x.m .d)).wrP x.d
      (decide (s.ea x.m .d / 8 ∈ s.full))).done 8) := by
  have counted : Recounted s (s.atIssue .load (fun t => t.countRequest s.cur (s.ea x.m .d) 8)) :=
    .atIssue s .load fun t => .countRequest t s.cur _ 8
  have bit : s.isFull (s.ea x.m .d) = decide (s.ea x.m .d / 8 ∈ s.full) := by rw [Bool.eq_iff_iff, State.isFull_iff, decide_eq_true_iff]
  rw [execFepoll, guarded_pass _ pass, checked_pass _ reach fun _ => align]
  simp only [State.atIssue_countRequest, counted.goesOn, here, Bool.false_eq_true, if_false]
  rw [relaxedStep_now _ (by rw [counted.cur, counted.readFault, sound]) (by rw [counted.cur, counted.heldBack, free]), complete_eq,
    counted.isFull, bit]
theorem execFepoll_goesOn (late : s.goesOn = true) :
    execFepoll x s = .next (((s.atIssue .load (fun t => t.countRequest s.cur (s.ea x.m .d) 8)).issueLate (.fepoll x.d) (s.ea x.m .d) 8
      x.ord x.sco).done 8) := by
  have counted : Recounted s (s.atIssue .load (fun t => t.countRequest s.cur (s.ea x.m .d) 8)) :=
    .atIssue s .load fun t => .countRequest t s.cur _ 8
  rw [execFepoll, guarded_pass _ pass, checked_pass _ reach fun _ => align]
  simp only [State.atIssue_countRequest, counted.goesOn, late, if_true, complete_eq]
end

/-- Settles O28: each instruction by what it does once its checks pass. -/
theorem fullBits : Obligations.FullBits := by
  unfold Obligations.FullBits
  refine ⟨?_, ?_, ?_⟩
  · intro x s pass reach a n align clear free
    exact ⟨execLds_full pass reach align clear free, execLds_waits pass reach align clear free⟩
  · intro x s pass reach align issued
    exact ⟨fullStep_issues .feset pass reach align, fullStep_issues .feclr pass reach align⟩
  · intro x s pass reach align
    exact ⟨execFepoll_now pass reach align, execFepoll_goesOn pass reach align⟩

end Sys2Proof.Machine
end

section
/-!
SUPPORT. The step of an issued access at its home (R220, R241, R423), and stores (R245, R247, R361, R362).
-/
namespace Sys2Proof.Machine
open Sys2Proof

variable {s : State} {p : ProcId} {i k : Nat} {a : Access}

/-! ## Issued accesses -/

theorem length_setAt {α : Type} (l : List α) (i : Nat) (x : α) : (setAt l i x).length = l.length := by
  induction l generalizing i with
  | nil => rfl
  | cons y r ih => cases i <;> simp [setAt, ih]
theorem getD_setAt {α : Type} {l : List α} {i : Nat} (h : i < l.length) (x d : α) : (setAt l i x).getD i d = x := by
  induction l generalizing i with
  | nil => exact absurd h (Nat.not_lt_zero i)
  | cons y r ih =>
    cases i with
    | zero => rfl
    | succ i => simpa [setAt] using ih (Nat.lt_of_succ_lt_succ h)
theorem Core.join_scalar (c : Core) (passes : Bool) (scalar : a.vec = false) :
    c.join a passes = { c with
      pend := c.pend ++ [{ a with seq := c.seq }], seq := c.seq + 1
      behind := if passes then some (c.behind.getD c.seq) else c.behind } := by
  unfold Core.join
  split
  · next vector => simp [scalar] at vector
  · simp [scalar]
/-- An access of a scalar instruction comes last (R214, R220). -/
theorem State.issueAccess_scalar (scalar : a.vec = false) :
    s.issueAccess a = { s with core := { s.core with
      pend := s.core.pend ++ [{ a with pc := s.core.pc.toNat, seq := s.core.seq }], seq := s.core.seq + 1
      behind := if s.onMain && s.tile.rep.count != 0 then some (s.core.behind.getD s.core.seq) else s.core.behind } } := by
  rw [State.issueAccess, Core.join_scalar]
  exact scalar
theorem State.getCore_setPend_same : (s.setPend p i a).getCore p = { s.getCore p with pend := setAt (s.getCore p).pend i a } :=
  State.getCore_setCore_same _ _ _
theorem State.stepTaken_eq : s.stepTaken p a = { s with homeAt := (s.stepTaken p a).homeAt } := by
  unfold State.stepTaken
  split <;> rfl
@[simp] theorem State.stepTaken_full : (s.stepTaken p a).full = s.full := by rw [State.stepTaken_eq]
theorem State.getCore_stepTaken (q : ProcId) : (s.stepTaken p a).getCore q = s.getCore q := by
  rw [State.stepTaken_eq]
  rfl
@[simp] theorem State.setPend_full : (s.setPend p i a).full = s.full := State.setCore_full _ _ _
theorem State.accepted_eq : s.accepted p a = { s with fabric := (s.accepted p a).fabric } := by
  unfold State.accepted
  split <;> rfl

/-! ## One piece at its home -/

/-- An access once its home has taken its `k`-th piece. -/
def Access.taken (a : Access) (k : Nat) : Access :=
  { a with pieces := dropAt a.pieces k, performed := dropAt a.pieces k == [], refused := false }
/-- Where a piece starts: an access without bytes stands at its own address. -/
def Access.start (a : Access) : List Host.Cell → Nat
  | [] => a.addr
  | c :: _ => c.1

section
variable {cells : List Host.Cell} {b : Nat} (issued : (s.getCore p).pend[i]? = some a) (unperformed : a.performed = false)
  (may : s.mayPerform p i = true) (turn : s.outOfTurn p a = false) (unsent : s.mustSend a = none) (piece : a.pieces[k]? = some cells)
  (start : b = a.start cells)
include issued unperformed may turn unsent piece start
/-- A piece that its home takes leaves the access. -/
theorem State.performPiece_taken {t : State} (way : s.wayFault b = none) (admitted : s.admits p b = true)
    (home : (s.accepted p a).atHome p a b cells = (t, true)) :
    s.performPiece p i k = (t.stepTaken p a).setPend p i (a.taken k) := by
  subst start
  cases cells <;>
    simp_all [State.performPiece, Access.start, Access.taken]
/-- A piece that its home refuses stays (R447). -/
theorem State.performPiece_refused {t : State} (home : (s.accepted p a).atHome p a b cells = (t, false)) :
    s.performPiece p i k = t.setPend p i { a with refused := true } := by
  subst start
  cases cells <;>
    simp_all [State.performPiece, Access.start]
end
theorem State.performPiece_outOfTurn (issued : (s.getCore p).pend[i]? = some a) (late : s.outOfTurn p a = true) : s.performPiece p i k = s := by
  simp [State.performPiece, issued, late]
/-- Nothing stops a message that has been accepted, or whose way is clear. -/
theorem State.accepted_way {b : Nat} (way : s.wayFault b = none) : (if a.paid then none else (s.accepted p a).wayFault b) = none := by
  by_cases paid : a.paid = true
  · rw [if_pos paid]
  · rw [if_neg paid, State.accepted, if_neg paid, way]
theorem State.accepted_admits {b : Nat} : (s.accepted p a).admits p b = s.admits p b := by
  rw [State.accepted_eq]
  rfl

section
variable {cells : List Host.Cell} {b : Nat} (way : (if a.paid then none else s.wayFault b) = none) (admitted : s.admits p b = true)
include way admitted
theorem State.atHome_store (kind : a.kind = .store) : s.atHome p a b cells = (s.landCells p b cells, true) := by
  simp [State.atHome, State.pcntRefused, kind, way, admitted]
theorem State.atHome_feset (kind : a.kind = .feset) : s.atHome p a b cells = ({ s with full := setIn s.full (b / 8) }, true) := by
  simp [State.atHome, State.pcntRefused, kind, way, admitted]
theorem State.atHome_feclr (kind : a.kind = .feclr) : s.atHome p a b cells = ({ s with full := setOut s.full (b / 8) }, true) := by
  simp [State.atHome, State.pcntRefused, kind, way, admitted]
end

/-! ## ST -/

section
variable {x : OpSt} (pass : s.guard x.q = true) (reach : s.reaches x.m x.asz Region.stOk)
include pass reach
theorem execSt_issues :
    execSt x s = .next (((s.issueAccess (storeOf (s.ea x.m x.asz) x.asz.bytes (s.rdG x.d).toNat x.ord x.sco)).countBytes s.cur 1
      (s.ea x.m x.asz) x.asz.bytes).done 8) := by
  rw [execSt, guarded_pass _ pass, checked_pass _ reach (by simp), complete_eq]
end

/-! ## STORE -/

theorem execStoreStep_performs (issued : (s.getCore p).pend[i]? = some a) (kind : a.kind = .store ∨ a.kind = .feset ∨ a.kind = .feclr) :
    exec (.storeStep ⟨p, i, k⟩) s = .next (s.performPiece p i k) := by
  show execStoreStep ⟨p, i, k⟩ s = _
  rcases kind with kind | kind | kind <;> simp [execStoreStep, issued, kind]
/-- A piece outside a monitor block is written. -/
theorem State.landCells_plain {b : Nat} (cells : List Host.Cell) (memory : (s.region b).isGlobal = true ∨ (s.region b).isScratch = true) :
    s.landCells p b cells = s.putCells p b cells := by
  unfold State.landCells State.landBy
  split
  · next port => simp [port, Region.isGlobal, Region.isScratch] at memory
  · rfl
/-- Each written cell reads as written, where no two name one byte. -/
theorem memGet_memPut_of_nodup {cells m : List Host.Cell} (canonical : Memory.wf m = true) (distinct : (cells.map Prod.fst).Nodup)
    {c : Host.Cell} (hc : c ∈ cells) : memGet (memPut m cells) c.1 = c.2 :=
  memGet_memPut_of_mem canonical hc fun d hd same => by rw [List.inj_on_of_nodup_map distinct hd hc same]
theorem mem_setIn_iff (l : List Nat) (a u : Nat) : u ∈ setIn l a ↔ u = a ∨ u ∈ l := by
  induction l with
  | nil => simp [setIn]
  | cons b r ih =>
    unfold setIn
    split_ifs with below same
    · simp
    · simp [same]
    · simp only [List.mem_cons, ih]
      exact or_left_comm
theorem mem_setOut_iff (l : List Nat) (a u : Nat) : u ∈ setOut l a ↔ u ≠ a ∧ u ∈ l := by
  simp [setOut, and_comm]
/-- A write that completes or opens its line is sealed anew (R362). -/
theorem State.putCells_reseals {cells : List Host.Cell} {b l : Nat} {t : Team} (team : s.teamOf p = some t) (found : s.findTeam t.num = some t)
    (lines : s.linesAt p b cells.length = [l]) (ready : s.unready l 64 = false) (whole : s.badUnits l 64 = [])
    (opens : s.coversLine t l cells = true ∨ (s.openLine t l).isSome = true) :
    (s.putCells p b cells).mem = memPut s.mem
      ((s.sentBy t ((homeTile p).getD 1024)).sealedCells ((homeTile p).getD 1024) l (s.merged t l cells ((s.openLine t l).getD []))) := by
  have line : (s.putLine ((homeTile p).getD 1024) t.num cells l).mem = memPut s.mem
      ((s.sentBy t ((homeTile p).getD 1024)).sealedCells ((homeTile p).getD 1024) l (s.merged t l cells ((s.openLine t l).getD []))) := by
    rw [State.putLine, found]
  rw [State.putCells, lines, ← line]
  change (s.putSealed p b cells l).mem = _
  unfold State.putSealed
  simp only [team, ready, whole, Bool.false_eq_true, if_false, bne_self_eq_false]
  by_cases covered : s.coversLine t l cells = true
  · rw [if_pos covered]
  · have opened := opens.resolve_left covered
    rw [Option.isSome_iff_ne_none, ne_eq, ← Option.isNone_iff_eq_none] at opened
    rw [if_neg covered, if_neg opened]

section
variable {cells : List Host.Cell} {b : Nat} (issued : (s.getCore p).pend[i]? = some a) (unperformed : a.performed = false)
  (may : s.mayPerform p i = true) (turn : s.outOfTurn p a = false) (unsent : s.mustSend a = none) (piece : a.pieces[k]? = some cells)
  (start : b = a.start cells) (way : s.wayFault b = none) (admitted : s.admits p b = true)
include issued unperformed may turn unsent piece start way admitted
theorem State.performPiece_store (kind : a.kind = .store) (memory : (s.region b).isGlobal = true ∨ (s.region b).isScratch = true) :
    s.performPiece p i k = (((s.accepted p a).putCells p b cells).stepTaken p a).setPend p i (a.taken k) := by
  refine State.performPiece_taken issued unperformed may turn unsent piece start way admitted ?_
  rw [State.atHome_store (State.accepted_way way) (State.accepted_admits.trans admitted) kind, State.landCells_plain]
  rw [State.accepted_eq]
  exact memory
/-- A store outside sealed lines writes its cells and no others. -/
theorem storeStep_plain (canonical : s.memOk = true) (kind : a.kind = .store)
    (memory : (s.region b).isGlobal = true ∨ (s.region b).isScratch = true) (plain : s.linesAt p b cells.length = [])
    (ready : s.unready b cells.length = false) (whole : s.keptOut b cells.length = []) (distinct : (cells.map Prod.fst).Nodup) :
    ∃ t, exec (.storeStep ⟨p, i, k⟩) s = .next t ∧ (∀ c ∈ cells, memGet t.mem c.1 = c.2) ∧
      (∀ d, d ∉ cells.map Prod.fst → memGet t.mem d = memGet s.mem d) ∧ t.full = s.full ∧
      (t.getCore p).pend.length = (s.getCore p).pend.length ∧ ((t.getCore p).pend.getD i noAccess).pieces = dropAt a.pieces k := by
  refine ⟨_, execStoreStep_performs issued (.inl kind), ?_⟩
  have written : (s.accepted p a).putCells p b cells =
      { s.accepted p a with mem := memPut s.mem cells, bad := s.mended b cells.length } := by
    rw [State.accepted_eq]
    exact State.putCells_plain (s := { s with fabric := (s.accepted p a).fabric }) plain ready whole
  have core : (s.accepted p a).getCore p = s.getCore p := by rw [State.accepted_eq]; rfl
  rw [State.performPiece_store issued unperformed may turn unsent piece start way admitted kind memory, State.getCore_setPend_same,
    State.setPend_mem, State.setPend_full, State.stepTaken_mem, State.stepTaken_full, State.getCore_stepTaken, written]
  change (∀ c ∈ cells, memGet (memPut s.mem cells) c.1 = c.2) ∧
    (∀ d, d ∉ cells.map Prod.fst → memGet (memPut s.mem cells) d = memGet s.mem d) ∧ (s.accepted p a).full = s.full ∧
    (setAt ((s.accepted p a).getCore p).pend i (a.taken k)).length = _ ∧
    ((setAt ((s.accepted p a).getCore p).pend i (a.taken k)).getD i noAccess).pieces = _
  rw [core]
  refine ⟨fun c hc => memGet_memPut_of_nodup canonical distinct hc, fun d outside => ?_, ?_, length_setAt _ _ _, ?_⟩
  · exact memGet_memPut_of_not_mem _ canonical d fun c hc same => outside (List.mem_map.2 ⟨c, hc, same⟩)
  · rw [State.accepted_eq]
  · obtain ⟨inside, -⟩ := List.getElem?_eq_some_iff.1 issued
    rw [getD_setAt inside]
    rfl
/-- A store into a sealed line seals it anew. -/
theorem storeStep_sealed {t : Team} {l : Nat} (kind : a.kind = .store) (global : (s.region b).isGlobal = true) (team : s.teamOf p = some t)
    (found : s.findTeam t.num = some t) (lines : s.linesAt p b cells.length = [l]) (ready : s.unready l 64 = false)
    (whole : s.badUnits l 64 = []) (opens : s.coversLine t l cells = true ∨ (s.openLine t l).isSome = true) :
    ∃ u, exec (.storeStep ⟨p, i, k⟩) s = .next u ∧ u.mem = memPut s.mem
      ((s.sentBy t ((homeTile p).getD 1024)).sealedCells ((homeTile p).getD 1024) l (s.merged t l cells ((s.openLine t l).getD []))) := by
  refine ⟨_, execStoreStep_performs issued (.inl kind), ?_⟩
  rw [State.performPiece_store issued unperformed may turn unsent piece start way admitted kind (.inl global), State.setPend_mem,
    State.stepTaken_mem, State.accepted_eq]
  exact State.putCells_reseals (s := { s with fabric := (s.accepted p a).fabric }) team found lines ready whole opens
/-- FESET sets the full bit of its unit. -/
theorem storeStep_feset (kind : a.kind = .feset) :
    ∃ t, exec (.storeStep ⟨p, i, k⟩) s = .next t ∧ t.mem = s.mem ∧ ∀ u, u ∈ t.full ↔ u = b / 8 ∨ u ∈ s.full := by
  refine ⟨_, execStoreStep_performs issued (.inr (.inl kind)), ?_⟩
  rw [State.performPiece_taken issued unperformed may turn unsent piece start way admitted
    (State.atHome_feset (State.accepted_way way) (State.accepted_admits.trans admitted) kind), State.setPend_mem, State.setPend_full,
    State.stepTaken_mem, State.stepTaken_full, State.accepted_eq]
  exact ⟨rfl, fun u => mem_setIn_iff _ _ u⟩
/-- FECLR clears it. -/
theorem storeStep_feclr (kind : a.kind = .feclr) :
    ∃ t, exec (.storeStep ⟨p, i, k⟩) s = .next t ∧ t.mem = s.mem ∧ ∀ u, u ∈ t.full ↔ u ≠ b / 8 ∧ u ∈ s.full := by
  refine ⟨_, execStoreStep_performs issued (.inr (.inr kind)), ?_⟩
  rw [State.performPiece_taken issued unperformed may turn unsent piece start way admitted
    (State.atHome_feclr (State.accepted_way way) (State.accepted_admits.trans admitted) kind), State.setPend_mem, State.setPend_full,
    State.stepTaken_mem, State.stepTaken_full, State.accepted_eq]
  exact ⟨rfl, fun u => mem_setOut_iff _ _ u⟩
end

/-! ## The order of one cycle (R247) -/

theorem State.afterHome_iff {h : Home} {place : Nat} : s.afterHome h place = true ↔ ∃ n, (h, s.cycle, n) ∈ s.homeAt ∧ place < n := by
  rw [State.afterHome, List.any_eq_true]
  constructor
  · rintro ⟨⟨h', c, n⟩, member, later⟩
    simp only [Bool.and_eq_true, beq_iff_eq, decide_eq_true_eq] at later
    obtain ⟨⟨rfl, rfl⟩, below⟩ := later
    exact ⟨n, member, below⟩
  · rintro ⟨n, member, below⟩
    exact ⟨_, member, by simp [below]⟩
theorem State.outOfTurn_unit (kind : a.kind = .feset ∨ a.kind = .feclr) :
    s.outOfTurn p a = s.afterHome (.unit (a.addr / 8)) (if a.kind = .feset then 2 else 1) := by
  rcases kind with kind | kind <;> simp [State.outOfTurn, State.placeOf, kind, fillPlace, clearPlace]

/-- Settles O26: ST by the access it issues, STORE by what its piece does at its home. -/
theorem stores : Obligations.Stores := by
  unfold Obligations.Stores
  refine ⟨?_, ?_, ?_⟩
  · intro x s pass reach a n passes
    refine ⟨_, { storeOf a n (s.rdG x.d).toNat x.ord x.sco with pc := s.core.pc.toNat, seq := s.core.seq }, execSt_issues pass reach, ?_, rfl, rfl,
      rfl, rfl, rfl, rfl, storeOf_flatten a n _ x.ord x.sco, fun b => ?_⟩
    · rw [State.issueAccess_scalar rfl]
    · rw [State.done_mem, (Recounted.countBytes _ _ _ _ _).mem]
      rfl
  · intro s p i k a cells b canonical issued unperformed may piece start unsent turn way admitted
    refine ⟨fun kind memory => ?_, fun tm l kind global team found => ?_, ?_, ?_⟩
    · exact storeStep_plain issued unperformed may turn unsent piece start way admitted canonical kind memory
    · exact storeStep_sealed issued unperformed may turn unsent piece start way admitted kind global team found
    · exact storeStep_feset issued unperformed may turn unsent piece start way admitted
    · exact storeStep_feclr issued unperformed may turn unsent piece start way admitted
  · intro s p i k a issued kind
    refine ⟨?_, fun late => ?_⟩
    · rw [State.outOfTurn_unit kind, State.afterHome_iff]
    · rw [execStoreStep_performs issued (.inr kind), State.performPiece_outOfTurn issued late]

end Sys2Proof.Machine
end

section
/-!
SUPPORT. Atomics (R248, R249, R362, R423).
-/
namespace Sys2Proof.Machine
open Sys2Proof

variable {s : State}

/-! ## Messages that leave (R424) -/

theorem vget_vset {α : Type} {n : Nat} (v : Vector α n) (i j : Nat) (x d : α) :
    vget (vset v i x) j d = if j = i ∧ i < n then x else vget v j d := by
  by_cases same : j = i
  · subst same
    by_cases inside : j < n
    · rw [vget_vset_same _ _ _ _ inside, if_pos ⟨rfl, inside⟩]
    · rw [if_neg fun h => inside h.2]
      simp [vget, vset, inside]
  · rw [vget_vset_ne _ _ _ _ _ (Ne.symm same), if_neg fun h => same h.1]
theorem State.spendTo_valid (m n : Nat) :
    (vget (s.spendTo m).fabric.peers n Peer.empty).valid = (vget s.fabric.peers n Peer.empty).valid := by
  unfold State.spendTo
  dsimp only
  split
  · next valid =>
    rw [vget_vset]
    split
    next same => rw [same.1, valid]
    · rfl
  · rfl
theorem State.owe_valid (m n : Nat) : (vget (s.owe m).fabric.peers n Peer.empty).valid = (vget s.fabric.peers n Peer.empty).valid := by
  unfold State.owe
  dsimp only
  split
  · next valid =>
    rw [vget_vset]
    split
    next same => rw [same.1, valid]
    · rfl
  · rfl
theorem State.spend_valid (a n : Nat) : (vget (s.spend a).fabric.peers n Peer.empty).valid = (vget s.fabric.peers n Peer.empty).valid := by
  unfold State.spend
  split
  · rw [State.owe_valid, State.spendTo_valid]
  · rfl
theorem State.spend_readFault (p : ProcId) (a b n : Nat) : (s.spend a).readFault p b n = s.readFault p b n := by
  have way : (s.spend a).wayFault b = s.wayFault b := by
    have region : (s.spend a).region b = s.region b := by rw [spend_eq]; rfl
    have tile (l : Nat) : (s.spend a).getTile l = s.getTile l := by rw [spend_eq]; rfl
    simp only [State.wayFault, region, tile, State.spend_valid]
  rw [State.readFault, State.readFault, way]
  rw [spend_eq]
  rfl
theorem State.spend_readNat (a b n : Nat) : (s.spend a).readNat b n = s.readNat b n := by
  rw [← State.leNat_readBytes, ← State.leNat_readBytes, spend_eq]
  rfl

/-! ## The bytes an atomic reaches -/

theorem regionOf_port {m : BitVec 6} {a l o : Nat} (port : regionOf m a = .port l o) : fld a 52 1 ≠ 0 ∧ fld a 48 4 = 2 := by
  unfold regionOf at port
  split at port
  · split at port
    · cases port
    next r range =>
      split at port
      · subst port
        unfold globalRange at range
        split_ifs at range <;> cases range
      · cases port
  next high =>
    refine ⟨high, ?_⟩
    split at port
    · split at port <;> cases port
    · split at port <;> cases port
    next window => exact window
    · cases port
theorem regionOf_window2 {m : BitVec 6} {a : Nat} (high : fld a 52 1 ≠ 0) (window : fld a 48 4 = 2) : (regionOf m a).amoOk = false := by
  rw [regionOf, if_neg high, window]
  show Region.amoOk (if fld a 16 22 = 0 then .port (windowLcid a) (fld a 0 16) else .none) = false
  split <;> rfl
/-- Within an aligned access that an atomic may make no byte is a port's. -/
theorem State.region_not_port {a i l o : Nat} {asz : Asz} (ok : (s.region a).amoOk = true) (align : a % asz.bytes = 0) (inside : i < asz.bytes) :
    s.region (a + i) ≠ .port l o := by
  intro port
  obtain ⟨high, window⟩ := regionOf_port port
  have same : (a + i) / 2 ^ 48 = a / 2 ^ 48 := by
    cases asz <;> simp only [Asz.bytes] at align inside <;> omega
  have above : fld (a + i) 52 1 = fld a 52 1 := by
    simp only [fld, show (2 : Nat) ^ 52 = 2 ^ 48 * 2 ^ 4 from rfl, ← Nat.div_div_eq_div_mul, same]
  have at_ : fld (a + i) 48 4 = fld a 48 4 := by simp only [fld, same]
  rw [above] at high
  rw [at_] at window
  rw [State.region, regionOf_window2 high window] at ok
  cases ok
/-- A range that meets no sealed line has no byte in one. -/
theorem State.lineOf_none_of_linesOf {t : Team} {a n i : Nat} (plain : s.linesOf t a n = []) (inside : i < n) : s.lineOf t (a + i) = none := by
  by_contra sealed
  obtain ⟨q, hq⟩ := Option.ne_none_iff_exists'.1 sealed
  have member : q.1 ∈ s.linesOf t a n :=
    List.mem_eraseDups.2 (List.mem_filterMap.2 ⟨i, List.mem_range.2 inside, by rw [hq]; rfl⟩)
  rw [plain] at member
  cases member
/-- Outside ports and sealed lines a byte reads as memory has it. -/
theorem State.byteFor_plain {p : ProcId} {a n i : Nat} (plain : s.linesAt p a n = []) (inside : i < n) (other : ∀ l o, s.region (a + i) ≠ .port l o) :
    s.byteFor p (a + i) = memGet s.mem (a + i) := by
  unfold State.byteFor
  split
  next l o port => exact absurd port (other l o)
  · split
    next t team =>
      rw [State.linesAt, team] at plain
      rw [State.teamByte, State.lineOf_none_of_linesOf plain inside]
    · rfl
theorem readNat_eq_memNat {a n : Nat} (bytes : ∀ i, i < n → s.byteAt (a + i) = memGet s.mem (a + i)) : s.readNat a n = memNat s.mem a n := by
  induction n generalizing a with
  | zero => rfl
  | succ n ih =>
    rw [State.readNat, memNat, ih fun i hi => ?_]
    · have first := bytes 0 n.succ_pos
      rw [Nat.add_zero] at first
      rw [first]
    · have next := bytes (i + 1) (Nat.succ_lt_succ hi)
      rwa [show a + (i + 1) = a + 1 + i by omega] at next

/-! ## The step at the home -/

theorem length_cellsOf (a x n : Nat) : (cellsOf a x n).length = n := by rw [cellsOf_eq, List.length_map, List.length_range']
theorem cellsOf_outside {a x n b : Nat} (outside : b < a ∨ a + n ≤ b) : ∀ c ∈ cellsOf a x n, c.1 ≠ b := by
  intro c hc
  rw [cellsOf_eq, List.mem_map] at hc
  obtain ⟨d, hd, rfl⟩ := hc
  obtain ⟨i, hi, rfl⟩ := List.mem_range'.1 hd
  dsimp only
  omega
theorem Region.eccSize_pos (r : Region) : 0 < r.eccSize := by cases r <;> exact Nat.succ_pos _
/-- A range that meets no failing unit mends none. -/
theorem State.mended_of_sound {a n : Nat} (none : s.badUnits a n = []) : s.mended a n = s.bad := by
  rw [State.mended, List.filter_eq_self]
  intro u hu
  have apart : ¬ (overlaps a n u (s.region u).eccSize = true) := by
    have := List.filter_eq_nil_iff.1 none u hu
    exact this
  have wide := (s.region u).eccSize_pos
  simp only [overlaps, decide_eq_true_eq] at apart
  simp only [Bool.not_eq_true', decide_eq_false_iff_not]
  omega
theorem State.sound_of_readFault {p : ProcId} {a n : Nat} (sound : s.readFault p a n = none) : s.badHeld p a n = false := by
  unfold State.readFault at sound
  split at sound
  · cases sound
  · split_ifs at sound with refused bad
    simpa using bad
section
variable {a n : Nat} (plain : s.linesAt s.cur a n = []) (sound : s.readFault s.cur a n = none)
include plain sound
/-- A write over a range that reads its bytes changes memory alone. -/
theorem State.putCells_over (x : Nat) : s.putCells s.cur a (cellsOf a x n) = { s with mem := memPut s.mem (cellsOf a x n) } := by
  have held := State.sound_of_readFault sound
  rw [State.badHeld, plain] at held
  simp only [Bool.or_eq_false_iff, bne_eq_false_iff_eq] at held
  obtain ⟨whole, ready⟩ := held
  rw [State.putCells_plain] <;> rw [length_cellsOf]
  · rw [State.mended_of_sound whole]
  · exact plain
  · exact ready
  · rw [State.keptOut, whole]
    rfl
/-- What an atomic leaves where the range is no sealed line's: g[d] has the old value, and the range the new one. -/
theorem State.amoStep_plain (canonical : s.memOk = true) (bytes : s.readNat a n = memNat s.mem a n) (op : AmoOp) (d : GReg) (ext : Bool) (v w : Word) :
    ∃ m, s.amoStep op d ext a n v w = ({ s with mem := m } : State).wrG d (loadedAs ext n (s.readNat a n)) ∧
      memNat m a n = (amoNew op n (s.readNat a n) (v.toNat % 2 ^ (8 * n)) (w.toNat % 2 ^ (8 * n))).getD (s.readNat a n) % 2 ^ (8 * n) ∧
      ∀ b, b < a ∨ a + n ≤ b → memGet m b = memGet s.mem b := by
  simp only [State.amoStep, extended_eq_loadedAs]
  cases amoNew op n (s.readNat a n) (v.toNat % 2 ^ (8 * n)) (w.toNat % 2 ^ (8 * n)) with
  | none => exact ⟨s.mem, rfl, by rw [Option.getD_none, Nat.mod_eq_of_lt (s.readNat_lt a n), bytes], fun b _ => rfl⟩
  | some y =>
    refine ⟨memPut s.mem (cellsOf a y n), congrArg (State.wrG · d _) (State.putCells_over plain sound y), ?_, fun b outside => ?_⟩
    · rw [memNat_memPut_cellsOf canonical, Option.getD_some, Nat.pow_mul]
    · exact memGet_memPut_of_not_mem _ canonical b (cellsOf_outside outside)
end
theorem State.rdG_wrG (s : State) (r : GReg) (x : Word) : (s.wrG r x).rdG r = if r = 0 then 0 else x := by
  split
  next zero => rw [zero]; rfl
  next other => exact State.rdG_wrG_same s r x other
/-- On a sealed line the old value is read, and every byte outside the line is kept. -/
theorem State.amoStep_sealed {a n l : Nat} (lines : s.linesAt s.cur a n = [l]) (canonical : s.memOk = true) (op : AmoOp) (d : GReg)
    (ext : Bool) (v w : Word) :
    (s.amoStep op d ext a n v w).rdG d = (if d = 0 then 0 else loadedAs ext n (s.readNat a n)) ∧
    ∀ b, b < l ∨ l + 64 ≤ b → memGet (s.amoStep op d ext a n v w).mem b = memGet s.mem b := by
  simp only [State.amoStep, extended_eq_loadedAs]
  refine ⟨State.rdG_wrG _ _ _, fun b outside => ?_⟩
  rw [State.wrG_mem]
  split
  · exact State.putCells_sealed (by rw [length_cellsOf]; exact lines) canonical outside
  · rfl

/-! ## An atomic up to its step -/

theorem Recounted.countAmo (s : State) (p : ProcId) (a n : Nat) : Recounted s (s.countAmo p a n) := by
  have memory (s : State) : Recounted s (s.countMemory p a n) := by
    unfold State.countMemory
    split
    · exact .countOf _ _ _ _ _
    · exact .countOf _ _ _ _ _
    · exact .countOf _ _ _ _ _
    · exact .refl s
  exact ((Recounted.countOf s p 1 0 n).trans (memory _)).trans (.countBytes _ _ _ _ _)
theorem State.atIssue_countAmo (kind : WaitKind) (a n : Nat) :
    s.atIssue kind (fun t => t.countAmo t.cur a n) = s.atIssue kind (fun t => t.countAmo s.cur a n) := rfl
theorem Recounted.peerAt {s t : State} (h : Recounted s t) (a : Nat) : t.peerAt a = s.peerAt a := by
  simp only [State.peerAt, h.region, h.fabric]
theorem Recounted.linesAt {s t : State} (h : Recounted s t) (p : ProcId) (a n : Nat) : t.linesAt p a n = s.linesAt p a n := by
  have lines (u : Team) : t.linesOf u a n = s.linesOf u a n := by rw [h.rest]; rfl
  simp only [State.linesAt, h.teamOf, lines]
theorem State.done_core_eq (s : State) (n : Nat) : (s.done n).core = { s.core with pc := (s.done n).core.pc, wait := none } := by
  rw [State.done, State.advance]
  split <;> rw [State.retire_core]
theorem State.rdG_done (s : State) (n : Nat) (r : GReg) : (s.done n).rdG r = s.rdG r := by
  rw [State.rdG, State.done_core_eq]
  rfl

section
variable {x : OpMemG} (pass : s.guard x.q = true) (reach : s.reaches x.m x.asz Region.amoOk) (align : s.ea x.m x.asz % x.asz.bytes = 0)
  (waits : s.goesOn = false) (none_ : s.core.load = none) (alone : s.core.lates = [])
  (free : s.mustWait [s.ea x.m x.asz] x.asz.bytes x.ord x.sco = false)
include pass reach align waits none_ alone free
/-- Towards another module the message leaves first, where the machine is not eager. -/
theorem amo_sends (op : AmoOp) (lazy : s.eager = false) (peer : s.peerAt (s.ea x.m x.asz) ≠ none) :
    let u := (s.atIssue .load (fun t => t.countAmo s.cur (s.ea x.m x.asz) x.asz.bytes)).spend (s.ea x.m x.asz)
    amo op x s = .next (State.waits
      { u with core := { u.core with load := some (amoSent (s.ea x.m x.asz) x.asz.bytes x.ord x.sco) } } .load 0) := by
  intro u
  have counted : Recounted s (s.atIssue .load (fun t => t.countAmo s.cur (s.ea x.m x.asz) x.asz.bytes)) :=
    .atIssue s .load fun t => .countAmo t s.cur _ _
  rw [amo, guarded_pass _ pass, checked_pass _ reach fun _ => align]
  simp only [State.atIssue_countAmo, counted.goesOn, waits, counted.core, none_, counted.mustWait, free, alone, counted.eager, lazy, counted.peerAt,
    Option.isSome_iff_ne_none.2 peer, Bool.false_eq_true, if_false, List.isEmpty_nil, Bool.not_true, Bool.or_false, Bool.not_false,
    Bool.and_self, if_true, stay_eq]
  rfl
/-- Else it takes its step at its home. -/
theorem amo_steps (op : AmoOp) (way : s.eager = true ∨ s.peerAt (s.ea x.m x.asz) = none)
    (sound : s.readFault s.cur (s.ea x.m x.asz) x.asz.bytes = none) :
    amo op x s = .next ((((s.atIssue .load (fun t => t.countAmo s.cur (s.ea x.m x.asz) x.asz.bytes)).spend (s.ea x.m x.asz)).amoStep op x.d x.ext
      (s.ea x.m x.asz) x.asz.bytes (s.rdG x.d) (s.rdG (x.d + 1))).done 8) := by
  have counted : Recounted s (s.atIssue .load (fun t => t.countAmo s.cur (s.ea x.m x.asz) x.asz.bytes)) :=
    .atIssue s .load fun t => .countAmo t s.cur _ _
  have stays : (!s.eager && (s.peerAt (s.ea x.m x.asz)).isSome) = false := by
    rcases way with eager | here
    · simp [eager]
    · simp [here]
  rw [amo, guarded_pass _ pass, checked_pass _ reach fun _ => align]
  simp only [State.atIssue_countAmo, counted.goesOn, waits, counted.core, none_, counted.mustWait, free, alone, counted.eager, counted.peerAt, stays, amoHome,
    Bool.false_eq_true, if_false, List.isEmpty_nil, Bool.not_true, Bool.or_false]
  have regs (r : GReg) : ((s.atIssue .load (fun t => t.countAmo s.cur (s.ea x.m x.asz) x.asz.bytes)).spend (s.ea x.m x.asz)).rdG r = s.rdG r := by
    rw [State.rdG, spend_eq, State.rdG]
    simp only [counted.core]
  have cur : ((s.atIssue .load (fun t => t.countAmo s.cur (s.ea x.m x.asz) x.asz.bytes)).spend (s.ea x.m x.asz)).cur = s.cur := by
    rw [spend_eq]
    exact counted.cur
  rw [cur, State.spend_readFault, counted.readFault, sound]
  simp only [regs, complete_eq]
end

/-- Settles O29: an atomic is its one step at the home, which `State.amoStep_plain` and `State.amoStep_sealed` describe. -/
theorem atomicResults : Obligations.AtomicResults := by
  unfold Obligations.AtomicResults
  intro x s pass reach a n w u amos canonical align waits none_ alone free
  have member {P : Instr → Prop} (each : ∀ i op, exec i s = amo op x s → P i) : ∀ i ∈ amos, P i := by
    simp only [amos, List.forall_mem_cons, List.not_mem_nil, false_implies, implies_true, and_true]
    exact ⟨each _ .add rfl, each _ .and rfl, each _ .or rfl, each _ .xor rfl, each _ .min rfl, each _ .max rfl, each _ .minn rfl,
      each _ .maxn rfl, each _ .swp rfl, each _ .cas rfl, each _ .fadd rfl, each _ .inc rfl⟩
  refine ⟨fun lazy peer => member fun i op run => ?_, fun way sound => ?_⟩
  · exact run.trans (amo_sends pass reach align waits none_ alone free op lazy peer)
  have counted : Recounted s u := .atIssue s .load fun t => .countAmo t s.cur _ _
  have cur : (u.spend a).cur = s.cur := by rw [spend_eq]; exact counted.cur
  have mem : (u.spend a).mem = s.mem := (State.spend_mem _).trans counted.mem
  have old : (u.spend a).readNat a n = s.readNat a n := (State.spend_readNat _ _ _).trans (counted.readNat _ _)
  have lines : (u.spend a).linesAt (u.spend a).cur a n = s.linesAt s.cur a n := by
    rw [cur, spend_eq]
    exact counted.linesAt _ _ _
  have steps (op : AmoOp) := amo_steps pass reach align waits none_ alone free op way sound
  intro m v int is
  refine ⟨fun l line => member fun i op run => ?_, fun plain => ?_⟩
  · obtain ⟨reg, outside⟩ := State.amoStep_sealed (s := u.spend a) (l := l) (by rw [lines]; exact line) (by rw [State.memOk, mem]; exact canonical) op
      x.d x.ext (s.rdG x.d) (s.rdG (x.d + 1))
    refine ⟨_, run.trans (steps op), ?_, fun b hb => ?_⟩
    · rw [State.rdG_done]
      exact reg.trans (by rw [old])
    · rw [State.done_mem, outside b hb, mem]
  have bytes : (u.spend a).readNat a n = memNat (u.spend a).mem a n := by
    rw [old, mem]
    exact readNat_eq_memNat fun i hi => State.byteFor_plain plain hi fun _ _ => State.region_not_port reach.2.1 align hi
  have each {i : Instr} {r : Nat} (op : AmoOp) (run : exec i s = amo op x s)
      (value : (amoNew op n m v ((s.rdG (x.d + 1)).toNat % 2 ^ w)).getD m % 2 ^ w = r) : is i r := by
    obtain ⟨m', state, range, outside⟩ := State.amoStep_plain (s := u.spend a) (lines.trans plain)
      (by rw [cur, State.spend_readFault, counted.readFault, sound]) (by rw [State.memOk, mem]; exact canonical) bytes op x.d x.ext (s.rdG x.d)
      (s.rdG (x.d + 1))
    rw [old] at state range
    have memory : ((((u.spend a).amoStep op x.d x.ext a n (s.rdG x.d) (s.rdG (x.d + 1)))).done 8).mem = m' := by
      rw [State.done_mem, state, State.wrG_mem]
    refine ⟨_, run.trans (steps op), ?_, ?_, fun b hb => ?_⟩
    · rw [memory]
      exact congrArg (State.done 8) state
    · exact (congrArg (memNat · a n) memory).trans (range.trans value)
    · rw [memory, outside b hb, mem]
  have small : m < 2 ^ w := s.readNat_lt a n
  have low : v < 2 ^ w := Nat.mod_lt _ (Nat.two_pow_pos _)
  have fits {y : Nat} (h : y < 2 ^ w) : y % 2 ^ w = y := Nat.mod_eq_of_lt h
  have signed (y : Nat) : intVal true w y = int y := intVal_signed w y
  refine ⟨each .add rfl (Nat.mod_mod _ _), each .and rfl (fits (Nat.and_lt_two_pow _ low)), each .or rfl (fits (Nat.or_lt_two_pow small low)),
    each .xor rfl (fits (Nat.xor_lt_two_pow small low)), each .min rfl ?_, each .max rfl ?_, each .minn rfl ?_, each .maxn rfl ?_,
    each .swp rfl (fits low), each .cas rfl ?_, each .fadd rfl ?_, each .inc rfl rfl⟩
  · show (if intVal true w m ≤ intVal true w v then m else v) % 2 ^ w = _
    rw [signed, signed, fits]
    split <;> assumption
  · show (if intVal true w m ≤ intVal true w v then v else m) % 2 ^ w = _
    rw [signed, signed, fits]
    split <;> assumption
  · show min m v % 2 ^ w = _
    rw [Nat.min_def, fits]
    split <;> assumption
  · show max m v % 2 ^ w = _
    rw [Nat.max_def, fits]
    split <;> assumption
  · show (if m = v then some ((s.rdG (x.d + 1)).toNat % 2 ^ w) else none).getD m % 2 ^ w = _
    split
    · exact Nat.mod_mod _ _
    · exact fits small
  · show amoFadd (if n = 4 then fpFp32 else fpFp64) m v % 2 ^ w = _
    have format : (if n = 4 then fpFp32 else fpFp64) = amoFp x.asz := by
      change (if x.asz.bytes = 4 then fpFp32 else fpFp64) = _
      cases x.asz <;> rfl
    rw [format]

end Sys2Proof.Machine
end

section
/-!
SUPPORT. The status of a command (R262, R267), and the issue of engine and collective commands (R258 to R260, R264, R265).
-/
namespace Sys2Proof.Machine
open Sys2Proof

variable {s : State}

/-! ## The engine record (R262) -/

/-- The processor in focus with its engine record cleared. -/
def State.told (s : State) : State := { s with core := { s.core with engRec := none } }
/-- Whether a core's engine record holds a command, which a report says in its ASYNC bit (R388). -/
def Core.recordIs (c : Core) (k : Cmd) : Bool := match c.engRec with | some r => r.handle == k.handle | none => false
/-- Whether the engine record holds a command. -/
def State.records (s : State) (k : Cmd) : Prop := ∃ r, s.core.engRec = some r ∧ r.handle = k.handle
section
variable {k : Cmd} {code : BitVec 8} {d : Word}
theorem State.statusRead_faulted (status : k.status = .faulted code d) (held : s.records k) : s.statusRead (some k) = s.told := by
  obtain ⟨r, record, same⟩ := held
  simp [State.statusRead, record, same, faultOf, status, State.told]
theorem State.statusRead_unrecorded (other : ¬ s.records k) : s.statusRead (some k) = s := by
  unfold State.statusRead
  split
  next r e record =>
    cases e
    exact if_neg fun h => other ⟨r, record, h.1⟩
  · rfl
theorem State.statusRead_sound (sound : ∀ code d, k.status ≠ .faulted code d) : s.statusRead (some k) = s := by
  have none : faultOf k = none := by
    unfold faultOf
    split
    next code d status => exact absurd status (sound code d)
    · rfl
  unfold State.statusRead
  split
  next e _ =>
    cases e
    simp [none]
  · rfl
theorem State.statusRead_none : s.statusRead none = s := rfl
end
/-- A status read that finds no recorded fault changes no record. -/
theorem State.statusRead_kept {c : Option Cmd} (other : ∀ k code d, c = some k → k.status = .faulted code d → ¬ s.records k) :
    s.statusRead c = s := by
  cases c with
  | none => rfl
  | some k =>
    by_cases sound : ∀ code d, k.status ≠ .faulted code d
    · exact State.statusRead_sound sound
    · push Not at sound
      obtain ⟨code, d, status⟩ := sound
      exact State.statusRead_unrecorded (other k code d rfl status)

/-! ## Status reads -/

section
variable {x : OpGG} (pass : s.guard x.q = true) (free : s.heldBack s.cur 0 0 .acq .self = false)
include pass free
theorem readStatus_eq : readStatus x s =
    .next (((s.statusRead (s.core.known (s.rdG x.a))).wrG x.d (statusWord (s.core.known (s.rdG x.a)))).done 16) := by
  rw [readStatus, guarded_pass _ pass]
  simp [acquired, free, complete_eq]
theorem awaitStatus_none (unknown : s.core.known (s.rdG x.a) = none) : awaitStatus x s = .next ((s.wrG x.d 3).done 16) := by
  rw [awaitStatus, guarded_pass _ pass]
  simp [acquired, free, unknown, complete_eq, statusWord]
variable {k : Cmd} (known : s.core.known (s.rdG x.a) = some k)
include known
theorem awaitStatus_done (status : k.status = .done) : awaitStatus x s = .next ((s.wrG x.d (statusWord (some k))).done 16) := by
  rw [awaitStatus, guarded_pass _ pass]
  simp [acquired, free, known, status, complete_eq]
theorem awaitStatus_waits (status : k.status = .pending) (lazy : s.eager = false) :
    awaitStatus x s = .next (s.waits (.engine k.handle) 0) := by
  rw [awaitStatus, guarded_pass _ pass]
  simp [acquired, free, known, status, lazy, stay_eq]
theorem awaitStatus_faulted {code : BitVec 8} {d : Word} (status : k.status = .faulted code d) : awaitStatus x s =
    trapAfter code d (s.core.recordIs k) true 16 (s.statusRead (some k)) := by
  rw [awaitStatus, guarded_pass _ pass]
  simp [acquired, free, known, status] <;> rfl
/-- A recorded fault is reported, and its record cleared. -/
theorem awaitStatus_recorded {code : BitVec 8} {d : Word} (status : k.status = .faulted code d) (held : s.records k) :
    awaitStatus x s = trapAfter code d true true 16 s.told := by
  rw [awaitStatus_faulted pass free known status, State.statusRead_faulted status held]
  obtain ⟨r, record, same⟩ := held
  simp [Core.recordIs, record, same]
/-- One that is not recorded is reported without ASYNC. -/
theorem awaitStatus_unrecorded {code : BitVec 8} {d : Word} (status : k.status = .faulted code d) (other : ¬ s.records k) :
    awaitStatus x s = trapAfter code d false true 16 s := by
  rw [awaitStatus_faulted pass free known status, State.statusRead_unrecorded other]
  have differs : s.core.recordIs k = false := by
    unfold Core.recordIs
    split
    next r record => exact beq_eq_false_iff_ne.2 fun same => other ⟨r, record, same⟩
    · rfl
  rw [differs]
end

/-- Settles O35: each status read by what the command it names has come to. -/
theorem commandStatus : Obligations.CommandStatus := by
  unfold Obligations.CommandStatus
  intro x s pass free c word done told holds
  have word_eq : word = statusWord c := rfl
  have run (op : Instr) {t : State} (e : exec op s = .next ((t.wrG x.d (statusWord c)).done 16)) : exec op s = .next ((t.wrG x.d word).done 16) :=
    e
  have read {t : State} (e : s.statusRead c = t) : readStatus x s = .next ((t.wrG x.d word).done 16) := by
    rw [readStatus_eq pass free]
    change Host.Outcome.next (((s.statusRead c).wrG x.d (statusWord c)).done 16) = _
    rw [e, word_eq]
  refine ⟨fun other => ?_, fun k code d known status held => ?_, fun ended => ?_, fun k known status lazy => ?_,
    fun k code d known status => ⟨fun held => ?_, fun other => ?_⟩⟩
  · have kept := read (State.statusRead_kept other)
    exact ⟨kept, kept⟩
  · have cleared := read (t := told) (by rw [known]; exact State.statusRead_faulted status held)
    exact ⟨cleared, cleared⟩
  · have answer : awaitStatus x s = .next ((s.wrG x.d word).done 16) := by
      rcases ended with unknown | ⟨k, known, status⟩
      · rw [word_eq, unknown]
        exact awaitStatus_none pass free unknown
      · rw [word_eq, known]
        exact awaitStatus_done pass free known status
    exact ⟨answer, answer⟩
  · have waits := awaitStatus_waits pass free known status lazy
    exact ⟨waits, waits⟩
  · have trap := awaitStatus_recorded pass free known status held
    exact ⟨trap, trap⟩
  · have trap := awaitStatus_unrecorded pass free known status other
    exact ⟨trap, trap⟩

/-! ## A new command (R258, R259) -/

/-- `t` is `s` with a new command last among those kept, and its handle in g[d]. -/
structure Issues (s t : State) (d : GReg) (w : CmdWork) (st : CmdStatus) : Prop where
  mem : t.mem = s.mem
  reg : t.rdG d = if d = 0 then 0 else s.core.handle.setWidth 64
  issued : t.core.issued = s.core.issued + 1
  last : ∃ c, t.core.cmds.getLast? = some c ∧ c.handle = s.core.handle ∧ c.work = w ∧ c.status = st

section
variable {t u : State} {d : GReg} {w : CmdWork} {st : CmdStatus}
/-- Only memory, the registers and the commands matter. -/
theorem Issues.of_same (h : Issues s t d w st) (mem : u.mem = t.mem) (regs : u.core.g = t.core.g) (issued : u.core.issued = t.core.issued)
    (cmds : u.core.cmds = t.core.cmds) : Issues s u d w st where
  mem := mem.trans h.mem
  reg := by rw [← h.reg, State.rdG, State.rdG, regs]
  issued := issued.trans h.issued
  last := by rw [cmds]; exact h.last
theorem Issues.of_core (h : Issues s t d w st) (mem : u.mem = t.mem) (core : u.core = t.core) : Issues s u d w st :=
  h.of_same mem (by rw [core]) (by rw [core]) (by rw [core])
theorem Issues.done (h : Issues s t d w st) (n : Nat) : Issues s (t.done n) d w st :=
  h.of_same (State.done_mem t n) (by rw [State.done_core_eq]) (by rw [State.done_core_eq]) (by rw [State.done_core_eq])
theorem State.wrG_core_issued (s : State) (r : GReg) (x : Word) : (s.wrG r x).core.issued = s.core.issued := by
  unfold State.wrG
  split <;> rfl
/-- A command issued once its handle stands in its register. -/
theorem Issues.addCmd (mem : t.mem = s.mem) (core : t.core = (s.wrG d (s.core.handle.setWidth 64)).core) : Issues s (t.addCmd w st) d w st where
  mem := mem
  reg := by
    rw [← State.rdG_wrG s d (s.core.handle.setWidth 64)]
    change (if d = 0 then (0 : Word) else vget t.core.g d.toNat 0) = _
    rw [core]
    rfl
  issued := by
    change t.core.issued + 1 = _
    rw [core, State.wrG_core_issued]
  last := by
    refine ⟨_, List.getLast?_concat, ?_, rfl, rfl⟩
    change t.core.handle = _
    rw [Core.handle, core, State.wrG_core_issued]
    rfl
/-- A report in the engine record leaves the command (R251). -/
theorem Issues.engineFaulted (h : Issues s t d w st) {p : ProcId} (cur : t.cur = p) (r : EngRec) : Issues s (t.engineFaulted p r) d w st := by
  subst cur
  unfold State.engineFaulted
  dsimp only
  split
  · refine h.of_same (State.setCore_mem _ _ _) ?_ ?_ ?_ <;> simp [State.setCore, State.getCore]
  · exact h.of_core (Recounted.countOf _ _ _ _ _).mem (Recounted.countOf _ _ _ _ _).core
/-- A command is accepted: it is pending where the extents grant its rows, and faulted where they do not grant its source (R260, R263). -/
theorem accept_issues (d : GReg) (w : CmdWork) (need needD : BitVec 4) : ∃ st, Issues s (accept d w need needD s) d w st ∧
    (s.firstUngranted need 0 w.srcChecked = none → s.firstUngranted needD 0 w.dstChecked = none → st = .pending) ∧
    (∀ o, s.firstUngranted need 0 w.srcChecked = some o → s.core.engRec = none →
      st = .faulted codeEngext (engextDetail s.core.handle 0 o) ∧
      (accept d w need needD s).core.engRec.map EngRec.handle = some s.core.handle) := by
  have fresh (st : CmdStatus) : Issues s (((s.wrG d (s.core.handle.setWidth 64)).progress).addCmd w st) d w st :=
    .addCmd (by rw [State.progress_mem, State.wrG_mem]) (State.progress_core _)
  have cur (st : CmdStatus) : (((s.wrG d (s.core.handle.setWidth 64)).progress).addCmd w st).cur = s.cur := by
    change ((s.wrG d (s.core.handle.setWidth 64)).progress).cur = s.cur
    rw [State.progress_cur, State.wrG_cur]
  unfold accept
  dsimp only
  cases src : s.firstUngranted need 0 w.srcChecked with
  | some o =>
    refine ⟨_, (fresh _).engineFaulted (cur _) _, fun granted => ?_, fun o' same first => ?_⟩
    · cases granted
    · obtain rfl : o = o' := Option.some.inj same
      refine ⟨rfl, ?_⟩
      have empty : ((((s.wrG d (s.core.handle.setWidth 64)).progress).addCmd w
          (.faulted codeEngext (engextDetail s.core.handle 0 o))).getCore s.cur).engRec = none := by
        rw [State.getCore, if_pos (cur _).symm]
        change ((s.wrG d (s.core.handle.setWidth 64)).progress).core.engRec = none
        rw [State.progress_core, State.wrG]
        split <;> exact first
      show (State.engineFaulted _ s.cur _).core.engRec.map EngRec.handle = _
      rw [State.engineFaulted_of_none empty, State.setCore, if_pos (cur _).symm]
      rfl
  | none =>
    cases dst : s.firstUngranted needD 0 w.dstChecked with
    | some o => exact ⟨_, (fresh _).engineFaulted (cur _) _, nofun, nofun⟩
    | none =>
      have counted (v : State) (a b n m : Nat) : Recounted v ((v.countBytes s.cur 0 a n).countBytes s.cur 1 b m) :=
        (Recounted.countBytes v _ _ _ _).trans (.countBytes _ _ _ _ _)
      exact ⟨_, (fresh .pending).of_core (counted _ _ _ _ _).mem (counted _ _ _ _ _).core, fun _ _ => rfl, nofun⟩
end

/-! ## Copies (R259, R260) -/

/-- The detail of a source's byte (R263). -/
theorem engextDetail_source (h : BitVec 16) (o : Nat) : engextDetail h 0 o = BitVec.ofNat 64 (h.toNat * 2 ^ 48 + o % 2 ^ 46) := by
  rw [engextDetail, Nat.zero_mul, Nat.add_zero, wNat]

theorem ptrsOk_pass {dst src : Word} {len : Nat} (k : State → Out) (dstOk : ptrOk dst = true) (srcOk : ptrOk src = true) :
    ptrsOk dst src len s k = k s := by
  simp [ptrsOk, dstOk, srcOk]
theorem whenRoom_pass (k : State → Out) (room : s.core.pending < 16) : whenRoom s k = k s := if_pos room
section
variable {d : GReg} {dst src : AReg} {n k : Nat} {ss ds : Int} {weights : Bool} {word : Nat} (room : s.core.pending < 16)
  (dstOk : ptrOk (s.rdA dst) = true) (srcOk : ptrOk (s.rdA src) = true) (fits : k < 2 ^ 32)
  (closed : weights = true → s.storeOpen (ptrAddr (s.rdA dst)) = false)
  (srcRows : s.rowOutside Region.engSrc (ptrAddr (s.rdA src)) ss n 0 k = none)
  (dstRows : s.rowOutside (if weights then Region.isWeights else Region.engDst) (ptrAddr (s.rdA dst)) ds n 0 k = none)
include room dstOk srcOk fits closed srcRows dstRows
theorem copyCmd_eq : copyCmd d dst src n k ss ds weights word s = complete 16
    (if (n == 0 || k == 0) = true then
      (s.wrG d (s.core.handle.setWidth 64)).addCmd (.copy (ptrAddr (s.rdA src)) (ptrAddr (s.rdA dst)) n k ss ds) .done
    else accept d (.copy (ptrAddr (s.rdA src)) (ptrAddr (s.rdA dst)) n k ss ds) 5 (if weights then 14 else 6) s) := by
  have free : (weights && s.storeOpen (ptrAddr (s.rdA dst))) = false := by
    cases weights with
    | false => rfl
    | true => exact closed rfl
  rw [copyCmd, ptrsOk_pass _ dstOk srcOk]
  simp only [srcRows, dstRows, ite_self, free, decide_eq_false (Nat.not_le.2 fits), Bool.false_eq_true, if_false, whenRoom_pass _ room]
  split <;> rfl
/-- What a copy's issue leaves: it is done when it moves no byte, pending when its rows are granted, and faulted where its source is not. -/
theorem copyCmd_issues : ∃ t st, copyCmd d dst src n k ss ds weights word s = .next t ∧
    Issues s t d (.copy (ptrAddr (s.rdA src)) (ptrAddr (s.rdA dst)) n k ss ds) st ∧
    (n = 0 ∨ k = 0 → st = .done) ∧
    (n ≠ 0 → k ≠ 0 → s.firstUngranted 5 0 (copyRows (ptrAddr (s.rdA src)) ss n k) = none →
      s.firstUngranted (if weights then 14 else 6) 0 (copyRows (ptrAddr (s.rdA dst)) ds n k) = none → st = .pending) ∧
    (n ≠ 0 → k ≠ 0 → ∀ o, s.firstUngranted 5 0 (copyRows (ptrAddr (s.rdA src)) ss n k) = some o → s.core.engRec = none →
      st = .faulted codeEngext (engextDetail s.core.handle 0 o) ∧ t.core.engRec.map EngRec.handle = some s.core.handle) := by
  rw [copyCmd_eq room dstOk srcOk fits closed srcRows dstRows]
  by_cases empty : n = 0 ∨ k = 0
  · have moves : (n == 0 || k == 0) = true := by simpa using empty
    rw [if_pos moves, complete_eq]
    refine ⟨_, .done, rfl, (Issues.addCmd (State.wrG_mem _ _ _) rfl).done 16, fun _ => rfl, fun hn hk => ?_, fun hn hk => ?_⟩
    all_goals exact absurd empty (not_or.2 ⟨hn, hk⟩)
  · have moves : ¬ (n == 0 || k == 0) = true := by simpa using empty
    obtain ⟨st, issues, pending, faulted⟩ := accept_issues (s := s) d (.copy (ptrAddr (s.rdA src)) (ptrAddr (s.rdA dst)) n k ss ds) 5
      (if weights then 14 else 6)
    rw [if_neg moves, complete_eq]
    refine ⟨_, st, rfl, issues.done 16, fun none => absurd none empty, fun _ _ => pending, fun _ _ o src first => ?_⟩
    rw [State.done_core_eq]
    exact faulted o src first
end

/-! ## Collectives (R264, R265) -/

theorem State.core_latch {α : Type} (f : Core → α) (latch : ∀ x n, f (Core.latched x n) = f x) (q : ProcId) (n : Nat) :
    f (s.setCore q ((s.getCore q).latched n)).core = f s.core := by
  unfold State.setCore State.getCore
  split
  · exact latch _ _
  · rfl
theorem Core.latched_eq (x : Core) (n : Nat) : x.latched n = { x with latch := (x.latched n).latch, latchAt := (x.latched n).latchAt } := by
  unfold Core.latched
  split <;> rfl
theorem Issues.latch {t : State} {d : GReg} {w : CmdWork} {st : CmdStatus} (h : Issues s t d w st) (q : ProcId) (n : Nat) :
    Issues s (t.setCore q ((t.getCore q).latched n)) d w st :=
  h.of_same (State.setCore_mem _ _ _) (State.core_latch Core.g (fun x n => by rw [Core.latched_eq]) q n)
    (State.core_latch Core.issued (fun x n => by rw [Core.latched_eq]) q n) (State.core_latch Core.cmds Core.latched_cmds q n)
/-- The command of a collective (R265, R266). -/
def State.collWork (s : State) (x : OpColl) : CmdWork :=
  .coll x.kind x.op x.level.toNat x.root.toNat (ptrAddr (s.rdA x.src)) (ptrAddr (s.rdA x.dst)) (s.rdG x.cnt).toNat (ptrFmt (s.rdA x.src))
    (vget s.core.colls x.level.toNat 0) (s.domainSize s.cur x.level.toNat) (s.rankOf s.cur x.level.toNat) ((Instr.coll x).encode.getD 1 0)
/-- Whether the first bytes of a command's ranges lie in the regions its engine reaches. -/
def State.reached (s : State) (ok : Region → Bool) (l : List (Nat × Nat)) : Prop :=
  ∀ a m, l.head? = some (a, m) → m ≠ 0 → s.rowOutside ok a 0 m 0 1 = none
theorem State.reached_head {ok : Region → Bool} {a m : Nat} (reached : s.reached ok [(a, m)]) :
    (if m = 0 then none else s.rowOutside ok a 0 m 0 1) = none := by
  by_cases empty : m = 0
  · exact if_pos empty
  · exact (if_neg empty).trans (reached a m rfl empty)
section
variable {x : OpColl} (pass : s.guard x.q = true)
include pass
theorem execColl_illegal (illegal : s.collIllegal x (s.rdA x.dst) (s.rdA x.src) (s.rdG x.cnt).toNat = true) :
    ∃ v, execColl x s = trapAt codeIllegal v 16 s := by
  rw [execColl, guarded_pass _ pass]
  exact ⟨_, if_pos illegal⟩
theorem execColl_issues (room : s.core.pending < 16) (dstOk : ptrOk (s.rdA x.dst) = true) (srcOk : ptrOk (s.rdA x.src) = true)
    (legal : s.collIllegal x (s.rdA x.dst) (s.rdA x.src) (s.rdG x.cnt).toNat = false)
    (src : s.reached Region.engSrc (s.collWork x).srcChecked) (dst : s.reached Region.engDst (s.collWork x).dstChecked)
    (srcGranted : s.firstUngranted 5 0 (s.collWork x).srcChecked = none) (dstGranted : s.firstUngranted 6 0 (s.collWork x).dstChecked = none) :
    ∃ t, execColl x s = .next t ∧ Issues s t x.d (s.collWork x) .pending := by
  obtain ⟨st, issues, pending, -⟩ := accept_issues (s := s) x.d (s.collWork x) 5 6
  obtain rfl := pending srcGranted dstGranted
  let counted : State := { accept x.d (s.collWork x) 5 6 s with core := { (accept x.d (s.collWork x) 5 6 s).core with
    colls := vset (accept x.d (s.collWork x) 5 6 s).core.colls x.level.toNat (vget (accept x.d (s.collWork x) 5 6 s).core.colls x.level.toNat 0 + 1) } }
  have kept : Issues s counted x.d (s.collWork x) .pending := issues.of_same rfl rfl rfl rfl
  refine ⟨_, ?_, (kept.latch (.coll s.cluster) s.cycle).done 16⟩
  rw [execColl, guarded_pass _ pass]
  dsimp only
  rw [legal, if_neg Bool.false_ne_true, ptrsOk_pass _ dstOk srcOk]
  simp only [CmdWork.srcChecked, CmdWork.dstChecked, State.reached_head src, State.reached_head dst, Option.or_none, whenRoom_pass _ room,
    complete_eq]
  rfl
end

section
variable {q : Guard} {d : GReg} {dst src : AReg} {len rows sstr dstr : GReg} (pass : s.guard q = true)
include pass
theorem execCpy_eq : ∃ word, execCpy ⟨q, d, dst, src, len⟩ s = copyCmd d dst src (s.rdG len).toNat 1 0 0 false word s :=
  ⟨_, guarded_pass _ pass⟩
theorem execCpyw_eq : ∃ word, execCpyw ⟨q, d, dst, src, len⟩ s = copyCmd d dst src (s.rdG len).toNat 1 0 0 true word s :=
  ⟨_, guarded_pass _ pass⟩
theorem execCpy2_eq : ∃ word, execCpy2 ⟨q, d, dst, src, len, rows, sstr, dstr⟩ s =
    copyCmd d dst src (s.rdG len).toNat (s.rdG rows).toNat (s.rdG sstr).toInt (s.rdG dstr).toInt false word s :=
  ⟨_, guarded_pass _ pass⟩
end

/-- Settles O34: a copy by `copyCmd_issues`, a collective by `execColl_issues`. -/
theorem commandIssue : Obligations.CommandIssue := by
  unfold Obligations.CommandIssue
  refine ⟨?_, ?_⟩
  · intro s q d dst src len rows sstr dstr pass room dstOk srcOk n h issues
    have copy {i : Instr} {k : Nat} {ss ds : Int} {toStore : Bool} 
        (run : ∃ word, exec i s = copyCmd d dst src n k ss ds toStore word s) : issues i k ss ds toStore := by
      obtain ⟨word, run⟩ := run
      intro fits closed srcRows dstRows
      obtain ⟨t, st, e, ⟨mem, reg, issued, c, last, handle, work, status⟩, done, pending, faulted⟩ :=
        copyCmd_issues (word := word) room dstOk srcOk fits closed srcRows dstRows
      subst status
      refine ⟨t, c, run.trans e, mem, reg, issued, last, handle, work, done, pending, fun hn hk o src first => ?_⟩
      obtain ⟨detail, record⟩ := faulted hn hk o src first
      exact ⟨detail.trans (congrArg _ (engextDetail_source _ o)), record⟩
    exact ⟨copy (execCpy_eq pass), copy (execCpyw_eq pass), copy (execCpy2_eq pass)⟩
  · intro x s pass room dstOk srcOk n lv h w reached
    refine ⟨fun legal src dst srcGranted dstGranted => ?_, execColl_illegal pass⟩
    obtain ⟨t, e, ⟨mem, reg, -, c, last, handle, work, status⟩⟩ := execColl_issues pass room dstOk srcOk legal src dst srcGranted dstGranted
    exact ⟨t, c, e, mem, reg, last, handle, work, status⟩

end Sys2Proof.Machine
end

section
/-!
SUPPORT. The weight store (R268 to R271) and the drain of the fabric (R272 to R275).
-/
namespace Sys2Proof.Machine
open Sys2Proof

variable {s : State}

/-! ## WLD (R268, R269) -/

theorem State.meetsWindow_idle (idle : s.core.load = none) (a n : Nat) : s.meetsWindow a n = (pieces a n).any (fun q => s.inWindow q.1) := by
  rw [State.meetsWindow, idle]
theorem Recounted.noStreams {t : State} (h : Recounted s t) : t.noStreams = s.noStreams := by
  have := congrArg (fun k => k.streams.all (fun c => !c.isBound)) h.uncounted
  exact this
/-- A WLD reads that waits for a window or meets none. -/
theorem wld_reads {x : OpWld} (idle : s.core.load = none)
    (clear : x.nowait = true → (pieces (s.ea x.m x.asz) x.asz.bytes).any (fun q => s.inWindow q.1) = false) :
    (x.nowait && s.meetsWindow (s.ea x.m x.asz) x.asz.bytes) = false := by
  rw [State.meetsWindow_idle idle]
  cases nowait : x.nowait with
  | false => rfl
  | true => exact clear nowait
section
variable {x : OpWld} (pass : s.guard x.q = true) (reach : s.reaches x.m x.asz Region.isWeights) (idle : s.core.load = none)
include pass reach idle
/-- In a window a WLD with `.nowait` clears its guard. -/
theorem execWld_window (nowait : x.nowait = true)
    (window : (pieces (s.ea x.m x.asz) x.asz.bytes).any (fun q => s.inWindow q.1) = true) :
    execWld x s = .next ((s.wrP x.q.gp false).done 8) := by
  have still : ({ s with core := { s.core with load := none } } : State) = s := by rw [← idle]
  rw [execWld, guarded_pass _ pass, checked_pass _ reach (by simp)]
  simp only [State.meetsWindow_idle idle, nowait, window, Bool.and_self, if_true, still, complete_eq]
variable (clear : x.nowait = true → (pieces (s.ea x.m x.asz) x.asz.bytes).any (fun q => s.inWindow q.1) = false)
include clear
theorem execWld_goesOn (late : s.goesOn = true) {r : GReg} {ext : Bool} (dst : x.d = .g r ext) :
    execWld x s = .next (((s.countBytes s.cur 0 (s.ea x.m x.asz) x.asz.bytes).issueLate
      (.ld (.g r) ext (if x.nowait then some x.q.gp else none)) (s.ea x.m x.asz) x.asz.bytes .rlx .self).done 8) := by
  rw [execWld, guarded_pass _ pass, checked_pass _ reach (by simp)]
  simp only [wld_reads idle clear, Bool.false_eq_true, if_false, wldDst, dst, late, complete_eq]
variable (now : s.readsNow [s.ea x.m x.asz] x.asz.bytes .rlx .self)
include now
/-- A read that performs at once writes a g register as LD does. -/
theorem execWld_g {r : GReg} {ext : Bool} (dst : x.d = .g r ext) :
    execWld x s = .next ((((s.atIssue .load (fun t => t.countReads x.asz.bytes [s.ea x.m x.asz])).spendAll [s.ea x.m x.asz]).wrG r
      (loadedAs ext x.asz.bytes (s.readNat (s.ea x.m x.asz) x.asz.bytes))).done 8) := by
  rw [execWld, guarded_pass _ pass, checked_pass _ reach (by simp)]
  simp only [wld_reads idle clear, Bool.false_eq_true, if_false, wldDst, dst, State.goesOn_eager now.1, reading_one now, State.leNat_readBytes, wldWrite,
    extended_eq_loadedAs, complete_eq]
/-- A vector register takes the bytes with zeros above. -/
theorem execWld_v {r : VReg} (dst : x.d = .v r) (main : s.onMain = true) (free : s.noStreams = true) :
    execWld x s = .next ((((s.atIssue .load (fun t => t.countReads x.asz.bytes [s.ea x.m x.asz])).spendAll [s.ea x.m x.asz]).wrV r
      (BitVec.ofNat 512 (s.readNat (s.ea x.m x.asz) x.asz.bytes))).done 8) := by
  have free' : ((s.atIssue .load (fun t => t.countReads x.asz.bytes [s.ea x.m x.asz])).spendAll [s.ea x.m x.asz]).noStreams = true := by
    rw [spendAll_eq]
    exact (recounted_reads s _ _).noStreams.trans free
  rw [execWld, guarded_pass _ pass, checked_pass _ reach (by simp)]
  simp only [wld_reads idle clear, Bool.false_eq_true, if_false, wldDst, dst, main, Bool.not_true, State.goesOn_eager now.1, reading_one now,
    State.leNat_readBytes, wldWrite, boundSlot_of_noStreams free, boundSlot_of_noStreams free', complete_eq]
end

/-! ## Windows (R29, R270) -/

theorem execIwin_eq {x : OpIwin} (pass : s.guard x.q = true) (reach : s.reaches x.m .b Region.isWeights) :
    execIwin x s = .next ((s.wrG x.d (wNat (windowTime s.gtime (fld (s.ea x.m .b) 25 5)))).done 8) := by
  rw [execIwin, guarded_pass _ pass, checked_pass _ reach (by simp), complete_eq]
theorem execIntercalaryWindowEnd_eq {b : EvBank} (inside : s.gtime % 32000 / 1000 = b.grp) :
    execIntercalaryWindowEnd b s = .next { s with gtime := s.gtime / 1000 * 1000 + 1000 } := if_pos inside

/-! ## Markers (R273) -/

theorem mem_dropForward {port : Nat} {l : List Flight} {f : Flight} (member : f ∈ l) (own : f.own = true) : f ∈ dropForward port l := by
  induction l with
  | nil => cases member
  | cons y r ih =>
    unfold dropForward
    split
    next forwarded =>
      rcases List.mem_cons.1 member with rfl | later
      · rw [own] at forwarded
        cases forwarded.2
      · exact later
    · rcases List.mem_cons.1 member with rfl | later
      · exact List.mem_cons_self
      · exact List.mem_cons_of_mem _ (ih later)
/-- A flit of this module's own stays in its replay buffer when another leaves (R420). -/
theorem Fabric.mem_send {g : Fabric} {f : Flight} (member : f ∈ g.flights) (own : f.own = true) (port m tag : Nat) (c : Cargo) (bytes : List Byte)
    (n : Nat) : f ∈ (g.send port m tag c bytes n).flights := by
  unfold Fabric.send
  dsimp only
  refine List.mem_append_left _ ?_
  split
  · exact mem_dropForward member own
  · exact member

section
variable (m tag : Nat) (c : Cargo) (bytes : List Byte)
theorem State.sendTo_eq : s.sendTo m tag c bytes = { s with fabric := (s.sendTo m tag c bytes).fabric } := by
  unfold State.sendTo State.spendTo
  dsimp only
  split <;> rfl
theorem State.sendTo_own {f : Flight} (member : f ∈ s.fabric.flights) (own : f.own = true) : f ∈ (s.sendTo m tag c bytes).fabric.flights := by
  have spent : (s.spendTo m).fabric.flights = s.fabric.flights := by
    unfold State.spendTo
    dsimp only
    split <;> rfl
  unfold State.sendTo
  dsimp only
  split
  · exact Fabric.mem_send (by rw [spent]; exact member) own _ _ _ _ _ _
  · rw [spent]
    exact member
theorem State.sendTo_peers : (s.sendTo m tag c bytes).fabric.peers = (s.spendTo m).fabric.peers := by
  unfold State.sendTo
  dsimp only
  split <;> rfl
end
/-- A message spends one unit of its peer's allowance (R424). -/
theorem State.spendTo_allow {m : Nat} (n : Nat) (inside : m < 64) (valid : (vget s.fabric.peers m Peer.empty).valid = true) :
    (vget (s.spendTo m).fabric.peers n Peer.empty).allow =
      if n = m then (vget s.fabric.peers m Peer.empty).allow - 1 else (vget s.fabric.peers n Peer.empty).allow := by
  rw [State.spendTo, if_pos valid]
  dsimp only
  rw [vget_vset]
  by_cases same : n = m
  · rw [if_pos ⟨same, inside⟩, if_pos same]
  · rw [if_neg fun h => same h.1, if_neg same]
/-- The markers of an epoch, sent to some peers. -/
def State.sendMarkers (s : State) (e : BitVec 8) (l : List Nat) : State := l.foldl (fun s m => s.sendTo m s.tag (.marker s.cur e) []) s
theorem State.sendMarkers_cons (e : BitVec 8) (m : Nat) (r : List Nat) :
    s.sendMarkers e (m :: r) = (s.sendTo m s.tag (.marker s.cur e) []).sendMarkers e r := rfl
theorem State.sendMarkers_mem (e : BitVec 8) (l : List Nat) : (s.sendMarkers e l).mem = s.mem := by
  induction l generalizing s with
  | nil => rfl
  | cons m r ih => rw [State.sendMarkers_cons, ih, State.sendTo_mem]
theorem State.sendMarkers_own {e : BitVec 8} {f : Flight} (own : f.own = true) (l : List Nat) (member : f ∈ s.fabric.flights) :
    f ∈ (s.sendMarkers e l).fabric.flights := by
  induction l generalizing s with
  | nil => exact member
  | cons m r ih => exact ih (State.sendTo_own _ _ _ _ member own)
theorem State.sendMarkers_allow_other {e : BitVec 8} {n : Nat} {l : List Nat} (other : n ∉ l) :
    (vget (s.sendMarkers e l).fabric.peers n Peer.empty).allow = (vget s.fabric.peers n Peer.empty).allow := by
  induction l generalizing s with
  | nil => rfl
  | cons m r ih =>
    obtain ⟨differ, later⟩ := not_or.1 (mt List.mem_cons.2 other)
    rw [State.sendMarkers_cons, ih later, State.sendTo_peers, State.spendTo]
    split
    · exact congrArg Peer.allow (vget_vset_ne _ _ _ _ _ (Ne.symm differ))
    · rfl
/-- Each of the peers gets a marker, which spends one unit of its allowance. -/
theorem State.sendMarkers_each {e : BitVec 8} {n : Nat} {l : List Nat} (member : n ∈ l) (distinct : l.Nodup) (inside : ∀ m ∈ l, m < 64)
    (valid : ∀ m ∈ l, (vget s.fabric.peers m Peer.empty).valid = true) :
    (∃ f ∈ (s.sendMarkers e l).fabric.flights, f.peer = n ∧ f.cargo = .marker s.cur e) ∧
    (vget (s.sendMarkers e l).fabric.peers n Peer.empty).allow = (vget s.fabric.peers n Peer.empty).allow - 1 := by
  induction l generalizing s with
  | nil => cases member
  | cons m r ih =>
    obtain ⟨once, distinct⟩ := List.nodup_cons.1 distinct
    have first := valid m List.mem_cons_self
    rw [State.sendMarkers_cons]
    by_cases same : n = m
    · subst same
      obtain ⟨f, sent, peer, cargo⟩ := State.exists_flight_sendTo first s.tag (.marker s.cur e) []
      refine ⟨⟨f, State.sendMarkers_own (by rw [Flight.own, cargo]) r sent, peer, cargo⟩, ?_⟩
      rw [State.sendMarkers_allow_other once, State.sendTo_peers, State.spendTo_allow n (inside n List.mem_cons_self) first, if_pos rfl]
    · have later := (List.mem_cons.1 member).resolve_left same
      have cur : (s.sendTo m s.tag (.marker s.cur e) []).cur = s.cur := by rw [State.sendTo_eq]
      obtain ⟨flight, allow⟩ := ih (s := s.sendTo m s.tag (.marker s.cur e) []) later distinct
        (fun k hk => inside k (List.mem_cons_of_mem m hk)) fun k hk => by
          rw [State.sendTo_peers, State.spendTo_valid]
          exact valid k (List.mem_cons_of_mem m hk)
      rw [cur] at flight
      refine ⟨flight, allow.trans ?_⟩
      rw [State.sendTo_peers, State.spendTo_allow n (inside m List.mem_cons_self) first, if_neg same]
theorem State.mem_validPeers {m : Nat} : m ∈ s.validPeers ↔ m < 64 ∧ (vget s.fabric.peers m Peer.empty).valid = true := by
  rw [State.validPeers, List.mem_filter, List.mem_range]
theorem State.done_fabric (n : Nat) : (s.done n).fabric = s.fabric := by
  rw [State.done, State.advance]
  split <;> exact State.retire_fabric s
theorem execXmark_sends {x : OpEpoch} (pass : s.guard x.q = true) (sent : s.fabricSent = true) (light : s.fabric.dark = none)
    (open_ : ∀ m ∈ s.validPeers, s.fabric.opens (vget s.fabric.peers m Peer.empty) = true) :
    execXmark x s = .next ((s.sendMarkers x.e s.validPeers).done 8) := by
  have none_ : s.validPeers.any (fun m => !s.fabric.opens (vget s.fabric.peers m Peer.empty)) = false := by
    rw [List.any_eq_false]
    intro m hm
    simp [open_ m hm]
  rw [execXmark, guarded_pass _ pass]
  simp only [sent, if_true, light, none_, Bool.not_true, Option.isSome_none, Bool.or_self, Bool.false_eq_true, if_false, complete_eq]
  rfl

/-! ## XWAIT, XPEER and the arrival of markers (R273 to R275) -/

section
variable {x : OpXwait} (pass : s.guard x.q = true)
include pass
theorem execXwait_met (met : s.epochsInTime x.e = true) : execXwait x s = .next ((s.endSingle.wrP x.d true).done 8) := by
  rw [execXwait, guarded_pass _ pass]
  exact if_pos met
variable (open_ : s.epochsInTime x.e = false)
include open_
theorem execXwait_timedOut (elapsed : s.timedOut = true) : execXwait x s = .next ((s.endSingle.wrP x.d false).done 8) := by
  rw [execXwait, guarded_pass _ pass]
  simp only [open_, elapsed, Bool.true_or, Bool.false_eq_true, if_false, if_true, complete_eq]
theorem execXwait_waits (within : s.timedOut = false) (several : (s.onMain && s.singleTest) = false) :
    execXwait x s = .next (s.waits (.xwait x.d x.e) (s.rdG x.a).toNat) := by
  rw [execXwait, guarded_pass _ pass]
  simp only [open_, within, several, Bool.or_self, Bool.false_eq_true, if_false, stay_eq]
end
theorem State.peerWord_eq (i : Nat) : s.peerWord i = if 64 ≤ i then s.fabric.gen.toNat * 2 ^ 48 else
    (if (vget s.fabric.peers i Peer.empty).valid then 2 ^ 63 else 0) + s.fabric.gen.toNat * 2 ^ 48
      + (vget s.fabric.peers i Peer.empty).allow * 2 ^ 32 + (vget s.fabric.peers i Peer.empty).port.toNat * 2 ^ 8 + i := by
  have top : bit (vget s.fabric.peers i Peer.empty).valid * 2 ^ 63 = if (vget s.fabric.peers i Peer.empty).valid then 2 ^ 63 else 0 := by
    rw [bit, ite_mul, Nat.one_mul, Nat.zero_mul]
  rw [State.peerWord]
  dsimp only
  rw [top]
theorem execXpeer_eq {x : OpGG} (pass : s.guard x.q = true) :
    execXpeer x s = .next ((s.wrG x.d (wNat (s.peerWord (s.rdG x.a).toNat))).done 8) := by
  rw [execXpeer, guarded_pass _ pass, complete_eq]
theorem State.focus_core (p : ProcId) : (s.focus p).core = s.getCore p := by
  unfold State.focus
  dsimp only
  split
  · rfl
  · split <;> rfl
theorem State.focus_cycle (p : ProcId) : (s.focus p).cycle = s.cycle := by
  unfold State.focus
  dsimp only
  split
  · rfl
  · split <;> rfl
theorem execXwaitTimeout_ends {p : ProcId} {d : PReg} {e : BitVec 8} {since limit : Nat}
    (wait : (s.getCore p).wait = some ⟨.xwait d e, since, limit⟩) (running : (s.getCore p).running = true) (before : s.pastStop p = false)
    (limited : limit ≠ 0) (elapsed : since + limit < s.cycle) (open_ : (s.focus p).epochsInTime e = false) :
    execXwaitTimeout ⟨p⟩ s = .next (((s.focus p).wrP d false).done 8) := by
  have timedOut : (s.focus p).timedOut = true := by
    rw [State.timedOut, State.focus_core, wait, State.focus_cycle]
    simp [limited, elapsed]
  simp only [execXwaitTimeout, wait, timedOut, open_, State.focus_core, running, before, Bool.not_false, Bool.and_self, if_true, complete_eq]
theorem State.recordEpoch_eq {m : Nat} (e : BitVec 8) (inside : m < 64) (valid : (vget s.fabric.peers m Peer.empty).valid = true) :
    (vget (s.recordEpoch m e).fabric.peers m Peer.empty).epoch = some e ∧ (s.recordEpoch m e).mem = s.mem := by
  rw [State.recordEpoch, if_pos valid]
  exact ⟨by rw [vget_vset_same _ _ _ _ inside], rfl⟩

/-- Settles O33: WLD, IWIN and the drain, each by its own equation. -/
theorem weightsAndFabric : Obligations.WeightsAndFabric := by
  unfold Obligations.WeightsAndFabric
  refine ⟨⟨?_, ?_, ?_⟩, ?_, ?_, ?_, ?_, ?_⟩
  · intro x s pass reach idle a n window u
    refine ⟨fun clear now => ⟨fun r ext dst => ?_, fun r dst main free => ?_⟩, fun late clear r ext dst => ?_, fun nowait inside => ?_⟩
    · exact execWld_g pass reach idle (fun _ => clear) now dst
    · exact execWld_v pass reach idle (fun _ => clear) now dst main free
    · exact execWld_goesOn pass reach idle clear late dst
    · exact execWld_window pass reach idle nowait inside
  · intro x s pass reach
    exact execIwin_eq pass reach
  · intro s b inside
    refine ⟨_, execIntercalaryWindowEnd_eq inside, ?_, ?_, ?_⟩ <;> dsimp only <;> omega
  · intro x s pass sent light peers
    have open_ : ∀ m ∈ s.validPeers, s.fabric.opens (vget s.fabric.peers m Peer.empty) = true := by
      intro m hm
      obtain ⟨inside, valid⟩ := State.mem_validPeers.1 hm
      obtain ⟨units, room⟩ := peers m inside valid
      simp [Fabric.opens, light, units, room]
    refine ⟨_, execXmark_sends pass sent light open_, (State.done_mem _ _).trans (State.sendMarkers_mem _ _), fun m inside valid => ?_⟩
    rw [State.done_fabric]
    exact State.sendMarkers_each (State.mem_validPeers.2 ⟨inside, valid⟩) (List.nodup_range.filter _)
      (fun k hk => (State.mem_validPeers.1 hk).1) fun k hk => (State.mem_validPeers.1 hk).2
  · intro x s pass
    exact ⟨execXwait_met pass, execXwait_timedOut pass, execXwait_waits pass⟩
  · intro x s pass i q
    exact (execXpeer_eq pass).trans (by rw [State.peerWord_eq]; rfl)
  · intro s p d e since limit wait running before limited elapsed open_
    exact execXwaitTimeout_ends wait running before limited elapsed open_
  · intro s m inside valid
    exact ⟨_, rfl, State.recordEpoch_eq m.epoch inside valid⟩

end Sys2Proof.Machine
end

section
/-!
SUPPORT. O30, tile queues (R252, R253): a machine on which a push into a queue with room does not perform at once.
-/
namespace Sys2Proof.Machine
open Sys2Proof

/-! ## A pass of the tile the processor stands on -/

namespace PassElsewhere

/-- The main core of tile 1 issues, and its own accesses are behind a pass (R212). -/
def issuer : Core := { Core.empty with behind := some 0, a := vset Core.empty.a 1 (wNat (portAddr 1 0)) }
/-- The sequencer of tile 1 still has one pass to issue. -/
def repeating : Tile := { Tile.empty with rep := { Tile.empty.rep with count := 1 } }
/-- The machine stands on tile 0, whose sequencer is empty, while the main core of tile 1 issues. -/
def state : State := { State.reset with cur := .main 1, here := 0, eager := true, core := issuer, tiles := [(1, repeating)] }
/-- A push of g0 into queue 0 of tile 1. -/
def push : OpQue := ⟨.always, 0, 1, 0, .one, .self⟩
/-- What queue 8, the first of tile 1, holds after an outcome. -/
def queueAfter : Out → Option (List Word)
  | .next t => some (t.queue 8)
  | _ => none

/-- The state meets the invariant of the machine, which says nothing of the tile in focus. -/
theorem state_memOk : state.memOk = true := by decide +kernel
/-- The push names queue 0 of tile 1. -/
theorem push_names : (state.region (state.queueEa push.ab push.ix push.isc)).queue = some (1, 0) := by decide +kernel
/-- Its way is open, no fault stands on it and its home admits it. -/
theorem push_way : state.wayOpen (state.queueEa push.ab push.ix push.isc) = true ∧
    state.wayFault (state.queueEa push.ab push.ix push.isc) = none ∧
    state.admits state.cur (state.queueEa push.ab push.ix push.isc) = true := by decide +kernel
/-- No byte is kept from it, and its home has served nothing that would follow it. -/
theorem push_home : state.keptOut (state.queueEa push.ab push.ix push.isc) 8 = [] ∧
    state.afterHome (.queue 8) (pushPlace state.cur) = false := by decide +kernel
/-- The entry has not arrived: the push is behind the pass of tile 1. -/
theorem queueAfter_push : queueAfter (exec (.qpush push) state) = some [] := by decide +kernel

end PassElsewhere

/-- Refutes O30, in its clause on QPUSH. R212 holds a processor's accesses behind the passes its own tile's sequencer is still to issue; the
clause asks that the sequencer of the tile in focus be empty, and says nowhere that the processor stands on that tile. Where the main core of
tile 1 issues while the machine stands on tile 0, a pass of tile 1 holds the push back and the queue stays empty. -/
theorem not_queues : ¬ Obligations.Queues := by
  unfold Obligations.Queues
  rintro ⟨⟨pushes, -⟩, -⟩
  obtain ⟨open_, sound, admits⟩ := PassElsewhere.push_way
  obtain ⟨kept, inTurn⟩ := PassElsewhere.push_home
  obtain ⟨t, step, queue, -⟩ := pushes PassElsewhere.push PassElsewhere.state 1 0 0 rfl (by decide +kernel) PassElsewhere.push_names
    rfl rfl rfl rfl rfl (by decide +kernel) open_ sound admits kept inTurn (by decide +kernel) (by decide +kernel)
  have after := PassElsewhere.queueAfter_push
  rw [step] at after
  change some (t.queue 8) = some [] at after
  rw [Option.some.inj after] at queue
  exact absurd queue (by decide +kernel)

end Sys2Proof.Machine
end

section
/-!
SUPPORT. The key configuration and keyed sends (R255, R256).
-/
namespace Sys2Proof.Machine
open Sys2Proof

variable {s t : State}

/-! ## KCFG -/

section
variable {x : OpG} (pass : s.guard x.q = true)
include pass
theorem execKcfg_sets (ok : s.keyOk (s.rdG x.a) = true)
    (quiet : s.procs.any (fun p => (s.getCore p).pend.any (s.keyTo s.here)) = false) :
    execKcfg x s = .next (State.done 8 { s with tile := { s.tile with keycfg := s.rdG x.a } }) := by
  rw [execKcfg, guarded_pass _ pass]
  simp only [ok, quiet, Bool.not_true, Bool.false_and, Bool.false_eq_true, if_false, complete_eq]
theorem execKcfg_illegal (bad : s.keyOk (s.rdG x.a) = false) :
    execKcfg x s = trapAt codeIllegal (wNat ((Instr.kcfg x).encode.headD 0)) 8 s := by
  simp [execKcfg, guarded_pass _ pass, bad]
end

/-! ## The tile of a key's rank -/

namespace Recounted
variable (h : Recounted s t)
include h
theorem ownTeam : t.team = s.team := by
  have find (n : Nat) : t.findTeam n = s.findTeam n := by rw [h.rest]; rfl
  have num : t.teamNum = s.teamNum := by
    have own := congrArg Tile.team h.uncounted
    have tiles := h.team
    unfold State.teamNum
    rw [h.cur]
    split
    · exact own
    · exact own
    · exact tiles _
    · rfl
    · rfl
  rw [State.team, State.team, num, find]
theorem keycfg : t.tile.keycfg = s.tile.keycfg := by
  have := congrArg Tile.keycfg h.uncounted
  exact this
theorem membersOf (p : ProcId) (level : Nat) : t.membersOf p level = s.membersOf p level := by
  rw [State.membersOf, State.membersOf, h.teamOf]
theorem rankBase (p : ProcId) (level : Nat) : t.rankBase p level = s.rankBase p level := by
  rw [State.rankBase, State.rankBase, h.teamOf, h.membersOf]
theorem keyTarget (level rank bin : Nat) : t.keyTarget level rank bin = s.keyTarget level rank bin := by
  simp only [State.keyTarget, h.cur, h.membersOf, h.rankBase, h.keycfg, h.ownTeam]
end Recounted

/-! ## The updates of the active lanes -/

/-- The kind and the address of an access. -/
def Access.what (a : Access) : AccKind × Nat := (a.kind, a.addr)
/-- `t` holds the accesses of a list, in order, issued behind those of `s`, and the memory of `s`. -/
def Issued (s t : State) (l : List (AccKind × Nat)) : Prop :=
  t.mem = s.mem ∧ ∃ accs : List Access, t.core.pend = s.core.pend ++ accs ∧ accs.map Access.what = l

theorem Issued.refl (s : State) : Issued s s [] := ⟨rfl, [], by simp, rfl⟩
theorem Issued.trans {u : State} {l m : List (AccKind × Nat)} (h : Issued s t l) (k : Issued t u m) : Issued s u (l ++ m) := by
  obtain ⟨mem, accs, pend, what⟩ := h
  obtain ⟨mem', accs', pend', what'⟩ := k
  exact ⟨mem'.trans mem, accs ++ accs', by rw [pend', pend, List.append_assoc], by rw [List.map_append, what, what']⟩

/-- The state once an update has been issued and counted. -/
def State.keySent (s : State) (op bin : Nat) (v : BitVec 32) (a : Nat) : State :=
  (s.issueAccess (oneStep (.ksend op bin v) a 4 .rlx .self)).countBytes s.cur 1 a 4
section
variable (op bin : Nat) (v : BitVec 32) (a : Nat)
theorem State.keySent_issued : Issued s (s.keySent op bin v a) [(.ksend op bin v, a)] := by
  have counted := Recounted.countBytes (s.issueAccess (oneStep (.ksend op bin v) a 4 .rlx .self)) s.cur 1 a 4
  refine ⟨counted.mem, [{ oneStep (.ksend op bin v) a 4 .rlx .self with pc := s.core.pc.toNat, seq := s.core.seq }], ?_, rfl⟩
  rw [keySent, counted.core, State.issueAccess_scalar rfl]
theorem State.keySent_keyTarget (level rank n : Nat) : (s.keySent op bin v a).keyTarget level rank n = s.keyTarget level rank n :=
  (Recounted.countBytes _ _ _ _ _).keyTarget level rank n
end

/-- The tile-window address of a key's bin: its hash gives the rank (R256). -/
def State.keyAddr (s : State) (level nb size key : Nat) : Nat :=
  s.keyTarget level (key / nb * 0x9E3779B1 % 2 ^ 32 * size / 2 ^ 32) (key % nb)
theorem State.keySent_keyAddr (op bin : Nat) (v : BitVec 32) (a level nb size : Nat) :
    (s.keySent op bin v a).keyAddr level nb size = s.keyAddr level nb size :=
  funext fun _ => State.keySent_keyTarget _ _ _ _ _ _ _
/-- What the lane with a key and a value sends. -/
def State.keyUpdateOf (s : State) (level op nb size : Nat) (key value : Nat) : AccKind × Nat :=
  (.ksend op (key % nb) (BitVec.ofNat 32 value), s.keyAddr level nb size key)
theorem State.sendKeys_issued (level op nb size : Nat) (m : MaskWord) (key value : Nat → Nat) (n i : Nat) (s : State) :
    Issued s (s.sendKeys level op nb size m i ((List.range' i n).map key) ((List.range' i n).map value))
      (((List.range' i n).filter (fun j => m.getLsbD j)).map (fun j => s.keyUpdateOf level op nb size (key j) (value j))) := by
  induction n generalizing i s with
  | zero => exact .refl s
  | succ n ih =>
    rw [List.range'_succ, List.map_cons, List.map_cons, State.sendKeys]
    by_cases active : m.getLsbD i = true
    · have later := ih (i + 1) (s.keySent op (key i % nb) (BitVec.ofNat 32 (value i)) (s.keyAddr level nb size (key i)))
      simp only [State.keyUpdateOf, State.keySent_keyAddr] at later
      rw [if_pos active, List.filter_cons_of_pos active]
      exact (State.keySent_issued _ _ _ _).trans later
    · rw [if_neg active, List.filter_cons_of_neg active]
      exact ih (i + 1) s

/-! ## KSEND -/

/-- The types KSEND takes are of 32 bits. -/
theorem keyPair_width {et : Fmt} {op : Nat} (pair : keyPair et op = true) : et.width = 32 ∧ et.lanes = 16 := by
  have three : et = .i32 ∨ et = .n32 ∨ et = .fp32 := by
    unfold keyPair at pair
    split at pair <;> simp_all <;> tauto
  rcases three with rfl | rfl | rfl <;> exact ⟨rfl, rfl⟩
/-- The lanes of a source of 32-bit elements. -/
theorem State.lanesOf_srcVec {et : Fmt} (width : et.width = 32) (lanes : et.lanes = 16) (x : Src) :
    lanesOf 32 (s.srcVec et x) 16 = (List.range' 0 16).map (s.srcLane et x) := by
  have all := s.lanesIn_srcVec et x
  rwa [Fmt.lanesIn, width, lanes, List.range_eq_range'] at all
theorem execKsend_sends {x : OpKsend} (pass : s.guard x.q = true) (free : s.noStreams = true) (bins : keyNb s.tile.keycfg ≠ 0)
    (pair : keyPair x.et (keyOp s.tile.keycfg) = true) :
    ∃ t, execKsend x s = .next (t.done 8) ∧ Issued s t (((List.range' 0 16).filter (fun i => (s.rdW x.wm).getLsbD i)).map (fun i =>
      s.keyUpdateOf (keyLevel s.tile.keycfg) (keyOp s.tile.keycfg) (keyNb s.tile.keycfg) (s.domainSize s.cur (keyLevel s.tile.keycfg))
        (vlane .n32 (s.rdV x.keys) i) (s.srcLane x.et x.b i))) := by
  obtain ⟨width, lanes⟩ := keyPair_width pair
  have keys : lanesOf 32 (s.srcVec x.et (.v x.keys)) 16 = (List.range' 0 16).map (vlane .n32 (s.rdV x.keys)) :=
    State.lanesOf_srcVec (et := .n32) rfl rfl (.v x.keys)
  have sent := State.sendKeys_issued (keyLevel s.tile.keycfg) (keyOp s.tile.keycfg) (keyNb s.tile.keycfg)
    (s.domainSize s.cur (keyLevel s.tile.keycfg)) (s.rdW x.wm) (vlane .n32 (s.rdV x.keys)) (s.srcLane x.et x.b) 16 0 s
  rw [← keys, ← State.lanesOf_srcVec width lanes] at sent
  refine ⟨_, ?_, sent⟩
  have runs : doKsend x s = .ok () (s.sendKeys (keyLevel s.tile.keycfg) (keyOp s.tile.keycfg) (keyNb s.tile.keycfg)
      (s.domainSize s.cur (keyLevel s.tile.keycfg)) (s.rdW x.wm) 0 (lanesOf 32 (s.srcVec x.et (.v x.keys)) 16)
      (lanesOf 32 (s.srcVec x.et x.b) 16)) := by
    rw [doKsend, sources_eq free]
    exact if_neg (by simp [bins, pair])
  rw [execKsend, guarded_pass _ pass, runs]
  rfl

end Sys2Proof.Machine
end

section
/-!
SUPPORT. Steps of one piece at their homes: a keyed update's delivery (R236, R256) and SEV's set (R233, R291).
-/
namespace Sys2Proof.Machine
open Sys2Proof

variable {s : State} {p : ProcId} {i : Nat} {a : Access}

/-! ## A step that has no order with others at its home -/

/-- An access's step has no order at its home. -/
def Access.unordered (a : Access) : Prop := (∃ op bin v, a.kind = .ksend op bin v) ∨ (∃ stage, a.kind = .sev stage) ∨ a.kind = .pcnt
theorem Access.unordered.placeOf (h : a.unordered) (s : State) (p : ProcId) : s.placeOf p a = none := by
  rcases h with ⟨op, bin, v, kind⟩ | ⟨stage, kind⟩ | kind <;> rw [State.placeOf, kind]
theorem State.outOfTurn_unordered (h : a.unordered) : s.outOfTurn p a = false := by rw [State.outOfTurn, h.placeOf]
theorem State.stepTaken_unordered (h : a.unordered) : s.stepTaken p a = s := by rw [State.stepTaken, h.placeOf]
theorem State.mustSend_near (near : ∀ m, s.region a.addr ≠ .peer m) : s.mustSend a = none := by
  rw [State.mustSend, State.peerAt]
  split
  · rfl
  · split
    next m far => exact absurd far (near m)
    · rfl
section
variable (issued : (s.getCore p).pend[i]? = some a) (unperformed : a.performed = false) (may : s.mayPerform p i = true)
  (single : a.pieces = [[]]) (way : s.wayFault a.addr = none) (admitted : s.admits p a.addr = true)
include issued unperformed may single way admitted
theorem State.performPiece_unordered {t : State} (free : a.unordered) (near : ∀ m, s.region a.addr ≠ .peer m)
    (home : (s.accepted p a).atHome p a a.addr [] = (t, true)) : s.performPiece p i 0 = t.setPend p i (a.taken 0) := by
  have piece : a.pieces[0]? = some [] := by rw [single]; rfl
  rw [State.performPiece_taken issued unperformed may (State.outOfTurn_unordered free) (State.mustSend_near near) piece rfl way admitted home,
    State.stepTaken_unordered free]
end

section
variable {b l o : Nat} {cells : List Host.Cell} (way : (if a.paid then none else s.wayFault b) = none) (admitted : s.admits p b = true)
include way admitted
theorem State.atHome_ksend {op bin : Nat} {v : BitVec 32} (kind : a.kind = .ksend op bin v) (tile : s.region b = .scratch l o) :
    s.atHome p a b cells = (s.keyLand p l op bin v.toNat, true) := by
  simp [State.atHome, State.pcntRefused, kind, way, admitted, tile]
theorem State.atHome_sev {stage : Bool} (kind : a.kind = .sev stage) (port : s.region b = .port l o) (runs : s.tileStopped l = false) :
    s.atHome p a b cells = (if stage then s.eventStage l 0 else s.event l 0, true) := by
  simp [State.atHome, State.pcntRefused, kind, way, admitted, port, runs]
end

/-! ## A bin of a tile's scratchpad -/

theorem regionOf_high {m : BitVec 6} {b : Nat} (high : fld b 52 1 ≠ 0) : regionOf m b ≠ .hbm ∧ regionOf m b ≠ .lpddr := by
  rw [regionOf, if_neg high]
  split
  · split <;> exact ⟨Region.noConfusion, Region.noConfusion⟩
  · split <;> exact ⟨Region.noConfusion, Region.noConfusion⟩
  · split <;> exact ⟨Region.noConfusion, Region.noConfusion⟩
  · exact ⟨Region.noConfusion, Region.noConfusion⟩
theorem State.unready_high {b : Nat} (high : fld b 52 1 ≠ 0) (n : Nat) : s.unready b n = false := by
  obtain ⟨hbm, lpddr⟩ : s.region b ≠ .hbm ∧ s.region b ≠ .lpddr := regionOf_high high
  unfold State.unready
  split
  next r => exact absurd r hbm
  next r => exact absurd r lpddr
  · rfl
section
variable {l o : Nat} (tile : l < 1024) (inside : o < 2 ^ 20)
include tile inside
theorem scratchAddr_window : fld (scratchAddr l o) 52 1 = 1 ∧ fld (scratchAddr l o) 48 4 = 0 := by
  unfold fld scratchAddr windowBase
  omega
theorem State.sealable_scratch : s.sealable (scratchAddr l o) = false := by
  have window : scratchAddr l o / 2 ^ 48 % 16 = 0 := (scratchAddr_window tile inside).2
  have high : ¬ scratchAddr l o < 2 ^ 52 := by
    unfold scratchAddr windowBase
    omega
  rw [State.sealable, if_neg high, window]
  rfl
theorem State.lineOf_scratch (t : Team) : s.lineOf t (scratchAddr l o) = none := by
  rw [State.lineOf, State.sealable_scratch tile inside, Bool.and_false]
  rfl
/-- The scratchpad needs no training. -/
theorem State.unready_scratch (n : Nat) : s.unready (scratchAddr l o) n = false := by
  have high := (scratchAddr_window tile inside).1
  exact State.unready_high (by rw [high]; exact one_ne_zero) n
end
/-- Bytes of the scratchpad lie in no sealed line (R361). -/
theorem State.linesAt_scratch {l o n : Nat} (tile : l < 1024) (inside : o + n ≤ 2 ^ 20) : s.linesAt p (scratchAddr l o) n = [] := by
  unfold State.linesAt
  split
  next t team =>
    have none : (List.range n).filterMap (fun k => (s.lineOf t (scratchAddr l o + k)).map Prod.fst) = [] := by
      refine List.filterMap_eq_nil_iff.2 fun k hk => ?_
      have below := List.mem_range.1 hk
      rw [show scratchAddr l o + k = scratchAddr l (o + k) by rw [scratchAddr, scratchAddr, Nat.add_assoc], State.lineOf_scratch tile (by omega)]
      rfl
    rw [State.linesOf, none]
    rfl
  · rfl

/-! ## The delivery of an update -/

theorem execKsendDelivery_performs {op bin : Nat} {v : BitVec 32} (issued : (s.getCore p).pend[i]? = some a) (kind : a.kind = .ksend op bin v) :
    exec (.ksendDelivery ⟨p, i⟩) s = .next (s.performPiece p i 0) := by
  show execKsendDelivery ⟨p, i⟩ s = _
  simp [execKsendDelivery, issued, kind]
/-- An update that its tile takes is combined with its bin, and no other byte changes. -/
theorem State.keyLand_mem {l op bin v : Nat} (same : keyOp (s.getTile l).keycfg = op)
    (has : bin < keyNb (s.getTile l).keycfg) (tile : l < 1024) (fits : keyBase (s.getTile l).keycfg + 4 * bin + 4 ≤ 2 ^ 20)
    (whole : s.keptOut (scratchAddr l (keyBase (s.getTile l).keycfg + 4 * bin)) 4 = []) :
    (s.keyLand p l op bin v).mem = memPut s.mem (cellsOf (scratchAddr l (keyBase (s.getTile l).keycfg + 4 * bin))
      (keyUpdate op (memNat s.mem (scratchAddr l (keyBase (s.getTile l).keycfg + 4 * bin)) 4) v) 4) := by
  have takes : ¬ (keyNb (s.getTile l).keycfg = 0 ∨ keyOp (s.getTile l).keycfg ≠ op ∨ keyNb (s.getTile l).keycfg ≤ bin) := by
    rw [same]
    omega
  rw [State.keyLand, State.keyStep, if_neg takes]
  dsimp only
  rw [State.putCells_plain] <;> rw [length_cellsOf]
  · exact State.linesAt_scratch tile fits
  · exact State.unready_scratch tile (by omega) 4
  · exact whole

/-! ## SEV's set -/

theorem execSevSet_performs {stage : Bool} (issued : (s.getCore p).pend[i]? = some a) (kind : a.kind = .sev stage) :
    exec (.sevSet ⟨p, i⟩) s = .next (s.performPiece p i 0) := by
  show execSevSet ⟨p, i⟩ s = _
  simp [execSevSet, issued, kind]
/-- A set of the cycle in which the latch was consumed came first (R63). -/
theorem Core.latched_latch (c : Core) (now : Nat) : (c.latched now).latch = (c.latch || c.tookAt != some now) := by
  unfold Core.latched
  by_cases set : c.latch = true
  · rw [if_pos (.inl set), set]
    rfl
  · by_cases taken : c.tookAt = some now <;> simp [set, taken]
/-- The core whose latch a set of SEV reaches. -/
def sevTarget (stage : Bool) (l : Nat) : ProcId := if stage then .stage l else .main l
theorem State.sevSet_eq (stage : Bool) (l : Nat) : (if stage then s.eventStage l 0 else s.event l 0) =
    if (s.getCore (sevTarget stage l)).evmask.getLsbD 0 then
      s.setCore (sevTarget stage l) ((s.getCore (sevTarget stage l)).latched s.cycle) else s := by
  cases stage <;> rfl
theorem State.sevSet_mem (stage : Bool) (l : Nat) : (if stage then s.eventStage l 0 else s.event l 0).mem = s.mem := by
  rw [State.sevSet_eq]
  split
  · exact State.setCore_mem _ _ _
  · rfl
/-- The set reaches the latch where the event mask has SEV's bit. -/
theorem State.sevSet_latch (stage : Bool) (l : Nat) :
    ((if stage then s.eventStage l 0 else s.event l 0).getCore (sevTarget stage l)).latch =
      ((s.getCore (sevTarget stage l)).latch || ((s.getCore (sevTarget stage l)).evmask.getLsbD 0 &&
        (s.getCore (sevTarget stage l)).tookAt != some s.cycle)) := by
  rw [State.sevSet_eq]
  by_cases masked : (s.getCore (sevTarget stage l)).evmask.getLsbD 0 = true
  · rw [if_pos masked, State.getCore_setCore_same, Core.latched_latch, masked, Bool.true_and]
  · rw [if_neg masked, Bool.eq_false_iff.2 masked, Bool.false_and, Bool.or_false]
/-- An access that moves on leaves every latch. -/
theorem State.setPend_latch (q : ProcId) : ((s.setPend p i a).getCore q).latch = (s.getCore q).latch := by
  rw [State.setPend, State.getCore_setCore]
  split
  next same => rw [same]
  · rfl

end Sys2Proof.Machine
end

section
/-!
SUPPORT. The decrement of a TCB's predecessor counter at its home (R42–R44), in plain bytes and in a sealed line (R361, R362).
-/
namespace Sys2Proof.Machine
open Sys2Proof

variable {s : State} {p : ProcId} {i : Nat} {a : Access} {t : Team}

/-! ## What a unit of a team reads and writes -/

/-- The bytes of a range that meets no sealed line read as memory has them. -/
theorem State.teamNat_plain {b n : Nat} (plain : ∀ k, k < n → s.lineOf t (b + k) = none) : s.teamNat t b n = memNat s.mem b n := by
  induction n generalizing b with
  | zero => rfl
  | succ n ih =>
    have first := plain 0 n.succ_pos
    have rest := ih (b := b + 1) fun k hk => by
      rw [Nat.add_assoc, Nat.add_comm 1 k]
      exact plain (k + 1) (Nat.succ_lt_succ hk)
    rw [Nat.add_zero] at first
    rw [State.teamNat, memNat, rest, State.teamByte, first]
theorem State.teamNat_lt (s : State) (t : Team) (b n : Nat) : s.teamNat t b n < 256 ^ n := by
  induction n generalizing b with
  | zero => exact Nat.one_pos
  | succ n ih =>
    have first := (s.teamByte t b).isLt
    have rest := ih (b + 1)
    rw [State.teamNat, Nat.pow_succ]
    omega
/-- The lines that the cells of a number fall into are those its range meets. -/
theorem State.linesOf_cells (b v n : Nat) :
    ((cellsOf b v n).filterMap (fun c => (s.lineOf t c.1).map Prod.fst)).eraseDups = s.linesOf t b n := by
  rw [cellsOf_eq, List.filterMap_map, List.range'_eq_map_range, List.filterMap_map]
  rfl
theorem State.teamPut_plain {b n : Nat} (v : Nat) (plain : s.linesOf t b n = []) :
    s.teamPut t (cellsOf b v n) = { s with mem := memPut s.mem (cellsOf b v n) } := by
  have all : (cellsOf b v n).filter (fun c => (s.lineOf t c.1).isNone) = cellsOf b v n := by
    refine List.filter_eq_self.2 fun c hc => ?_
    rw [cellsOf_eq, List.mem_map] at hc
    obtain ⟨d, hd, rfl⟩ := hc
    obtain ⟨k, hk, rfl⟩ := List.mem_range'.1 hd
    dsimp only
    rw [Nat.one_mul, State.lineOf_none_of_linesOf plain hk]
    rfl
  unfold State.teamPut
  dsimp only
  rw [State.linesOf_cells, plain, all]
  rfl
/-- A write whose every byte lies in one sealed line changes no byte outside it. -/
theorem State.teamPut_sealed {b n l d : Nat} (v : Nat) (canonical : s.memOk = true) (lines : s.linesOf t b n = [l])
    (sealed : ∀ k, k < n → (s.lineOf t (b + k)).isSome = true) (outside : d < l ∨ l + 64 ≤ d) :
    memGet (s.teamPut t (cellsOf b v n)).mem d = memGet s.mem d := by
  have none : (cellsOf b v n).filter (fun c => (s.lineOf t c.1).isNone) = [] := by
    refine List.filter_eq_nil_iff.2 fun c hc => ?_
    rw [cellsOf_eq, List.mem_map] at hc
    obtain ⟨e, he, rfl⟩ := hc
    obtain ⟨k, hk, rfl⟩ := List.mem_range'.1 he
    dsimp only
    rw [Nat.one_mul, Option.isNone_eq_false_iff.2 (sealed k hk)]
    exact Bool.false_ne_true
  unfold State.teamPut
  dsimp only
  rw [State.linesOf_cells, lines, none]
  exact State.putLine_memGet 1024 t.num _ l d canonical outside

/-! ## A TCB without a fault -/

section
variable {b : Nat} (sound : tcbFault s t b = none)
include sound
theorem tcbFault_none : b % 64 = 0 ∧ t.mayUse b 64 = true := by
  unfold tcbFault at sound
  split at sound
  · cases sound
  next held => simpa using held
/-- One extent of the team holds the TCB, so all its bytes have a base. -/
theorem Team.baseOf_tcb {k : Nat} (inside : k < 64) : (t.baseOf (b + k)).isSome = true := by
  obtain ⟨x, hx, holds⟩ := List.any_eq_true.1 (tcbFault_none sound).2
  have below : x < 16 := List.mem_range.1 hx
  have at_ : vget t.ext x Extent.empty = t.ext[x] := by simp [vget, below]
  rw [at_] at holds
  simp only [Extent.holds, Extent.grants, Bool.and_eq_true, decide_eq_true_eq] at holds
  obtain ⟨⟨⟨valid, low, -⟩, -⟩, high⟩ := holds
  rw [Team.baseOf, Option.isSome_map, List.find?_isSome]
  refine ⟨t.ext[x], ?_, ?_⟩
  · exact Vector.mem_toList_iff.2 (Vector.getElem_mem below)
  · simp only [Bool.and_eq_true, decide_eq_true_eq]
    exact ⟨valid, by omega, by omega⟩
/-- Where one byte of a TCB lies in a sealed line, every one does. -/
theorem State.lineOf_tcb {j k : Nat} (first : j < 64) (second : k < 64) (sealed : (s.lineOf t (b + j)).isSome = true) :
    (s.lineOf t (b + k)).isSome = true := by
  have aligned := (tcbFault_none sound).1
  have same : s.sealable (b + k) = s.sealable (b + j) := by
    have p46 : (b + k) / 2 ^ 46 = (b + j) / 2 ^ 46 := by omega
    have p48 : (b + k) / 2 ^ 48 = (b + j) / 2 ^ 48 := by omega
    have p52 : b + k < 2 ^ 52 ↔ b + j < 2 ^ 52 := by omega
    simp only [State.sealable, p46, p48, p52]
  unfold State.lineOf at sealed ⊢
  rw [same]
  split at sealed
  next keeps =>
    rw [if_pos keeps, Option.isSome_map]
    exact Team.baseOf_tcb sound second
  · cases sealed
end

/-! ## The decrement -/

/-- A TCB's task becomes ready where its counter was 1 (R43). -/
def State.readiedAt (s : State) (t : Team) (b : Nat) (u : State) : Prop :=
  tcbPcnt s t b = 1 → ∃ r : ReadyItem, r.work = .task b ∧ r.team = t.num ∧ u.queued r
section
variable {l b : Nat} {w : Word} (found : s.findTeam t.num = some t) (sound : tcbFault s t b = none) (whole : s.badHeld p (b + 4) 2 = false)
include found sound whole
/-- A late decrement is counted. -/
theorem State.decrement_late (zero : tcbPcnt s t b = 0) : s.decrement p t.num l b w = s.countAt l 0 5 1 := by
  simp [State.decrement, found, sound, whole, zero]
theorem State.decrement_writes (more : 0 < tcbPcnt s t b) :
    (s.decrement p t.num l b w).mem = (s.teamPut t (cellsOf (b + 4) (tcbPcnt s t b - 1) 2)).mem ∧
    (s.decrement p t.num l b w).modid = (s.teamPut t (cellsOf (b + 4) (tcbPcnt s t b - 1) 2)).modid ∧
    s.readiedAt t b (s.decrement p t.num l b w) := by
  by_cases last : tcbPcnt s t b = 1
  · have value : s.decrement p t.num l b w =
        (s.teamPut t (cellsOf (b + 4) (tcbPcnt s t b - 1) 2)).makeReady t (clusterOf l) b := by
      simp [State.decrement, found, sound, whole, last]
    obtain ⟨ready, queued⟩ := (s.teamPut t (cellsOf (b + 4) (tcbPcnt s t b - 1) 2)).makeReady_readied t (clusterOf l) b
    rw [value]
    exact ⟨ready.mem, ready.modid, fun _ => queued⟩
  · have value : s.decrement p t.num l b w = s.teamPut t (cellsOf (b + 4) (tcbPcnt s t b - 1) 2) := by
      simp [State.decrement, found, sound, whole, last, Nat.ne_of_gt more]
    rw [value]
    exact ⟨rfl, rfl, fun one => absurd one last⟩
section
variable (more : 0 < tcbPcnt s t b) (canonical : s.memOk = true)
include more canonical
/-- In plain bytes the counter goes down by one, and no other byte changes. -/
theorem State.decrement_plain (plain : s.linesOf t (b + 4) 2 = []) :
    (∀ u : State, u.mem = (s.decrement p t.num l b w).mem → u.modid = (s.decrement p t.num l b w).modid →
      tcbPcnt u t b = tcbPcnt s t b - 1) ∧
    ∀ d, d < b + 4 ∨ b + 4 + 2 ≤ d → memGet (s.decrement p t.num l b w).mem d = memGet s.mem d := by
  obtain ⟨mem, modid, -⟩ := State.decrement_writes (l := l) (w := w) found sound whole more
  rw [State.teamPut_plain _ plain] at mem modid
  have kept : (s.decrement p t.num l b w).modid = s.modid := modid
  refine ⟨fun u memory number => ?_, fun d outside => ?_⟩
  · have same : u.linesOf t (b + 4) 2 = s.linesOf t (b + 4) 2 := by
      simp only [State.linesOf, State.lineOf_congr (number.trans kept)]
    have small : tcbPcnt s t b < 256 ^ 2 := State.teamNat_lt _ _ _ _
    rw [tcbPcnt, State.teamNat_plain fun _ => State.lineOf_none_of_linesOf (same.trans plain), memory, mem, memNat_memPut_cellsOf canonical, Nat.mod_eq_of_lt (by omega)]
  · rw [mem]
    exact memGet_memPut_of_not_mem _ canonical d (cellsOf_outside outside)
/-- In a sealed line no byte outside the line changes. -/
theorem State.decrement_sealed {m : Nat} (lines : s.linesOf t (b + 4) 2 = [m]) (d : Nat) (outside : d < m ∨ m + 64 ≤ d) :
    memGet (s.decrement p t.num l b w).mem d = memGet s.mem d := by
  obtain ⟨mem, -, -⟩ := State.decrement_writes (l := l) (w := w) found sound whole more
  have member : m ∈ s.linesOf t (b + 4) 2 := lines ▸ List.mem_singleton_self m
  obtain ⟨k, hk, line⟩ := List.mem_filterMap.1 (List.mem_eraseDups.1 member)
  have below := List.mem_range.1 hk
  have one : (s.lineOf t (b + (4 + k))).isSome = true := by
    rw [← Nat.add_assoc]
    obtain ⟨q, hq, -⟩ := Option.map_eq_some_iff.1 line
    rw [hq]
    rfl
  rw [mem]
  refine State.teamPut_sealed _ canonical lines (fun j hj => ?_) outside
  rw [Nat.add_assoc]
  exact State.lineOf_tcb sound (by omega) (by omega) one
end
end

/-! ## PCNT_DECREMENT -/

theorem State.setPend_modid (s : State) (p : ProcId) (i : Nat) (a : Access) : (s.setPend p i a).modid = s.modid := by
  unfold State.setPend State.setCore
  dsimp only
  split <;> rfl
/-- An access that moves on leaves the ready queues. -/
theorem State.setPend_queued {r : ReadyItem} (queued : s.queued r) : (s.setPend p i a).queued r := by
  simpa only [State.queued, State.setPend, State.getTile_setCore, State.getCluster_setCore] using queued

theorem execPcntDecrement_performs (issued : (s.getCore p).pend[i]? = some a) (kind : a.kind = .pcnt) :
    exec (.pcntDecrement ⟨p, i⟩) s = .next (s.performPiece p i 0) := by
  show execPcntDecrement ⟨p, i⟩ s = _
  simp [execPcntDecrement, issued, kind]
theorem State.atHome_pcnt {b l : Nat} {cells : List Host.Cell} (kind : a.kind = .pcnt) (tile : homeTile p = some l) (team : s.teamOf p = some t)
    (sound : tcbFault s t (b - 4) = none) (way : (if a.paid then none else s.wayFault b) = none) (admitted : s.admits p b = true) :
    s.atHome p a b cells = (s.decrement p t.num l (b - 4) (tcbRef t (b - 4)), true) := by
  have granted := (tcbFault_none sound).2
  simp [State.atHome, State.pcntRefused, State.pcntHome, kind, way, admitted, tile, team, granted]

end Sys2Proof.Machine
end

section
/-!
SUPPORT. O32, keys: each clause from the rules of its instruction or step.
-/
namespace Sys2Proof.Machine
open Sys2Proof

variable {s : State} {p : ProcId} {i : Nat} {a : Access}

/-! ## The clauses on steps -/

section
variable (issued : (s.getCore p).pend[i]? = some a) (unperformed : a.performed = false) (may : s.mayPerform p i = true)
  (single : a.pieces = [[]]) (way : s.wayFault a.addr = none) (admitted : s.admits p a.addr = true)
include issued unperformed may single way admitted

theorem ksendDelivery_combines {op bin l o : Nat} {v : BitVec 32} (kind : a.kind = .ksend op bin v) (tile : s.region a.addr = .scratch l o)
    (canonical : s.memOk = true) (same : keyOp (s.getTile l).keycfg = op) (has : bin < keyNb (s.getTile l).keycfg) (below : l < 1024)
    (fits : keyBase (s.getTile l).keycfg + 4 * bin + 4 ≤ 2 ^ 20)
    (whole : s.keptOut (scratchAddr l (keyBase (s.getTile l).keycfg + 4 * bin)) 4 = []) :
    ∃ t, exec (.ksendDelivery ⟨p, i⟩) s = .next t ∧
      memNat t.mem (scratchAddr l (keyBase (s.getTile l).keycfg + 4 * bin)) 4 =
        keyUpdate op (memNat s.mem (scratchAddr l (keyBase (s.getTile l).keycfg + 4 * bin)) 4) v.toNat % 2 ^ 32 ∧
      ∀ d, d < scratchAddr l (keyBase (s.getTile l).keycfg + 4 * bin) ∨ scratchAddr l (keyBase (s.getTile l).keycfg + 4 * bin) + 4 ≤ d →
        memGet t.mem d = memGet s.mem d := by
  have home := State.atHome_ksend (s := s.accepted p a) (p := p) (a := a) (b := a.addr) (cells := []) (l := l) (o := o)
    (State.accepted_way way) (State.accepted_admits.trans admitted) kind (by rw [State.accepted_eq]; exact tile)
  have step := State.performPiece_unordered issued unperformed may single way admitted (.inl ⟨op, bin, v, kind⟩)
    (fun m far => by rw [tile] at far; cases far) home
  have landed : ((s.accepted p a).keyLand p l op bin v.toNat).mem = memPut s.mem
      (cellsOf (scratchAddr l (keyBase (s.getTile l).keycfg + 4 * bin))
        (keyUpdate op (memNat s.mem (scratchAddr l (keyBase (s.getTile l).keycfg + 4 * bin)) 4) v.toNat) 4) := by
    rw [State.accepted_eq]
    exact State.keyLand_mem (s := { s with fabric := (s.accepted p a).fabric }) same has below fits whole
  refine ⟨_, (execKsendDelivery_performs issued kind).trans (congrArg _ step), ?_⟩
  rw [State.setPend_mem, landed]
  exact ⟨memNat_memPut_cellsOf canonical _ _ 4, fun d outside => memGet_memPut_of_not_mem _ canonical d (cellsOf_outside outside)⟩
theorem sevSet_latches {stage : Bool} {l o : Nat} (kind : a.kind = .sev stage) (port : s.region a.addr = .port l o)
    (runs : s.tileStopped l = false) :
    ∃ t, exec (.sevSet ⟨p, i⟩) s = .next t ∧ t.mem = s.mem ∧ (t.getCore (sevTarget stage l)).latch =
      ((s.getCore (sevTarget stage l)).latch ||
        ((s.getCore (sevTarget stage l)).evmask.getLsbD 0 && (s.getCore (sevTarget stage l)).tookAt != some s.cycle)) := by
  have home := State.atHome_sev (s := s.accepted p a) (p := p) (a := a) (b := a.addr) (cells := []) (l := l) (o := o)
    (State.accepted_way way) (State.accepted_admits.trans admitted) kind (by rw [State.accepted_eq]; exact port)
    (by rw [State.accepted_eq]; exact runs)
  have step := State.performPiece_unordered issued unperformed may single way admitted (.inr (.inl ⟨stage, kind⟩))
    (fun m far => by rw [port] at far; cases far) home
  refine ⟨_, (execSevSet_performs issued kind).trans (congrArg _ step), ?_, ?_⟩
  · rw [State.setPend_mem, State.sevSet_mem, State.accepted_eq]
  · rw [State.setPend_latch, State.sevSet_latch, State.accepted_eq]
    rfl
end

/-! ## The clauses on a decrement -/

section
variable {l : Nat} {tm : Team} (issued : (s.getCore p).pend[i]? = some a) (unperformed : a.performed = false)
  (may : s.mayPerform p i = true) (single : a.pieces = [[]]) (way : s.wayFault a.addr = none) (admitted : s.admits p a.addr = true)
  (kind : a.kind = .pcnt) (region : s.region a.addr = .hbm) (tile : homeTile p = some l) (team : s.teamOf p = some tm)
  (sound : tcbFault s tm (a.addr - 4) = none)
include issued unperformed may single way admitted kind region tile team sound
/-- The step of a decrement whose access is a TCB's counter. -/
theorem pcntDecrement_eq : ∃ f, exec (.pcntDecrement ⟨p, i⟩) s =
    .next ((({ s with fabric := f } : State).decrement p tm.num l (a.addr - 4) (tcbRef tm (a.addr - 4))).setPend p i (a.taken 0)) := by
  have at_ := State.accepted_eq (s := s) (p := p) (a := a)
  have home := State.atHome_pcnt (s := s.accepted p a) (p := p) (a := a) (b := a.addr) (cells := []) (l := l) (t := tm) kind tile
    (by rw [at_]; exact team) (by rw [at_]; exact sound) (State.accepted_way way) (State.accepted_admits.trans admitted)
  have step := State.performPiece_unordered issued unperformed may single way admitted (.inr (.inr kind))
    (fun m far => by rw [region] at far; cases far) home
  rw [at_] at step
  exact ⟨_, (execPcntDecrement_performs issued kind).trans (congrArg _ step)⟩
section
variable (found : s.findTeam tm.num = some tm) (whole : s.badHeld p a.addr 2 = false) (inside : 4 ≤ a.addr)
include found whole inside
theorem pcntDecrement_late (zero : tcbPcnt s tm (a.addr - 4) = 0) :
    ∃ t, exec (.pcntDecrement ⟨p, i⟩) s = .next t ∧ t.mem = s.mem ∧
      vget (t.getTile l).ctr 5 0 = satAdd (vget (s.getTile l).ctr 5 0) 1 ∧
      (∀ n, (t.getTile n).localQ = (s.getTile n).localQ) ∧ ∀ c, t.getCluster c = s.getCluster c := by
  obtain ⟨f, step⟩ := pcntDecrement_eq issued unperformed may single way admitted kind region tile team sound
  have counter : a.addr - 4 + 4 = a.addr := Nat.sub_add_cancel inside
  have late := State.decrement_late (s := { s with fabric := f }) (p := p) (t := tm) (l := l) (b := a.addr - 4)
    (w := tcbRef tm (a.addr - 4)) found sound (by rw [counter]; exact whole) zero
  rw [late] at step
  refine ⟨_, step, ?_, ?_, fun n => ?_, fun c => ?_⟩
  · rw [State.setPend_mem, State.countAt_mem]
  · rw [State.setPend, State.getTile_setCore, State.countAt, State.getTile_setTile_same]
    exact vget_vset_same _ _ _ _ (by decide)
  · rw [State.setPend, State.getTile_setCore, State.countAt, State.getTile_setTile]
    split
    next same => rw [same]; rfl
    · rfl
  · rw [State.setPend, State.getCluster_setCore, State.countAt, State.getCluster_setTile]
    rfl
section
variable (canonical : s.memOk = true) (more : 0 < tcbPcnt s tm (a.addr - 4))
include canonical more
theorem pcntDecrement_plain (plain : s.linesOf tm a.addr 2 = []) :
    ∃ t, exec (.pcntDecrement ⟨p, i⟩) s = .next t ∧ tcbPcnt t tm (a.addr - 4) = tcbPcnt s tm (a.addr - 4) - 1 ∧
      s.readiedAt tm (a.addr - 4) t ∧ ∀ d, d < a.addr ∨ a.addr + 2 ≤ d → memGet t.mem d = memGet s.mem d := by
  obtain ⟨f, step⟩ := pcntDecrement_eq issued unperformed may single way admitted kind region tile team sound
  have counter : a.addr - 4 + 4 = a.addr := Nat.sub_add_cancel inside
  have reads : ({ s with fabric := f } : State).badHeld p (a.addr - 4 + 4) 2 = false := by rw [counter]; exact whole
  obtain ⟨-, -, ready⟩ := State.decrement_writes (s := { s with fabric := f }) (p := p) (t := tm) (l := l) (b := a.addr - 4)
    (w := tcbRef tm (a.addr - 4)) found sound reads more
  obtain ⟨count, kept⟩ := State.decrement_plain (s := { s with fabric := f }) (p := p) (t := tm) (l := l) (b := a.addr - 4)
    (w := tcbRef tm (a.addr - 4)) found sound reads more canonical (by rw [counter]; exact plain)
  rw [counter] at kept
  refine ⟨_, step, count _ (State.setPend_mem _ _ _) (State.setPend_modid _ _ _ _), fun one => ?_, fun d outside => ?_⟩
  · obtain ⟨r, work, num, queued⟩ := ready one
    exact ⟨r, work, num, State.setPend_queued queued⟩
  · rw [State.setPend_mem]
    exact kept d outside
theorem pcntDecrement_sealed {m : Nat} (lines : s.linesOf tm a.addr 2 = [m]) :
    ∃ t, exec (.pcntDecrement ⟨p, i⟩) s = .next t ∧ s.readiedAt tm (a.addr - 4) t ∧
      ∀ d, d < m ∨ m + 64 ≤ d → memGet t.mem d = memGet s.mem d := by
  obtain ⟨f, step⟩ := pcntDecrement_eq issued unperformed may single way admitted kind region tile team sound
  have counter : a.addr - 4 + 4 = a.addr := Nat.sub_add_cancel inside
  have reads : ({ s with fabric := f } : State).badHeld p (a.addr - 4 + 4) 2 = false := by rw [counter]; exact whole
  obtain ⟨-, -, ready⟩ := State.decrement_writes (s := { s with fabric := f }) (p := p) (t := tm) (l := l) (b := a.addr - 4)
    (w := tcbRef tm (a.addr - 4)) found sound reads more
  refine ⟨_, step, fun one => ?_, fun d outside => ?_⟩
  · obtain ⟨r, work, num, queued⟩ := ready one
    exact ⟨r, work, num, State.setPend_queued queued⟩
  · rw [State.setPend_mem]
    exact State.decrement_sealed (s := { s with fabric := f }) found sound reads more canonical (by rw [counter]; exact lines) d outside
end
end
end

/-- Settles O32: the configuration and the sends by their instructions, the rest by what a step of one piece does at its home. -/
theorem keys : Obligations.Keys := by
  unfold Obligations.Keys
  refine ⟨⟨?_, ?_, ?_⟩, ?_, ?_⟩
  · exact fun x s pass => ⟨execKcfg_sets pass, fun bad => ⟨_, execKcfg_illegal pass bad⟩⟩
  · intro x s pass free k nb op level bins pair
    obtain ⟨t, step, mem, accs, pend, what⟩ := execKsend_sends pass free bins pair
    refine ⟨_, accs, step, by rw [State.done_mem, mem], by rw [State.done_pend, pend], ?_, ?_⟩
    · have kinds := congrArg (List.map Prod.fst) what
      rw [List.map_map, List.map_map, ← List.range_eq_range'] at kinds
      exact kinds
    · have addrs := congrArg (List.map Prod.snd) what
      rw [List.map_map, List.map_map, ← List.range_eq_range'] at addrs
      exact addrs
  · intro s p i a op bin v l o issued kind unperformed single may way admitted tile
    have base : (s.getTile l).keycfg.toNat % 2 ^ 20 = keyBase (s.getTile l).keycfg := by rw [keyBase, fld, pow_zero, Nat.div_one]
    dsimp only
    rw [base]
    intro canonical same has below fits whole
    exact ksendDelivery_combines issued unperformed may single way admitted kind tile canonical same has below fits whole
  · intro s p i a stage l o issued kind unperformed single may way admitted port runs
    exact sevSet_latches issued unperformed may single way admitted kind port runs
  · intro s p i l a tm issued kind unperformed single may way admitted region tile team found inside canonical sound whole readied
    refine ⟨fun more plain => ?_, fun more m lines => ?_, fun zero _ => ?_⟩
    · exact pcntDecrement_plain issued unperformed may single way admitted kind region tile team sound found whole inside canonical more plain
    · exact pcntDecrement_sealed issued unperformed may single way admitted kind region tile team sound found whole inside canonical more lines
    · exact pcntDecrement_late issued unperformed may single way admitted kind region tile team sound found whole inside zero

end Sys2Proof.Machine
end

section
/-!
SUPPORT. The event latch, SEV and the time base (R290, R291, R293), and the special registers (R66, R68, R294).
-/
namespace Sys2Proof.Machine
open Sys2Proof

variable {s : State}

/-! ## Timeouts of a wait in place (R286, R290) -/

/-- A wait whose timeout has elapsed is over when its processor comes into focus. -/
theorem State.timedOut_focus {p : ProcId} {k : WaitKind} {since limit : Nat} (wait : (s.getCore p).wait = some ⟨k, since, limit⟩)
    (limited : limit ≠ 0) (elapsed : since + limit < s.cycle) : (s.focus p).timedOut = true := by
  rw [State.timedOut, State.focus_core, wait, State.focus_cycle]
  simp [limited, elapsed]

/-! ## The event latch (R290) -/

section
variable {x : OpN} (pass : s.guard x.q = true)
include pass
theorem execWfe_takes (set : s.core.latch = true) : execWfe x s = .next (s.clearLatch.done 8) := by
  rw [execWfe, guarded_pass _ pass, if_pos set, complete_eq]
theorem execWfe_waits (clear : s.core.latch = false) : execWfe x s = .next (s.waits .other 0) := by
  rw [execWfe, guarded_pass _ pass, if_neg (by simp [clear]), stay_eq]
end
section
variable {x : OpPG} (pass : s.guard x.q = true)
include pass
theorem execWfed_takes (set : (s.core.latch && s.latchInTime) = true) : execWfed x s = .next ((s.clearLatch.wrP x.d true).done 8) := by
  rw [execWfed, guarded_pass _ pass, if_pos set, complete_eq]
section
variable (unset : (s.core.latch && s.latchInTime) = false)
include unset
theorem execWfed_timedOut (elapsed : s.timedOut = true) : execWfed x s = .next ((s.wrP x.d false).done 8) := by
  rw [execWfed, guarded_pass _ pass, if_neg (by simp [unset]), if_pos elapsed, complete_eq]
theorem execWfed_waits (within : s.timedOut = false) : execWfed x s = .next (s.waits (.wfed x.d) (s.rdG x.a).toNat) := by
  rw [execWfed, guarded_pass _ pass, if_neg (by simp [unset]), if_neg (by simp [within]), stay_eq]
end
end
/-- A latch that is clear, or that was set only after the timeout's last cycle, does not save a WFED (R290). -/
theorem State.latch_late_focus {p : ProcId} {k : WaitKind} {since limit : Nat} (wait : (s.getCore p).wait = some ⟨k, since, limit⟩)
    (limited : limit ≠ 0) (late : (s.getCore p).latch = false ∨ since + limit < (s.getCore p).latchAt) :
    ((s.focus p).core.latch && (s.focus p).latchInTime) = false := by
  rw [State.latchInTime, State.focus_core, wait]
  rcases late with clear | after
  · rw [clear, Bool.false_and]
  · simp [limited, after]
theorem execWfedTimeout_ends {p : ProcId} {d : PReg} {since limit : Nat} (wait : (s.getCore p).wait = some ⟨.wfed d, since, limit⟩)
    (running : (s.getCore p).running = true) (late : (s.getCore p).latch = false ∨ since + limit < (s.getCore p).latchAt)
    (limited : limit ≠ 0) (elapsed : since + limit < s.cycle) (before : s.pastStop p = false) :
    execWfedTimeout ⟨p⟩ s = .next (((s.focus p).wrP d false).done 8) := by
  have ended := State.timedOut_focus wait limited elapsed
  have unset := State.latch_late_focus wait limited late
  have runs : (s.focus p).core.running = true := by rw [State.focus_core, running]
  simp only [execWfedTimeout, wait, ended, unset, runs, before, Bool.not_false, Bool.and_self, if_true, complete_eq]

/-! ## SEV and GTIME (R291, R293) -/

section
variable {x : OpG} (pass : s.guard x.q = true)
include pass
/-- A target word without a reserved bit names a tile's port and one of its latches. -/
theorem execSev_issues (bounded : (s.rdG x.a).toNat < 2 ^ 17) (reserved : (s.rdG x.a).toNat / 2 ^ 10 % 2 ^ 6 = 0) :
    let w := (s.rdG x.a).toNat
    let a := portAddr (w % 2 ^ 10) 0x1000
    execSev x s = .next (((s.issueAccess (oneStep (.sev (decide (w / 2 ^ 16 = 1))) a 8 .rlx .self)).countRequest s.cur a 8).done 8) := by
  have high : fld (s.rdG x.a).toNat 17 47 = 0 := by rw [fld]; omega
  have middle : fld (s.rdG x.a).toNat 10 6 = 0 := reserved
  have stage : (fld (s.rdG x.a).toNat 16 1 == 1) = decide ((s.rdG x.a).toNat / 2 ^ 16 = 1) := by
    rw [fld, Nat.mod_eq_of_lt (by omega)]
    rfl
  have lcid : fld (s.rdG x.a).toNat 0 10 = (s.rdG x.a).toNat % 2 ^ 10 := by rw [fld, pow_zero, Nat.div_one]
  rw [execSev, guarded_pass _ pass]
  dsimp only
  rw [if_neg (by simp [high, middle]), complete_eq, stage, lcid]
theorem execGtime_eq : execGtime x s = .next ((s.wrG x.a (BitVec.ofNat 64 s.gtime)).done 8) := by
  rw [execGtime, guarded_pass _ pass, complete_eq, wNat]
end

/-! ## What SRR reads on a main core (R66) -/

theorem wNat_toNat {n : Nat} (x : BitVec n) : wNat x.toNat = x.setWidth 64 := BitVec.ofNat_toNat 64 x
theorem State.special_modid : s.special 0x001 = s.modid.setWidth 64 := wNat_toNat _
theorem State.special_netcap : s.special 0x007 =
    BitVec.ofNat 64 (8 * 2 ^ 48 + 32 * 2 ^ 40 + 32 * 2 ^ 32 + s.host.msgmax * 2 ^ 24 + 64 * 2 ^ 16 + 32 * 2 ^ 8 + 32) := rfl
theorem State.special_fpctl : s.special 0x008 = s.core.fpctl.setWidth 64 := wNat_toNat _
theorem State.special_fpflags : s.special 0x009 = s.core.fpflags.setWidth 64 := wNat_toNat _
theorem State.special_evmask : s.special 0x00B = s.core.evmask.setWidth 64 := wNat_toNat _
/-- Indices above READY's, below those of the slice and the monitors: the two words of each extent, and the counters. -/
theorem State.special_blocks {i : Nat} (low : 0x010 ≤ i) (high : i < 0x080) : s.special i =
    if i < 0x020 then wNat (s.extent (i - 0x010)).wordB
    else if i < 0x030 then wNat (s.extent (i - 0x020)).wordL
    else vget s.ownTile.ctr (i - 0x040) 0 := by
  unfold State.special
  iterate 16 rw [if_neg (by omega)]
  simp only [high, if_true]
theorem Extent.wordB_eq (e : Extent) : e.wordB = (if e.sr then 2 ^ 63 else 0) + (if e.er then 2 ^ 62 else 0) + (if e.wr then 2 ^ 61 else 0)
    + (if e.rd then 2 ^ 60 else 0) + e.base.toNat := by
  simp only [Extent.wordB, bit, ite_mul, Nat.one_mul, Nat.zero_mul]
theorem Extent.wordL_eq (e : Extent) : e.wordL = e.tag.toNat * 2 ^ 54 + (if e.valid then 2 ^ 53 else 0) + e.limit.toNat := by
  simp only [Extent.wordL, bit, ite_mul, Nat.one_mul, Nat.zero_mul]
/-- The entries of a vector that hold a value, by their places. -/
theorem filter_toList_length {α : Type} [BEq α] [LawfulBEq α] [DecidableEq α] {n : Nat} (v : Vector α n) (x d : α) :
    (v.toList.filter (fun t => t == x)).length = (List.range n).countP (fun k => vget v k d = x) := by
  have places : v.toList = (List.range n).map (fun k => vget v k d) := by
    refine List.ext_getElem (by simp) fun k _ below => ?_
    simp only [List.length_map, List.length_range] at below
    simp [vget, below]
  rw [← List.countP_eq_length_filter, places, List.countP_map]
  exact List.countP_congr fun k _ => by simp

section
variable {n : Nat} (main : s.cur = .main n)
include main
theorem State.special_lcid : s.special 0x000 = BitVec.ofNat 64 n := by
  change wNat (if s.placed then s.recordLcid else 0) = _
  simp only [State.placed, State.recordLcid, main, if_true, wNat]
theorem State.special_team : s.special 0x002 = BitVec.ofNat 64 s.tile.team := by
  change wNat s.teamNum = _
  simp only [State.teamNum, main, wNat]
theorem State.special_tenant : s.special 0x003 = BitVec.ofNat 64 s.tile.tenant := by
  change wNat s.tag = _
  simp only [State.tag, main, wNat]
theorem State.onMain_of_cur : s.onMain = true := by
  rw [State.onMain, main]
  rfl
theorem State.special_task : s.special 0x004 = match s.tile.task with | some k => k.tid.setWidth 64 | none => 0 := by
  change (if s.onMain then (match s.tile.task with | some k => wNat k.tid.toNat | none => 0) else 0) = _
  rw [if_pos (State.onMain_of_cur main)]
  cases s.tile.task with
  | none => rfl
  | some k => exact wNat_toNat k.tid
theorem State.ownTile_of_main : s.ownTile = s.tile := by rw [State.ownTile, main]
theorem State.special_dom : s.special 0x005 = s.tile.dom := congrArg Tile.dom (State.ownTile_of_main main)
theorem State.special_cload : s.special 0x006 = (s.getCluster (clusterOf n)).cload := by
  change (if s.placed then (s.getCluster s.cluster).cload else 0) = _
  simp only [State.placed, State.cluster, main, if_true]
theorem State.special_slice : s.special 0x080 = BitVec.ofNat 64 ((((List.range 16).countP (fun k =>
    vget (s.getCluster (clusterOf n)).slots k none = some s.tile.team)) * 2 ^ 32 + s.gtime / 2 ^ 18 % 16 * 2 ^ 28
      + (2 ^ 18 - s.gtime % 2 ^ 18))) := by
  change wNat s.sliceWord = _
  have share := filter_toList_length (s.getCluster (clusterOf n)).slots (some s.tile.team) none
  simp only [State.sliceWord, State.placed, State.cluster, State.teamNum, main, if_true, share, slotNow, wNat]
theorem State.extent_of_main (k : Nat) : s.extent k = vget s.tile.ext k Extent.empty := by simp only [State.extent, main]
section
variable {i : Nat}
theorem State.special_extentBase (low : 0x010 ≤ i) (high : i < 0x020) :
    s.special i = BitVec.ofNat 64 (vget s.tile.ext (i - 0x010) Extent.empty).wordB := by
  rw [State.special_blocks low (by omega), if_pos high, State.extent_of_main main, wNat]
theorem State.special_extentLimit (low : 0x020 ≤ i) (high : i < 0x030) :
    s.special i = BitVec.ofNat 64 (vget s.tile.ext (i - 0x020) Extent.empty).wordL := by
  rw [State.special_blocks (by omega) (by omega), if_neg (by omega), if_pos high, State.extent_of_main main, wNat]
theorem State.special_counter (low : 0x040 ≤ i) (high : i < 0x080) : s.special i = vget s.tile.ctr (i - 0x040) 0 := by
  rw [State.special_blocks (by omega) high, if_neg (by omega), if_neg (by omega), State.ownTile_of_main main]
end
end

/-! ## SRR and SRW (R68, R294) -/

section
variable {i : Nat} (settled : i = 0x009 → s.allAcked s.cur Access.ofStream = true)
include settled
/-- FPFLAGS alone waits, and only for stream pushes that have been issued (R68). -/
theorem State.flags_free : s.flagsSettled i = s ∧ s.flagsHeld i = false := by
  by_cases flags : i = 0x009
  · simp [State.flagsSettled, State.flagsHeld, settled flags]
  · simp [State.flagsSettled, State.flagsHeld, flags]
end
section
variable {q : Guard} {d : GReg} {idx : BitVec 12} {i : Nat} (pass : s.guard q = true) (at_ : idx.toNat = i)
include pass at_
theorem execSrr_reads {v : Word} (settled : i = 0x009 → s.allAcked s.cur Access.ofStream = true) (value : s.special i = v) :
    execSrr ⟨q, d, idx⟩ s = .next ((s.wrG d v).done 8) := by
  obtain ⟨same, free⟩ := State.flags_free settled
  rw [execSrr, guarded_pass _ pass]
  dsimp only
  rw [at_, same, free, value, if_neg Bool.false_ne_true, complete_eq]
theorem execSrr_waits (flags : i = 0x009) (pushes : s.allAcked s.cur Access.ofStream = false) (lazy : s.eager = false) :
    execSrr ⟨q, d, idx⟩ s = .next (s.waits .other 0) := by
  have same : s.flagsSettled 0x009 = s := by simp [State.flagsSettled, State.settledAcks_lazy lazy]
  have held : s.flagsHeld 0x009 = true := by simp [State.flagsHeld, pushes]
  rw [execSrr, guarded_pass _ pass]
  dsimp only
  rw [at_, flags, same, held, if_pos rfl, stay_eq]
end
section
variable {x : OpSrw} {i : Nat} (pass : s.guard x.q = true) (at_ : x.idx.toNat = i)
include pass at_
theorem execSrw_writes (settled : i = 0x009 → s.allAcked s.cur Access.ofStream = true) (ok : specialOk i (s.rdG x.a).toNat = true) :
    execSrw x s = .next (State.done 8 { s with core := s.core.setSpecial i (s.rdG x.a) }) := by
  obtain ⟨same, free⟩ := State.flags_free settled
  rw [execSrw, guarded_pass _ pass]
  dsimp only
  rw [at_, if_pos ok, same, free, if_neg Bool.false_ne_true, complete_eq]
theorem execSrw_illegal (bad : specialOk i (s.rdG x.a).toNat = false) : ∃ w, execSrw x s = trapAt codeIllegal w 8 s := by
  refine ⟨wNat ((Instr.srw x).encode.headD 0), ?_⟩
  rw [execSrw, guarded_pass _ pass]
  exact if_neg (by simp [at_, bad])
end

end Sys2Proof.Machine
end

section
/-!
CERTIFICATE. Events, the time base and special registers (R66, R68, R290, R291, R293, R294).
-/
namespace Sys2Proof.Machine
open Sys2Proof

/-- Settles O41: the latch, SEV and GTIME by their equations, SRR by what stands at its index, SRW by the values its register takes. -/
theorem eventsAndSpecials : Obligations.EventsAndSpecials := by
  unfold Obligations.EventsAndSpecials
  refine ⟨⟨?wfe, ?wfed, ?timeout, ?send⟩, ?srr, ?srw⟩
  case wfe => exact fun x s pass => ⟨execWfe_takes pass, execWfe_waits pass⟩
  case wfed =>
    exact fun x s pass => ⟨fun set inTime => execWfed_takes pass (by rw [set, inTime]; rfl), execWfed_timedOut pass, execWfed_waits pass⟩
  case timeout =>
    exact fun s p d since limit wait running late limited elapsed before =>
      execWfedTimeout_ends wait running late limited elapsed before
  case send => exact fun x s pass => ⟨execSev_issues pass, execGtime_eq pass⟩
  case srr =>
    intro q d idx s n pass main reads i
    have get {k : Nat} (plain : k ≠ 0x009) {v : Word} (value : s.special k = v) (at_ : i = k) : reads v :=
      execSrr_reads pass at_ (fun flags => absurd flags plain) value
    refine ⟨get (by decide) (State.special_lcid main), get (by decide) State.special_modid, get (by decide) (State.special_team main),
      get (by decide) (State.special_tenant main), get (by decide) (State.special_task main), get (by decide) (State.special_dom main),
      get (by decide) (State.special_cload main), get (by decide) State.special_netcap, get (by decide) rfl,
      get (by decide) (State.special_slice main), get (by decide) State.special_fpctl, fun at_ settled => ?flags,
      execSrr_waits pass rfl, get (by decide) rfl, get (by decide) State.special_evmask, get (by decide) rfl, get (by decide) rfl,
      get (by decide) rfl, fun low high => ?base, fun low high => ?limit, fun low high => ?counter⟩
    case flags => exact execSrr_reads pass at_ (fun _ => settled) State.special_fpflags
    case base =>
      refine get (k := i) (by omega) ?_ rfl
      rw [State.special_extentBase main low high, Extent.wordB_eq]
    case limit =>
      refine get (k := i) (by omega) ?_ rfl
      rw [State.special_extentLimit main low high, Extent.wordL_eq]
    case counter => exact get (k := i) (by omega) (State.special_counter main low high) rfl
  case srw =>
    intro x s pass v writes
    refine ⟨fun at_ fits mode => ?fpctl, fun at_ fits settled => ?fpflags, fun at_ => ?seed, fun at_ fits => ?evmask, fun bad => ?illegal⟩
    case fpctl => exact execSrw_writes (i := 0x008) pass (congrArg BitVec.toNat at_) nofun (decide_eq_true ⟨fits, mode⟩)
    case fpflags => exact execSrw_writes (i := 0x009) pass (congrArg BitVec.toNat at_) (fun _ => settled) (decide_eq_true fits)
    case seed => exact execSrw_writes (i := 0x00A) pass (congrArg BitVec.toNat at_) nofun rfl
    case evmask => exact execSrw_writes (i := 0x00B) pass (congrArg BitVec.toNat at_) nofun (decide_eq_true fits)
    case illegal =>
      rcases bad with ⟨at_, bad⟩ | ⟨at_, bad⟩ | ⟨at_, bad⟩
      · exact execSrw_illegal (i := 0x008) pass (congrArg BitVec.toNat at_) (decide_eq_false bad)
      · exact execSrw_illegal (i := 0x009) pass (congrArg BitVec.toNat at_) (decide_eq_false bad)
      · exact execSrw_illegal (i := 0x00B) pass (congrArg BitVec.toNat at_) (decide_eq_false bad)

end Sys2Proof.Machine
end

section
/-!
SUPPORT. Barriers and the superstep gate (R285–R287): a level of the own context, the levels of the members, and the records that a
report tests.
-/
namespace Sys2Proof.Machine
open Sys2Proof

variable {s : State}

/-! ## Teams and reports that depend on little of the state (R218, R251) -/

/-- A state whose processor in focus is the same, and whose tiles have the same teams, works for the same team. -/
theorem State.teamNum_congr {s t : State} (cur : t.cur = s.cur) (own : t.tile.team = s.tile.team)
    (teams : ∀ n, (t.getTile n).team = (s.getTile n).team) : t.teamNum = s.teamNum := by
  simp only [State.teamNum, cur, own, teams]
/-- A fence has nothing to report when no record it tests holds a fault. -/
theorem State.report_eq_none {sc : Scope} {peer : Bool} : s.report sc peer = none ↔ s.core.engRec = none ∧
    firstRecord s.core.fencedRec (s.covers sc) = none ∧ firstRecord s.core.memerrRec (s.covers sc) = none ∧
      (peer = true → s.core.peerRec = none) := by
  unfold State.report
  dsimp only
  cases s.core.engRec with
  | some r => simp
  | none =>
    cases firstRecord s.core.fencedRec (s.covers sc) with
    | some q => simp
    | none =>
      cases firstRecord s.core.memerrRec (s.covers sc) with
      | some q => simp
      | none => cases s.core.peerRec <;> cases peer <;> simp

/-! ## A level of the own context (R74, R285) -/

theorem Tile.bar_setBar {lv : Nat} (level : lv < 5) (k : Tile) (b : BarLevel) : (k.setBar lv b).bar lv = b :=
  vget_vset_same _ _ _ _ level
/-- The state with a level of the own context replaced. -/
abbrev State.setMyBar (s : State) (lv : Nat) (b : BarLevel) : State := { s with tile := s.tile.setBar lv b }
theorem State.myBar_setMyBar {lv : Nat} (level : lv < 5) (b : BarLevel) : (s.setMyBar lv b).myBar lv = b := Tile.bar_setBar level s.tile b
theorem State.getTile_setMyBar_team (lv : Nat) (b : BarLevel) (n : Nat) : ((s.setMyBar lv b).getTile n).team = (s.getTile n).team := by
  unfold State.getTile
  dsimp only
  split <;> rfl
theorem State.isFabricTeam_setMyBar (lv : Nat) (b : BarLevel) : (s.setMyBar lv b).isFabricTeam = s.isFabricTeam := by
  have number : (s.setMyBar lv b).teamNum = s.teamNum := State.teamNum_congr rfl rfl (State.getTile_setMyBar_team lv b)
  rw [State.isFabricTeam, State.isFabricTeam, State.team, State.team, number]
  rfl
/-- A level of the barriers is no record. -/
theorem State.report_setMyBar {sc : Scope} {peer : Bool} (clear : s.report sc peer = none) (lv : Nat) (b : BarLevel) :
    (s.setMyBar lv b).report sc peer = none := by
  have covers : (s.setMyBar lv b).covers sc = s.covers sc := by
    funext c
    rw [State.covers, State.covers, State.isFabricTeam_setMyBar]
  rw [State.report_eq_none] at clear ⊢
  rw [covers]
  exact clear
/-- A predicate is no record either. -/
theorem State.report_wrP {sc : Scope} {peer : Bool} (clear : s.report sc peer = none) (d : PReg) (v : Bool) :
    (s.wrP d v).report sc peer = none := by
  unfold State.wrP
  split
  · exact clear
  · rw [State.report_eq_none] at clear ⊢
    exact clear
theorem State.arrive_lazy (lazy : s.eager = false) (lv : Nat) :
    s.arrive lv = s.setMyBar lv { s.myBar lv with arrived := true } := by
  simp [State.arrive, lazy]

/-! ## BAR and BARW (R285, R286) -/

/-- A barrier instruction whose arrival stands: it completes, is ended by its timeout, or waits. -/
def barrierAfter (l : Nat) (kind : WaitKind) (limit : Nat) (fin late : State → State) (s : State) : Out :=
  if (s.myBar l).done then reported (levelScope l) false (fin (s.setMyBar l { s.myBar l with done := false }))
  else if s.timedOut then complete 8 (late (s.setMyBar l { s.myBar l with arrived := false }))
  else stay kind limit s
section
variable {l : Nat} {kind : WaitKind} {limit : Nat} {fin late : State → State}
theorem barrierAfter_done (ended : (s.myBar l).done = true) : barrierAfter l kind limit fin late s =
    reported (levelScope l) false (fin (s.setMyBar l { s.myBar l with done := false })) := if_pos ended
section
variable (left : (s.myBar l).done = false)
include left
theorem barrierAfter_timedOut (elapsed : s.timedOut = true) : barrierAfter l kind limit fin late s =
    .next ((late (s.setMyBar l { s.myBar l with arrived := false })).done 8) := by
  rw [barrierAfter, if_neg (by simp [left]), if_pos elapsed, complete_eq]
theorem barrierAfter_waits (within : s.timedOut = false) : barrierAfter l kind limit fin late s = .next (s.waits kind limit) := by
  rw [barrierAfter, if_neg (by simp [left]), if_neg (by simp [within]), stay_eq]
end
end
section
variable {lv : BitVec 3} {word : Word} {kind : WaitKind} {limit : Nat} {fin late : State → State} (level : s.hasLevel lv.toNat = true)
include level
/-- An arrival that stands, or whose episode has completed, is not sent again. -/
theorem barrier_stands (stands : ((s.myBar lv.toNat).done || (s.myBar lv.toNat).arrived) = true) :
    barrier lv word kind limit fin late s = barrierAfter lv.toNat kind limit fin late s := by
  simp only [barrier, level, stands, Bool.not_true, Bool.false_eq_true, if_false, if_true]
  rfl
/-- Otherwise it is sent once the fence of the level would perform. -/
theorem barrier_arrives (absent : ((s.myBar lv.toNat).done || (s.myBar lv.toNat).arrived) = false) (within : s.timedOut = false)
    (fence : s.fenceDone (levelScope lv.toNat) = true) :
    barrier lv word kind limit fin late s = barrierAfter lv.toNat kind limit fin late (s.arrive lv.toNat) := by
  simp only [barrier, level, absent, within, fence, Bool.not_true, Bool.false_eq_true, if_false, if_true]
  rfl
/-- A completed episode ends the wait, and the records are tested. -/
theorem barrier_completes (ended : (s.myBar lv.toNat).done = true) : barrier lv word kind limit fin late s =
    reported (levelScope lv.toNat) false (fin (s.setMyBar lv.toNat { s.myBar lv.toNat with done := false })) := by
  rw [barrier_stands level (by rw [ended, Bool.true_or]), barrierAfter_done ended]
section
variable (left : (s.myBar lv.toNat).done = false)
include left
/-- An arrival that is sent waits for the episode. -/
theorem barrier_joins (absent : (s.myBar lv.toNat).arrived = false) (within : s.timedOut = false)
    (fence : s.fenceDone (levelScope lv.toNat) = true) (lazy : s.eager = false) (known : lv.toNat < 5) :
    barrier lv word kind limit fin late s = .next ((s.setMyBar lv.toNat { s.myBar lv.toNat with arrived := true }).waits kind limit) := by
  have waits : ((s.setMyBar lv.toNat { s.myBar lv.toNat with arrived := true }).myBar lv.toNat).done = false := by
    rw [State.myBar_setMyBar known, left]
  rw [barrier_arrives level (by rw [left, absent]; rfl) within fence, State.arrive_lazy lazy]
  exact barrierAfter_waits waits within
/-- The timeout of a sent arrival takes it back. -/
theorem barrier_withdraws (sent : (s.myBar lv.toNat).arrived = true) (elapsed : s.timedOut = true) :
    barrier lv word kind limit fin late s =
      .next ((late (s.setMyBar lv.toNat { s.myBar lv.toNat with arrived := false })).done 8) := by
  rw [barrier_stands level (by rw [sent, Bool.or_true]), barrierAfter_timedOut left elapsed]
end
end
theorem execBar_eq {x : OpLevel} (pass : s.guard x.q = true) :
    execBar x s = barrier x.lv (wNat ((Instr.bar x).encode.headD 0)) .bar 0 id id s := guarded_pass _ pass
theorem execBarw_eq {x : OpBarw} (pass : s.guard x.q = true) :
    execBarw x s = barrier x.lv (wNat ((Instr.barw x).encode.headD 0)) (.barw x.d x.lv) (s.rdG x.a).toNat
      (fun s => s.wrP x.d true) (fun s => s.wrP x.d false) s := guarded_pass _ pass
section
variable {p : ProcId} {d : PReg} {lv : BitVec 3} {since limit : Nat} (wait : (s.getCore p).wait = some ⟨.barw d lv, since, limit⟩)
include wait
theorem execBarwTimeout_withdraws (running : (s.getCore p).running = true) (limited : limit ≠ 0) (elapsed : since + limit < s.cycle)
    (before : s.pastStop p = false) (left : ((s.focus p).myBar lv.toNat).done = false) :
    let u := s.focus p
    execBarwTimeout ⟨p⟩ s = .next (((u.setMyBar lv.toNat { u.myBar lv.toNat with arrived := false }).wrP d false).done 8) := by
  have ended := State.timedOut_focus wait limited elapsed
  have runs : (s.focus p).core.running = true := by rw [State.focus_core, running]
  simp only [execBarwTimeout, wait, ended, left, runs, before, Bool.not_false, Bool.and_self, if_true, complete_eq]
end

/-! ## The members' levels (R235, R285) -/

theorem State.getTile_event (l k n : Nat) : (s.event l k).getTile n = s.getTile n := by
  unfold State.event
  dsimp only
  split
  · exact State.getTile_setCore _ _ _ _
  · rfl
theorem State.bar_countAt (l c k n m lv : Nat) : ((s.countAt l c k n).getTile m).bar lv = (s.getTile m).bar lv := by
  obtain ⟨_, same⟩ := (SameWork.countAt s l c k n).tile_eq m
  rw [same]
  rfl
/-- The barrier record and its event leave the tiles as they are. -/
theorem State.getTile_putBar (l lv : Nat) (b : BarLevel) (m : Nat) :
    (s.putBar l lv b).getTile m = (s.setTile l ((s.getTile l).setBar lv b)).getTile m := by
  have bytes (t : State) (x : List Host.Cell) : ({ t with mem := x } : State).getTile m = t.getTile m := rfl
  unfold State.putBar
  dsimp only
  split
  · rfl
  · rw [State.getTile_event, bytes]
section
variable {lv : Nat} (level : lv < 5)
include level
theorem State.bar_putBar (l : Nat) (b : BarLevel) (m : Nat) :
    ((s.putBar l lv b).getTile m).bar lv = if m = l then b else (s.getTile m).bar lv := by
  rw [State.getTile_putBar, State.getTile_setTile]
  split
  · exact Tile.bar_setBar level _ _
  · rfl
end
/-- A level whose episode has completed. -/
def BarLevel.completed (b : BarLevel) : BarLevel := { b with arrived := false, done := true, episodes := b.episodes + 1 }
/-- The episode completes for one member. -/
def State.completeFor (lv : Nat) (s : State) (m : Nat) : State := (s.putBar m lv ((s.getTile m).bar lv).completed).countAt m 7 3 1
theorem State.completeBarrier_eq (l lv : Nat) : s.completeBarrier l lv = (s.domain l lv).foldl (State.completeFor lv) s := rfl
section
variable {lv : Nat} (level : lv < 5)
include level
theorem State.bar_completeFor (l m : Nat) :
    ((s.completeFor lv l).getTile m).bar lv = if m = l then ((s.getTile m).bar lv).completed else (s.getTile m).bar lv := by
  rw [State.completeFor, State.bar_countAt, State.bar_putBar level]
  split
  next same => rw [same]
  · rfl
/-- Where no member is named twice, each completes one episode. -/
theorem State.bar_completeFor_foldl {l : List Nat} (once : l.Nodup) (m : Nat) : ∀ s : State,
    ((l.foldl (State.completeFor lv) s).getTile m).bar lv = if m ∈ l then ((s.getTile m).bar lv).completed else (s.getTile m).bar lv := by
  induction l with
  | nil => exact fun _ => rfl
  | cons n r ih =>
    intro s
    obtain ⟨fresh, once⟩ := List.nodup_cons.1 once
    rw [List.foldl_cons, ih once, State.bar_completeFor level]
    by_cases same : m = n
    · subst same
      simp [fresh]
    · simp [same]
end
theorem execBarrierComplete_eq {l lv : Nat} (all : s.allArrived l lv = true) (runs : s.tileStopped l = false) :
    execBarrierComplete ⟨l, lv⟩ s = .next (s.completeBarrier l lv) := by
  simp [execBarrierComplete, all, runs]

/-! ## The superstep gate (R235, R287) -/

section
variable {x : OpSstep} (known : x.lv.toNat < 5)
include known
theorem sstepEnd_departed (ended : (s.myBar x.lv.toNat).gateDone = true) : sstepEnd x s = reported (levelScope x.lv.toNat) false
    (((s.setMyBar x.lv.toNat { s.myBar x.lv.toNat with gateDone := false }).wrG x.d ((s.myBar x.lv.toNat).phase.setWidth 64)).trace 5) := by
  have phase : wNat ((s.setMyBar x.lv.toNat { s.myBar x.lv.toNat with gateDone := false }).myBar x.lv.toNat).phase.toNat =
      (s.myBar x.lv.toNat).phase.setWidth 64 := by
    rw [State.myBar_setMyBar known]
    exact wNat_toNat _
  simp only [sstepEnd, ended, if_true, phase]
end
theorem sstepEnd_waits {x : OpSstep} (left : (s.myBar x.lv.toNat).gateDone = false) (lazy : s.eager = false) :
    sstepEnd x s = .next (s.waits (.sstep x.lv) 0) := by
  simp [sstepEnd, left, State.gateSteps, lazy, stay_eq]
section
variable {x : OpSstep} (pass : s.guard x.q = true) (level : s.hasLevel x.lv.toNat = true) (known : x.lv.toNat < 5)
include pass level known
theorem execSstep_departed (ended : (s.myBar x.lv.toNat).gateDone = true) : execSstep x s = reported (levelScope x.lv.toNat) false
    (((s.setMyBar x.lv.toNat { s.myBar x.lv.toNat with gateDone := false }).wrG x.d ((s.myBar x.lv.toNat).phase.setWidth 64)).trace 5) := by
  rw [execSstep, guarded_pass _ pass, ← sstepEnd_departed known ended]
  simp [level, ended]
/-- In a communication phase no transfers are issued (R147): the SSTEP has begun its wait. -/
theorem execSstep_begins (left : (s.myBar x.lv.toNat).gateDone = false) (absent : (s.myBar x.lv.toNat).gateArrived = false)
    (fresh : (s.myBar x.lv.toNat).sent = false) (lazy : s.eager = false) (odd : (s.myBar x.lv.toNat).phase.toNat % 2 = 1) :
    execSstep x s = .next ((s.setMyBar x.lv.toNat { s.myBar x.lv.toNat with sent := true }).waits (.sstep x.lv) 0) := by
  have waits := sstepEnd_waits (s := s.setMyBar x.lv.toNat { s.myBar x.lv.toNat with sent := true }) (x := x)
    (by rw [State.myBar_setMyBar known, left]) lazy
  rw [execSstep, guarded_pass _ pass, ← waits]
  simp [level, left, absent, fresh, odd]
end
section
variable {l lv : Nat} {v : BitVec 3} {since limit : Nat} (wait : (s.getCore (.main l)).wait = some ⟨.sstep v, since, limit⟩)
include wait
theorem execGateArrive_eq (at_ : v.toNat = lv) (sent : ((s.getTile l).bar lv).sent = true) (left : ((s.getTile l).bar lv).gateDone = false)
    (before : s.pastStop (.main l) = false) (may : s.mayArrive (.main l) lv = true) :
    execGateArrive ⟨l, lv⟩ s = .next (s.gateArrive l lv) := by
  simp [execGateArrive, wait, at_, sent, left, before, may]
end
theorem execGateDepart_eq {l lv : Nat} (may : s.mayDepart l lv = true) (runs : s.tileStopped l = false) :
    execGateDepart ⟨l, lv⟩ s = .next (s.gateDepart l lv) := by
  simp [execGateDepart, may, runs]

end Sys2Proof.Machine
end

section
/-!
CERTIFICATE. Barriers and supersteps (R235, R285–R287).
-/
namespace Sys2Proof.Machine
open Sys2Proof

/-- Settles O40: BAR and BARW by the three ends of `barrier`, the steps by what they write in each member's level. -/
theorem barriers : Obligations.Barriers := by
  unfold Obligations.Barriers
  refine ⟨⟨?bar, ?complete, ?timeout⟩, ?sstep, ?arrive, ?depart⟩
  case bar =>
    intro s q d a lv pass level
    refine ⟨fun ended clear => ⟨?_, ?_⟩, fun left absent within fence lazy known => ⟨?_, ?_⟩, fun left sent elapsed => ?_⟩
    · exact (execBar_eq pass).trans ((barrier_completes level ended).trans (reported_of_none (State.report_setMyBar clear _ _)))
    · exact (execBarw_eq pass).trans
        ((barrier_completes level ended).trans (reported_of_none (State.report_wrP (State.report_setMyBar clear _ _) _ _)))
    · exact (execBar_eq pass).trans (barrier_joins level left absent within fence lazy known)
    · exact (execBarw_eq pass).trans (barrier_joins level left absent within fence lazy known)
    · exact (execBarw_eq pass).trans (barrier_withdraws level left sent elapsed)
  case complete =>
    intro s l lv all runs once known
    refine ⟨_, execBarrierComplete_eq all runs, fun m member => ?_⟩
    rw [State.completeBarrier_eq, State.bar_completeFor_foldl known once, if_pos member]
    rfl
  case timeout =>
    exact fun s p d lv since limit wait running limited elapsed before left =>
      execBarwTimeout_withdraws wait running limited elapsed before left
  case sstep =>
    intro x s pass level known
    refine ⟨fun ended clear => ?_, fun left absent fresh lazy odd => ?_⟩
    · exact (execSstep_departed pass level known ended).trans (reported_of_none clear)
    · exact execSstep_begins pass level known left absent fresh lazy odd
  case arrive =>
    intro s l lv v since limit wait at_ known sent left before may
    refine ⟨_, execGateArrive_eq wait at_ sent left before may, State.setTile_mem _ _ _, ?_⟩
    rw [State.gateArrive, State.getTile_setTile_same, Tile.bar_setBar known]
  case depart =>
    intro s l lv known may runs
    refine ⟨_, execGateDepart_eq may runs, ?_⟩
    rw [State.gateDepart, State.bar_countAt, State.bar_putBar known, if_pos rfl]

end Sys2Proof.Machine
end

section
/-!
SUPPORT. TSPAWN, TDEC, TEND, TYIELD and THINT (R278–R284): the checks of a TCB pointer, what the end of a task leaves of its context, and
what parking adds to the tile's store.
-/
namespace Sys2Proof.Machine
open Sys2Proof

variable {s : State}

/-! ## What the end of an instruction leaves -/

theorem State.done_here (n : Nat) : (s.done n).here = s.here := by
  rw [State.done, State.advance]
  split <;> exact State.retire_here s
theorem State.done_modid (n : Nat) : (s.done n).modid = s.modid := by
  rw [State.done, State.advance]
  split <;> exact State.retire_modid s
theorem State.addTask_eq (n : Nat) : ∃ l, s.addTask n = { s with teams := l } := by
  unfold State.addTask
  split
  · exact ⟨s.teams, rfl⟩
  · exact ⟨_, rfl⟩
theorem State.getTile_retire_team (n : Nat) : (s.retire.getTile n).team = (s.getTile n).team := by
  unfold State.getTile
  rw [State.retire_here, State.retire_tiles]
  split
  · rw [State.retire_tile_eq]
  · rfl
theorem State.retire_teamNum : s.retire.teamNum = s.teamNum :=
  State.teamNum_congr (State.retire_cur s) (by rw [State.retire_tile_eq]) fun n => State.getTile_retire_team n

/-! ## TSPAWN and TDEC (R278, R279) -/

section
variable {r : AReg} (ptr : ptrOk (s.rdA r) = true)
  (region : ((s.region (ptrAddr (s.rdA r))).isGlobal || (s.region (ptrAddr (s.rdA r))).isScratch) = true)
  (aligned : ptrAddr (s.rdA r) % 64 = 0)
include ptr region aligned
theorem tcbPointer_passes (k : Nat → State → Out) : tcbPointer r s k = k (ptrAddr (s.rdA r)) s := by
  simp only [tcbPointer, ptr, region, aligned, Bool.not_true, Bool.false_eq_true, if_false, ne_eq, not_true_eq_false]
end
/-- The task engine takes a TCB without a fault: it is ready where it waits for nothing (R43). -/
theorem State.spawned_sound {t : Team} {a : Nat} (sound : tcbFault s t a = none) :
    s.spawned t a = if tcbPcnt s t a = 0 then s.makeReady t (clusterOf s.here) a else s := by
  rw [State.spawned, sound]
/-- Completing the TSPAWN and counting its task change neither the TCB nor the tile. -/
theorem State.spawned_done {t : Team} {a : Nat} (sound : tcbFault ((s.done 8).addTask t.num) t a = none) :
    ((s.done 8).addTask t.num).spawned t a = if tcbPcnt s t a = 0 then ((s.done 8).addTask t.num).makeReady t (clusterOf s.here) a
      else (s.done 8).addTask t.num := by
  obtain ⟨l, counted⟩ := State.addTask_eq (s := s.done 8) t.num
  have pcnt : tcbPcnt ((s.done 8).addTask t.num) t a = tcbPcnt s t a := by
    rw [counted]
    exact State.teamNat_congr (State.done_mem s 8) (State.done_modid 8) t (a + 4) 2
  have here : ((s.done 8).addTask t.num).here = s.here := by
    rw [counted]
    exact State.done_here 8
  rw [State.spawned_sound sound, pcnt, here]
section
variable {x : OpA} (pass : s.guard x.q = true) (ptr : ptrOk (s.rdA x.a) = true)
  (region : ((s.region (ptrAddr (s.rdA x.a))).isGlobal || (s.region (ptrAddr (s.rdA x.a))).isScratch) = true)
  (aligned : ptrAddr (s.rdA x.a) % 64 = 0)
include pass ptr region aligned
theorem execTdec_issues : execTdec x s = .next (((s.issueAccess (oneStep .pcnt (ptrAddr (s.rdA x.a) + 4) 2 .rel .domain)).countRequest s.cur
    (ptrAddr (s.rdA x.a) + 4) 2).done 8) := by
  rw [execTdec, guarded_pass _ pass, tcbPointer_passes ptr region aligned, complete_eq]
theorem execTspawn_spawns {t : Team} (fence : s.fenceDone .domain = true) (team : s.team = some t)
    (free : s.heldBack s.cur (ptrAddr (s.rdA x.a)) 64 .rlx .self = false) (way : s.wayFault (ptrAddr (s.rdA x.a)) = none) :
    execTspawn x s = .next (((s.done 8).addTask t.num).spawned t (ptrAddr (s.rdA x.a))) := by
  rw [execTspawn, guarded_pass _ pass, tcbPointer_passes ptr region aligned, fenced_of_fenceDone fence]
  simp only [team, free, way, ite_self, Bool.false_eq_true, if_false]
  rfl
end

/-! ## TEND (R281, R282) -/

/-- The processor in focus runs nothing, and its tile holds no task and no active loop. -/
structure State.Idle (s : State) : Prop where
  running : s.core.running = false
  task : s.tile.task = none
  loops : s.tile.loop.active = 0

namespace State.Idle

theorem endTask (s : State) : s.endTask.Idle := ⟨rfl, rfl, rfl⟩
theorem putTeam {s : State} (idle : s.Idle) (t : Team) : (s.putTeam t).Idle := ⟨idle.running, idle.task, idle.loops⟩
theorem setCore {s : State} (idle : s.Idle) (p : ProcId) {c : Core} (stopped : c.running = false) : (s.setCore p c).Idle := by
  refine ⟨?_, by rw [State.setCore_tile, idle.task], by rw [State.setCore_tile, idle.loops]⟩
  unfold State.setCore
  split
  · exact stopped
  · exact idle.running
theorem setTile {s : State} (idle : s.Idle) {n : Nat} {k : Tile} (task : k.task = none) (loop : k.loop = (s.getTile n).loop) :
    (s.setTile n k).Idle := by
  refine ⟨by rw [State.setTile_core, idle.running], ?_, ?_⟩
  all_goals unfold State.setTile
  · split
    · exact task
    · exact idle.task
  · split
    next here =>
      rw [State.getTile, if_pos here] at loop
      exact (congrArg LoopState.active loop).trans idle.loops
    · exact idle.loops
theorem foldl {α : Type} {f : State → α → State} (keeps : ∀ (s : State) a, s.Idle → (f s a).Idle) (l : List α) {s : State}
    (idle : s.Idle) : (l.foldl f s).Idle := by
  induction l generalizing s with
  | nil => exact idle
  | cons a r ih => exact ih (keeps s a idle)
theorem stopTile {s : State} (idle : s.Idle) (n : Nat) : (s.stopTile n).Idle :=
  ((idle.setCore _ rfl).setCore _ rfl).setTile rfl rfl
theorem endTeam {s : State} (idle : s.Idle) (t : Team) : (s.endTeam t).Idle := by
  have stopped := foldl (fun _ n h => stopTile h n) t.tiles idle
  refine putTeam (foldl (fun s c h => ?_) t.clusters stopped) _
  have emptied (k : Cluster) : (s.setCluster c.1 k).Idle := ⟨h.running, h.task, h.loops⟩
  exact (emptied _).setCore _ rfl
/-- The live count that falls, and the end of the team at 0, leave the context idle (R45). -/
theorem retireTask {s : State} (idle : s.Idle) (team : Nat) : (s.retireTask team).Idle := by
  unfold State.retireTask
  split
  · exact idle
  · split
    · exact idle
    · split
      · exact idle.endTeam _
      · exact idle.putTeam _

end State.Idle

theorem State.retireRunning_idle (s : State) : s.retireRunning.Idle := (State.Idle.endTask _).retireTask _
section
variable {x : OpN} (pass : s.guard x.q = true) (lazy : s.eager = false)
include pass lazy
section
variable (idle : s.core.idleEngines = true) (quiet : s.core.quiet = true)
include idle quiet
theorem execTend_retires (pushes : s.allAcked s.cur Access.ofStream = true) (clear : s.unbind.report .system true = none) :
    execTend x s = .next s.unbind.retireRunning := by
  have waitless : s.unbind.finish = s.unbind := if_neg (by simp [State.unbind, lazy])
  have engines : s.unbind.core.idleEngines = true := idle
  have accesses : s.unbind.core.quiet = true := quiet
  rw [execTend, guarded_pass _ pass]
  simp only [State.settledAcks_lazy lazy, pushes, waitless, engines, accesses, clear, Bool.not_true, Bool.or_self, Bool.false_eq_true,
    if_false]
theorem execStageTend_ends (clear : s.report .system true = none) :
    execStageTend x s = .next { s.retire with core := { s.retire.core with running := false } } := by
  have waitless : s.finish = s := if_neg (by simp [lazy])
  rw [execStageTend, guarded_pass _ pass]
  simp only [waitless, idle, quiet, clear, Bool.not_true, Bool.or_self, Bool.false_eq_true, if_false]
end

/-! ## TYIELD (R283) -/

theorem execTyield_parks (yields : s.keepsCore = false) (done : s.core.parkable .ready = true) :
    execTyield x s = .next (s.retire.park (s.core.pc + 8) .ready) := by
  rw [execTyield, guarded_pass _ pass]
  simp only [yields, State.settledAcks_lazy lazy, done, Bool.false_eq_true, if_false, if_true]
end
theorem execTyield_keeps {x : OpN} (pass : s.guard x.q = true) (keeps : s.keepsCore = true) : execTyield x s = .next (s.done 8) := by
  rw [execTyield, guarded_pass _ pass, if_pos keeps, complete_eq]
/-- A context without a task does not yield. -/
theorem State.task_of_yields (yields : s.keepsCore = false) : ∃ k, s.tile.task = some k := by
  unfold State.keepsCore at yields
  obtain ⟨-, task⟩ := Bool.or_eq_false_iff.1 yields
  exact Option.isSome_iff_exists.1 (by simpa using task)

/-! ### A trace record leaves the tile in focus (R415) -/

theorem foldl_here {α : Type} {f : State → α → State} (keeps : ∀ s a, (f s a).here = s.here) (l : List α) (s : State) :
    (l.foldl f s).here = s.here := by
  induction l generalizing s with
  | nil => rfl
  | cons a r ih => rw [List.foldl_cons, ih, keeps]
theorem State.countOf_here (p : ProcId) (c k n : Nat) : (s.countOf p c k n).here = s.here := by
  unfold State.countOf
  split
  · exact State.setTile_here _ _ _
  · rfl
theorem State.dropped_here (p : ProcId) (c : BitVec 8) (a : Nat) : (s.dropped p c a).here = s.here := by
  unfold State.dropped
  dsimp only
  split_ifs
  · exact State.setCore_here _ _ _
  · exact State.countOf_here _ _ _ _
  · exact State.setCore_here _ _ _
  · exact State.countOf_here _ _ _ _
  · exact State.setCore_here _ _ _
  · exact State.countOf_here _ _ _ _
theorem State.putLine_here (ni num : Nat) (cells : List Host.Cell) (l : Nat) : (s.putLine ni num cells l).here = s.here := by
  unfold State.putLine
  split <;> rfl
theorem State.putSealed_here (p : ProcId) (a : Nat) (cells : List Host.Cell) (l : Nat) : (s.putSealed p a cells l).here = s.here := by
  unfold State.putSealed
  split
  · rfl
  · split_ifs
    · exact State.dropped_here _ _ _
    · exact State.putLine_here _ _ _ _
    · exact State.dropped_here _ _ _
    · exact State.dropped_here _ _ _
    · exact State.putLine_here _ _ _ _
theorem State.putCells_here (p : ProcId) (a : Nat) (cells : List Host.Cell) : (s.putCells p a cells).here = s.here := by
  unfold State.putCells
  split
  · unfold State.putPlain State.mendCells
    split_ifs
    · exact State.dropped_here _ _ _
    · rfl
    · rfl
  · exact foldl_here (fun s l => State.putSealed_here p a cells l) _ s
theorem State.backstopReport_here (p : ProcId) (pc : Option Nat) (a : Nat) : (s.backstopReport p pc a).here = s.here := by
  have counted : ((s.countOf p 5 4 1).countOf p 5 1 1).here = s.here := by rw [State.countOf_here, State.countOf_here]
  unfold State.backstopReport
  split
  · rfl
  · dsimp only
    split <;> exact counted
theorem State.traceOn_here (l kind tid : Nat) : (s.traceOn l kind tid).here = s.here := by
  unfold State.traceOn
  split
  · rfl
  next t _ =>
    dsimp only
    generalize ({ t with opTrace := _ } : Team) = u
    have counted (b : Nat) : (((s.putTeam u).countAt l 6 0 1).countAt l 6 1 b).here = s.here := by
      rw [State.countAt, State.setTile_here, State.countAt, State.setTile_here]
      rfl
    split_ifs
    · exact counted _
    · unfold State.putTrace
      split
      · exact (State.putCells_here _ _ _).trans (counted _)
      · exact (State.backstopReport_here _ _ _).trans (counted _)
    · exact (State.setTile_here _ _ _).trans (counted _)
/-- The tile in focus keeps all but its counters. -/
theorem SameWork.uncounted {s t : State} (h : SameWork s t) (here : t.here = s.here) : t.tile.uncounted = s.tile.uncounted := by
  have same := h.tile s.here
  rwa [State.getTile, State.getTile, if_pos here.symm, if_pos rfl] at same
theorem State.trace_uncounted (kind : Nat) : (s.trace kind).tile.uncounted = s.tile.uncounted := by
  have traced (l tid : Nat) := (SameWork.traceOn s l kind tid).uncounted (State.traceOn_here l kind tid)
  unfold State.trace
  split
  · exact traced _ _
  · exact traced _ _
  · exact traced _ _
  · rfl
  · rfl

/-! ### The continuation of a yielding task (R50) -/

theorem State.park_ready {k : Task} (task : s.tile.task = some k) (pc : Word) :
    let c := s.continuation k pc .ready
    let t := s.park pc .ready
    t.core.running = false ∧ t.tile.task = none ∧ t.tile.conts = s.tile.conts ++ [c] ∧
      t.tile.localQ = s.tile.localQ ++ [contItem s.teamNum c] := by
  have same : ((s.count 0 3 1).trace 3).tile.uncounted = s.tile.uncounted := by
    rw [State.trace_uncounted, State.count_tile_eq]
    rfl
  have conts : ((s.count 0 3 1).trace 3).tile.conts = s.tile.conts := (congrArg Tile.conts same :)
  have queue : ((s.count 0 3 1).trace 3).tile.localQ = s.tile.localQ := (congrArg Tile.localQ same :)
  simp only [State.park, task, conts, queue, if_true, and_self]

end Sys2Proof.Machine
end

section
/-!
CERTIFICATE. TSPAWN, TDEC, TEND, TYIELD and THINT (R278, R279, R281–R284).
-/
namespace Sys2Proof.Machine
open Sys2Proof

/-- R283: a task that yields leaves its core idle and stands in its tile's store and ready queue, to resume behind the TYIELD. -/
theorem execTyield_offers {x : OpN} {s : State} (pass : s.guard x.q = true) (lazy : s.eager = false) (yields : s.keepsCore = false)
    (done : s.core.parkable .ready = true) : ∃ t, exec (.tyield x) s = .next t ∧ t.core.running = false ∧ t.tile.task = none ∧
      t.tile.conts.length = s.tile.conts.length + 1 ∧
      ∃ c, t.tile.conts.getLast? = some c ∧ c.pc = s.core.pc + 8 ∧ c.isReady = true ∧ contItem s.teamNum c ∈ t.tile.localQ := by
  obtain ⟨k, task⟩ := State.task_of_yields yields
  have retired : s.retire.tile.task = some k := by rw [State.retire_tile_eq, task]
  have store : s.retire.tile.conts = s.tile.conts := by rw [State.retire_tile_eq]
  obtain ⟨stopped, none, conts, queue⟩ := State.park_ready retired (s.core.pc + 8)
  refine ⟨_, execTyield_parks pass lazy yields done, stopped, none, ?_,
    s.retire.continuation k (s.core.pc + 8) .ready, ?_, rfl, rfl, ?_⟩
  · rw [conts, store, List.length_append, List.length_singleton]
  · rw [conts, List.getLast?_concat]
  · rw [queue, State.retire_teamNum]
    exact List.mem_append_right _ (List.mem_singleton_self _)

/-- Settles O37: each instruction by its own equation; the end of a task and of its team leave the context idle (`State.Idle`). -/
theorem taskInstructions : Obligations.TaskInstructions := by
  unfold Obligations.TaskInstructions
  refine ⟨?spawn, ?retire, ?hint⟩
  case spawn =>
    intro x s pass a ptr region aligned
    refine ⟨execTdec_issues pass ptr region aligned, fun t fence team free _ way _ sound => ?_⟩
    exact (execTspawn_spawns pass ptr region aligned fence team free way).trans (congrArg _ (State.spawned_done sound))
  case retire =>
    intro x s pass lazy
    refine ⟨fun pushes idle quiet clear => ?_, execStageTend_ends pass lazy, execTyield_keeps pass, execTyield_offers pass lazy⟩
    obtain ⟨running, task, loops⟩ := State.retireRunning_idle s.unbind
    exact ⟨_, execTend_retires pass lazy idle quiet pushes clear, rfl, running, task, loops⟩
  case hint =>
    intro x s pass
    change execThint x s = _
    rw [execThint, guarded_pass _ pass, complete_eq]

end Sys2Proof.Machine
end

section
/-!
SUPPORT. Rings and accumulator sets (R62, R300, R301, R333): what a ring and a set read as after one was replaced, what the use of the matrix
unit and the end of an instruction leave of them, and the order of the steps on a ring.
-/
namespace Sys2Proof.Machine
open Sys2Proof

variable {s : State}

/-! ## Rings (R300) -/

theorem State.ring_setRing_same (m : Ring) (r : RingReg) : (s.setRing m r).ring m = r := vget_vset_same _ _ _ _ m.isLt
theorem State.ring_setRing_ne {m n : Ring} (other : m ≠ n) (r : RingReg) : (s.setRing m r).ring n = s.ring n :=
  vget_vset_ne _ _ _ _ _ fun same => other (BitVec.eq_of_toNat_eq same)

/-! ## The use of the matrix unit (R333) -/

/-- The tile's task is bound; nothing else changes. -/
theorem State.useMatrix_eq (s : State) : s.useMatrix = { s with tile := { s.tile with task := s.useMatrix.tile.task } } := by
  unfold State.useMatrix
  split <;> rfl
theorem State.useMatrix_core (s : State) : s.useMatrix.core = s.core := by rw [State.useMatrix_eq]
theorem matrixDone_eq (n : Nat) (s : State) : matrixDone n s = .next (s.useMatrix.done n) := rfl
/-- The tile after a ring or matrix instruction that completes: the task, the loop levels, the counters and the time of progress may differ.
-/
theorem State.used_done_tile_eq (s : State) (n : Nat) : (s.useMatrix.done n).tile = { s.tile with
    task := (s.useMatrix.done n).tile.task, loop := (s.useMatrix.done n).tile.loop, ctr := (s.useMatrix.done n).tile.ctr
    progress := (s.useMatrix.done n).tile.progress } := by
  rw [State.done_tile_eq, State.useMatrix_eq]
theorem State.used_done_accSet (s : State) (n : Nat) (c : Bool) : (s.useMatrix.done n).tile.accSet c = s.tile.accSet c := by
  rw [State.used_done_tile_eq]
  rfl
theorem State.used_done_ring (s : State) (n : Nat) (m : Ring) : (s.useMatrix.done n).ring m = s.ring m := by
  rw [State.ring, State.used_done_tile_eq]
  rfl
theorem State.used_done_mem (s : State) (n : Nat) : (s.useMatrix.done n).mem = s.mem := by rw [State.done_mem, State.useMatrix_mem]

/-! ## The order of the steps on a ring (R301, R335) -/

section
variable {m : Ring} {rank : Nat} (k : State → Out)
theorem inOrder_now (now : (s.ring m).may rank s.cycle = true) : inOrder m rank s k = k s := if_pos now
theorem inOrder_later (later : ¬ (s.ring m).may rank s.cycle = true) : inOrder m rank s k = .next (s.waits .other 0) :=
  (if_neg later).trans (stay_eq _ _ _)
end
/-- A read that acts as acquire goes on where nothing holds it back. -/
theorem acquired_free (k : State → Out) (free : s.heldBack s.cur 0 0 .acq .self = false) : acquired s k = k s := by
  simp [acquired, free]

end Sys2Proof.Machine
end

section
/-!
CERTIFICATE. The ring registers (R300, R301, R303–R310, R333).
-/
namespace Sys2Proof.Machine
open Sys2Proof

variable {s : State}

/-! ## The configuration word (R300, R305) -/

/-- The limits that a configuration word keeps. -/
theorem ringWordOk_iff (spsize w : Nat) : ringWordOk spsize w = true ↔
    (w / 2 ^ 20 % 2 ^ 7 = 0 ∧ w = 0) ∨ (0 < w / 2 ^ 20 % 2 ^ 7 ∧ w / 2 ^ 20 % 2 ^ 7 ≤ 64 ∧ 1 ≤ w / 2 ^ 27 % 2 ^ 9 ∧ w / 2 ^ 27 % 2 ^ 9 ≤ 256 ∧
      w % 2 ^ 20 % 4096 = 0 ∧ w % 2 ^ 20 + w / 2 ^ 20 % 2 ^ 7 * (w / 2 ^ 27 % 2 ^ 9) * 256 ≤ spsize ∧
      (w / 2 ^ 36 % 2 = 0 ∨ w / 2 ^ 27 % 2 ^ 9 = 32)) := by
  by_cases empty : w / 2 ^ 20 % 2 ^ 7 = 0
  · have unset : ringWordOk spsize w = decide (w = 0) := if_pos empty
    simp only [unset, empty, decide_eq_true_eq, lt_irrefl, false_and, true_and, or_false]
  · simp only [ringWordOk, fld, empty, Nat.pos_of_ne_zero empty, if_false, Bool.and_eq_true, Bool.or_eq_true, decide_eq_true_eq, beq_iff_eq,
      Nat.pow_zero, Nat.div_one, Nat.pow_one, and_assoc, false_and, true_and, false_or]
/-- A ring as a word configures it. -/
theorem ringOfWord_stamp (r : RingReg) (w rank now : Nat) : (ringOfWord r w).stamp rank now = { r with
    base := BitVec.ofNat 20 (w % 2 ^ 20), count := w / 2 ^ 20 % 2 ^ 7, esize := w / 2 ^ 27 % 2 ^ 9, layout := decide (w / 2 ^ 36 % 2 = 1)
    head := 0, tail := 0, filled := 0, ncommit := 0, wid8 := 0, wid16 := 0, at_ := now, rank := rank } := by
  have base : BitVec.ofNat 20 (w % 2 ^ 20) = BitVec.ofNat 20 w := BitVec.eq_of_toNat_eq (by simp)
  rw [base]
  rfl
theorem RingReg.word_eq (r : RingReg) : r.word =
    BitVec.ofNat 64 (r.base.toNat + r.count * 2 ^ 20 + r.esize * 2 ^ 27 + (if r.layout then 2 ^ 36 else 0)) := by
  rw [RingReg.word, wNat, bit, ite_mul, Nat.one_mul, Nat.zero_mul]

/-! ## RCFG and RTOL (R305, R306) -/

theorem fld_top_eq_zero {w lo len : Nat} (small : w < 2 ^ lo) : fld w lo len = 0 := by rw [fld, Nat.div_eq_of_lt small, Nat.zero_mod]
section
variable {x : OpRing} (pass : s.guard x.q = true)
include pass
section
variable (plain : (s.rdG x.g).toNat < 2 ^ 37)
include plain
theorem execRcfg_configures (fits : ringWordOk s.spsize (s.rdG x.g).toNat = true) (idle : (s.ring x.m).claims = [])
    (unread : s.ringRead x.m = false) (now : (s.ring x.m).may s.cfgRank s.cycle = true) :
    execRcfg x s = matrixDone 8 (s.setRing x.m ((ringOfWord (s.ring x.m) (s.rdG x.g).toNat).stamp s.cfgRank s.cycle)) := by
  rw [execRcfg, guarded_pass _ pass]
  simp only [fld_top_eq_zero plain, fits, idle, unread, inOrder_now _ now, ne_eq, not_true_eq_false, Bool.not_true, Bool.false_eq_true, or_self,
    if_true, if_false]
theorem execRcfg_refuses (breaks : ringWordOk s.spsize (s.rdG x.g).toNat = false) : execRcfg x s = ringUse 1 x.m 8 s := by
  rw [execRcfg, guarded_pass _ pass]
  simp only [fld_top_eq_zero plain, breaks, ne_eq, not_true_eq_false, Bool.not_false, if_true, if_false]
end
theorem execRtol_ordered (plain : (s.rdG x.g).toNat < 2 ^ 34) : execRtol x s = inOrder x.m s.cfgRank s fun s =>
    matrixDone 8 (s.setRing x.m { s.ring x.m with tol := s.rdG x.g, at_ := s.cycle, rank := s.cfgRank }) := by
  rw [execRtol, guarded_pass _ pass]
  simp only [fld_top_eq_zero plain, ne_eq, not_true_eq_false, if_false]
  rfl
end
/-! ## RGET (R307) -/

theorem execRget_reads {x : OpRget} (pass : s.guard x.q = true) (now : (s.ring x.m).may 4 s.cycle = true) {k : Nat} (sel : x.sel.toNat = k)
    {v : Word} (item : (s.ring x.m).select k = v) :
    execRget x s = .next ((((s.wrG x.d v).setRing x.m { s.ring x.m with at_ := s.cycle, rank := 4 }).useMatrix).done 8) := by
  rw [execRget, guarded_pass _ pass, inOrder_now _ now, sel, item]
  rfl

/-! ## RADV and RWAIT (R308–R310) -/

section
variable {x : OpRadv} (pass : s.guard x.q = true)
include pass

theorem execRadv_later (later : ¬ (s.ring x.m).may (if x.far then 2 else 1) s.cycle = true) : execRadv x s = .next (s.waits .other 0) := by
  rw [execRadv, guarded_pass _ pass, inOrder_later _ later]
theorem execRwait_later (later : ¬ (s.ring x.m).may 4 s.cycle = true) : execRwait x s = .next (s.waits .other 0) := by
  rw [execRwait, guarded_pass _ pass, inOrder_later _ later]

section
variable (now : (s.ring x.m).may (if x.far then 2 else 1) s.cycle = true)
include now
theorem execRadv_unconfigured (empty : (s.ring x.m).count = 0) : execRadv x s = ringUse 2 x.m 8 s := by
  rw [execRadv, guarded_pass _ pass, inOrder_now _ now]
  exact if_pos empty
variable (configured : (s.ring x.m).count ≠ 0)
include configured
theorem execRadv_claimed (far : x.far = true) (claims : (s.ring x.m).claims ≠ []) : execRadv x s = ringUse 5 x.m 8 s := by
  rw [execRadv, guarded_pass _ pass, inOrder_now _ now]
  simp [configured, far, claims]
variable (unclaimed : x.far = true → (s.ring x.m).claims = [])
include unclaimed
theorem execRadv_beyond (beyond : (if x.far then (s.ring x.m).free else (s.ring x.m).filled) < x.n.toNat) :
    execRadv x s = ringUse 4 x.m 8 s := by
  have idle : (x.far && (s.ring x.m).claims != []) = false := by
    cases far : x.far with
    | false => rfl
    | true => simp [unclaimed far]
  rw [execRadv, guarded_pass _ pass, inOrder_now _ now]
  simp [configured, idle, beyond]
theorem execRadv_moves (within : x.n.toNat ≤ (if x.far then (s.ring x.m).free else (s.ring x.m).filled)) (quiet : s.tileQuiet = true)
    (unread : x.far = false → s.ringRead x.m = false) : execRadv x s = matrixDone 8 (s.setRing x.m
      ((if x.far then (s.ring x.m).publish x.n.toNat else (s.ring x.m).pop x.n.toNat).stamp (if x.far then 2 else 1) s.cycle)) := by
  have idle : (x.far && (s.ring x.m).claims != []) = false := by
    cases far : x.far with
    | false => rfl
    | true => simp [unclaimed far]
  have left : (!x.far && s.ringRead x.m) = false := by
    cases far : x.far with
    | false => simp [unread far]
    | true => rfl
  rw [execRadv, guarded_pass _ pass, inOrder_now _ now]
  simp [configured, idle, within.not_gt, quiet, left]
end

section
variable (now : (s.ring x.m).may 4 s.cycle = true)
include now
theorem execRwait_unconfigured (empty : (s.ring x.m).count = 0) : execRwait x s = ringUse 2 x.m 8 s := by
  rw [execRwait, guarded_pass _ pass, inOrder_now _ now]
  exact if_pos empty
variable (configured : (s.ring x.m).count ≠ 0)
include configured
theorem execRwait_tooMany (many : (s.ring x.m).count < x.n.toNat) : execRwait x s = ringUse 6 x.m 8 s := by
  rw [execRwait, guarded_pass _ pass, inOrder_now _ now]
  simp [configured, many]
variable (few : x.n.toNat ≤ (s.ring x.m).count) (free : s.heldBack s.cur 0 0 .acq .self = false)
include few free
theorem execRwait_passes (reached : x.n.toNat ≤ (if x.far then (s.ring x.m).free else (s.ring x.m).filled)) :
    execRwait x s = matrixDone 8 (s.setRing x.m ((s.ring x.m).stamp 4 s.cycle)) := by
  rw [execRwait, guarded_pass _ pass, inOrder_now _ now]
  simp [configured, few.not_gt, acquired_free _ free, reached]
theorem execRwait_waits (short : (if x.far then (s.ring x.m).free else (s.ring x.m).filled) < x.n.toNat) (lazy : s.eager = false) :
    execRwait x s = .next (s.waits .other 0) := by
  rw [execRwait, guarded_pass _ pass, inOrder_now _ now]
  simp [configured, few.not_gt, acquired_free _ free, short.not_ge, State.pumpFills, lazy, stay_eq]
end
end

/-- A ring that publishes n entries, and one that pops n. -/
theorem RingReg.publish_stamp {r : RingReg} (configured : 0 < r.count) (n rank now : Nat) : (r.publish n).stamp rank now =
    { r with tail := (r.tail + n) % r.count, filled := r.filled + n, at_ := now, rank := rank } := by
  rw [RingReg.publish, Nat.max_eq_right configured]
  rfl
theorem RingReg.pop_stamp {r : RingReg} (configured : 0 < r.count) (n rank now : Nat) : (r.pop n).stamp rank now =
    { r with head := (r.head + n) % r.count, filled := r.filled - n, at_ := now, rank := rank } := by
  rw [RingReg.pop, Nat.max_eq_right configured]
  rfl

/-- Settles O44: RCFG by the limits of its word, RGET by the item at its selector, RADV and RWAIT by their tests in turn. -/
theorem ringInstructions : Obligations.RingInstructions := by
  unfold Obligations.RingInstructions
  refine ⟨?configure, ?get, ?move⟩
  case configure =>
    intro x s pass w count esize base fits
    refine ⟨fun plain ok idle unread now => ?_, fun plain breaks => ?_, fun plain => ⟨fun now => ?_, fun later => ?_⟩⟩
    · rw [← ringOfWord_stamp]
      exact execRcfg_configures pass plain ((ringWordOk_iff _ _).2 ok) idle unread now
    · exact execRcfg_refuses pass plain (Bool.eq_false_iff.2 fun ok => breaks ((ringWordOk_iff _ _).1 ok))
    · exact (execRtol_ordered pass plain).trans (inOrder_now _ now)
    · exact (execRtol_ordered pass plain).trans (inOrder_later _ (by rw [later]; exact Bool.false_ne_true))
  case get =>
    intro x s pass r now reads
    have item {k : Nat} {v : Word} (sel : x.sel.toNat = k) (value : r.select k = v) : reads v := execRget_reads pass now sel value
    exact ⟨fun sel => item (congrArg _ sel) r.word_eq, fun sel => item (congrArg _ sel) rfl, fun sel => item (congrArg _ sel) rfl,
      fun sel => item (congrArg _ sel) rfl, fun sel => item (congrArg _ sel) rfl, fun sel => item (congrArg _ sel) rfl⟩
  case move =>
    intro x s pass r n room cause now place
    refine ⟨execRadv_later pass, execRwait_later pass, fun empty => ⟨fun may => execRadv_unconfigured pass may empty,
      fun may => execRwait_unconfigured pass may empty⟩, fun configured => ?_⟩
    have set : r.count ≠ 0 := configured.ne'
    refine ⟨fun may far claims => execRadv_claimed pass may set far claims, fun may far idle short => ?_, fun may near short => ?_,
      fun quiet far idle within may => ?_, fun quiet near within unread may => ?_, fun may many => execRwait_tooMany pass may set many,
      fun few may free => ⟨fun reached => execRwait_passes pass may set few free reached,
        fun short lazy => execRwait_waits pass may set few free short lazy⟩⟩
    · exact execRadv_beyond pass may set (fun _ => idle) (by rw [if_pos far]; exact short)
    · exact execRadv_beyond pass may set (fun far => absurd (near.symm.trans far) Bool.false_ne_true)
        (by rw [near]; exact short)
    · have moves := execRadv_moves pass (by rw [if_pos far]; exact may) set (fun _ => idle) (by rw [if_pos far]; exact within) quiet
        (fun near => absurd (near.symm.trans far) Bool.false_ne_true)
      rw [if_pos far, if_pos far, RingReg.publish_stamp configured] at moves
      exact moves
    · have moves := execRadv_moves pass (by rw [near]; exact may) set (fun far => absurd (near.symm.trans far) Bool.false_ne_true)
        (by rw [near]; exact within) quiet (fun _ => unread)
      rw [near, if_neg Bool.false_ne_true, if_neg Bool.false_ne_true, RingReg.pop_stamp configured] at moves
      exact moves

end Sys2Proof.Machine
end

section
/-!
SUPPORT. Fills (R258, R301, R312): the extents that a replaced ring or a draw leaves, the claim of an entry, and what the acceptance of a fill
leaves.
-/
namespace Sys2Proof.Machine
open Sys2Proof

variable {s : State}

/-! ## Which bytes the extents grant (R260) -/

/-- The extents of a processor's tile decide, and the module's number. -/
theorem State.firstUngranted_congr {u : State} (modid : u.modid = s.modid) (ext : ∀ n, u.extent n = s.extent n) (need : BitVec 4) (o : Nat)
    (rows : List (Nat × Nat)) : u.firstUngranted need o rows = s.firstUngranted need o rows := by
  have region (a : Nat) : u.region a = s.region a := by rw [State.region, State.region, modid]
  have ends (need : BitVec 4) (a : Nat) : u.grantEnd need a = s.grantEnd need a := by simp only [State.grantEnd, ext]
  have reach (need : BitVec 4) (a n k b : Nat) : State.firstRefused.go u need a n k b = State.firstRefused.go s need a n k b := by
    induction k generalizing b with
    | zero => rfl
    | succ k ih => simp only [State.firstRefused.go, ends, ih]
  have refused (need : BitVec 4) (a n : Nat) : u.firstRefused need a n = s.firstRefused need a n := reach need a n 20 a
  induction rows generalizing o with
  | nil => rfl
  | cons r rest ih => simp only [State.firstUngranted, region, refused, ih]
theorem State.extent_congr {u : State} (cur : u.cur = s.cur) (own : u.tile.ext = s.tile.ext) (fixed : u.ownExtent = s.ownExtent)
    (tiles : ∀ k, (u.getTile k).ext = (s.getTile k).ext) (n : Nat) : u.extent n = s.extent n := by
  simp only [State.extent, cur, own, fixed, tiles]
theorem State.extent_setRing (m : Ring) (r : RingReg) (n : Nat) : (s.setRing m r).extent n = s.extent n := by
  refine State.extent_congr (u := s.setRing m r) (s := s) rfl rfl rfl (fun k => ?_) n
  change (if k = s.here then (s.setRing m r).tile else assoc s.tiles k Tile.empty).ext = (if k = s.here then s.tile else _).ext
  split <;> rfl

/-! ## The checks and the claim of an entry (R301, R312) -/

theorem fillChecks_pass {m : Ring} {src : AReg} {a str w word : Nat} {ok : Region → Bool} {bad : Bool} {fits : RingReg → Bool}
    (k : State → Out) (ptr : ptrOk (s.rdA src) = true) (inside : s.rowOutside ok a str w 0 64 = none) (legal : bad = false)
    (now : (s.ring m).may 3 s.cycle = true) (configured : 0 < (s.ring m).count) (suits : fits (s.ring m) = true) :
    fillChecks m src a str w ok bad fits word s k = k s := by
  simp only [fillChecks, ptr, inside, legal, inOrder_now _ now, configured.ne', suits, Bool.not_true, Bool.false_eq_true, if_false]
/-- The next free entry of a ring is claimed by the command to come. -/
def State.claim (s : State) (m : Ring) : State :=
  s.setRing m { s.ring m with claims := (s.ring m).claims ++ [s.core.handle], at_ := s.cycle, rank := 3 }
/-- Where that entry stands. -/
def State.claimAddr (s : State) (m : Ring) : Nat :=
  let r := s.ring m
  scratchAddr s.here (r.base.toNat + (r.tail + r.claims.length) % r.count * r.esize * 256)
theorem claimed_now {m : Ring} (k : Nat → State → Out) (free : (s.ring m).filled + (s.ring m).claims.length < (s.ring m).count)
    (room : s.core.pending < 16) (now : (s.ring m).may 3 s.cycle = true) : claimed m s k = k (s.claimAddr m) (s.claim m) := by
  have some : (s.ring m).free ≠ 0 := by
    unfold RingReg.free
    omega
  have wraps : max 1 (s.ring m).count = (s.ring m).count := Nat.max_eq_right (by omega)
  simp only [claimed, some, if_false, whenRoom_pass _ room, inOrder_now _ now, RingReg.entry, wraps]
  rfl

/-! ## The acceptance (R229, R258, R312) -/

section
variable {d : GReg} {w : CmdWork} {need : BitVec 4} (granted : s.firstUngranted need 0 w.srcRows = none)
include granted
/-- A fill whose source is granted is a new command, and its bytes are counted. -/
theorem acceptFill_recounted :
    Recounted (((s.wrG d (s.core.handle.setWidth 64)).progress).addCmd w .pending) (acceptFill d w need s) := by
  rw [acceptFill, granted]
  exact (Recounted.countBytes _ _ _ _ _).trans (.countBytes _ _ _ _ _)
theorem acceptFill_issues : Issues s (acceptFill d w need s) d w .pending := by
  have counted := acceptFill_recounted (d := d) granted
  have fresh : Issues s (((s.wrG d (s.core.handle.setWidth 64)).progress).addCmd w .pending) d w .pending :=
    .addCmd (by rw [State.progress_mem, State.wrG_mem]) (State.progress_core _)
  exact fresh.of_core counted.mem counted.core
theorem acceptFill_ring (m : Ring) : (acceptFill d w need s).ring m = s.ring m := by
  have rings := congrArg Tile.rings (acceptFill_recounted (d := d) granted).uncounted
  change (acceptFill d w need s).tile.rings = (s.wrG d (s.core.handle.setWidth 64)).progress.tile.rings at rings
  rw [State.progress_tile_eq, State.wrG_tile] at rings
  rw [State.ring, Tile.ring, rings]
  rfl
theorem acceptFill_seed : (acceptFill d w need s).core.seed = s.core.seed := by
  rw [(acceptFill_recounted granted).core]
  change (s.wrG d (s.core.handle.setWidth 64)).progress.core.seed = _
  rw [State.progress_core, State.wrG]
  split <;> rfl
end
theorem State.done_ring (n : Nat) (m : Ring) : (s.done n).ring m = s.ring m := by
  rw [State.ring, State.done_tile_eq]
  rfl

/-! ## The publication (R301, R310) -/

theorem State.getTile_teamProgress (num : Nat) (context : Bool) (n : Nat) : (s.teamProgress num context).getTile n = s.getTile n := by
  rw [State.teamProgress_eq]
  rfl
theorem State.rings_countAt (l c k n i : Nat) : ((s.countAt l c k n).getTile i).rings = (s.getTile i).rings := by
  have rings := congrArg Tile.rings ((SameWork.countAt s l c k n).tile i)
  exact rings
theorem State.rings_progressOf (p : ProcId) (n : Nat) : ((s.progressOf p).getTile n).rings = (s.getTile n).rings := by
  have stamped (l : Nat) : ((s.setTile l { s.getTile l with progress := s.cycle }).getTile n).rings = (s.getTile n).rings := by
    rw [State.getTile_setTile]
    split
    · next same => rw [same]
    · rfl
  cases p <;> simp only [State.progressOf, State.getTile_teamProgress, stamped]
theorem State.rings_released (l : Nat) (h : BitVec 16) (n : Nat) : ((s.released l h).getTile n).rings = (s.getTile n).rings := by
  unfold State.released
  split
  · rw [State.putCmd, State.getTile_setCore]
  · rfl
/-- The entry at TAIL is published, and its claim ends. -/
theorem State.publishFill_ring {lcid : Nat} {m : Ring} {h : BitVec 16} {l : List (BitVec 16)}
    (claims : ((s.getTile lcid).ring m).claims = h :: l) (ready : s.fillReady lcid h = true) (open_ : s.mayPublish lcid = true)
    (now : ((s.getTile lcid).ring m).may 2 s.cycle = true) : ((s.publishFill lcid m).getTile lcid).ring m =
      ({ ((s.getTile lcid).ring m).publish 1 with claims := l } : RingReg).stamp 2 s.cycle := by
  unfold State.publishFill
  simp only [claims, ready, now, open_, Bool.and_self, if_true]
  rw [Tile.ring, State.rings_progressOf, State.rings_countAt, State.rings_released, State.getTile_setTile_same]
  exact vget_vset_same _ _ _ _ m.isLt

end Sys2Proof.Machine
end

section
/-!
CERTIFICATE. Fills and their publication (R301, R310–R315).
-/
namespace Sys2Proof.Machine
open Sys2Proof

variable {s : State}

/-! ## RFILL and RFILLW (R312, R314) -/

/-- The row stride of a fill, whose default is the row's width. -/
def State.rowStride (s : State) (str : GReg) (width : Nat) : Nat := if str = 0 then width else (s.rdG str).toNat
section
variable {x : OpRfill} {ok : Region → Bool} {need : BitVec 4} {word : Nat} (pass : s.guard x.q = true) (ptr : ptrOk (s.rdA x.src) = true)
  (rows : (s.rdG x.width).toNat ≠ 0) (stride : x.str = 0 ∨ s.rowStride x.str (s.rdG x.width).toNat < 2 ^ 32) (configured : 0 < (s.ring x.m).count)
  (raw : (s.ring x.m).layout = false) (fits : 64 * (s.rdG x.width).toNat ≤ (s.ring x.m).esize * 256)
  (free : (s.ring x.m).filled + (s.ring x.m).claims.length < (s.ring x.m).count) (room : s.core.pending < 16)
  (now : (s.ring x.m).may 3 s.cycle = true)
  (inside : s.rowOutside ok (ptrAddr (s.rdA x.src)) (s.rowStride x.str (s.rdG x.width).toNat) (s.rdG x.width).toNat 0 64 = none)
include pass ptr rows stride configured raw fits free room now inside
theorem rawFill_eq : rawFill x ok need word s = .next ((acceptFill x.d (.fill x.m (ptrAddr (s.rdA x.src)) (s.claimAddr x.m)
    (s.rowStride x.str (s.rdG x.width).toNat) (s.rdG x.width).toNat) need (s.claim x.m)).done 16) := by
  have legal : (decide (x.str ≠ 0 ∧ 2 ^ 32 ≤ s.rowStride x.str (s.rdG x.width).toNat) || (s.rdG x.width).toNat == 0) = false := by
    rw [Bool.or_eq_false_iff]
    refine ⟨decide_eq_false fun ⟨given, long⟩ => ?_, beq_eq_false_iff_ne.2 rows⟩
    exact stride.elim given long.not_gt
  have suits : (!(s.ring x.m).layout && decide (64 * (s.rdG x.width).toNat ≤ (s.ring x.m).esize * 256)) = true := by
    rw [raw, decide_eq_true fits]
    rfl
  rw [rawFill, guarded_pass _ pass]
  exact (fillChecks_pass (fits := fun r => !r.layout && decide (64 * (s.rdG x.width).toNat ≤ r.esize * 256)) _ ptr inside legal now configured
    suits).trans (claimed_now _ free room now)
theorem rawFill_issues
    (granted : s.firstUngranted need 0 (copyRows (ptrAddr (s.rdA x.src)) (s.rowStride x.str (s.rdG x.width).toNat) (s.rdG x.width).toNat 64) = none) :
    ∃ t, rawFill x ok need word s = .next t ∧ Issues s t x.d (.fill x.m (ptrAddr (s.rdA x.src)) (s.claimAddr x.m)
      (s.rowStride x.str (s.rdG x.width).toNat) (s.rdG x.width).toNat) .pending ∧
      (t.ring x.m).claims = (s.ring x.m).claims ++ [s.core.handle] := by
  have kept : (s.claim x.m).firstUngranted need 0
      (copyRows (ptrAddr (s.rdA x.src)) (s.rowStride x.str (s.rdG x.width).toNat) (s.rdG x.width).toNat 64) = none :=
    (State.firstUngranted_congr (u := s.claim x.m) (s := s) rfl (State.extent_setRing _ _) _ _ _).trans granted
  have issues := (acceptFill_issues (d := x.d) (w := .fill x.m (ptrAddr (s.rdA x.src)) (s.claimAddr x.m)
    (s.rowStride x.str (s.rdG x.width).toNat) (s.rdG x.width).toNat) kept).done 16
  refine ⟨_, rawFill_eq pass ptr rows stride configured raw fits free room now inside, ⟨issues.mem, issues.reg, issues.issued, issues.last⟩, ?_⟩
  rw [State.done_ring, acceptFill_ring kept, State.claim, State.ring_setRing_same]
end

/-! ## RQUANT (R312, R313) -/

section
variable (rm : Rm) (n : Nat)
/-- A draw changes the random stream only. -/
theorem State.drew_eq : s.drew rm n = { s with core := { s.core with seed := (s.drew rm n).core.seed } } := by
  unfold State.drew
  split <;> rfl
theorem State.drew_seed : (s.drew rm n).core.seed = if rm = .rsr then seedNext s.core.seed n else s.core.seed := by
  unfold State.drew
  split <;> rfl
theorem State.drew_handle : (s.drew rm n).core.handle = s.core.handle := by rw [State.drew_eq]; rfl
theorem State.drew_issued : (s.drew rm n).core.issued = s.core.issued := by rw [State.drew_eq]
theorem State.drew_modid : (s.drew rm n).modid = s.modid := by rw [State.drew_eq]
theorem State.extent_drew (k : Nat) : (s.drew rm n).extent k = s.extent k := by
  rw [State.drew_eq]
  exact State.extent_congr (s := s) rfl rfl rfl (fun _ => rfl) k
end
section
variable {x : OpRquant} (pass : s.guard x.q = true) (ptr : ptrOk (s.rdA x.src) = true) (fmt : ptrFmt (s.rdA x.src) = .bf16)
  (blog : ptrBlog (s.rdA x.src) = 0) (stride : s.rowStride x.str 128 < 2 ^ 32) (configured : 0 < (s.ring x.m).count)
  (tiles : (s.ring x.m).layout = true) (free : (s.ring x.m).filled + (s.ring x.m).claims.length < (s.ring x.m).count)
  (room : s.core.pending < 16) (now : (s.ring x.m).may 3 s.cycle = true)
  (inside : s.rowOutside Region.fillSrc (ptrAddr (s.rdA x.src)) (s.rowStride x.str 128) 128 0 64 = none)
include pass ptr fmt blog stride configured tiles free room now inside
/-- The draw falls at the claim, before the acceptance. -/
theorem execRquant_eq : execRquant x s = .next ((acceptFill x.d (.quant x.m (ptrAddr (s.rdA x.src)) (s.claimAddr x.m) (s.rowStride x.str 128)
    (if x.fixed then some ((s.rdG x.band).setWidth 16) else none) (resolveRm s.core.fpctl x.rm) s.core.seed
    ((s.claim x.m).anchorOf (ptrAddr (s.rdA x.src)))) 5 ((s.claim x.m).drew (resolveRm s.core.fpctl x.rm) 8192)).done 16) := by
  have legal : (ptrFmt (s.rdA x.src) != .bf16 || ptrBlog (s.rdA x.src) != 0 || decide (2 ^ 32 ≤ s.rowStride x.str 128)) = false := by
    rw [fmt, blog, decide_eq_false stride.not_ge]
    rfl
  rw [execRquant, guarded_pass _ pass]
  exact (fillChecks_pass (fits := fun r => r.layout) _ ptr inside legal now configured tiles).trans (claimed_now _ free room now)
theorem execRquant_issues (granted : s.firstUngranted 5 0 (copyRows (ptrAddr (s.rdA x.src)) (s.rowStride x.str 128) 128 64) = none) :
    ∃ t w, execRquant x s = .next t ∧ Issues s t x.d w .pending ∧ w.isFill = true ∧
      t.core.seed = if resolveRm s.core.fpctl x.rm = .rsr then seedNext s.core.seed 8192 else s.core.seed := by
  let w : CmdWork := .quant x.m (ptrAddr (s.rdA x.src)) (s.claimAddr x.m) (s.rowStride x.str 128)
    (if x.fixed then some ((s.rdG x.band).setWidth 16) else none) (resolveRm s.core.fpctl x.rm) s.core.seed
    ((s.claim x.m).anchorOf (ptrAddr (s.rdA x.src)))
  let u := (s.claim x.m).drew (resolveRm s.core.fpctl x.rm) 8192
  have kept : u.firstUngranted 5 0 w.srcRows = none := (State.firstUngranted_congr (u := u) (s := s) (State.drew_modid _ _)
    (fun n => (State.extent_drew _ _ n).trans (State.extent_setRing _ _ n)) _ _ _).trans granted
  obtain ⟨mem, reg, count, last⟩ := (acceptFill_issues (d := x.d) kept).done 16
  refine ⟨_, w, execRquant_eq pass ptr fmt blog stride configured tiles free room now inside,
    ⟨mem.trans (State.drew_mem _ _), reg.trans (by rw [State.drew_handle]; rfl), by rw [count, State.drew_issued]; rfl, by rw [State.drew_handle] at last; exact last⟩, rfl, ?_⟩
  rw [State.done_core_eq]
  exact (acceptFill_seed kept).trans (State.drew_seed _ _)
end

/-- Settles O45: a fill by the claim it takes and the command it becomes, a publication by what it does to its ring. -/
theorem fillInstructions : Obligations.FillInstructions := by
  unfold Obligations.FillInstructions
  refine ⟨?fill, ?quant, ?publish⟩
  case fill =>
    intro x s pass ptr r h w str a dst rows stride configured raw fits free room now fills
    have fill {i : Instr} {ok : Region → Bool} {need : BitVec 4} (run : ∃ word, exec i s = rawFill x ok need word s) : fills i ok need := by
      intro inside granted
      obtain ⟨word, run⟩ := run
      obtain ⟨t, e, ⟨mem, reg, -, c, last, handle, work, status⟩, claims⟩ :=
        rawFill_issues (word := word) pass ptr rows stride configured raw fits free room now inside granted
      exact ⟨t, c, run.trans e, mem, reg, fun _ => claims, last, handle, status, work⟩
    exact ⟨fill ⟨_, rfl⟩, fill ⟨_, rfl⟩⟩
  case quant =>
    intro x s pass ptr r h str a fmt blog stride configured tiles free room now inside granted
    obtain ⟨t, w, e, ⟨mem, reg, -, c, last, handle, work, status⟩, fill, seed⟩ :=
      execRquant_issues pass ptr fmt blog stride configured tiles free room now inside granted
    exact ⟨t, c, e, mem, reg, last, handle, status, by rw [work]; exact fill, seed⟩
  case publish =>
    intro s lcid m h l claims ready open_ _ now r
    refine ⟨s.publishFill lcid m, rfl, State.publishFill_mem lcid m, ?_⟩
    exact State.publishFill_ring claims ready open_ now

end Sys2Proof.Machine
end

section
/-!
SUPPORT. Commits and the steps of the matrix unit (R62, R301, R317, R320–R322): what each operation leaves of the sets, the rings and the
instructions in progress.
-/
namespace Sys2Proof.Machine
open Sys2Proof

variable {s : State}

/-! ## Accumulator sets (R62) -/

theorem State.accSet_setAcc_same (c : Bool) (x : AccSet) : (s.setAcc c x).tile.accSet c = x :=
  vget_vset_same _ _ _ _ (by cases c <;> decide)
theorem State.accSet_setAcc_other (c : Bool) (x : AccSet) : (s.setAcc c x).tile.accSet (!c) = s.tile.accSet (!c) :=
  vget_vset_ne _ _ _ _ _ (by cases c <;> decide)
/-- A pending bank is replaced without a change to a committed one. -/
theorem State.cells_setPending (c d : Bool) (l : List (Nat × W80)) :
    ((s.setPending c l).tile.accSet d).cells = (s.tile.accSet d).cells := by
  by_cases same : d = c
  · subst same
    rw [State.setPending, State.accSet_setAcc_same]
  · obtain rfl : d = !c := by cases c <;> cases d <;> simp_all
    rw [State.setPending, State.accSet_setAcc_other]
theorem State.pending_setPending_same (c : Bool) (l : List (Nat × W80)) : ((s.setPending c l).tile.accSet c).pending = l :=
  congrArg AccSet.pending (State.accSet_setAcc_same c _)
theorem State.pending_setPending_other (c : Bool) (l : List (Nat × W80)) :
    ((s.setPending c l).tile.accSet (!c)).pending = (s.tile.accSet (!c)).pending :=
  congrArg AccSet.pending (State.accSet_setAcc_other c _)

/-! ## The pops and the count of a commit (R301, R320) -/

/-- The entries a matrix instruction has read are popped: one of a ring that it names twice. -/
def State.popBoth (s : State) (ma mb : Ring) : State := if ma = mb then s.popRing ma else (s.popRing ma).popRing mb
theorem State.ring_popRing_same (m : Ring) : (s.popRing m).ring m = ((s.ring m).pop 1).stamp 1 s.cycle := State.ring_setRing_same _ _
theorem State.ring_popRing_ne {m n : Ring} (other : m ≠ n) : (s.popRing m).ring n = s.ring n := State.ring_setRing_ne other _
theorem State.ring_popBoth_first (ma mb : Ring) : (s.popBoth ma mb).ring ma = ((s.ring ma).pop 1).stamp 1 s.cycle := by
  unfold State.popBoth
  split
  · exact State.ring_popRing_same ma
  · next other => rw [State.ring_popRing_ne (Ne.symm other), State.ring_popRing_same]
theorem State.ring_popBoth_second (ma mb : Ring) : (s.popBoth ma mb).ring mb = ((s.ring mb).pop 1).stamp 1 s.cycle := by
  unfold State.popBoth
  split
  · next same =>
    subst same
    exact State.ring_popRing_same ma
  · next other =>
    rw [State.ring_popRing_same, State.ring_popRing_ne other]
    rfl
theorem State.filled_setRing {m : Ring} {r : RingReg} (kept : r.filled = (s.ring m).filled) (n : Ring) :
    ((s.setRing m r).ring n).filled = (s.ring n).filled := by
  by_cases same : m = n
  · subst same
    rw [State.ring_setRing_same, kept]
  · rw [State.ring_setRing_ne same]
theorem satAdd_zero (x : Word) : satAdd x 0 = x := by
  have small := x.isLt
  have kept : min x.toNat (2 ^ 64 - 1) = x.toNat := Nat.min_eq_left (by omega)
  rw [satAdd, Nat.add_zero, kept, BitVec.ofNat_toNat, BitVec.setWidth_eq]
theorem RingReg.counted_ncommit (r : RingReg) (fmt : Nat) :
    (r.counted fmt).ncommit = if fmt = 0 then satAdd r.ncommit 1 else r.ncommit := by
  by_cases narrow : fmt = 0
  · simp [RingReg.counted, narrow, bit]
  · simp [RingReg.counted, narrow, bit, satAdd_zero]
/-- Counting a matrix instruction changes counters alone. -/
theorem State.countMma_tile_eq (v : Option Verdict) : (s.countMma v).tile = { s.tile with ctr := (s.countMma v).tile.ctr } := by
  cases v with
  | none => exact State.count_tile_eq _ _ _ _
  | some v =>
    simp only [State.countMma]
    rw [State.count_tile_eq, State.count_tile_eq, State.count_tile_eq, State.count_tile_eq]

/-! ## The commit (R320) -/

section
variable (c : Bool) (ma mb : Ring) (l : List (Nat × W80)) (v : Option Verdict)
/-- The totals of a set after a commit (R328). -/
def AccSet.totalsWith (x : AccSet) (v : Option Verdict) : Vector Nat 3 :=
  match v with
  | some v => vset x.totals v.fmt (min 0xFFFF (vget x.totals v.fmt 0 + 1))
  | none => x.totals
/-- The entries are popped and ring ma counts a verdict, once the set has taken its cells. -/
def State.popCounted (s : State) (ma mb : Ring) (v : Option Verdict) : State :=
  match v with
  | some v => (s.popBoth ma mb).setRing ma (((s.popBoth ma mb).ring ma).counted v.fmt)
  | none => s.popBoth ma mb
theorem State.commit_eq : s.commit c ma mb l v =
    ((s.setAcc c ⟨l, [], v, (s.tile.accSet c).totalsWith v⟩).popCounted ma mb v).countMma v := rfl
theorem State.popCounted_tile_eq : (s.popCounted ma mb v).tile = { s.tile with rings := (s.popCounted ma mb v).tile.rings } := by
  have popped : (s.popBoth ma mb).tile = { s.tile with rings := (s.popBoth ma mb).tile.rings } := by
    unfold State.popBoth
    split <;> rfl
  cases v with
  | none => exact popped
  | some v =>
    have counted : (s.popCounted ma mb (some v)).tile =
      { (s.popBoth ma mb).tile with rings := (s.popCounted ma mb (some v)).tile.rings } := rfl
    exact counted.trans (by rw [popped])
theorem State.commit_tile_eq : (s.commit c ma mb l v).tile =
    { (s.setAcc c ⟨l, [], v, (s.tile.accSet c).totalsWith v⟩).tile with
      rings := ((s.setAcc c ⟨l, [], v, (s.tile.accSet c).totalsWith v⟩).popCounted ma mb v).tile.rings, ctr := (s.commit c ma mb l v).tile.ctr } := by
  rw [State.commit_eq, State.countMma_tile_eq, State.popCounted_tile_eq]
theorem State.commit_accSet_same : (s.commit c ma mb l v).tile.accSet c = ⟨l, [], v, (s.tile.accSet c).totalsWith v⟩ := by
  rw [State.commit_tile_eq]
  exact State.accSet_setAcc_same c _
theorem State.commit_accSet_other : (s.commit c ma mb l v).tile.accSet (!c) = s.tile.accSet (!c) := by
  rw [State.commit_tile_eq]
  exact State.accSet_setAcc_other c _
theorem State.commit_mmas : (s.commit c ma mb l v).tile.mmas = s.tile.mmas := by
  rw [State.commit_tile_eq]
  rfl
theorem State.commit_ring (m : Ring) : (s.commit c ma mb l v).ring m =
    ((s.setAcc c ⟨l, [], v, (s.tile.accSet c).totalsWith v⟩).popCounted ma mb v).ring m := by
  rw [State.ring, State.commit_tile_eq]
  rfl
theorem State.filled_popCounted (m : Ring) : ((s.popCounted ma mb v).ring m).filled = ((s.popBoth ma mb).ring m).filled := by
  cases v with
  | none => rfl
  | some v => exact State.filled_setRing (s := s.popBoth ma mb) (r := ((s.popBoth ma mb).ring ma).counted v.fmt) rfl m
theorem State.commit_filled_first : ((s.commit c ma mb l v).ring ma).filled = (s.ring ma).filled - 1 := by
  rw [State.commit_ring, State.filled_popCounted, State.ring_popBoth_first]
  rfl
theorem State.commit_filled_second : ((s.commit c ma mb l v).ring mb).filled = (s.ring mb).filled - 1 := by
  rw [State.commit_ring, State.filled_popCounted, State.ring_popBoth_second]
  rfl
theorem State.commit_ncommit (f : Verdict) : ((s.commit c ma mb l (some f)).ring ma).ncommit =
    if f.fmt = 0 then satAdd (s.ring ma).ncommit 1 else (s.ring ma).ncommit := by
  rw [State.commit_ring, State.popCounted, State.ring_setRing_same, RingReg.counted_ncommit, State.ring_popBoth_first]
  rfl
end

/-! ## A failed check (R317, R321) -/

section
variable (x : Mma)
theorem State.widen_core : (s.widen x).core = s.core := by
  unfold State.widen
  split <;> rfl
theorem State.widen_pending : ((s.widen x).tile.accSet (!x.c)).pending = [] := by
  unfold State.widen
  dsimp only
  split
  · exact (State.pending_setPending_other x.c _).trans (State.pending_setPending_same (!x.c) [])
  · exact (State.pending_setPending_other x.c _).trans (State.pending_setPending_same (!x.c) [])
theorem State.widen_cells (d : Bool) : ((s.widen x).tile.accSet d).cells = (s.tile.accSet d).cells := by
  unfold State.widen
  dsimp only
  split
  · exact (State.cells_setPending x.c d _).trans (State.cells_setPending (!x.c) d [])
  · exact (State.cells_setPending x.c d _).trans (State.cells_setPending (!x.c) d [])
theorem State.widen_phases : (s.widen x).tile.mmas.map Mma.phase = [if x.phase = .first then .wide8 else .fetch] := by
  unfold State.widen
  dsimp only
  split
  · next narrow =>
    rw [if_pos narrow]
    rfl
  · next wide => 
    rw [if_neg wide]
    rfl
end

end Sys2Proof.Machine
end

section
/-!
CERTIFICATE. Matrix instructions commit, widen and re-fetch (R316, R317, R320–R325).
-/
namespace Sys2Proof.Machine
open Sys2Proof

variable {s : State}

/-! ## An eager machine takes the instruction whole (R316, R320) -/

section
variable {k : MmaKind} {c : Bool} {ma mb : Ring} {l : List Nat} {v : Option Verdict}
theorem matrixOp_commits (eager : s.eager = true) (setA : 0 < (s.ring ma).count) (setB : 0 < (s.ring mb).count)
    (suitsA : (s.ring ma).suits k = true) (suitsB : (s.ring mb).suits k = true) (ready : s.entriesReady ma mb = true)
    (idle : s.tile.mmas = []) (result : s.resultOf k c ma mb (s.ring ma).tol = .cells l v) :
    matrixOp k c ma mb s = .next ((s.commit c ma mb (bankOf l) v).useMatrix.done 8) := by
  have pops : s.mayPop ma mb = true := by
    rw [State.entriesReady, Bool.and_eq_true] at ready
    exact ready.2
  unfold matrixOp
  simp only [idle, pops, setA.ne', setB.ne', suitsA, suitsB, ready, eager, Bool.not_true, Bool.false_eq_true, if_true, if_false, runMma, result,
    matrixDone_eq]
/-- What a commit leaves once its instruction has completed. -/
theorem State.commit_done (idle : s.tile.mmas = []) : let t := (s.commit c ma mb (bankOf l) v).useMatrix.done 8
    t.mem = s.mem ∧ (t.tile.accSet c).cells = bankOf l ∧ (t.tile.accSet c).verdict = v ∧ (t.tile.accSet c).pending = [] ∧
      t.tile.accSet (!c) = s.tile.accSet (!c) ∧ t.tile.mmas = [] ∧ (t.ring ma).filled = (s.ring ma).filled - 1 ∧
      (t.ring mb).filled = (s.ring mb).filled - 1 ∧
      ∀ f, v = some f → (t.ring ma).ncommit = if f.fmt = 0 then satAdd (s.ring ma).ncommit 1 else (s.ring ma).ncommit := by
  intro t
  have tile := State.used_done_tile_eq (s.commit c ma mb (bankOf l) v) 8
  have sets (d : Bool) : t.tile.accSet d = (s.commit c ma mb (bankOf l) v).tile.accSet d := State.used_done_accSet _ 8 d
  have rings (m : Ring) : t.ring m = (s.commit c ma mb (bankOf l) v).ring m := State.used_done_ring _ 8 m
  rw [sets, sets, rings, rings, State.commit_accSet_same]
  refine ⟨(State.used_done_mem _ _).trans (State.commit_mem _ _ _ _ _), rfl, rfl, rfl, State.commit_accSet_other _ _ _ _ _, ?_,
    State.commit_filled_first _ _ _ _ _, State.commit_filled_second _ _ _ _ _, fun f verdict => ?_⟩
  · exact (congrArg Tile.mmas tile).trans ((State.commit_mmas _ _ _ _ _).trans idle)
  · subst verdict
    exact State.commit_ncommit c ma mb (bankOf l) f
end

/-! ## The steps of an instruction that has begun (R317, R321, R322) -/

section
variable {lcid : Nat} {m : Mma} {r : List Mma} (begun : (s.focus (.main lcid)).tile.mmas = m :: r)
  (running : (s.focus (.main lcid)).core.running = true) (before : s.pastStop (.main lcid) = false)
include begun running before
theorem execMmaCommit_commits (phase : m.phase ≠ .fetch) {v : Option Verdict} (passes : (s.focus (.main lcid)).checked m = some v)
    (pops : (s.focus (.main lcid)).mayPop m.ma m.mb = true) : let u := s.focus (.main lcid)
    execMmaCommit ⟨lcid⟩ s = .next ((((((u.commit m.c m.ma m.mb (u.tile.accSet m.c).pending v).setMmas r).useMatrix).retire).advance 8).focus
      s.cur) := by
  simp [execMmaCommit, begun, running, before, phase, passes, pops]
theorem execMmaCommit_widens (phase : m.phase ≠ .fetch) (fails : (s.focus (.main lcid)).checked m = none) :
    execMmaCommit ⟨lcid⟩ s = .next (((s.focus (.main lcid)).widen m).focus s.cur) := by
  simp [execMmaCommit, begun, running, before, phase, fails]
end

/-- The instruction with one more piece in its replay buffer. -/
def Mma.refetched (m : Mma) (k : Nat) (bytes : List Byte) : Mma := { m with replay := (k, bytes) :: m.replay }
/-- The unit once a piece of `total` stands in the replay buffer: after the last one the products of the tiles enter the pending bank. -/
def State.refetchTaken (s : State) (y : Mma) (total : Nat) : State :=
  if y.replay.length < total then s.setMmas [y]
  else
    let t := y.tiles total
    (s.setPending y.c (bankOf (productsOf y.kind y.tol .wide16 (s.tile.accSet y.c).cell t.1 t.2).1)).setMmas
      [{ y with phase := .wide16, replay := [] }]
theorem State.refetchTaken_mem (y : Mma) (total : Nat) : (s.refetchTaken y total).mem = s.mem := by
  unfold State.refetchTaken
  split <;> rfl
theorem State.refetchTaken_mmas (y : Mma) (total : Nat) : (s.refetchTaken y total).tile.mmas =
    [if y.replay.length < total then y else { y with phase := .wide16, replay := [] }] := by
  unfold State.refetchTaken
  split <;> rfl
section
variable {lcid k a n : Nat} {m : Mma} {r : List Mma} (begun : (s.focus (.main lcid)).tile.mmas = m :: r)
  (running : (s.focus (.main lcid)).core.running = true) (phase : m.phase = .fetch) (before : s.pastStop (.main lcid) = false)
  (piece : ((s.focus (.main lcid)).refetchPieces m)[k]? = some (a, n)) (fresh : m.replay.any (fun e => e.1 == k) = false)
  (window : (s.focus (.main lcid)).inWindow a = false)
  (sound : (s.focus (.main lcid)).refetchFault m.ma m.mb ((s.focus (.main lcid)).headBytes m.ma) ((s.focus (.main lcid)).headBytes m.mb) = none)
  (admitted : (s.focus (.main lcid)).admits (s.focus (.main lcid)).cur a = true)
include begun running phase before piece fresh window sound admitted
theorem execAnchorRefetch_takes : let u := s.focus (.main lcid)
    execAnchorRefetch ⟨lcid, k⟩ s =
      .next (((u.countSpans [(a, n)]).refetchTaken (m.refetched k (u.readBytes a n)) (u.refetchPieces m).length).focus s.cur) := by
  simp only [execAnchorRefetch, begun, running, phase, before, piece, fresh, window, sound, admitted, ne_eq, not_true_eq_false,
    Bool.true_eq_false, Bool.false_eq_true, or_self, if_true, if_false, State.refetchTaken, Mma.refetched]
end

/-- Settles O46: an instruction of an eager machine by its commit, the steps of the unit by what they leave of the sets and of the instructions
in progress. -/
theorem matrixCommit : Obligations.MatrixCommit := by
  unfold Obligations.MatrixCommit
  refine ⟨?whole, ?check, ?refetch⟩
  case whole =>
    intro s k c ma mb l v eager setA setB suitsA suitsB ready idle result commits
    have commit {i : Instr} (run : exec i s = matrixOp k c ma mb s) : commits i := by
      obtain ⟨mem, cells, verdict, pending, other, none, popA, popB, count⟩ :=
        State.commit_done (c := c) (ma := ma) (mb := mb) (l := l) (v := v) idle
      exact ⟨_, run.trans (matrixOp_commits eager setA setB suitsA suitsB ready idle result), mem, cells, verdict, pending, other, none,
        fun _ => popA, fun _ => popB, fun f same _ => count f same⟩
    refine ⟨fun q pass kind => ?_, fun q fov pass kind => ?_, fun q r fov pass kind => ?_⟩
    all_goals
      subst kind
      exact commit (guarded_pass _ pass)
  case check =>
    intro s lcid m r u begun running before phase
    refine ⟨fun v passes pops => execMmaCommit_commits begun running before phase passes pops, fun fails => ?_⟩
    exact ⟨u.widen m, execMmaCommit_widens begun running before phase fails, State.widen_core m,
      (State.widen_mem m).trans (State.focus_mem _), State.widen_pending m, fun c => State.widen_cells m c, State.widen_phases m⟩
  case refetch =>
    intro s lcid k a n m r u begun running phase before piece fresh window sound admitted
    refine ⟨_, _, execAnchorRefetch_takes begun running phase before piece fresh window sound admitted, ?_, State.refetchTaken_mmas _ _,
      fun more => if_pos more, fun last => if_neg last.not_gt⟩
    rw [State.refetchTaken_mem, State.countSpans_mem, State.focus_mem]

end Sys2Proof.Machine
end

section
/-!
SUPPORT. Banks of cells (R62, R329–R331): byte strings of numbers side by side, the cells that a list stands for, the checks of a bank's
address, and the stores of a bank.
-/
namespace Sys2Proof.Machine
open Sys2Proof

variable {s : State}

/-! ## Numbers side by side -/

theorem natBytes_length (x n : Nat) : (natBytes x n).length = n := by
  induction n generalizing x with
  | zero => rfl
  | succ n ih => rw [natBytes, List.length_cons, ih]
theorem leNat_natBytes (x n : Nat) : leNat (natBytes x n) = x % 2 ^ (8 * n) := by
  induction n generalizing x with
  | zero => simp [natBytes, leNat, Nat.mod_one]
  | succ n ih =>
    rw [natBytes, leNat, ih, BitVec.toNat_ofNat, Nat.mul_succ, Nat.add_comm (8 * n), Nat.pow_add, Nat.mod_mul]
theorem bytesNat_cons (b : Byte) (l : List Byte) (i n : Nat) : bytesNat (b :: l) (i + 1) n = bytesNat l i n := by
  induction n generalizing i with
  | zero => rfl
  | succ n ih =>
    rw [bytesNat, bytesNat, ih]
    rfl
/-- A byte string read whole. -/
theorem bytesNat_eq_leNat (l : List Byte) : bytesNat l 0 l.length = leNat l := by
  induction l with
  | nil => rfl
  | cons b r ih =>
    rw [List.length_cons, bytesNat, bytesNat_cons, ih]
    rfl
/-- The bytes of numbers of `n` bytes are the numbers side by side. -/
theorem leNat_flatMap_natBytes (f : Nat → Nat) (n : Nat) (l : List Nat) :
    leNat (l.flatMap (fun q => natBytes (f q) n)) = packLanes (8 * n) (l.map f) := by
  induction l with
  | nil => rfl
  | cons q r ih => rw [List.flatMap_cons, leNat_append, natBytes_length, leNat_natBytes, ih, List.map_cons, packLanes]
theorem length_flatMap_natBytes (f : Nat → Nat) (n : Nat) (l : List Nat) : (l.flatMap (fun q => natBytes (f q) n)).length = n * l.length := by
  induction l with
  | nil => rfl
  | cons q r ih => rw [List.flatMap_cons, List.length_append, ih, natBytes_length, List.length_cons, Nat.mul_succ, Nat.add_comm]
/-- A vector of numbers of `z` bytes reads back number by number. -/
theorem vecOfBytes_lane {z l : Nat} (whole : z * l = 64) (f : Nat → Nat) {q : Nat} (inside : q < l) :
    (BitVec.ofNat 512 (bytesNat ((List.range l).flatMap (fun q => natBytes (f q) z)) 0 64)).toNat / 2 ^ (8 * z * q) % 2 ^ (8 * z) =
      f q % 2 ^ (8 * z) := by
  have length : ((List.range l).flatMap (fun q => natBytes (f q) z)).length = 64 := by
    rw [length_flatMap_natBytes, List.length_range, whole]
  have fits : 8 * z * q + 8 * z ≤ 512 := by
    have := Nat.mul_le_mul_left z (Nat.succ_le_of_lt inside)
    rw [whole, Nat.mul_succ] at this
    rw [Nat.mul_assoc]
    omega
  have number := bytesNat_eq_leNat ((List.range l).flatMap (fun q => natBytes (f q) z))
  rw [length, leNat_flatMap_natBytes] at number
  rw [number, BitVec.toNat_ofNat, field_of_mod (n := 512) fits, packLanes_lane]
  simp [List.getD, inside]

/-! ## The cells of a bank (R62) -/

/-- The cells that a list from number `k` on stands for. -/
def bankFrom (k : Nat) (l : List Nat) : List (Nat × W80) :=
  ((l.zipIdx k).filter (fun c => c.1 != 0)).map (fun c => (c.2, BitVec.ofNat 80 c.1))
theorem bankOf_eq (l : List Nat) : bankOf l = bankFrom 0 l := rfl
theorem assoc_bankFrom_cons (k n x : Nat) (r : List Nat) : assoc (bankFrom k (x :: r)) n 0 =
    if x ≠ 0 ∧ k = n then BitVec.ofNat 80 x else assoc (bankFrom (k + 1) r) n 0 := by
  by_cases zero : x = 0
  · subst zero
    rfl
  · simp [bankFrom, zero, assoc]
/-- A cell is its number of the list, as 80 bits. -/
theorem assoc_bankFrom (k n : Nat) (l : List Nat) : assoc (bankFrom k l) n 0 = if n < k then 0 else BitVec.ofNat 80 (l.getD (n - k) 0) := by
  induction l generalizing k with
  | nil => exact (ite_self _).symm
  | cons x r ih =>
    rw [assoc_bankFrom_cons, ih]
    rcases Nat.lt_trichotomy n k with below | same | above
    · rw [if_neg (by omega), if_pos (by omega), if_pos below]
    · subst same
      rw [if_pos n.lt_succ_self, if_neg n.lt_irrefl, Nat.sub_self, List.getD_cons_zero]
      split
      · rfl
      · next zero =>
        obtain rfl : x = 0 := by simpa using zero
        rfl
    · rw [if_neg (by omega), if_neg (by omega), if_neg above.not_gt, show n - k = n - (k + 1) + 1 by omega, List.getD_cons_succ]
theorem assoc_bankOf (l : List Nat) (n : Nat) : assoc (bankOf l) n 0 = BitVec.ofNat 80 (l.getD n 0) := by
  rw [bankOf_eq, assoc_bankFrom, if_neg n.not_lt_zero, Nat.sub_zero]
theorem AccSet.cell_fresh {l : List Nat} {n v : Nat} (value : l[n]? = some v) (small : v < 2 ^ 80) : (AccSet.fresh (bankOf l)).cell n = v := by
  rw [AccSet.cell, AccSet.fresh, assoc_bankOf, List.getD_eq_getElem?_getD, value, Option.getD_some, BitVec.toNat_ofNat, Nat.mod_eq_of_lt small]
/-- A code of a format is below twice its sign bit. -/
theorem FP.code_lt {f : FP} (ieee : f.top = .ieee) (nan : f.nan < 2 * f.signBit) (v : FVal) : f.code v < 2 * f.signBit := by
  unfold FP.code
  cases v with
  | nan sig => exact nan
  | inf neg =>
    rw [FP.conv_inf ieee]
    exact f.signed_lt neg f.infCode_lt_signBit
  | fin neg m e => exact f.round_lt false .rne neg m e
/-- A loaded value as a cell (R331). -/
def loadedCell (f : AccFmt) (v : Nat) : Nat := if f = .w80 then v else fpW80.code (f.fp.val false v)
theorem loadedCell_lt {f : AccFmt} {v : Nat} (fits : v < 2 ^ (8 * f.size)) : loadedCell f v < 2 ^ 80 := by
  unfold loadedCell
  split
  · next w80 =>
    subst w80
    exact fits
  · exact FP.code_lt (f := fpW80) rfl (by decide) _
theorem loadedCells_succ (f : AccFmt) (n : Nat) (l : List Byte) :
    loadedCells f (n + 1) l = loadedCell f (leNat (l.take f.size)) :: loadedCells f n (l.drop f.size) := by
  by_cases w80 : f = .w80
  · subst w80
    rfl
  · rw [loadedCells, loadedCell, if_neg w80]
    exact w80
theorem loadedCells_eq (f : AccFmt) (as_ : List Nat) :
    loadedCells f as_.length (as_.flatMap (fun a => s.readBytes a f.size)) = as_.map (fun a => loadedCell f (s.readNat a f.size)) := by
  induction as_ with
  | nil => rfl
  | cons a r ih =>
    have length := s.readBytes_length a f.size
    rw [List.length_cons, loadedCells_succ, List.flatMap_cons, List.take_left' length, List.drop_left' length, s.leNat_readBytes, ih,
      List.map_cons]

/-! ## The checks of a bank's address (R330, R331) -/

/-- The unit of a bank's alignment. -/
theorem AccFmt.size_unit (f : AccFmt) : (if f.size = 10 then 2 else f.size) = if f = .w80 then 2 else f.size := by cases f <;> rfl
/-- Cells of a format narrower than W80 fill a vector register. -/
theorem AccFmt.size_whole {f : AccFmt} (float : f ≠ .w80) : f.size * (64 / f.size) = 64 := by
  revert float
  cases f <;> decide
theorem bankChecked_pass {r : AReg} {g : GReg} {z word len : Nat} (k : Nat → Nat → State → Out) (ptr : ptrOk (s.rdA r) = true)
    (short : (if g = 0 then 64 * z else (s.rdG g).toNat) < 2 ^ 32)
    (inside : rowsInside s.here (ptrAddr (s.rdA r)) (if g = 0 then 64 * z else (s.rdG g).toNat) z = true)
    (base : ptrAddr (s.rdA r) % (if z = 10 then 2 else z) = 0)
    (stride : (if g = 0 then 64 * z else (s.rdG g).toNat) % (if z = 10 then 2 else z) = 0) :
    bankChecked r g z word len s k = k (ptrAddr (s.rdA r)) (if g = 0 then 64 * z else (s.rdG g).toNat) s := by
  unfold bankChecked
  dsimp only
  rw [ptr, inside, base, stride, if_neg short.not_ge]
  rfl

/-! ## Another task on the tile: what accesses read stays -/

/-- The tile with another task, as the use of the matrix unit leaves it. -/
def State.withTask (s : State) (k : Option Task) : State := { s with tile := { s.tile with task := k } }
theorem State.useMatrix_withTask (s : State) : s.useMatrix = s.withTask s.useMatrix.tile.task := State.useMatrix_eq s
section
variable (k : Option Task)
theorem State.getTile_withTask (n : Nat) : (s.withTask k).getTile n = { s.getTile n with task := ((s.withTask k).getTile n).task } := by
  have here : (s.withTask k).here = s.here := rfl
  have tiles : (s.withTask k).tiles = s.tiles := rfl
  simp only [State.getTile, here, tiles]
  split <;> rfl
theorem State.teamOf_withTask (p : ProcId) : (s.withTask k).teamOf p = s.teamOf p := by
  have team (n : Nat) : ((s.withTask k).getTile n).team = (s.getTile n).team := by rw [State.getTile_withTask]
  have find (n : Nat) : (s.withTask k).findTeam n = s.findTeam n := rfl
  simp only [State.teamOf, team, find]
theorem State.mustWait_withTask (as_ : List Nat) (n : Nat) (ord : Ord) (sco : Scope) :
    (s.withTask k).mustWait as_ n ord sco = s.mustWait as_ n ord sco := by
  have regions (a : Nat) : (s.withTask k).region a = s.region a := rfl
  have classes (p : ProcId) (a : Nat) : (s.withTask k).classOf p a = s.classOf p a := rfl
  have cores (p : ProcId) : (s.withTask k).getCore p = s.getCore p := rfl
  have held (b : Nat) : (s.withTask k).heldBack s.cur b n ord sco = s.heldBack s.cur b n ord sco := by
    simp only [State.heldBack, State.holds, State.lateHolds, State.coversAt, State.coversSome, State.coversLoc, State.coversOf,
      State.teamOf_withTask, regions, classes, cores]
  change (as_.any (fun a => (s.withTask k).heldBack s.cur a n ord sco || _) || _) = _
  simp only [held]
  rfl
theorem State.readFault_withTask (p : ProcId) (a n : Nat) : (s.withTask k).readFault p a n = s.readFault p a n := by
  have team (n : Nat) : ((s.withTask k).getTile n).team = (s.getTile n).team := by rw [State.getTile_withTask]
  have tenant (n : Nat) : ((s.withTask k).getTile n).tenant = (s.getTile n).tenant := by rw [State.getTile_withTask]
  have fenced (n : Nat) : ((s.withTask k).getTile n).fenced = (s.getTile n).fenced := by rw [State.getTile_withTask]
  have regions (a : Nat) : (s.withTask k).region a = s.region a := rfl
  have owned (g : GranuleId) (tag : Nat) : (s.withTask k).owned g tag = s.owned g tag := rfl
  have lines (t : Team) : (s.withTask k).linesOf t a n = s.linesOf t a n := rfl
  have units (a n : Nat) : (s.withTask k).badUnits a n = s.badUnits a n := rfl
  have unready (a n : Nat) : (s.withTask k).unready a n = s.unready a n := rfl
  have fails (t : Team) : (s.withTask k).sealFails t a n = s.sealFails t a n := rfl
  have fabric : (s.withTask k).fabric = s.fabric := rfl
  have way : (s.withTask k).wayFault a = s.wayFault a := by simp only [State.wayFault, regions, fabric, fenced]
  have admits : (s.withTask k).admits p a = s.admits p a := by
    simp only [State.admits, State.admitsTag, State.target, State.tagOf, State.teamOf_withTask, regions, owned, team, tenant]
  have held : (s.withTask k).badHeld p a n = s.badHeld p a n := by
    simp only [State.badHeld, State.linesAt, State.teamOf_withTask, lines, units, unready]
  have tag : (s.withTask k).tagFails p a n = s.tagFails p a n := by simp only [State.tagFails, State.teamOf_withTask, fails]
  rw [State.readFault, State.readFault, way, admits, held, tag]
theorem State.firstFault_withTask (ps : List (Nat × Nat)) : (s.withTask k).firstFault ps = s.firstFault ps := by
  have cur : (s.withTask k).cur = s.cur := rfl
  induction ps with
  | nil => rfl
  | cons q r ih => simp only [State.firstFault, State.readFault_withTask, cur, ih]
theorem State.byteAt_withTask (a : Nat) : (s.withTask k).byteAt a = s.byteAt a := by
  have cur : (s.withTask k).cur = s.cur := rfl
  have regions (a : Nat) : (s.withTask k).region a = s.region a := rfl
  have cores (p : ProcId) : (s.withTask k).getCore p = s.getCore p := rfl
  have bytes (t : Team) : (s.withTask k).teamByte t a = s.teamByte t a := rfl
  have mem : (s.withTask k).mem = s.mem := rfl
  simp only [State.byteAt, State.byteFor, State.teamOf_withTask, cur, regions, cores, bytes, mem]
theorem State.readBytes_withTask (a n : Nat) : (s.withTask k).readBytes a n = s.readBytes a n :=
  List.map_congr_left fun i _ => State.byteAt_withTask k (a + i)
end

/-! ## The stores of a bank (R330) -/

section
variable {x : AccSet} {f : AccFmt} {rm : Rm} {base stride : Nat}
/-- The stores of some cells, in order. -/
def State.storeCells (s : State) (x : AccSet) (f : AccFmt) (rm : Rm) (base stride : Nat) (l : List Nat) : State :=
  l.foldl (fun s n =>
    (s.issueAccess (storeOf (cellAddr base stride f.size n) f.size (Machine.drained x f s.core.seed rm n n) .rlx .self)).countBytes s.cur 1
      (cellAddr base stride f.size n) f.size) s
theorem State.storeBank_eq : s.storeBank x f rm base stride = s.storeCells x f rm base stride (List.range 4096) := rfl
/-- One access for each cell, numbered in order; of the processor, the queue, its numbers and what comes behind the passes change. -/
theorem State.storeCells_issue (l : List Nat) : let t := s.storeCells x f rm base stride l
    ∃ accs, t.core = { s.core with pend := s.core.pend ++ accs, seq := s.core.seq + l.length, behind := t.core.behind } ∧
      accs.length = l.length ∧ t.eager = s.eager ∧
      ∀ k c, accs[k]? = some c → c.performed = false ∧ c.seq = s.core.seq + k ∧ ∃ n, l[k]? = some n ∧ c.addr = cellAddr base stride f.size n ∧
        c.pieces.flatten = cellsOf (cellAddr base stride f.size n) (Machine.drained x f s.core.seed rm n n) f.size := by
  induction l generalizing s with
  | nil => exact ⟨[], by simp [State.storeCells], rfl, rfl, fun k c h => by simp at h⟩
  | cons n r ih =>
    let a : Access := storeOf (cellAddr base stride f.size n) f.size (Machine.drained x f s.core.seed rm n n) .rlx .self
    let u := (s.issueAccess a).countBytes s.cur 1 (cellAddr base stride f.size n) f.size
    have counted : Recounted (s.issueAccess a) u := .countBytes _ _ _ _ _
    have core : u.core = { s.core with
        pend := s.core.pend ++ [{ a with pc := s.core.pc.toNat, seq := s.core.seq }], seq := s.core.seq + 1, behind := u.core.behind } := by
      rw [counted.core, State.issueAccess_scalar rfl]
    obtain ⟨accs, after, length, eager, each⟩ := ih (s := u)
    refine ⟨{ a with pc := s.core.pc.toNat, seq := s.core.seq } :: accs, ?_, by rw [List.length_cons, length, List.length_cons],
      eager.trans counted.eager, fun k c at_ => ?_⟩
    · have numbers : s.core.seq + 1 + r.length = s.core.seq + (n :: r).length := by rw [Nat.add_assoc, Nat.add_comm 1, List.length_cons]
      refine after.trans ?_
      rw [core]
      dsimp only
      rw [numbers, List.append_assoc]
      rfl
    · cases k with
      | zero =>
        obtain rfl := Option.some.inj at_
        exact ⟨rfl, rfl, n, rfl, rfl, storeOf_flatten _ _ _ .rlx .self⟩
      | succ k =>
        obtain ⟨open_, number, rest⟩ := each k c at_
        have seq : u.core.seq = s.core.seq + 1 := by rw [core]
        have seed : u.core.seed = s.core.seed := by rw [core]
        rw [seed] at rest
        exact ⟨open_, by rw [number, seq]; omega, rest⟩
end

end Sys2Proof.Machine
end

section
/-!
CERTIFICATE. Accumulators are zeroed, drained, loaded and read (R326–R331).
-/
namespace Sys2Proof.Machine
open Sys2Proof

variable {s : State}

/-! ## MZERO, MVERD and MSTAT (R326–R328) -/

theorem execMzero_eq {x : OpMzero} (pass : s.guard x.q = true) :
    execMzero x s = .next (((s.setAcc x.c (AccSet.fresh (zeroCells x.val))).useMatrix).done 8) := guarded_pass _ pass
theorem verdictWord_eq (v : Option Verdict) : verdictWord v = match v with
    | none => 3
    | some v => v.cancw * 2 ^ 32 + v.cancn * 2 ^ 19 + (if v.srcnan then 2 ^ 4 else 0) + (if v.brw then 2 ^ 3 else 0)
        + (if v.brn then 2 ^ 2 else 0) + v.fmt := by
  have scaled (b : Bool) (n : Nat) : bit b * n = if b then n else 0 := by rw [bit, ite_mul, Nat.one_mul, Nat.zero_mul]
  cases v with
  | none => rfl
  | some v => simp only [verdictWord, scaled]
theorem execMverd_eq {x : OpMverd} (pass : s.guard x.q = true) :
    execMverd x s = .next (((s.wrG x.d (wNat (verdictWord (s.tile.accSet x.c).verdict))).useMatrix).done 8) := guarded_pass _ pass
theorem execMstat_reads {x : OpMstat} (pass : s.guard x.q = true) {k : Nat} (sel : x.sel.toNat = k) {n : Nat}
    (item : (s.tile.accSet x.c).stat k = n) : execMstat x s = .next (((s.wrG x.d (BitVec.ofNat 64 n)).useMatrix).done 8) := by
  rw [execMstat, guarded_pass _ pass, sel, item]
  rfl

/-! ## MDRAIN (R330) -/

/-- Cell n as MDRAIN gives it. -/
theorem drained_eq (x : AccSet) (f : AccFmt) (seed : Word) (rm : Rm) (n k : Nat) : drained x f seed rm n k =
    if f = .w80 then x.cell n else (f.fp.conv false (roundingOf seed rm k) (fpW80.val false (x.cell n))).1 := by cases f <;> rfl
/-- The rounding mode of a drain: W80 bytes are stored as they stand. -/
def State.drainRm (s : State) (x : OpMdrain) : Rm := if x.fov = .w80 then .rne else resolveRm s.core.fpctl x.rm
section
variable {x : OpMdrain} (pass : s.guard x.q = true)
include pass
theorem execMdrain_vec (free : s.noStreams = true) {vd : VReg} {row : BitVec 6} {part : BitVec 3} (mode : x.mode = .vec vd row part) :
    execMdrain x s = .next ((((s.wrV vd (BitVec.ofNat 512 (bytesNat ((List.range (64 / x.fov.size)).flatMap (fun q => natBytes
      (drained (s.tile.accSet x.c) x.fov s.core.seed (s.drainRm x) (row.toNat * 64 + part.toNat * (64 / x.fov.size) + q) q) x.fov.size))
      0 64))).drew (s.drainRm x) (64 / x.fov.size)).useMatrix).done 16) := by
  rw [execMdrain, guarded_pass _ pass, mode]
  simp only [boundSlot_of_noStreams free]
  rfl
section
variable {dst : AReg} {str : GReg} (mode : x.mode = .mem dst str) (lazy : s.eager = false) (ptr : ptrOk (s.rdA dst) = true)
  (short : (if str = 0 then 64 * x.fov.size else (s.rdG str).toNat) < 2 ^ 32)
  (inside : rowsInside s.here (ptrAddr (s.rdA dst)) (if str = 0 then 64 * x.fov.size else (s.rdG str).toNat) x.fov.size = true)
  (base : ptrAddr (s.rdA dst) % (if x.fov = .w80 then 2 else x.fov.size) = 0)
  (stride : (if str = 0 then 64 * x.fov.size else (s.rdG str).toNat) % (if x.fov = .w80 then 2 else x.fov.size) = 0)
include mode lazy ptr short inside base stride
/-- Its stores have not all performed: it waits, with the stores in the queue. -/
theorem execMdrain_waits (first : s.core.wait = none) {t : State}
    (sent : t = s.storeBank (s.tile.accSet x.c) x.fov (s.drainRm x) (ptrAddr (s.rdA dst)) (if str = 0 then 64 * x.fov.size else (s.rdG str).toNat))
    (same : t.eager = s.eager) (open_ : t.core.bankStored = false) : execMdrain x s = .next (t.useMatrix.waits .mdrain 0) := by
  rw [← AccFmt.size_unit] at base stride
  have settled : t.settled = t := by rw [State.settled, same, lazy]; rfl
  rw [execMdrain, guarded_pass _ pass, mode]
  dsimp only
  rw [bankChecked_pass _ ptr short inside base stride]
  simp only [first, Bool.false_eq_true, if_false]
  rw [show (if x.fov = .w80 then Rm.rne else resolveRm s.core.fpctl x.rm) = s.drainRm x from rfl, ← sent, settled, open_, stay_eq]
  rfl
/-- Its stores have performed: it completes, and the stream goes on past its draws. -/
theorem execMdrain_completes {w : Wait} (sent : s.core.wait = some w) (kind : w.kind = .mdrain) (stored : s.core.bankStored = true) :
    execMdrain x s = .next (((s.drew (s.drainRm x) 4096).useMatrix).done 16) := by
  rw [← AccFmt.size_unit] at base stride
  have settled : s.settled = s := by rw [State.settled, lazy]; rfl
  rw [execMdrain, guarded_pass _ pass, mode]
  dsimp only
  rw [bankChecked_pass _ ptr short inside base stride]
  simp only [sent, kind, beq_self_eq_true, if_true, settled, stored, matrixDone_eq]
  rfl
/-- The first issue of a drain to memory: one store for each cell, and the wait for them. -/
theorem execMdrain_issues (first : s.core.wait = none) : ∃ t accs, execMdrain x s = .next t ∧ t.mem = s.mem ∧ t.core.pc = s.core.pc ∧
    t.core.pend = s.core.pend ++ accs ∧ accs.length = 4096 ∧ t.core.wait.map Wait.kind = some .mdrain ∧
    ∀ n c, accs[n]? = some c →
      c.addr = cellAddr (ptrAddr (s.rdA dst)) (if str = 0 then 64 * x.fov.size else (s.rdG str).toNat) x.fov.size n ∧
      c.pieces.flatten = cellsOf (cellAddr (ptrAddr (s.rdA dst)) (if str = 0 then 64 * x.fov.size else (s.rdG str).toNat) x.fov.size n)
        (drained (s.tile.accSet x.c) x.fov s.core.seed (s.drainRm x) n n) x.fov.size := by
  obtain ⟨accs, core, length, same, each⟩ := State.storeCells_issue (s := s) (x := s.tile.accSet x.c) (f := x.fov) (rm := s.drainRm x)
    (base := ptrAddr (s.rdA dst)) (stride := if str = 0 then 64 * x.fov.size else (s.rdG str).toNat) (List.range 4096)
  rw [← State.storeBank_eq] at core same
  rw [List.length_range] at core length
  have open_ : (s.storeBank (s.tile.accSet x.c) x.fov (s.drainRm x) (ptrAddr (s.rdA dst))
      (if str = 0 then 64 * x.fov.size else (s.rdG str).toNat)).core.bankStored = false := by
    obtain ⟨c, last⟩ : ∃ c, accs[4095]? = some c := ⟨_, List.getElem?_eq_getElem (by rw [length]; decide)⟩
    obtain ⟨waits, number, -⟩ := each _ c last
    rw [core, Core.bankStored, List.all_eq_false]
    refine ⟨c, List.mem_append_right _ (List.mem_of_getElem? last), ?_⟩
    rw [waits, number, Bool.false_or, decide_eq_true_iff]
    dsimp only
    omega
  have none : (s.storeBank (s.tile.accSet x.c) x.fov (s.drainRm x) (ptrAddr (s.rdA dst))
      (if str = 0 then 64 * x.fov.size else (s.rdG str).toNat)).useMatrix.core.wait = none := by
    rw [State.useMatrix_core, core]
    exact first
  refine ⟨_, accs, execMdrain_waits pass mode lazy ptr short inside base stride first rfl same open_, ?_⟩
  rw [State.waits, none]
  dsimp only
  rw [State.useMatrix_mem, State.storeBank_mem, State.useMatrix_core, core]
  refine ⟨rfl, rfl, rfl, length, rfl, fun n c at_ => ?_⟩
  obtain ⟨-, -, i, position, addr, cells⟩ := each n c at_
  obtain rfl : i = n := by
    have := List.getElem?_range (i := n) (n := 4096) (by rw [← length]; exact (List.getElem?_eq_some_iff.1 at_).1)
    rw [this] at position
    exact (Option.some.inj position).symm
  exact ⟨addr, cells⟩
end
end

/-! ## MLOAD (R331) -/

/-- Binding the task does not change how accesses read. -/
theorem State.readsNow_useMatrix {as_ : List Nat} {n : Nat} {ord : Ord} {sco : Scope} (now : s.readsNow as_ n ord sco) :
    s.useMatrix.readsNow as_ n ord sco := by
  obtain ⟨eager, free, sound⟩ := now
  rw [State.useMatrix_eq]
  exact ⟨eager, (State.mustWait_withTask _ _ _ _ _).trans free, (State.firstFault_withTask _ _).trans sound⟩

theorem State.readBytes_useMatrix (a n : Nat) : s.useMatrix.readBytes a n = s.readBytes a n := by
  rw [State.useMatrix_withTask, State.readBytes_withTask]
/-- The addresses of a bank's cells. -/
def bankAddrs (base stride z : Nat) : List Nat := (List.range 4096).map (cellAddr base stride z)
/-- The cells of a bank in memory, as a set holds them. -/
def State.bankCells (s : State) (f : AccFmt) (base stride : Nat) : List Nat :=
  (bankAddrs base stride f.size).map (fun a => loadedCell f (s.readNat a f.size))
theorem State.bankCells_get {f : AccFmt} {base stride n : Nat} (cell : n < 4096) :
    (s.bankCells f base stride)[n]? = some (loadedCell f (s.readNat (cellAddr base stride f.size n) f.size)) := by
  rw [State.bankCells, bankAddrs, List.getElem?_map, List.getElem?_map, List.getElem?_range cell]
  rfl
/-- The state in which a bank's bytes have been read. -/
def State.bankRead (s : State) (z base stride : Nat) : State :=
  (s.useMatrix.atIssue .load (fun t => t.countReads z (bankAddrs base stride z))).spendAll (bankAddrs base stride z)
theorem State.bankRead_mem (z base stride : Nat) : (s.bankRead z base stride).mem = s.mem := by
  have counted : Recounted s.useMatrix (s.useMatrix.atIssue .load (fun t => t.countReads z (bankAddrs base stride z))) :=
    .atIssue _ _ fun t => .countReads t _ _
  rw [State.bankRead, spendAll_eq]
  exact counted.mem.trans State.useMatrix_mem
theorem execMload_loads {x : OpMload} (pass : s.guard x.q = true) (ptr : ptrOk (s.rdA x.src) = true)
    (short : (if x.str = 0 then 64 * x.fov.size else (s.rdG x.str).toNat) < 2 ^ 32)
    (inside : rowsInside s.here (ptrAddr (s.rdA x.src)) (if x.str = 0 then 64 * x.fov.size else (s.rdG x.str).toNat) x.fov.size = true)
    (base : ptrAddr (s.rdA x.src) % (if x.fov = .w80 then 2 else x.fov.size) = 0)
    (stride : (if x.str = 0 then 64 * x.fov.size else (s.rdG x.str).toNat) % (if x.fov = .w80 then 2 else x.fov.size) = 0)
    (now : s.readsNow (bankAddrs (ptrAddr (s.rdA x.src)) (if x.str = 0 then 64 * x.fov.size else (s.rdG x.str).toNat) x.fov.size) x.fov.size
      .rlx .self) : execMload x s =
      .next ((((s.bankRead x.fov.size (ptrAddr (s.rdA x.src)) (if x.str = 0 then 64 * x.fov.size else (s.rdG x.str).toNat)).setAcc x.c
        (AccSet.fresh (bankOf (s.bankCells x.fov (ptrAddr (s.rdA x.src)) (if x.str = 0 then 64 * x.fov.size else (s.rdG x.str).toNat))))).useMatrix).done
        8) := by
  rw [← AccFmt.size_unit] at base stride
  have cells := loadedCells_eq (s := s) x.fov
    (bankAddrs (ptrAddr (s.rdA x.src)) (if x.str = 0 then 64 * x.fov.size else (s.rdG x.str).toNat) x.fov.size)
  rw [bankAddrs, List.length_map, List.length_range, ← bankAddrs] at cells
  rw [execMload, guarded_pass _ pass, bankChecked_pass _ ptr short inside base stride]
  refine (reading_now (State.readsNow_useMatrix now)).trans ?_
  simp only [State.readBytes_useMatrix]
  rw [cells]
  rfl

/-- Settles O47: MDRAIN and MLOAD cell by cell, by the stores that a bank issues and the bytes that it reads. -/
theorem accumulatorMoves : Obligations.AccumulatorMoves := by
  unfold Obligations.AccumulatorMoves
  refine ⟨?zero, ?verdict, ?stat, ?drain, ?drained, ?load⟩
  case zero => exact fun x s pass => execMzero_eq pass
  case verdict =>
    intro x s pass
    exact (execMverd_eq pass).trans
      (congrArg (fun n => Host.Outcome.next (((s.wrG x.d (wNat n)).useMatrix).done 8)) (verdictWord_eq (s.tile.accSet x.c).verdict))
  case stat =>
    intro x s pass a reads
    have item {k n : Nat} (sel : x.sel.toNat = k) (value : a.stat k = n) : reads n := execMstat_reads pass sel value
    refine ⟨fun sel => item (congrArg _ sel) ?_, fun sel => item (congrArg _ sel) ?_, fun sel => item (congrArg _ sel) ?_⟩
    · cases verdict : a.verdict <;> simp [AccSet.stat, verdict]
    · cases verdict : a.verdict <;> simp [AccSet.stat, verdict]
    · cases verdict : a.verdict <;> simp [AccSet.stat, verdict]
  case drain =>
    intro x s pass free a z rm value
    have given (n k : Nat) : Machine.drained a x.fov s.core.seed rm n k = value n k := drained_eq _ _ _ _ _ _
    refine ⟨fun vd row part mode float => ?_, fun dst str mode lazy first ptr short inside aligned even => ?_⟩
    · refine ⟨_, execMdrain_vec pass free mode, fun q lane => ?_⟩
      rw [vecOfBytes_lane (AccFmt.size_whole float) _ lane]
      exact congrArg (· % 2 ^ (8 * z)) (given _ _)
    · obtain ⟨t, accs, e, mem, pc, pend, length, wait, each⟩ := execMdrain_issues pass mode lazy ptr short inside aligned even first
      refine ⟨t, accs, e, mem, pc, pend, length, wait, fun n c at_ => ?_⟩
      obtain ⟨addr, cells⟩ := each n c at_
      exact ⟨addr, by rw [← given]; exact cells⟩
  case drained =>
    intro x s dst str w pass mode sent kind lazy stored stride u ptr short inside aligned even
    exact execMdrain_completes pass mode lazy ptr short inside aligned even sent kind stored
  case load =>
    intro x s pass base z stride u as_ ptr short inside aligned even now
    have addrs : as_ = bankAddrs base stride z := rfl
    rw [addrs] at now
    refine ⟨_, execMload_loads pass ptr short inside aligned even now, ?_, ?_, fun n cell => ?_⟩
    · rw [State.used_done_mem, State.setAcc_mem]
      exact State.bankRead_mem z base stride
    · rw [State.used_done_accSet, State.accSet_setAcc_same]
      rfl
    · rw [State.used_done_accSet, State.accSet_setAcc_same, AccSet.cell_fresh (State.bankCells_get cell) (loadedCell_lt (State.readNat_lt _ _ _))]
      rfl

end Sys2Proof.Machine
end
